-- ==== Sys2Proof/Word.lean ====
section
/-! DEFINITION. The words the device's interfaces carry, by width. Counts, ticks and identifiers are natural
numbers; these types are for what the manual treats as bits. -/
namespace Sys2Proof

/-- One byte. -/
abbrev Byte := BitVec 8
/-- A register, 32 bits wide (00_scope, Registers). -/
abbrev Word := BitVec 32
/-- The content of one slot in one tick, 12 bits (R1). -/
abbrev SlotWord := BitVec 12
/-- A 64-bit word of a counter, a completion or a message. -/
abbrev Word64 := BitVec 64
/-- A SHA-384 digest. -/
abbrev Digest := BitVec 384

/-- The lane AIS word 0xFFF (R124). -/
def aisWord : SlotWord := 0xFFF

end Sys2Proof
end

