-- ==== Sys2Proof/Syntax.lean ====
section
/-! DEFINITION. The commands of the block: one constructor of `Instr` per row of spec/opcode_table.json, in the
table's order, with the data the outside world gives it. Rows that carry out an accepted host command take the journal
handle of the command; its fields are read from the journaled descriptor. -/
namespace Sys2Proof

/-- Causes of I2C byte 0x02 that begin and end by themselves (R665). -/
inductive AlertCause where
  | overTemp | supply | oscLost | hbmHot
deriving DecidableEq, Repr

/-- Instructions of the TAP (R492). -/
inductive TapInstr where
  | bypass | idcode | samplePreload | extest | extestPulse | extestTrain | scan | coreDebug | caveDiag
deriving DecidableEq, Repr

/-- The verdicts of the four signatures over a firmware manifest under the keys of R471: the signature algorithms are
external standards (log 4). -/
structure FwSigs where
  vendorEc : Bool
  vendorLms : Bool
  ownerEc : Bool
  ownerLms : Bool
deriving DecidableEq, Repr

/-- A firmware image in a flash slot: manifest, signatures and body as bytes (R479), with the verdicts of its
signatures. -/
structure FwImage where
  bytes : List Byte
  sigs : FwSigs
deriving DecidableEq, Repr

/-- A directory copy of the flash (R623); `valid` says that its MAGIC, VERSION and CRC hold. -/
structure FlashDir where
  valid : Bool
  preferB : Bool
  gen : Nat
deriving DecidableEq, Repr

/-- A lifecycle token in flash with the verdicts of its signatures (R468). -/
structure LcToken where
  magic : Word
  target : Nat
  slot : Nat
  deviceId : Digest
  ownerSig : Bool
  vendorSig : Bool
deriving DecidableEq, Repr

/-- What the QSPI flash holds (R622). An image slot of `none` reads with an error or holds no image. -/
structure Flash where
  dir0 : FlashDir
  dir1 : FlashDir
  netRecord : List Byte
  dcert : List Byte
  token : Option LcToken
  slotA : Option FwImage
  slotB : Option FwImage
deriving DecidableEq, Repr

/-- What one selection period measured (R308, R596): the frequencies, in units of 10^-10 Hz, of the sources whose edges arrive,
the loop's errors, the phase in ps of the reference that would be newly selected, and the six domain powers in mW. -/
structure PeriodIn where
  freqs : List (Nat × Nat)
  loopOk : Bool
  loopWord : Int
  newPhase : Int
  dom : List Nat
deriving DecidableEq, Repr

/-- A source without an edge, and the tick of its last one (R307). -/
structure LastEdge where
  src : Fin 38
  at_ : Nat
deriving DecidableEq, Repr

/-- A received Odvin frame: its position on the line, the 128 header bits as received, the lane
overhead channel (first transmitted bit is the most significant), the 2,048 cells, the received BIP-16, corrected
symbols, uncorrectable codewords, sync headers, and the arrival offset in ps from the nearest tick edge. Where `line` gives the
symbols or bits at the pins, the frame is decoded from them (`pre` is the 58 bits before them, R56); else it is as decoded. -/
structure RxFrame where
  pos : Nat
  hdr : BitVec 128
  ovh : BitVec 512
  cells : List SlotWord
  bip : BitVec 16
  corr : Nat
  uncorr : BitVec 5
  sync : List Bool
  arr : Int
  line : List Nat := []
  pre : BitVec 58 := 0
deriving DecidableEq, Repr

/-- A received Wheel multiframe: the tick in which its Wheel tick 0 enters the Harp, its 64 x k words in order of Wheel tick and
member, and whether a member cell came from a bad frame (R160). A word that a held frame carries is the frame's. -/
structure RxMf where
  t0 : Nat
  words : List SlotWord
  badCell : Bool
deriving DecidableEq, Repr

/-- A received Calrin frame: decoded (R378), at a symbol position of the line, or as its 6,800 levels at the pins. -/
structure CalFrame where
  hdr : BitVec 128
  ovh : BitVec 512
  share : List Byte
  crcOk : Bool
  pos : Nat := 0
  line : List Nat := []
deriving DecidableEq, Repr

/-- Link of a fabric or peer message: a lane group, or Calrin. -/
inductive Link where
  | group (g : Fin 32)
  | calrin
deriving DecidableEq, Repr

/-- The clear part of a fabric message (R348) and the tag it carries; the body stands in the command that uses it. -/
structure FabHdr where
  link : Link
  lane : Nat
  seq : BitVec 24
  fromMate : Bool
  origin : Word
  dest : Word
  serial : Nat
  tag : BitVec 128
deriving DecidableEq, Repr

/-- A command descriptor of 128 bytes (R430): the body's 96 bytes as one little-endian number. -/
structure Desc where
  opcode : Nat
  flags : Byte
  ring : Nat
  serial : Nat
  body : BitVec 768
  tag : BitVec 128
deriving DecidableEq, Repr

/-- A completion entry of 32 bytes less its PHASE (R432). -/
structure CmpEntry where
  serial : Nat
  opcode : Nat
  status : Nat
  remote : Bool
  ring : Nat
  device : Word
  tick : Nat
  result : Word64
deriving DecidableEq, Repr

/-- An event entry of 32 bytes less PHASE and ESEQ (R434). -/
structure EvtEntry where
  code : Nat
  loop : Bool
  remote : Bool
  object : Nat
  tn : Nat
  value : Word64
  device : Word
deriving DecidableEq, Repr

/-- The MACsec part of a received frame (R415). -/
structure SecTag where
  an : BitVec 2
  pn : Nat
  icvOk : Bool
deriving DecidableEq, Repr

/-- A RoCEv2 operation of a received frame, as far as the responder acts on it (R419). -/
inductive Roce where
  | write (qp : Fin 16) (rkey : Word) (addr : Nat) (data : List Byte)
  | read (qp : Fin 16) (rkey : Word) (addr len : Nat)
  | ack (qp : Fin 16)
  | unsupported
deriving DecidableEq, Repr

/-- An Ethernet frame received on a management port (R413 to R415). -/
structure EthFrame where
  len : Nat
  fcsOk : Bool
  vlan : Bool
  pause : Bool
  dst : BitVec 48
  sec : Option SecTag
  op : Roce
deriving DecidableEq, Repr

/-- Messages of the peer keying exchange (R489, R490) with the verdicts of the peer's certificates and quote. -/
inductive PeerMsg where
  | hello (nonce : BitVec 256) (eph : BitVec 768)
  | quote (dcertOk bcertOk quoteOk : Bool) (deviceId : Digest) (lc : Nat) (ownerDigest fw : Digest) (nonce : BitVec 256)
deriving DecidableEq, Repr

/-- An access of a Rack master (R540) of at most 16 bytes at a byte address of the target; `stall` and `whisk` are the Rack cycles it lost to other masters and to Whisk at a Pantry bank (R546, R548). -/
structure RackReq where
  master : Nat
  target : Nat
  write : Bool
  addr : Nat
  data : List Byte
  stall : Nat
  whisk : Nat
deriving DecidableEq, Repr

/-- The batch of a command as the ring engine read it (R431): its bytes, and for the opcodes whose batch holds signed
matter the verdicts of the signatures, of a KEY_AGREE request and of the staged image (log 4). -/
structure Batch where
  bytes : List Byte
  ecOk : Bool
  lmsOk : Bool
  sigs : FwSigs
deriving DecidableEq, Repr

/-- The commands of the device, one per row of the opcode table. -/
inductive Instr where
  | coldPowerUp (orderErr : Bool)
  | resetNRise (flash : Option Flash) (pwrGood a0 : Bool) (fused : Option (BitVec 64 × Bool))
  | resetNFall (ns : Nat)
  | pwrGoodFall
  | glbRstCtrlWarm (qp : Fin 16)
  | alertCauseChange (cause : AlertCause) (on : Bool) (rails tDie tHbm : Byte)
  | i2cAccess (addr : BitVec 7) (wr : List Byte) (rd : Nat)
  | jtagInstruction (instr : TapInstr)
  | mailboxBlockReset (qp : Fin 16)
  | mgmtPortBlockReset (qp : Fin 16) (port : Fin 2)
  | dumpEngineReset (qp : Fin 16)
  | whiskBlockReset (qp : Fin 16)
  | calrinBlockReset (qp : Fin 16)
  | laneGroupReset (qp : Fin 16) (g : Fin 32)
  | watchdogExpiry (core : Fin 4)
  | controlRestartStart
  | controlRestartEnd (formatOk : Bool)
  | tickFault (unit : Fin 8)
  | tnLoad (qp : Fin 16)
  | loRegisterRead (qp : Fin 16) (addr : Nat)
  | ppsInEdge
  | todMessage (bytes : List Byte)
  | todOutSend
  | secondBoundary
  | selectionPeriodBoundary (m : PeriodIn)
  /-- the tick of the source's last edge (R307) -/
  | sourceActivityLoss (last : LastEdge)
  | sourceQualified (src : Fin 38)
  | referenceWtrExpiry (entry : Fin 16)
  | starterLock
  | acqTmoExpiry
  | loopBandwidthStep
  | transitionEnd
  | holdoverLimitExpiry
  | phaseStepApply
  | phaseStepEnd
  | refConfigApply
  | refForceApply
  | boardTableLoad (qp : Fin 16)
  | boardTableVerifyDone (ecOk lmsOk : Bool)
  | laneDirectionSettled (lane : Fin 256) (rx : Bool)
  | frameReceived (lane : Fin 256) (f : RxFrame)
  | overheadPacket (lane : Fin 256)
  | capabilityWord (lane : Fin 256) (w : BitVec 64)
  | ladderTAlignExpiry (g : Fin 32)
  | ladderTNegExpiry (g : Fin 32)
  | stepSwitch (g : Fin 32) (far : Bool)
  | ladderTVerifyExpiry (g : Fin 32)
  | laneDrop (lane : Fin 256)
  | laneWakeVerifyExpiry (lane : Fin 256)
  | laneLoopApply (lane : Fin 256)
  | loopGrantRelease (lane : Fin 256)
  | eyeScanEnd (lane : Fin 256) (points : List Nat) (vstep : BitVec 16)
  | laneDefectDeclare (lane : Fin 256) (d : Fin 4) (held : Nat)
  | laneDefectClear (lane : Fin 256) (d : Fin 4) (held : Nat)
  | laneFail (lane : Fin 256) (d : Fin 4)
  | laneClear (lane : Fin 256) (d : Fin 4)
  | groupTimingWrite (qp : Fin 16) (g : Fin 32) (foreign : Bool)
  | wheelOverhead (w : Fin 65536) (mf : RxMf)
  | wheelDefectDeclare (w : Fin 65536) (d : Fin 6)
  | wheelDefectClear (w : Fin 65536) (d : Fin 6)
  | retimerDecide (w : Fin 65536)
  | retimerCountDeadline (w : Fin 65536)
  | mapWriteExecute
  | deferredEntryPlace (slot : Fin 524288)
  | mapCheck
  | flipFreeze
  | flipCommit
  | resyncEnd
  | flipSeqFire (h : Nat)
  | flipSeqExpire (h : Nat)
  | flipSeqDiff (h : Nat)
  | fabricFlipReadyTimeout (h : Nat) (worker : Word)
  | fabricFlipResultTimeout (h : Nat)
  | pairLock (p : Fin 32768)
  | colanderPlayout (p : Fin 32768)
  | selectorEvaluate (p : Fin 32768)
  | pairCmdApply (p : Fin 32768)
  | pairWtrExpiry (p : Fin 32768)
  | caveBurstComplete (pc : Fin 192) (uncorr : Bool)
  | caveRequestAbandon (pc : Fin 192)
  | cavArbFreezeWrite (qp : Fin 16) (v : Word)
  | stackMoveEnd (p : Fin 32768)
  | caveStackFault (st : Fin 6) (training : Bool)
  | calrinFrame (lane : Fin 4) (f : CalFrame)
  | ladleRecordApply
  | silenceTakeover
  | ackStall
  | heartbeatChange (changes : BitVec 8)
  | heartbeatSilence
  | settleDetachedExpiry
  | reclaimSettleExpiry
  | yieldComplete
  | calMateCtrlSwap (qp : Fin 16)
  | syncComplete
  | takeoverHoldEnd
  | tnAnnounce (hd : FabHdr) (tn : Nat) (arrPs : Int)
  | delayReq (hd : FabHdr) (t2Tick t2Ps : Nat)
  | delayResp (hd : FabHdr) (reqSerial t2Tick t2Ps t3Tick t4Tick t4Ps : Nat)
  | delaySampleTimeout (link : Link)
  | flipPropose (hd : FabHdr) (flipId : Word) (f : Nat)
  | flipReady (hd : FabHdr) (flipId : Word) (status reason : Nat)
  | fabFlipCancel (hd : FabHdr) (flipId failId : Word)
  | flipResult (hd : FabHdr) (flipId : Word) (committed : Bool)
  | fabCmd (hd : FabHdr) (mserial principal : Nat) (d : Desc) (sigs : FwSigs)
  | fabResult (hd : FabHdr) (mserial : Nat) (c : CmpEntry)
  | fabEvent (hd : FabHdr) (principal : Nat) (e : EvtEntry)
  | fabDump (hd : FabHdr) (principal latchTn offset : Nat) (data : List Byte)
  | fabMbx (hd : FabHdr) (channel : Fin 64) (flags : Byte) (msg : List Byte)
  | cmdData (hd : FabHdr) (mserial offset : Nat) (data : List Byte)
  | outData (hd : FabHdr) (mserial offset : Nat) (data : List Byte)
  | fabStatus (hd : FabHdr) (tn st : Nat) (defects : BitVec 56)
  | peerKeyingMessage (hd : FabHdr) (m : PeerMsg)
  | peerKeyingRetry (link : Link)
  | fabCmdRetry (h : Nat)
  | fabWorkerLost (worker : Word)
  | fabCmdAbandon (h : Nat)
  | mgmtFrameReceived (port : Fin 2) (f : EthFrame)
  | mgmtLinkChange (port : Fin 2) (up : Bool)
  | saTxSwitch (port : Fin 2)
  | kick (qp : Fin 16) (rkey : Word) (addr len : Nat)
  | doorbellPoll (r : Fin 16)
  | doorbellReadDone (r : Fin 16) (cmdProd cmpCons evtCons : Nat)
  | descriptorFetchDone (r : Fin 16) (ds : List Desc)
  | batchReadDone (r : Fin 16) (b : Batch)
  | descriptorTake
  | completionPost (r : Fin 16)
  | rdmaWriteAck (qp : Fin 16)
  | qpAckTimeout (qp : Fin 16)
  | rdmaReadRequest (qp : Fin 16) (rkey : Word) (addr len : Nat)
  | registerWrite (qp : Fin 16) (rkey : Word) (addr : Nat) (data : List Byte)
  | nop (h : Nat)
  | mapWrite (h : Nat)
  | mapRead (h : Nat)
  | wheelDefine (h : Nat)
  | wheelDelete (h : Nat)
  | flipAt (h : Nat)
  | flipSeq (h : Nat)
  | flipCancel (h : Nat)
  | pairSet (h : Nat)
  | pairCmd (h : Nat)
  | laneState (h : Nat)
  | laneLoop (h : Nat)
  | eyeScan (h : Nat)
  | refConfig (h : Nat)
  | refForce (h : Nat)
  | phaseStep (h : Nat)
  | counterRead (h : Nat)
  | counterPreset (h : Nat)
  | counterPresetApply
  | dumpConfig (h : Nat)
  | dumpConfigApply
  | dumpImageStart (principal : Fin 65)
  | partitionSet (h : Nat)
  | ringBind (h : Nat)
  | keyAgree (h : Nat)
  | fwStage (h : Nat)
  | fwActivate (h : Nat)
  | attestQuote (h : Nat)
  | ephemeralKeyReady
  | mbxPost (h : Nat)
  | budgetSet (h : Nat)
  | sealSetup (h : Nat)
  | controlRestart (h : Nat)
  | pantryOwnerWrite (master : Nat) (bank : Fin 64) (newOwner : Nat)
  | pantryAtomic (master : Nat) (bank : Fin 64) (off : Nat) (swap : Bool) (v : Word64) (stall whisk : Nat)
  | rackAccess (a : RackReq)
  | whiskRegionStart (m : Fin 9)
  | whiskRegionEnd (m : Fin 9) (failed : Bool)
  | mbxCtrlPost (master : Nat) (c : Fin 64)
  | mbxCtrlAck (master : Nat) (c : Fin 64)
  | mbxCtrlWait (master : Nat) (c : Fin 64)
  | mbxCtrlWithdraw (master : Nat) (c : Fin 64)
  | mbxTimeout (c : Fin 64)
  | mbxRemoteRetry (c : Fin 64)
  | slotProcessing
  | ladleRecordSeal
  | pwrGoodRise
  | completionRingReadDone (r : Fin 16) (slots : List (Nat × CmpEntry))
  | mateRingKey (hd : FabHdr) (ring : Fin 16) (key : BitVec 256)
  | mateKeyAgreeRequest (hd : FabHdr) (req : List Byte) (ecOk lmsOk : Bool)
  | mateKeyAgreeResponse (hd : FabHdr) (serial : Nat) (resp : List Byte)
  | mateDump (hd : FabHdr) (principal latchTn offset : Nat) (data : List Byte)
deriving DecidableEq, Repr

end Sys2Proof
end

