-- ==== Sys2Proof/Machine/Tab.lean ====
section
/-! DEFINITION. Sparse tables: a list of (index, value) pairs in one canonical form, indices strictly rising and no
value equal to what an unlisted index reads as, so that equal tables are equal data. Every array of the device (map
pages, stage tables, per-lane, per-Wheel and per-pair state, counters, memories) is held this way. -/
namespace Sys2Proof.Machine

/-- A sparse table of values. -/
abbrev Tab (α : Type) := List (Nat × α)

/-- The value at index `i`; an unlisted index reads `d`. -/
def Tab.look {α : Type} (d : α) : Tab α → Nat → α
  | [], _ => d
  | (k, v) :: t, i => if k = i then v else Tab.look d t i

/-- List index `i` with value `v`, keeping the indices rising. -/
def Tab.ins {α : Type} : Tab α → Nat → α → Tab α
  | [], i, v => [(i, v)]
  | (k, w) :: t, i, v =>
    if i < k then (i, v) :: (k, w) :: t
    else if i = k then (i, v) :: t
    else (k, w) :: Tab.ins t i v

/-- Take index `i` out of the list. -/
def Tab.del {α : Type} (t : Tab α) (i : Nat) : Tab α := t.filter (fun p => p.1 ≠ i)

/-- Write `v` at index `i`; writing what an unlisted index reads takes the entry out. -/
def Tab.put {α : Type} [DecidableEq α] (d : α) (t : Tab α) (i : Nat) (v : α) : Tab α :=
  if v = d then Tab.del t i else Tab.ins t i v

/-- Change the value at index `i` by `f`. -/
def Tab.upd {α : Type} [DecidableEq α] (d : α) (t : Tab α) (i : Nat) (f : α → α) : Tab α :=
  Tab.put d t i (f (Tab.look d t i))

/-- The canonical form of a table whose unlisted values depend on the index. -/
abbrev Tab.wfOn {α : Type} (d : Nat → α) (t : Tab α) : Prop :=
  List.Pairwise (fun p q => p.1 < q.1) t ∧ ∀ p ∈ t, p.2 ≠ d p.1

/-- The canonical form: indices strictly rising, no entry equal to the unlisted value. -/
abbrev Tab.wf {α : Type} (d : α) (t : Tab α) : Prop := Tab.wfOn (fun _ => d) t

/-- A table with the contents of a list, in canonical form. -/
def Tab.tidy {α : Type} [DecidableEq α] (d : α) (t : Tab α) : Tab α := t.foldl (fun (u : Tab α) p => Tab.put d u p.1 p.2) []

/-- Apply a function to every entry of a table. -/
def mapTab {α : Type} [DecidableEq α] (d : α) (t : Tab α) (f : α → α) : Tab α :=
  (t.map (fun p => (p.1, f p.2))).filter (fun p => p.2 ≠ d)

end Sys2Proof.Machine
end

