-- ==== Sys2Proof/Machine/State.lean ====
section
/-! DEFINITION. The state of the device: every register, table, queue, mode and pin the manual gives it, as plain
data, and the queue of waiting commands. Register fields that software writes live in `regs` by address, sticky bits in
`sticky`; everything else lives with its unit. -/
namespace Sys2Proof.Machine

/-- Reasons a step may stop the machine. -/
inductive Fault where
  /-- Raised by no command of the model. Safe: the manual reports every fault of the device as state (R23, R440). -/
  | unreachable
deriving DecidableEq, Repr

/-- Reasons a command may be refused by the model. -/
inductive Refusal where
  /-- A command whose arm has no meaning yet. Safe: the machine stops. -/
  | notModelled (mnemonic : String)
deriving DecidableEq, Repr

/-- Where the device stands between reset and service (R612, R624, R470). -/
inductive Phase where
  | held | running | bootFail | scrapped
deriving DecidableEq, Repr

/-- A running control restart (R629). -/
structure Restart where
  staged : Bool
  start : Nat
deriving DecidableEq, Repr

/-- Power, resets, board pins and firmware status (17_reset_boot, 19_electrical, R538). -/
structure Pwr where
  phase : Phase := .held
  resetN : Bool := false
  pwrGood : Bool := false
  cold : Bool := true
  last : Nat := 0
  slotB : Bool := false
  fallback : Bool := false
  restarts : Nat := 0
  warmCount : Nat := 0
  seqErr : Bool := false
  aFail : Nat := 0
  bFail : Nat := 0
  token : Nat := 0
  dirCopy : Nat := 0
  causes : BitVec 7 := 0
  railsOut : Byte := 0
  tDie : Byte := 0
  tHbm : Byte := 0
  i2cPtr : Byte := 0
  i2cA0 : Bool := false
  i2cData : List Byte := []
  tap : TapInstr := .bypass
  oscOk : Bool := false
  coreLock : Bool := false
  wdogCount : Nat := 0
  wdogCore : Nat := 0
  wdogTicks : List Nat := []
  /-- a watchdog has expired; the cores restart at the next tick (R538) -/
  wdogDue : Bool := false
  restart : Option Restart := none
  codeLocked : Bool := false
  gpioFail : Option (Nat × Nat) := none
  /-- bits of GLB_BLK_RST and GLB_GRP_RST written and not yet carried out (R634) -/
  blkReq : BitVec 6 := 0
  grpReq : Word := 0
  asleep : List Nat := []
deriving DecidableEq, Repr

/-- Lifecycle states (R466), numbered as RND_LC_STATUS.LC. -/
inductive Lifecycle where
  | manufacture | provisioned | owned | rma | scrapped
deriving DecidableEq, Repr

/-- An owner fuse slot (R467). -/
structure OwnerSlot where
  digest : Digest := 0
  endorse : Bool := false
  used : Bool := false
  retired : Bool := false
deriving DecidableEq, Repr

/-- A quote waiting for an ephemeral key (R477). -/
structure QuoteJob where
  h : Nat
  principal : Nat
deriving DecidableEq, Repr

/-- The Rind: fuses, identity, attestation, staged image (12_secrecy, R528 to R530). -/
structure Rnd where
  lc : Lifecycle := .manufacture
  slots : Tab OwnerSlot := []
  svnFused : Nat := 0
  svnRun : Nat := 0
  epochs : Nat := 0
  leaf : Nat := 0
  secretBurned : Bool := false
  grade : Bool := false
  serial : Word64 := 0
  ephGen : Nat := 0
  ephUsed : Nat := 0
  ephBusyUntil : Option Nat := none
  /-- no further ephemeral key can be certified (R476) -/
  exhausted : Bool := false
  quotes : List QuoteJob := []
  mFw : Digest := 0
  mSetup : Digest := 0
  /-- bytes of the image being staged (R529) -/
  stage : List Byte := []
  stageTotal : Nat := 0
  staged : Bool := false
deriving DecidableEq, Repr

/-- A reference source of the Starter (R307 to R312, STR_SRC_STATUS). -/
structure Src where
  active : Bool := false
  inWindow : Bool := false
  /-- offset from nominal in 0.1 ppb, averaged over the measurements of `hist` (R308) -/
  freq : Int := 0
  hist : List Int := []
  /-- the last PPS_IN edge (R307) -/
  edgeAt : Nat := 0
  qualified : Bool := false
  reason : Nat := 1
  qlRx : Nat := 15
  /-- no edge of it since this tick (R307) -/
  lostAt : Option Nat := none
  /-- active and in window without interruption since this tick (R309) -/
  since : Option Nat := none
  outlier : Bool := false
deriving DecidableEq, Repr

/-- States of the Starter (R320), numbered as STR_STATUS.STATE. -/
inductive StrState where
  | freeRun | acquiring | locked | holdover | lost
deriving DecidableEq, Repr

/-- An accepted phase step (R333, R334). -/
structure Step where
  h : Nat
  n : Nat
  s : Int
  c : Nat
  m : Nat
deriving DecidableEq, Repr

/-- An accepted REF_CONFIG: boundary, mask and words (R314, R520). -/
structure RefCfg where
  h : Nat
  at_ : Nat
  mask : Nat
  words : List Word
deriving DecidableEq, Repr

/-- An accepted REF_FORCE (R319). -/
structure RefForce where
  h : Nat
  at_ : Nat
  action : Nat
  entry : Nat
deriving DecidableEq, Repr

/-- The Starter (08_starter). -/
structure Str where
  st : StrState := .freeRun
  sel : Option Nat := none
  word : Int := 0
  held : Bool := false
  /-- transition offset in fs as it stood at `offTick` (R325, R326) -/
  offset : Int := 0
  offTick : Nat := 0
  trans : Bool := false
  dispute : Bool := false
  lockedOnce : Bool := false
  bwStep : Nat := 4
  enterTick : Nat := 0
  selTick : Nat := 0
  goodSince : Option Nat := none
  step : Option Step := none
  steps : List Step := []
  phase : Int := 0
  /-- one-second samples by second number; the ring keeps the last 1,024 (R329) -/
  hoRing : Tab Int := []
  hoValid : Tab Bool := []
  hoValue : Int := 0
  secSum : Int := 0
  secCnt : Nat := 0
  secLocked : Bool := false
  lossTick : Option Nat := none
  forced : Option Nat := none
  lockout : List Nat := []
  hoForced : Bool := false
  /-- the HOLDOVER that was forced has been entered (R319, R331) -/
  hoDone : Bool := false
  srcs : Tab Src := []
  /-- entry selectable since this tick, plus one; 0 when not selectable (R318) -/
  selSince : Tab Nat := []
  wtrDone : Tab Bool := []
  cfgs : List RefCfg := []
  forces : List RefForce := []
  acqQl : Nat := 11
  mateQl : Nat := 11
  followMate : Bool := false
deriving DecidableEq, Repr

/-- Power state of a lane direction (R80). -/
inductive Pow where
  | off | sleep | active
deriving DecidableEq, Repr

/-- A lane's electrical and ladder state (R67 to R89, SDS_LANE_*). -/
structure Lane where
  txCmd : Pow := .off
  rxCmd : Pow := .off
  tx : Pow := .off
  rx : Pow := .off
  txDue : Option Nat := none
  rxDue : Option Nat := none
  rxReady : Bool := false
  loop : Nat := 0
  loopMaint : Bool := false
  /-- tick of the last activation or release of a loop (R670, R671) -/
  loopAt : Nat := 0
  isolated : Bool := false
  noPeer : Bool := false
  preRx : Bool := false
  preTx : Bool := false
  capLast : Option (BitVec 64) := none
  /-- SEQ of the first of the frames that carry `capLast` (R73) -/
  capSeq : BitVec 24 := 0
  cap : Option (BitVec 64) := none
  verBad : Bool := false
  verCorr : Nat := 0
  frameAt : Option Nat := none
  wakeDue : Option Nat := none
  dropSince : Option Nat := none
deriving DecidableEq, Repr

/-- Ladder states (R67), numbered as SDS_GRP_STATUS.LADDER. -/
inductive Ladder where
  | down | r0Align | negotiate | step | verify | inService | fallback
deriving DecidableEq, Repr

/-- A lane group's ladder (R67 to R79). -/
structure Group where
  st : Ladder := .down
  /-- rung of the receive direction, and of the transmit direction, which differ only between the two switches (R73) -/
  rung : Nat := 0
  txRung : Nat := 0
  ceil : Nat := 0
  booked : Nat := 0
  since : Nat := 0
  cleared : BitVec 4 := 0
  target : Nat := 0
  exch : Nat := 0
  sendAct : Nat := 0
  ownSeq : Option (BitVec 24) := none
  farSeq : Option (BitVec 24) := none
  ownDone : Bool := false
  farDone : Bool := false
  farOffer : Nat := 0
deriving DecidableEq, Repr

/-- An eye scan queued or running (R90 to R94). -/
structure Scan where
  h : Nat
  lane : Nat
  eye : Nat
  dwell : Nat
  out : Nat
  hkey : Nat
  start : Option Nat := none
  rung : Nat := 0
deriving DecidableEq, Repr

/-- One record of the board table (R62). -/
structure BtRec where
  lane : Nat
  rung : Nat
  flags : Byte
  raw : List Byte
deriving DecidableEq, Repr

/-- A verified board table (R61). -/
structure BoardTable where
  rev : Nat
  recs : List BtRec
  bytes : List Byte
deriving DecidableEq, Repr

/-- Board-table loading (R63 to R66). -/
structure Bt where
  state : Nat := 0
  held : Option BoardTable := none
  /-- the table whose settings a lane group has applied (R66) -/
  tab : Tab (Option BoardTable) := []
  buf : Tab Word := []
  /-- the staging window as it stood at SEAL (R65, R621) -/
  sealBuf : Tab Word := []
deriving DecidableEq, Repr

/-- An accepted LANE_LOOP (R87). -/
structure LoopAct where
  h : Nat
  lane : Nat
  mode : Nat
  n : Nat
  maint : Bool
deriving DecidableEq, Repr

/-- The lanes (02_odvin_lanes). -/
structure Sds where
  lane : Tab Lane := []
  group : Tab Group := []
  scans : List Scan := []
  loops : List LoopAct := []
  bt : Bt := {}
deriving DecidableEq, Repr

/-- Alignment of a receive direction (R118). -/
inductive Align where
  | hunt | inFrame | oof
deriving DecidableEq, Repr

/-- One integrated defect: raw condition present or absent since a tick, declared or not and since when, failure
(R121 to R123, R174, R175). For Wheels the counts are in periods. -/
structure Defect where
  raw : Bool := false
  since : Nat := 0
  declared : Bool := false
  decSince : Nat := 0
  failed : Bool := false
deriving DecidableEq, Repr

/-- Reassembly of one overhead channel (R104, R105). -/
structure Reasm where
  busy : Bool := false
  data : List Byte := []
  fseq : Option Nat := none
deriving DecidableEq, Repr

/-- A frame on a lane: header, overhead channel, cells, BIP-16 (R95). -/
structure TxFrame where
  hdr : BitVec 128
  ovh : BitVec 512
  cells : List SlotWord
  bip : BitVec 16
deriving DecidableEq, Repr

/-- A received frame held for the datapath, with its first local tick and length, whether its header was bad, its
uncorrectable codewords, and its sync headers at NRZ rungs (R101, R160, R672). -/
structure FrameIn where
  t : Nat
  n : Nat
  f : TxFrame
  bad : Bool := false
  uncorr : BitVec 5 := 0
  sync : List Bool := []
deriving DecidableEq, Repr

/-- A position accepted by a receiver, and what it left: the tick, the alignment, position and count of bad headers before,
and the SLIP bit (R120). -/
structure Accept where
  tick : Nat
  align : Align
  pos : Nat
  bad : Nat
  slip : Bool
deriving DecidableEq, Repr

/-- The receive framer of a lane (03_odvin_frame). -/
structure RxLane where
  align : Align := .hunt
  pos : Nat := 0
  bad : Nat := 0
  good : Bool := false
  laneId : Nat := 0
  ais : Bool := false
  rdi : Bool := false
  ql : Nat := 15
  /-- every good header since the last selection-period boundary carried `ql`; none has come since (R304) -/
  qlSame : Bool := false
  qlFresh : Bool := true
  seq : BitVec 24 := 0
  /-- candidates by position: LANE_ID and the SEQ expected one frame on (R117) -/
  cands : Tab (Option (Nat × BitVec 24)) := []
  /-- the position accepted last (R120) -/
  acc : Option Accept := none
  /-- block lock, sync headers of 01 in a row without it, and the last 64 with it (R113) -/
  blockLock : Bool := false
  syncRun : Nat := 0
  syncWin : List Bool := []
  /-- a frame has been taken since the last rung switch (R55) -/
  decoded : Bool := false
  /-- the frame received last, as it was received (R85) -/
  lastRx : Option TxFrame := none
  bip : Option (BitVec 16) := none
  defects : Tab Defect := []
  ch1 : Reasm := {}
  ch2 : Reasm := {}
  done2 : List (List Byte) := []
  offSum : Int := 0
  offCnt : Nat := 0
  phase : Int := 0
  frames : List FrameIn := []
deriving DecidableEq, Repr

/-- The transmit framer of a lane: 0 to 255, and 256 + lane for Calrin. -/
structure TxLane where
  /-- words of the last ticks, newest last -/
  acc : List (List SlotWord) := []
  last : Option TxFrame := none
  lastTick : Nat := 0
  /-- FSEQ of the next fragment of channel 1, the packet being sent and the bytes of it that have gone (R103, R104) -/
  fseq : Nat := 0
  pkt : List Byte := []
  sent : Nat := 0
  /-- the same for channel 2, and the channel that sent last -/
  fseq2 : Nat := 0
  pkt2 : List Byte := []
  sent2 : Nat := 0
  was2 : Bool := false
  /-- self-synchronous scrambler (R112); rung, last level index of the precoder and levels of the last frame (R54, R55) -/
  scr : BitVec 58 := 0
  lineRung : Nat := 0
  prev : Nat := 0
  line : List Nat := []
deriving DecidableEq, Repr

/-- The framers and the bridge (R106). -/
structure Frm where
  rx : Tab RxLane := []
  tx : Tab TxLane := []
  /-- packets of channel 2 that the bridge has taken, and those that it has to send, by lane -/
  bridge : List (Nat × List Byte) := []
  send2 : List (Nat × List Byte) := []
deriving DecidableEq, Repr

/-- Multiframe alignment of a Wheel (R156). -/
inductive WAlign where
  | hunt | inMf | oom
deriving DecidableEq, Repr

/-- The Retimer's state of a Wheel, or of a Colander output built as the Retimer builds (R165 to R173, R264). -/
structure Retimer where
  /-- client bits taken from the input: tick of arrival, OSEQ of their multiframe, bit -/
  inq : List (Nat × BitVec 24 × Bool) := []
  /-- client bits that have arrived and are not yet sent -/
  buf : List (BitVec 24 × Bool) := []
  /-- OSEQ, PT and PSIG of recent input multiframes -/
  recent : List (BitVec 24 × Nat × Nat) := []
  started : Bool := false
  /-- last count accepted from the input's overhead -/
  last : Nat := 0
  /-- count decided for the output multiframe after the next one (R167), and the mate's (R171) -/
  own : Option Nat := none
  mate : Option Nat := none
  /-- an output multiframe has begun -/
  live : Bool := false
  /-- client bits of the output multiframe being sent, and of the next one, which it announces -/
  cur : Nat := 0
  ann : Nat := 0
  outT0 : Nat := 0
  /-- accumulator of R153 -/
  acc : Nat := 0
  oh : BitVec 96 := 0
  sent : List Bool := []
  bip : Byte := 0
  oseq : BitVec 24 := 0
  pt : Nat := 0
  psig : Nat := 0
  ais : Bool := false
  /-- the input had to be limited to A: at the count decided, at the one announced, in the present multiframe (R173) -/
  adoOwn : Bool := false
  adoAnn : Bool := false
  rawAdo : Bool := false
  /-- the words of the last ticks, newest last, in member order -/
  outs : List (Nat × List SlotWord) := []
deriving DecidableEq, Repr

/-- A Wheel (04_wheels_retiming). -/
structure Wheel where
  defined : Bool := false
  owner : Nat := 0
  members : List Nat := []
  maxSkew : Nat := 0
  timChk : Bool := false
  timAis : Bool := false
  excAis : Bool := false
  reverse : Option Nat := none
  trace : List Byte := []
  align : WAlign := .hunt
  huntUntil : Nat := 0
  /-- good overheads seen in HUNT: tick of Wheel tick 0 and OSEQ -/
  cand : List (Nat × BitVec 24) := []
  t0 : Nat := 0
  bad : Nat := 0
  goodAny : Bool := false
  lastGoodT0 : Nat := 0
  /-- OSEQ of the last good overhead; `oref` is the receiver's reference (R158, R159) -/
  oseq : BitVec 24 := 0
  oref : BitVec 24 := 0
  /-- CNT of the last good overhead -/
  cnt : Nat := 0
  /-- client bit count of the present and of the next multiframe, when they are known (R147, R157, R158) -/
  presC : Option Nat := none
  nextC : Option Nat := none
  pt : Nat := 0
  psig : Nat := 0
  aisw : Bool := false
  rdiw : Bool := false
  bip : Option Byte := none
  /-- marks of the present multiframe, and R158's mark for the next one -/
  mark : Bool := false
  markNext : Bool := false
  trCyc : List Byte := []
  trPrev : List Byte := []
  trCount : Nat := 0
  accTrace : Option (List Byte) := none
  /-- errored multiframes of selection period `excPer`, the next to be judged; periods in a row judged above and not above the
  threshold -/
  excPer : Nat := 0
  excCur : Nat := 0
  /-- errored multiframes of the selection period after it -/
  excNxt : Nat := 0
  excRun : Nat := 0
  excOk : Nat := 0
  /-- ticks in a row in which the lead carried 0xFFF (R174) -/
  leadRun : Nat := 0
  /-- periods of R174: multiframes, or 64 ticks without alignment; tick of the last one's end -/
  per : Nat := 0
  perTick : Nat := 0
  defects : Tab Defect := []
  oseqJump : Bool := false
  skew : Bool := false
  overflow : Bool := false
  underflow : Bool := false
  rtmDiff : Nat := 0
  ret : Retimer := {}
deriving DecidableEq, Repr

/-- A branch of a stage table: internal slot and number of entries that use it (R184, R202). -/
structure Branch where
  slot : Nat := 0
  refs : Nat := 0
deriving DecidableEq, Repr

/-- An egress table entry: output 0 internal slot, 1 generated word, 2 AIS, 3 unconnected (R206); `br` is the branch
whose internal slot is read. -/
structure EgOut where
  out : Nat := 3
  br : Nat := 0
  word : SlotWord := 0
deriving DecidableEq, Repr

/-- One page of the connection map with its derived stage tables (R191, R201). -/
structure Page where
  ent : Tab Word := []
  br : Tab Branch := []
  eg : Tab EgOut := []
  bad : List Nat := []
deriving DecidableEq, Repr

/-- A map entry written but not placed (R235). -/
structure Deferred where
  slot : Nat
  h : Nat
deriving DecidableEq, Repr

/-- The Harp (05_harp). -/
structure Hrp where
  active : Bool := false
  p0 : Page := {}
  p1 : Page := {}
  deferred : List Deferred := []
  crcIdx : Nat := 0
  checkPos : Nat := 0
  branchHigh : List Nat := []
deriving DecidableEq, Repr

/-- An accepted tick-keyed Flip (R212, R222). -/
structure Flip where
  h : Nat
  f : Nat
  id : Word
  fabric : Bool := false
  fromMgr : Bool := false
  cancelled : Bool := false
deriving DecidableEq, Repr

/-- A pending sequence-keyed Flip (R225 to R231). -/
structure SeqFlip where
  h : Nat
  prin : Nat
  /-- the serial that FLIP_CANCEL names (R238) -/
  serial : Nat := 0
  trigger : Nat
  reference : Option Nat
  s : BitVec 24
  expiry : Nat
  roll : List Nat
  armed : Option (Nat × BitVec 24) := none
  offset : Option Int := none
deriving DecidableEq, Repr

/-- A map write of the resync queue (R216, R218, R219). -/
structure QWrite where
  ring : Nat
  h : Nat
  idx : Nat
  slot : Nat
  bits : Nat
  held : Option Nat
deriving DecidableEq, Repr

/-- A MAP_WRITE under execution (R503, R504). -/
structure MapJob where
  h : Nat
  ring : Nat
  prin : Nat
  noMove : Bool
  /-- TN of acceptance (R216) -/
  acc : Nat := 0
  rest : List (Nat × Nat)
  idx : Nat := 0
  open_ : Nat := 0
  written : Nat := 0
  held : Nat := 0
  heldF : Option Nat := none
  firstRef : Option (Nat × Nat) := none
  moved : Nat := 0
deriving DecidableEq, Repr

/-- The manager's record of a fabric Flip (R240 to R244, R367, R368). -/
structure FabFlip where
  h : Nat
  id : Word
  f : Nat
  a : Nat
  ws : List Word := []
  ready : List Word := []
  results : List (Word × Bool) := []
  cancelled : Bool := false
  reason : Nat := 0
  failId : Word := 0
  posted : Bool := false
deriving DecidableEq, Repr

/-- A fire record of a FLIP_SEQ: the active device's fire tick and this device's outcome (R239). -/
structure FireRec where
  h : Nat
  mate : Option Nat := none
  own : Option (Option Nat) := none
deriving DecidableEq, Repr

/-- The Flip engine (06_flips). -/
structure Flp where
  flips : List Flip := []
  /-- tick F of the Flip whose window has begun (R215) -/
  frozen : Option Nat := none
  seqs : List SeqFlip := []
  resync : Option Nat := none
  queue : List QWrite := []
  carried : Nat := 0
  parts : List Nat := []
  lastF : Option Nat := none
  jobs : List MapJob := []
  fab : List FabFlip := []
  fires : List FireRec := []
  /-- principal and serial of every FLIP_SEQ accepted (R238) -/
  asked : List (Nat × Nat) := []
deriving DecidableEq, Repr

/-- A chunk of one copy as the Colander holds it (R255 to R257): its client bits with the Wheel tick in which each
arrives; `c` is its count where it was announced or taken. -/
structure Chunk where
  x : Nat
  t0 : Nat
  c : Option Nat
  data : List (Nat × Bool) := []
  /-- its count was announced by a good overhead (R256) -/
  said : Bool := false
  absent : Bool := false
  failed : Bool := false
  errored : Bool := false
  good : Bool := false
  rdi : Bool := false
  pt : Nat := 0
  nextC : Option Nat := none
deriving DecidableEq, Repr

/-- What a Cave position of a pair holds: the tag beside its bursts, x[23:0] and generation, and the copy that it came from
(R280, R294). -/
structure CavePos where
  x : BitVec 24
  gen : BitVec 32
  copyB : Bool
deriving DecidableEq, Repr

/-- An accepted PAIR_CMD (R271). -/
structure PairAct where
  h : Nat
  pair : Nat
  cmd : Nat
  n : Nat
deriving DecidableEq, Repr

/-- A protected pair (07_colander_cave, pair status of R644). -/
structure Pair where
  defined : Bool := false
  owner : Nat := 0
  wa : Nat := 0
  wb : Nat := 0
  k : Nat := 0
  mode : Nat := 0
  tierReq : Nat := 0
  tier : Nat := 0
  diff : Nat := 0
  lag : Bool := false
  stk : BitVec 6 := 0
  /-- stripes still read during moves, oldest first, each with the first chunk not written to it (R289) -/
  old : List (BitVec 6 × Nat) := []
  wtr : Nat := 0
  revert : Bool := false
  alignWait : Nat := 0
  gen : BitVec 32 := 0
  defTick : Nat := 0
  locked : Bool := false
  /-- playout lag L -/
  plag : Nat := 0
  minLag : Nat := 0
  /-- the reference copy of the lock is B -/
  refB : Bool := false
  p0 : Nat := 0
  x0 : Nat := 0
  /-- first chunk that the pair may put out: x0 of its first lock (R260, R263) -/
  fromX : Nat := 0
  nextX : Nat := 0
  delta : Int := 0
  ca : List Chunk := []
  cb : List Chunk := []
  cave : List CavePos := []
  /-- chunks that have entered, with their ticks, whose twin has not (R258) -/
  seenA : List (Nat × Nat) := []
  seenB : List (Nat × Nat) := []
  /-- groups of chunks whose Cave read, or write, was abandoned (R287) -/
  missed : List (Nat × Nat) := []
  holes : List (Nat × Nat) := []
  lockout : Bool := false
  forced : Bool := false
  manual : Option Bool := none
  wtrEnd : Option Nat := none
  pref : Bool := false
  /-- a change of preferred copy and the tick from which it holds (R259) -/
  prefNew : Option (Nat × Bool) := none
  /-- what a standby itself would prefer, and its changes of it, by tick, that the active device has not shown (R270) -/
  ownPref : Bool := false
  ownChg : List (Nat × Bool) := []
  /-- the preferred copy is B because of SF or SD on A (R274) -/
  autoB : Bool := false
  takenB : Option Bool := none
  reqCode : Nat := 0
  lateA : Bool := false
  lateB : Bool := false
  cntDiff : Nat := 0
  shortDiff : Nat := 0
  realign : Nat := 0
  colDiff : Nat := 0
  psigA : Nat := 0
  psigB : Nat := 0
  /-- the output multiframe being sent: first tick, words, and BIP-8 of its payload -/
  outT0 : Nat := 0
  out : List SlotWord := []
  outBip : Byte := 0
  /-- first tick and words of the output multiframe before it -/
  prevT0 : Nat := 0
  prev : List SlotWord := []
  ret : Retimer := {}
deriving DecidableEq, Repr

/-- A request at a pseudo-channel (R284). Requester 0 write, 1 read, 2 Whisk, 3 diagnostics. -/
structure CavReq where
  who : Nat
  deadline : Nat
  bursts : Nat
  pair : Nat
  x : Nat
  /-- group of 8 Wheel ticks of the chunk -/
  grp : Nat := 0
  granted : Bool := false
deriving DecidableEq, Repr

/-- A Cave stack (R288 to R292). -/
structure Stack where
  /-- its pseudo-channels have power in this period (R290, R603) -/
  powered : Bool := false
  /-- failed: every read counts as abandoned until the freeze is lifted (R292) -/
  failed : Bool := false
  testing : Bool := false
  /-- a full return pass is owed before the stack admits bookings (R291) -/
  unproven : Bool := false
  uncorr : Nat := 0
deriving DecidableEq, Repr

/-- Colander and Cave. -/
structure Col where
  pair : Tab Pair := []
  acts : List PairAct := []
  stack : Tab Stack := []
  reqs : Tab (List CavReq) := []
deriving DecidableEq, Repr

/-- Roles of a mate pair (R391), numbered as CAL_MATE_STATUS.ROLE. -/
inductive Role where
  | standalone | active | standby | syncing | detached | suspended
deriving DecidableEq, Repr

/-- What the mate's heartbeat shows (R392). -/
inductive Hb where
  | none | active | standby
deriving DecidableEq, Repr

/-- An event entry of a Ladle record (R386). -/
structure LEvt where
  kind : Nat
  object : Nat
  tick : Nat
  value : Nat
deriving DecidableEq, Repr

/-- A map-write entry of a Ladle record (R385). -/
structure LMap where
  h : Nat
  slot : Nat
  bits : Nat
  outcome : Nat
deriving DecidableEq, Repr

/-- An accepted-command entry of a Ladle record. -/
structure LAcc where
  ring : Nat
  prin : Nat
  h : Nat
  tn : Nat
  d : Desc
deriving DecidableEq, Repr

/-- A completion entry of a Ladle record. -/
structure LCmp where
  ring : Nat
  h : Nat
  slot : Nat
  c : CmpEntry
deriving DecidableEq, Repr

/-- A ring-index entry of a Ladle record: kind 0 command consumer, 1 completion producer, 2 event producer. -/
structure LRing where
  ring : Nat
  kind : Nat
  index : Nat
deriving DecidableEq, Repr

/-- The Starter section of a Ladle record. -/
structure LStr where
  word : Int := 0
  st : Nat := 0
  sel : Nat := 0
  offset : Int := 0
  hoValue : Int := 0
deriving DecidableEq, Repr

/-- A Ladle record (R384, R385). -/
structure LRec where
  tn : Nat := 0
  yield_ : Bool := false
  thin : Bool := false
  str : LStr := {}
  rings : List LRing := []
  accs : List LAcc := []
  cmps : List LCmp := []
  maps : List LMap := []
  evts : List LEvt := []
  cnts : List Nat := []
  snap : List Byte := []
  snapOff : Nat := 0
deriving DecidableEq, Repr

/-- A command of a record that has not yet taken effect here, because its batch or that of an earlier one is still on its
way: handle, tick of the record, a named-tick action or not (R388). -/
structure Owed where
  h : Nat
  tn : Nat
  sched : Bool
deriving DecidableEq, Repr

/-- A Calrin frame as it is sent: lane, header, overhead channel, record share (R378). -/
structure CalOut where
  lane : Nat
  hdr : BitVec 128
  ovh : BitVec 512
  share : List Byte
deriving DecidableEq, Repr

/-- Alignment of a Calrin receiver (R379): state, position, bad headers in a row, the SEQ that would confirm a position, and what
the acceptance of this tick left. -/
structure CalRx where
  align : Align := .hunt
  pos : Nat := 0
  bad : Nat := 0
  cands : Tab (Option (BitVec 24)) := []
  acc : Option (Nat × Align × Nat × Nat) := none
deriving DecidableEq, Repr

/-- Calrin, Ladle and mate roles (10_mate_pair). -/
structure Cal where
  role : Role := .standalone
  lone : Bool := false
  /-- level of the heartbeat output GPIO6 (R392) -/
  hbOut : Bool := false
  mateHb : Hb := .none
  mateRole : Nat := 0
  hbNoneSince : Option Nat := none
  lastYield : Nat := 0
  /-- mate's PRIMARY and PLANE as its last good header showed them (R375) -/
  matePrimary : Option Bool := none
  matePlane : Nat := 0
  lanesUp : BitVec 4 := 0
  /-- alignment of the four receivers (R379) -/
  rxs : Tab CalRx := []
  /-- content not yet sealed into a record, in order (R387) -/
  cur : LRec := {}
  /-- the record sealed last, whose shares the next tick's frames carry (R381) -/
  sealed_ : Option LRec := none
  out : List CalOut := []
  /-- records received and stored, oldest first (R388) -/
  store : List LRec := []
  owed : List Owed := []
  shares : List (Nat × Nat × List Byte) := []
  ackOwn : Option Nat := none
  ackRx : Option Nat := none
  ackTick : Nat := 0
  recTick : Nat := 0
  yieldAt : Option Nat := none
  fromSync : Bool := false
  roleSince : Nat := 0
  reclaimOut : Bool := false
  holdUntil : Option Nat := none
  t0 : Option Nat := none
  snap : List Byte := []
  snapOff : Nat := 0
  snapDone : Bool := false
  passFrom : Nat := 0
  passOk : Bool := false
  diffPeriods : Nat := 0
  diffSeen : Bool := false
deriving DecidableEq, Repr

/-- Keys of one direction of a peer link (R489). -/
structure PeerKeys where
  tx : BitVec 288 := 0
  rx : BitVec 288 := 0
  /-- record keys of the two directions of Calrin (R491) -/
  recTx : BitVec 256 := 0
  recRx : BitVec 256 := 0
deriving DecidableEq, Repr

/-- Link states (R346), numbered as FRM_GRP_FAB_STATUS.STATE. -/
inductive LinkSt where
  | down | keying | measuring | up
deriving DecidableEq, Repr

/-- A fabric link or the Calrin control link (R346 to R356, R489). -/
structure PeerLink where
  st : LinkSt := .down
  keys : Option PeerKeys := none
  nonceOwn : Option Nat := none
  helloFar : Option (BitVec 256 × BitVec 768) := none
  retryAt : Option Nat := none
  samples : List Nat := []
  reqSerial : Option Nat := none
  reqT1 : Nat := 0
  delayPs : Nat := 0
  authFails : Nat := 0
deriving DecidableEq, Repr

/-- A fabric message waiting to be sent (R350, R353). -/
structure OutMsg where
  link : Option Link
  type : Nat
  origin : Word
  dest : Word
  serial : Nat
  body : List Byte
  fromMate : Bool := false
deriving DecidableEq, Repr

/-- A worker in the manager's table (R361, R365). -/
structure Worker where
  id : Word
  /-- lane group of the link by which the worker is reached (R365) -/
  link : Option Nat := none
  pathSum : Nat := 0
  rung3 : Bool := true
  silent : Nat := 0
  lost : Bool := false
  lostTick : Nat := 0
deriving DecidableEq, Repr

/-- A remote command at the manager (R358, R362). -/
structure RemoteCmd where
  h : Nat
  worker : Word
  sentTick : Nat
  abandoned : Bool := false
deriving DecidableEq, Repr

/-- A manager command at a worker, its batch and its stored result (R359, R364). -/
structure WorkerCmd where
  mserial : Nat
  prin : Nat
  h : Option Nat := none
  batch : List Byte := []
  result : Option CmpEntry := none
  output : List (Nat × List Byte) := []
deriving DecidableEq, Repr

/-- Serials seen from one origin (R352). -/
structure Seen where
  high : Nat := 0
  any : Bool := false
  map : BitVec 64 := 0
deriving DecidableEq, Repr

/-- The fabric (09_fabric). -/
structure Fab where
  link : Tab PeerLink := []
  calrin : PeerLink := {}
  serial : Nat := 0
  seen : Tab Seen := []
  sendQ : List OutMsg := []
  workers : List Worker := []
  cmds : List RemoteCmd := []
  /-- blocks that principals hold on workers, by the remote PARTITION_SETs that succeeded (R360) -/
  holds : List (Word × Nat × Nat) := []
  wcmds : List WorkerCmd := []
deriving DecidableEq, Repr

/-- A MACsec secure association (R416). -/
structure Sa where
  key : BitVec 352
  an : BitVec 2
  txPn : Nat := 1
  rxHigh : Nat := 0
deriving DecidableEq, Repr

/-- A management port (R413 to R418). -/
structure Port where
  link : Bool := false
  mode : Nat := 0
  mac : BitVec 48 := 0
  ip : BitVec 128 := 0
  sa : Option Sa := none
  next : Option Sa := none
  switchTn : Option Nat := none
  txNew : Bool := false
  rxNew : Nat := 0
deriving DecidableEq, Repr

/-- What an RDMA operation of the device is for. -/
inductive OpKind where
  | doorbell (r : Nat)
  | descs (r : Nat) (start n : Nat)
  | batch (r : Nat)
  | cmpRing (r : Nat)
  | completion (r : Nat)
  | event (r : Nat)
  | index (r : Nat)
  | output (h : Nat)
  | dump (r seq : Nat)
  | trailer (r seq : Nat)
deriving DecidableEq, Repr

/-- A requester operation not yet acknowledged (R421, R441). Reads carry no bytes. -/
structure RdmaOp where
  kind : OpKind
  addr : Nat
  hkey : Nat
  bytes : List Byte
  len : Nat
deriving DecidableEq, Repr

/-- A queue pair (R419 to R421). -/
structure Qp where
  bound : Bool := false
  ring : Nat := 0
  prin : Nat := 0
  port : Nat := 0
  mtu : Nat := 0
  ipver : Nat := 0
  remote : Nat := 0
  psn : Nat := 0
  rkey : Word := 0
  udp : Nat := 0
  hostMac : BitVec 48 := 0
  hostIp : BitVec 128 := 0
  err : Bool := false
  retries : Nat := 0
  ops : List RdmaOp := []
  /-- tick from which the local ACK timeout runs (R420) -/
  timer : Nat := 0
deriving DecidableEq, Repr

/-- State of a ring set (R443), numbered as MGP_RING_STATUS.STATE. -/
inductive RingSt where
  | unbound | open_ | busy | halted
deriving DecidableEq, Repr

/-- A ring set (R424 to R443). -/
structure Ring where
  st : RingSt := .unbound
  cause : Nat := 0
  prin : Nat := 0
  boot : Bool := false
  cmdBase : Nat := 0
  cmpBase : Nat := 0
  evtBase : Nat := 0
  dbAddr : Nat := 0
  idxAddr : Nat := 0
  hkeys : List Nat := []
  cmdSize : Nat := 16
  cmpSize : Nat := 64
  evtSize : Nat := 64
  qpLo : Nat := 0
  qpHi : Nat := 0
  cmdProd : Nat := 0
  cmdCons : Nat := 0
  fetchIdx : Nat := 0
  cmpProd : Nat := 0
  cmpCons : Nat := 0
  evtProd : Nat := 0
  evtCons : Nat := 0
  evtLost : Nat := 0
  eseq : Nat := 0
  expect : Nat := 1
  key : Option (BitVec 256) := none
  oldKey : Option (BitVec 256 × Nat) := none
  fetch : List Desc := []
  batch : Option Batch := none
  batchWait : Bool := false
  dbRead : Bool := false
  kickAgain : Bool := false
  kicked : Bool := false
  /-- descriptors of the fetch in flight; 0 without one (R438) -/
  fetching : Nat := 0
  /-- the index record has changed since it was written (R429) -/
  dirty : Bool := false
  overflow : List Nat := []
deriving DecidableEq, Repr

/-- Where a journaled command came from (R359, R405). -/
inductive Origin where
  | ring
  | manager (mserial : Nat)
deriving DecidableEq, Repr

/-- A command in the journal (R405 to R408). -/
structure JEntry where
  ring : Nat
  prin : Nat
  origin : Origin := .ring
  d : Desc
  batch : Option Batch := none
  batchOk : Bool := true
  j : Nat
  jtn : Nat := 0
  acked : Bool := false
  accepted : Option Nat := none
  cmp : Option CmpEntry := none
  slot : Option Nat := none
  /-- not posted before this tick (R224, R231) -/
  notBefore : Nat := 0
  recTn : Option Nat := none
  posted : Bool := false
  /-- accepted before a takeover or warm reset, to be executed from its descriptor (R409, R626) -/
  resume : Bool := false
  /-- accepted before a warm reset and waiting for SEAL (R626) -/
  stale : Bool := false
  outLeft : Nat := 0
  /-- host address, R_Key and PHASE of a completion that goes to a replaced binding of ring set 0 (R526) -/
  dest : Option (Nat × Nat × Nat) := none
deriving DecidableEq, Repr

/-- What the device answered last to a host access of a window (R419, R423). -/
inductive Resp where
  | ack
  | nak
  | data (bytes : List Byte)
deriving DecidableEq, Repr

/-- A host access served in 64-byte pieces, one a tick: what is left of it and, of a read, the bytes read so far (R446). -/
structure Access where
  qp : Nat
  write : Bool
  addr : Nat
  left : Nat
  data : List Byte
deriving DecidableEq, Repr

/-- Management ports and ring engine (11_management_port). -/
structure Mgp where
  port : Tab Port := []
  qp : Tab Qp := []
  ring : Tab Ring := []
  journal : List (Nat × JEntry) := []
  nextH : Nat := 0
  rr : Nat := 15
  resp : Option Resp := none
  more : List Access := []
  held : List (List Nat × EvtEntry) := []
deriving DecidableEq, Repr

/-- A slot block: 0 the owner, otherwise its partition; a hand-off block has a feeder and a holder (R450, R451). -/
structure Block where
  owner : Nat := 0
  hand : Option (Nat × Nat) := none
deriving DecidableEq, Repr

/-- A lane grant of MAINT (R460). -/
structure Grant where
  first : Nat
  last : Nat
  fromTn : Nat
  toTn : Nat
deriving DecidableEq, Repr

/-- A partition or MAINT principal (R454). -/
structure Part where
  set : Bool := false
  digest : Digest := 0
  whFirst : Nat := 0
  whCount : Nat := 0
  prFirst : Nat := 0
  prCount : Nat := 0
  skew : Nat := 0
  mon : Nat := 0
  near : Nat := 0
  caveReg : List Nat := []
  caveBw : List Nat := []
  grants : List Grant := []
  views : Nat := 0
deriving DecidableEq, Repr

/-- The principals (12_secrecy). -/
structure Prn where
  block : Tab Block := []
  part : Tab Part := []
deriving DecidableEq, Repr

/-- A mailbox channel (R552 to R564). -/
structure Mbx where
  msg : List Byte := []
  full : Bool := false
  ack : Bool := false
  pbr : Bool := false
  sr : Bool := false
  wait : Bool := false
  postNum : Nat := 0
  deadline : Option Nat := none
  retryAt : Option Nat := none
  h : Option Nat := none
deriving DecidableEq, Repr

/-- Memories on the Rack, by 16-byte word address (R540, R542), the data of the last Rack read, and whether the last
access was answered with an error. -/
structure Mem where
  owner : Tab Nat := []
  pantry : Tab (BitVec 128) := []
  ret : Tab (BitVec 128) := []
  sram : Tab (BitVec 128) := []
  cave : Tab (BitVec 128) := []
  /-- retention RAM and the Cave, and the Pantry and firmware SRAM, still hold the zeros written on entry to RMA (R469) -/
  zeroed : Bool := false
  volZero : Bool := false
  /-- the data region has been cleared by a control restart (R629) -/
  sramClr : Bool := false
  /-- stacks to which the Colander has written since then -/
  caveWr : BitVec 6 := 0
  /-- the model's own: indices of the free contents of retention RAM and Cave, and of Pantry and firmware SRAM (log 10) -/
  raw : Nat := 0
  rawVol : Nat := 1
  /-- body of the image whose code the code region of firmware SRAM holds (R624, R629) -/
  code : List Byte := []
  lastOut : List Byte := []
  lastErr : Bool := false
deriving DecidableEq, Repr

/-- Whisk on one memory (R547 to R551). -/
structure Whisk where
  starts : Nat := 0
  nextRegion : Nat := 0
  held : Option Nat := none
  save : Tab (BitVec 128) := []
  passSec : Nat := 0
  passFault : Bool := false
deriving DecidableEq, Repr

/-- The Rack's error record and Whisk. -/
structure Rck where
  errMaster : Nat := 0
  errTarget : Nat := 0
  errWrite : Bool := false
  whk : Tab Whisk := []
deriving DecidableEq, Repr

/-- One counter (R566, R569). -/
structure Counter where
  v : Nat := 0
  wrap : Bool := false
  wrapSec : Bool := false
deriving DecidableEq, Repr

/-- An accepted COUNTER_PRESET (R577). -/
structure Preset where
  h : Nat
  scope : Nat
  obj : Nat
  mask : Nat
  value : Nat
  n : Nat
deriving DecidableEq, Repr

/-- An accepted DUMP_CONFIG (R582). -/
structure DumpCfg where
  h : Nat
  prin : Nat
  scopes : Nat
  addr : Nat
  hkey : Nat
  len : Nat
  at_ : Nat
deriving DecidableEq, Repr

/-- An image being written to a dump area (R583): source, latch, sequence, where its trailer goes, and whether that has been
issued. Sources: 0 this device, 1 the mate, 2 + fabric ID a worker. -/
structure DumpImg where
  src : Nat
  latch : Nat
  seq : Nat
  tail : Nat
  sent : Bool := false
deriving DecidableEq, Repr

/-- An image of another device on its way here, by offset (R363, R586). -/
structure DumpIn where
  src : Nat
  latch : Nat
  parts : List (Nat × List Byte) := []
deriving DecidableEq, Repr

/-- The dump area of a ring set (R580 to R586). -/
structure Dump where
  en : Bool := false
  scopes : Nat := 0
  addr : Nat := 0
  hkey : Nat := 0
  slots : Nat := 0
  slotSize : Nat := 0
  imgSeq : Nat := 0
  /-- PREV_TN and SKIPPED by source (R581, R586) -/
  prev : Tab (Nat × Nat) := []
  skipTotal : Nat := 0
  /-- latch whose own image was started or skipped last (R585) -/
  started : Nat := 0
  imgs : List DumpImg := []
  ins : List DumpIn := []
deriving DecidableEq, Repr

/-- Counters and dumps (15_counters). -/
structure Cnt where
  live : Tab Counter := []
  latched : Tab Counter := []
  latchTn : Nat := 0
  /-- the counts as this tick began, with the WRAP_SEC bits that its latch takes (R34, R567, R574) -/
  start : Tab Counter := []
  /-- WRAP_SEC was cleared as this tick began, for the latch that was due (R569) -/
  cut : Bool := false
  presets : List Preset := []
  dumpCfgs : List DumpCfg := []
  dump : Tab Dump := []
deriving DecidableEq, Repr

/-- The Ledger (16_energy_ledger). -/
structure Nrg where
  budget : Nat := 700000
  measured : Nat := 0
  dom : List Nat := []
  periodE : Nat := 0
  energy : Nat := 0
  headroom : Nat := 0
  stopped : Bool := false
  overrun : Bool := false
  stopPeriods : Nat := 0
  okPeriods : Nat := 0
  overRaised : Bool := false
deriving DecidableEq, Repr

/-- An accepted CONTROL_RESTART (R534). -/
structure RestartAct where
  h : Nat
  staged : Bool
  n : Nat
deriving DecidableEq, Repr

/-- The state behind registers and table windows as a tick began (R9, R206, R643). -/
structure Began where
  tnValid : Bool
  pwr : Pwr
  regs : Tab Word
  sticky : Tab Word
  rnd : Rnd
  str : Str
  sds : Sds
  frm : Frm
  whl : Tab Wheel
  hrp : Hrp
  flp : Flp
  col : Col
  cal : Cal
  fab : Fab
  mgp : Mgp
  prn : Prn
  mbx : Tab Mbx
  mem : Mem
  rck : Rck
  cnt : Cnt
  nrg : Nrg
deriving DecidableEq, Repr

/-- Time, TN and the work budgets of the present tick (01_tick). -/
structure Clk where
  tick : Nat := 0
  tnValid : Bool := false
  tn : Nat := 0
  loadReq : Bool := false
  loCap : Tab Word := []
  /-- what registers and tables show in this tick: their state as it began; none in the tick of a reset (R9, R206, R643) -/
  began : Option Began := none
  wrUsed : Nat := 0
  wrStop : Bool := false
  joinUsed : Nat := 0
  checked : Bool := false
  /-- done in this tick: its slots, its second, its selection period, its record -/
  slotsDone : Bool := false
  secDone : Bool := false
  perDone : Bool := false
  sealDone : Bool := false
  takeUsed : Nat := 0
  readUsed : Nat := 0
  /-- units of R23 whose remaining work of this tick is discarded -/
  dropped : List Nat := []
  /-- last valid message: second, QL, tick of its last stop bit (R302) -/
  todMsg : Option (Nat × Nat × Nat) := none
  todMiss : Nat := 0
  /-- the first TN came from the mate (R299, R398) -/
  tnMate : Bool := false
  todOut : Option (List Byte) := none
  ppsHighUntil : Nat := 0
deriving DecidableEq, Repr

/-- The whole device, and the queue of waiting commands. -/
structure State where
  pending : List Instr := []
  clk : Clk := {}
  pwr : Pwr := {}
  regs : Tab Word := []
  sticky : Tab Word := []
  sealed : Bool := false
  sealImg : Option (Tab Word) := none
  flash : Flash := ⟨⟨false, false, 0⟩, ⟨false, false, 0⟩, [], [], none, none, none⟩
  rnd : Rnd := {}
  str : Str := {}
  sds : Sds := {}
  frm : Frm := {}
  whl : Tab Wheel := []
  hrp : Hrp := {}
  flp : Flp := {}
  col : Col := {}
  cal : Cal := {}
  fab : Fab := {}
  mgp : Mgp := {}
  prn : Prn := {}
  mbx : Tab Mbx := []
  mem : Mem := {}
  rck : Rck := {}
  cnt : Cnt := {}
  nrg : Nrg := {}
  restarts : List RestartAct := []
  /-- the model's own: index of the next free value (log 5) -/
  fresh : Nat := 2
deriving DecidableEq, Repr

/-- The control state that a snapshot carries (R401): map and Flips, Wheels and pairs, named-tick actions, partitions, mailboxes and
the journal. -/
structure Control where
  hrp : Hrp
  flp : Flp
  whl : Tab Wheel
  pair : Tab Pair
  acts : List PairAct
  loops : List LoopAct
  cfgs : List RefCfg
  forces : List RefForce
  steps : List Step
  presets : List Preset
  prn : Prn
  mbx : Tab Mbx
  journal : List (Nat × JEntry)
deriving DecidableEq, Repr

/-- The device right after a cold power-up, RESET_N low, with blank fuses and flash (R615, R620, R642). -/
def State.reset : State := {}

/-- The outcome of a command. -/
abbrev Out := Host.Outcome State Fault Refusal

end Sys2Proof.Machine
end

