-- ==== Sys2Proof/Config.lean ====
section
/-! DEFINITION. What the manual names by an outside standard or leaves free. Each constant has no body, so a claim holds
whatever it is (logs 4, 5, 12). -/
namespace Sys2Proof.Config

/-- SHA-384 (R448, R473, R477). -/
opaque sha384 : List Byte → Digest
/-- AES-256-GMAC of NIST SP 800-38D with a 96-bit IV over additional data (R430, R431). -/
opaque gmac : BitVec 256 → BitVec 96 → List Byte → BitVec 128
/-- The AES-256-GCM tag of a fabric message: key and salt, 64-bit nonce value, clear bytes, body (R349). -/
opaque gcmTag : BitVec 288 → Nat → List Byte → List Byte → BitVec 128
/-- HKDF over SHA-384: secret, salt, info, number of bytes (R485). -/
opaque hkdf : List Byte → List Byte → List Byte → Nat → List Byte
/-- The ECDH x-coordinate of the device's ephemeral key `i` and a public key (R485). -/
opaque ecdh : Nat → BitVec 768 → List Byte
/-- The public key of the device's ephemeral ECDH key `i` (R484, R489). -/
opaque ephPub : Nat → BitVec 768
/-- Random bits of the device: nonces (R484, R489). -/
opaque nonce : Nat → BitVec 256
/-- The boot certificate with its signatures, for epoch, leaf and ephemeral key (R474). -/
opaque bcert : Nat → Nat → Nat → List Byte
/-- A signature of the ephemeral LMS key `i`, leaf `q`, over bytes: 1,452 bytes (R477). -/
opaque ephSig : Nat → Nat → List Byte → List Byte
/-- A P-384 signature of the identity key over bytes: 96 bytes (R477). -/
opaque idkSig : List Byte → List Byte
/-- DEVICE_ID of this device (R473). -/
opaque deviceId : Digest
/-- DEVICE_ID of the device at the far end of a link, 0 to 31 a lane group, 32 Calrin: R489 orders the HELLOs by it before the
peer's quote has named it (log 17). -/
opaque peerId : Nat → Digest
/-- The verdict of signature 0 to 3 over the bytes of a batch that a manager sent (R471): a standby worker's record does not carry it
(log 4). -/
opaque sigVerdict : List Byte → Nat → Bool
/-- A measured eye-scan count of a scan that ends early, and the voltage step (R92, R94). -/
opaque eyeCount : Nat → Nat
opaque eyeVstep : BitVec 16
/-- SHA-384 of the boot ROM (R477). -/
opaque romDigest : Digest
/-- ACC and LEAP_PENDING of a TOD_OUT message, informational (R301). -/
opaque todInfo : Nat → Byte
/-- The pseudo-channel, 0 to 31 within its stack, that takes a request (log 12). -/
opaque channelOf : Nat → Nat → Fin 32
/-- What a 16-byte word of a memory holds where nothing was written, by the index of the memory's contents and the word's
address (log 10). -/
opaque rawMemory : Nat → Nat → BitVec 128
/-- The words of firmware SRAM that hold code, and what an image body puts into them: the split and the layout are given nowhere
(R537, R624; log 80). -/
opaque isCode : Nat → Bool
opaque codeWord : List Byte → Nat → BitVec 128
/-- The leaf counter read back from retention RAM passes its CRC, by draw (R475; log 81). -/
opaque leafOk : Nat → Bool
/-- The error count that a diagnostic read of a Cave stack returns outside RMA (R295). -/
opaque diagCount : Nat → BitVec 64
/-- How far beyond 8,000 ticks the Ledger plans the deadline of a Whisk request, by stack and region (R285). -/
opaque whiskSlack : Nat → Nat → Nat
/-- The next EXCH and SWITCH_SEQ distance a leading device chooses within R73, above 128 ticks. -/
opaque switchLead : Nat → Fin 7873

/-- The hop sum of R43 beyond the manager's own link on the path to a worker, and whether the links beyond it run at
rung 3: no message carries them (R354, R365). -/
opaque farHops : Word → Nat
opaque farRung3 : Word → Bool

/-- OSEQ of a Retimer output multiframe that holds no client bit, by Wheel or pair and tick: R168 names none (log 13). -/
opaque idleOseq : Nat → Nat → BitVec 24

/-- TRACE of an output whose input has no accepted trace, by index: R168 and R267 name none (log 13). -/
opaque noTrace : Nat → Byte

/-- The snapshot image of the control state at a record tick: its format is given nowhere (R401, log 11). -/
opaque snapImage : Nat → List Byte
/-- The control state that a snapshot image stands for (R401, log 11). -/
opaque snapControl : List Byte → Option Machine.Control

/-- The ciphertext of a fabric message's body: key and salt, 64-bit nonce value, body (R349). -/
opaque gcmCipher : BitVec 288 → Nat → List Byte → List Byte
/-- The AES-256 block cipher: key and block (R491). -/
opaque aes256 : BitVec 256 → BitVec 128 → BitVec 128
/-- BIP-16 of the first frame that a lane sends, by lane and count: no frame comes before it (R107). -/
opaque firstBip : Nat → Nat → BitVec 16
/-- The defect summary of a STATUS message, whose layout is given nowhere (R350, log 14). -/
opaque defectSummary : Nat → BitVec 56

end Sys2Proof.Config
end

