-- ==== Sys2Proof/Machine/Bits.lean ====
section
/-! DEFINITION. Bit fields, byte orders, checksums and short forms of the manual. -/
namespace Sys2Proof.Machine

/-- Bits [hi:lo] of a word as a number. -/
def bits {n : Nat} (w : BitVec n) (hi lo : Nat) : Nat := (w.toNat / 2 ^ lo) % 2 ^ (hi + 1 - lo)

/-- Bit `i` of a word. -/
def bit {n : Nat} (w : BitVec n) (i : Nat) : Bool := w.getLsbD i

/-- A Boolean as 0 or 1. -/
def b2n (b : Bool) : Nat := if b then 1 else 0

/-- The value `v` placed at bit `lo` of a register. -/
def fieldAt (lo v : Nat) : Nat := v * 2 ^ lo

/-- The `size` bytes at byte offset `off` of a little-endian body (R426). -/
def fld (body : BitVec 768) (off size : Nat) : Nat := (body.toNat / 2 ^ (8 * off)) % 2 ^ (8 * size)

/-- Little-endian number of a list of bytes (R426, R669). -/
def leNat : List Byte → Nat
  | [] => 0
  | b :: t => b.toNat + 256 * leNat t

/-- Most significant byte first (R384). -/
def beNat (l : List Byte) : Nat := leNat l.reverse

/-- The `size` bytes at offset `off` of a byte list, little-endian. -/
def leAt (l : List Byte) (off size : Nat) : Nat := leNat ((l.drop off).take size)

/-- A number as `n` little-endian bytes. -/
def leBytes : Nat → Nat → List Byte
  | 0, _ => []
  | n + 1, v => BitVec.ofNat 8 v :: leBytes n (v / 256)

/-- A number as `n` bytes, most significant first. -/
def beBytes (n v : Nat) : List Byte := (leBytes n v).reverse

/-- The bits of a byte list, each byte most significant bit first. -/
def bytesBits (l : List Byte) : List Bool :=
  l.flatMap (fun b => (List.range 8).map (fun i => b.getLsbD (7 - i)))

/-- The bits of a word, most significant first. -/
def msbBits {n : Nat} (w : BitVec n) : List Bool := (List.range n).map (fun i => w.getLsbD (n - 1 - i))

/-- The number spelled by bits, most significant first. -/
def ofMsb (l : List Bool) : Nat := l.foldl (fun a b => 2 * a + b2n b) 0

/-- One step of a CRC register of width `n` with generator `g`, no reflection. -/
def crcStep {n : Nat} (g : BitVec n) (c : BitVec n) (b : Bool) : BitVec n :=
  let fb := xor (c.getLsbD (n - 1)) b
  if fb then (c <<< 1) ^^^ g else c <<< 1

/-- HCRC: CRC-16, generator 0x8BB7, initial 0, over bits in transmission order (R100). -/
def crc16 (l : List Bool) : BitVec 16 := l.foldl (crcStep 0x8BB7#16) 0

/-- CRC-8, generator x^8 + x^2 + x + 1, from a given start (R69, R148, R193). -/
def crc8 (init : BitVec 8) (l : List Bool) : BitVec 8 := l.foldl (crcStep 0x07#8) init

/-- The reflection of a 32-bit register. -/
def reflect32 (w : BitVec 32) : BitVec 32 := BitVec.ofNat 32 (ofMsb ((List.range 32).map (fun i => w.getLsbD i)))

/-- CRC-32 as the IEEE 802.3 clause 3 frame check sequence: each byte least significant bit first, register all ones,
reflected and inverted at the end (R378, R422, R623). -/
def crc32 (l : List Byte) : BitVec 32 :=
  let bs := l.flatMap (fun b => (List.range 8).map (fun i => b.getLsbD i))
  ~~~ (reflect32 (bs.foldl (crcStep 0x04C11DB7#32) 0xFFFFFFFF#32))

/-- The 24-bit short form restored to the full count nearest to the local one; exactly half a wrap counts as older
(R38). -/
def extend24 (v : BitVec 24) (loc : Nat) : Int :=
  let d : Int := ((v.toNat : Int) - (loc : Int)) % 16777216
  if d ≥ 8388608 then (loc : Int) + d - 16777216 else (loc : Int) + d

/-- Difference of two 24-bit counts, modulo 2^24. -/
def diff24 (a b : BitVec 24) : Nat := (a - b).toNat

/-- ceil(a / b). -/
def ceilDiv (a b : Nat) : Nat := (a + b - 1) / b

/-- A count saturating at `m`. -/
def satInc (m n : Nat) : Nat := if n < m then n + 1 else m

/-- BIP over words of `n` bits: the bitwise XOR of the words into which the bits divide (R107, R149). -/
def bipOf (n : Nat) : Nat → List Bool → BitVec n → BitVec n
  | 0, _, acc => acc
  | k + 1, l, acc => bipOf n k (l.drop n) (acc ^^^ BitVec.ofNat n (ofMsb (l.take n)))

/-- The number of one bits. -/
def popCount {n : Nat} (w : BitVec n) : Nat := ((List.range n).filter (fun i => w.getLsbD i)).length

/-- Bits of 12-bit words in transmission order (R142). -/
def wordsBits (l : List SlotWord) : List Bool := l.flatMap msbBits

/-- 12-bit words from bits in transmission order; a last short word is padded with zeros. -/
def bitsWords : Nat → List Bool → List SlotWord
  | 0, _ => []
  | k + 1, l => BitVec.ofNat 12 (ofMsb ((l.take 12) ++ List.replicate (12 - (l.take 12).length) false)) ::
      bitsWords k (l.drop 12)

/-- A 48-bit signed value as its register pair: low word, and high word with bit 47 repeated (R641). -/
def lo48 (v : Int) : Word := BitVec.ofInt 32 v
def hi48 (v : Int) : Word := BitVec.ofInt 32 (v / 4294967296)

/-- Pieces of at most 1,472 bytes with their offsets (R350, R364). -/
def pieces : Nat → Nat → List Byte → List (Nat × List Byte)
  | 0, _, _ => []
  | n + 1, off, l => if l.isEmpty then [] else (off, l.take 1472) :: pieces n (off + 1472) (l.drop 1472)

/-- Insert into a sorted list, before the first entry it may stand before. -/
def insertBy {α : Type} (le : α → α → Bool) (a : α) : List α → List α
  | [] => [a]
  | b :: l => if le a b then a :: b :: l else b :: insertBy le a l

/-- A list in the order of `le`; equal entries keep their order. -/
def sortBy {α : Type} (le : α → α → Bool) : List α → List α
  | [] => []
  | a :: l => insertBy le a (sortBy le l)

end Sys2Proof.Machine
end

