-- ==== Sys2Proof/Machine/RegMap.lean ====
section
/-! DEFINITION. The register map (18_register_map): for each address its fields that software writes, by access type,
and its reset value. Fields the device itself drives are computed in RegRead. -/
namespace Sys2Proof.Machine

/-- Writable bits of a register: read-write until SEAL, read-write, write 1 to clear; and the reset value of the
read-write ones (R9, R642). -/
structure RegSpec where
  rws : Word := 0
  rw : Word := 0
  w1c : Word := 0
  rst : Word := 0
deriving DecidableEq, Repr

namespace Reg
def fabCfg := 0x40
def fabId := 0x44
def fabMgr := 0x48
def tickFault := 0x20
def rstStatus := 0x80
def rstCtrl := 0x88
def blkRst := 0x8C
def grpRst := 0x90
def portCfg (p : Nat) := 0x100000 + 0x40 * p
def peerCfg := 0x200008
def tnCtrl := 0x300004
def tnStatus := 0x300008
def tnLoadLo := 0x30000C
def tnLoadHi := 0x300010
def tnLo := 0x300014
def selCfg := 0x300040
def qualCfg := 0x300044
def loopCfg := 0x300048
def transCfg := 0x30004C
def qlCfg := 0x300050
def hoCfg := 0x300054
def ppsCfg := 0x300058
def frTrim := 0x30005C
def refPrio (k : Nat) := 0x300080 + 4 * k
def refinCfg (j : Nat) := 0x3000C0 + 4 * j
def srcStatus (i : Nat) := 0x300100 + 8 * i
def laneCfg (n : Nat) := 0x400000 + 0x100 * n
def laneStatus (n : Nat) := 0x400004 + 0x100 * n
def grpCfg (g : Nat) := 0x420000 + 0x40 * g
def grpStatus (g : Nat) := 0x420004 + 0x40 * g
def grpTmo (g : Nat) := 0x420008 + 0x40 * g
def grpLadCfg (g : Nat) := 0x42000C + 0x40 * g
def btCtrl := 0x430000
def btStatus := 0x430004
def btBuf := 0x440000
def frmGrp (g : Nat) := 0x500000 + 0x1000 * g
def failInt (g : Nat) := 0x500004 + 0x1000 * g
def fabGrp (g : Nat) := 0x500008 + 0x1000 * g
def fabStatus (g : Nat) := 0x50000C + 0x1000 * g
def frmLane (n : Nat) := 0x500800 + 0x1000 * (n / 8) + 0x100 * (n % 8)
def frmStatus (n : Nat) := frmLane n + 4
def defInt (n d : Nat) := frmLane n + 8 + 4 * d
def whlInt (d : Nat) := 0x580000 + 4 * d
def excThr := 0x580020
def mapStatus := 0x600000
def idleCfg := 0x600008
def flipStatus := 0x600010
def arbFreeze := 0x700000
def faultThr := 0x700008
def stackStatus (t : Nat) := 0x700100 + 0x10 * t
def mateCfg := 0x800000
def mateStatus := 0x800004
def mateCtrl := 0x800008
def mbxBase (c : Nat) := 0x900000 + 0x80 * c
def mbxBind (c : Nat) := mbxBase c + 0x40
def mbxFab (c : Nat) := mbxBase c + 0x44
def mbxStatus (c : Nat) := mbxBase c + 0x48
def mbxCtrl (c : Nat) := mbxBase c + 0x4C
def bankOwner (n : Nat) := 0xA00000 + 4 * n
def dumpStatus (r : Nat) := 0xB00000 + 4 * r
def nrgCfg := 0xC00018
def nrgStatus := 0xC0001C
def rckErr := 0xD00000
def whkCfg := 0xD00004
end Reg

/-- Whether address `a` is element of an array at `base` with `count` elements every `stride` bytes. -/
def inArr (a base count stride : Nat) : Bool :=
  decide (base ≤ a) && decide ((a - base) % stride = 0) && decide ((a - base) / stride < count)

/-- The writable fields of the register at a byte address (18_register_map). An address assigned to no register has
none (R640). -/
def regSpec (a : Nat) : RegSpec :=
  if a < 0x100000 then
    if a = Reg.fabCfg then { rws := 0xE000FFFF, rst := 0x1F40 }
    else if a = Reg.fabId ∨ a = Reg.fabMgr then { rws := 0xFFFFFFFF }
    else if a = Reg.tickFault then { w1c := 0xFF }
    else if a = Reg.rstStatus then { w1c := 0x06000000 }
    else {}
  else if a < 0x200000 then
    if inArr a (Reg.portCfg 0) 2 0x40 then { rws := 0x3F } else {}
  else if a < 0x300000 then
    if a = Reg.peerCfg then { rws := 1, rst := 1 } else {}
  else if a < 0x400000 then
    if a = Reg.tnCtrl then { rws := 7 }
    else if a = Reg.tnStatus then { w1c := 1 }
    else if a = Reg.tnLoadLo ∨ a = Reg.tnLoadHi then { rws := 0xFFFFFFFF }
    else if a = Reg.selCfg then { rws := 0xCFFFFFFF, rst := 0x412C000A }
    else if a = Reg.qualCfg then { rws := 0x7FF, rst := 0x78 }
    else if a = Reg.loopCfg then { rws := 0xFFFF3FFF, rst := 0x003C0064 }
    else if a = Reg.transCfg then { rws := 0xFFFF, rst := 1 }
    else if a = Reg.qlCfg then { rws := 0xFF, rst := 0xBB }
    else if a = Reg.hoCfg then { rws := 0xFFFFF, rst := 0x15180 }
    else if a = Reg.ppsCfg then { rws := 0x1FFFFF }
    else if a = Reg.frTrim then { rws := 0xFFFFFFFF }
    else if inArr a (Reg.refPrio 0) 16 4 then { rws := 0x007F0F0F }
    else if inArr a (Reg.refinCfg 0) 4 4 then { rws := 0x3FFFFFFF, rst := 0x00989680 }
    else if inArr a (Reg.srcStatus 0) 38 8 then { w1c := 0x000C0000 }
    else {}
  else if a < 0x500000 then
    if inArr a (Reg.grpCfg 0) 32 0x40 then { rws := 0xC0000000, rst := 0x80000000 }
    else if inArr a (Reg.grpStatus 0) 32 0x40 then { w1c := 0x00600000 }
    else if inArr a (Reg.grpTmo 0) 32 0x40 then { rws := 0xFFFFFBFF, rst := 0x1440400A }
    else if inArr a (Reg.grpLadCfg 0) 32 0x40 then { rws := 0xFFFF, rst := 0x7D0 }
    else {}
  else if a < 0x520000 then
    let o := (a - 0x500000) % 0x1000
    let l := (o - 0x800) % 0x100
    if o = 0 then { rws := 1 }
    else if o = 4 then { rws := 0xFFFFFFFF, rst := 0x09C42710 }
    else if o = 8 then { rws := 0xC0FFFFFF }
    else if o = 0xC then { w1c := 0x0E000000 }
    else if o < 0x800 then {}
    else if l = 0 then { rws := 2, rw := 1 }
    else if l = 4 then { w1c := 0x003C0000 }
    else if l = 8 then { rws := 0xFFFFFFFF, rst := 0x00100320 }
    else if l = 0xC then { rws := 0xFFFFFFFF, rst := 0x00010010 }
    else if l = 0x10 ∨ l = 0x14 then { rws := 0xFFFFFFFF, rst := 0x00180018 }
    else {}
  else if a < 0x600000 then
    if a = Reg.whlInt 0 ∨ a = Reg.whlInt 2 then { rws := 0xFFFFFFFF, rst := 0x00030003 }
    else if a = Reg.whlInt 1 then { rws := 0xFFFFFFFF, rst := 0x00010002 }
    else if a = Reg.whlInt 3 then { rws := 0xFFFFFFFF, rst := 0x00010001 }
    else if a = Reg.whlInt 4 then { rws := 0xFFFFFFFF, rst := 0x00040004 }
    else if a = Reg.whlInt 5 then { rws := 0xFFFFFFFF, rst := 0x0001000A }
    else if a = Reg.excThr then { rws := 0xFF, rst := 0xC }
    else {}
  else if a < 0x700000 then
    if a = Reg.mapStatus then { w1c := 0xC0000000 }
    else if a = Reg.idleCfg then { rws := 0xFFF }
    else if a = Reg.flipStatus then { w1c := 0x20000000 }
    else {}
  else if a < 0x800000 then
    if a = Reg.arbFreeze then { rw := 0x3F }
    else if a = Reg.faultThr then { rws := 0xFFFF, rst := 0x10 }
    else if inArr a (Reg.stackStatus 0) 6 0x10 then { w1c := 0x20000000 }
    else {}
  else if a < 0x900000 then
    if a = Reg.mateCfg then { rws := 0xF000FFFF, rst := 0x100003E8 }
    else if a = Reg.mateStatus then { w1c := 0x00180000 }
    else {}
  else if a < 0xA00000 then
    if inArr a (Reg.mbxBind 0) 64 0x80 ∨ inArr a (Reg.mbxFab 0) 64 0x80 then { rws := 0xFFFFFFFF }
    else if inArr a (Reg.mbxStatus 0) 64 0x80 then { w1c := 0x31800000 }
    else {}
  else if a < 0xC00000 then
    if inArr a (Reg.dumpStatus 0) 16 4 then { w1c := 0x40000000 } else {}
  else if a < 0xD00000 then
    if a = Reg.nrgCfg then { rws := 0x8000FFFF, rst := 0x6414 }
    else if a = Reg.nrgStatus then { w1c := 0x20000000 }
    else {}
  else if a < 0xE00000 then
    if a = Reg.rckErr then { w1c := 0x80000000 }
    else if a = Reg.whkCfg then { rw := 0x1FF, rst := 0x1FF }
    else {}
  else {}

/-- The read-write part of a register in force. -/
def State.reg (s : State) (a : Nat) : Word := s.regs.look (regSpec a).rst a

/-- Write the read-write part of a register. -/
def State.setReg (s : State) (a : Nat) (v : Word) : State :=
  { s with regs := Tab.put (regSpec a).rst s.regs a v }

/-- The sticky bits of a register. -/
def State.stick (s : State) (a : Nat) : Word := s.sticky.look 0 a

/-- Set sticky bits of a register. -/
def State.setSticky (s : State) (a : Nat) (m : Word) : State :=
  { s with sticky := Tab.put 0 s.sticky a (s.stick a ||| m) }

/-- Clear sticky bits of a register. -/
def State.clrSticky (s : State) (a : Nat) (m : Word) : State :=
  { s with sticky := Tab.put 0 s.sticky a (s.stick a &&& ~~~m) }

/-- The registers that hold at least one RWS field, in ascending address (R477); SDS_BT_BUF is not among them. -/
def rwsAddrs : List Nat :=
  [Reg.fabCfg, Reg.fabId, Reg.fabMgr] ++ [Reg.portCfg 0, Reg.portCfg 1] ++ [Reg.peerCfg]
  ++ [Reg.tnCtrl, Reg.tnLoadLo, Reg.tnLoadHi, Reg.selCfg, Reg.qualCfg, Reg.loopCfg, Reg.transCfg, Reg.qlCfg,
      Reg.hoCfg, Reg.ppsCfg, Reg.frTrim]
  ++ (List.range 16).map Reg.refPrio ++ (List.range 4).map Reg.refinCfg
  ++ (List.range 32).flatMap (fun g => [Reg.grpCfg g, Reg.grpTmo g, Reg.grpLadCfg g])
  ++ [Reg.btCtrl]
  ++ (List.range 32).flatMap (fun g => [Reg.frmGrp g, Reg.failInt g, Reg.fabGrp g]
      ++ (List.range 8).flatMap (fun i => Reg.frmLane (8 * g + i) :: (List.range 4).map (Reg.defInt (8 * g + i))))
  ++ (List.range 6).map Reg.whlInt ++ [Reg.excThr, Reg.idleCfg, Reg.faultThr, Reg.mateCfg]
  ++ (List.range 64).flatMap (fun c => [Reg.mbxBind c, Reg.mbxFab c]) ++ [Reg.nrgCfg]

/-- The values of the RWS fields, every other bit 0. -/
def State.rwsVals (s : State) : List Word := rwsAddrs.map (fun a => s.reg a &&& (regSpec a).rws)

/-- The sealed set-up image: the register table with its RWS fields only (R621). -/
def State.rwsImage (s : State) : Tab Word :=
  s.regs.filterMap (fun p =>
    let sp := regSpec p.1
    let v := (p.2 &&& sp.rws) ||| (sp.rst &&& ~~~sp.rws)
    if sp.rws = 0 ∨ v = sp.rst then none else some (p.1, v))

end Sys2Proof.Machine
end

