-- ==== Sys2Proof/Machine/Flags.lean ====
section
/-! DEFINITION. Counters with their WRAP bits (15_counters) and the fields of set-up registers that rules name. -/
namespace Sys2Proof.Machine

/-- Key of counter `j` of an object of a scope (R523, R570). -/
def cKey (scope obj j : Nat) : Nat := (scope * 16777216 + obj) * 32 + j

/-- Counters per object of a scope (R570). -/
def scopeNc : Nat → Nat
  | 0 => 7 | 1 => 6 | 2 => 5 | 3 => 7 | 4 => 6 | 5 => 18 | 6 => 9 | 7 => 9 | _ => 0

/-- Objects of a scope (R523). -/
def scopeObjs : Nat → Nat
  | 0 => 256 | 1 => 65536 | 2 => 32768 | 3 => 16 | 4 => 6 | 5 => 1 | 6 => 2 | 7 => 1 | _ => 0

/-- Width of the counters of a scope: 32-bit monitoring or 48-bit performance counters (R566, R570). -/
def scopeWidth (scope : Nat) : Nat := if scope ≤ 2 then 32 else 48

/-- A counter as it stands. -/
def State.counter (s : State) (scope obj j : Nat) : Counter := s.cnt.live.look {} (cKey scope obj j)

/-- Put a counter. -/
def State.setCounter (s : State) (scope obj j : Nat) (c : Counter) : State :=
  { s with cnt := { s.cnt with live := Tab.put {} s.cnt.live (cKey scope obj j) c } }

/-- The counter `c` of width `w` after `n` more events: it wraps from its largest value to 0 and then sets WRAP and
WRAP_SEC (R566). -/
def Counter.add (w : Nat) (c : Counter) (n : Nat) : Counter :=
  if c.v + n < 2 ^ w then { c with v := c.v + n }
  else { v := (c.v + n) % 2 ^ w, wrap := true, wrapSec := true }

/-- Count `n` events (R567). -/
def State.count (s : State) (scope obj j n : Nat) : State :=
  if n = 0 then s else s.setCounter scope obj j ((s.counter scope obj j).add (scopeWidth scope) n)

/-- Counters without those of an object. -/
def dropObj (scope obj : Nat) (t : Tab Counter) : Tab Counter :=
  t.filter (fun p => decide (p.1 < cKey scope obj 0) || decide (cKey scope obj 0 + 32 ≤ p.1))

/-- Clear every counter of an object, WRAP bits included, in this tick (R568). -/
def State.clearCounters (s : State) (scope obj : Nat) : State :=
  { s with cnt := { s.cnt with live := dropObj scope obj s.cnt.live, start := dropObj scope obj s.cnt.start } }

/-- Preset a counter in cycle 1: the tick begins with the value, and increments of the tick count on from it (R577). -/
def State.presetCounter (s : State) (scope obj j v : Nat) : State :=
  let w := scopeWidth scope
  let k := cKey scope obj j
  let inc := ((s.cnt.live.look {} k).v + 2 ^ w - (s.cnt.start.look {} k).v) % 2 ^ w
  let c : Counter := { v := v }
  { s with cnt := { s.cnt with start := Tab.put {} s.cnt.start k c, live := Tab.put {} s.cnt.live k (c.add w inc) } }

/-- The counter word that leaves the device (R569). -/
def Counter.word (c : Counter) : Nat :=
  b2n c.wrap * 2 ^ 63 + b2n c.wrapSec * 2 ^ 62 + c.v % 2 ^ 48

/-- SDS_GRP_CFG[g].LEAD (R71) and FALLBACK_POLICY (R75). -/
def State.grpLead (s : State) (g : Nat) : Bool := bit (s.reg (Reg.grpCfg g)) 31
def State.grpIsolate (s : State) (g : Nat) : Bool := bit (s.reg (Reg.grpCfg g)) 30

/-- A field held within its range: below acts as the lowest, above as the highest value (18_register_map). -/
def clamp (lo hi v : Nat) : Nat := if v < lo then lo else if hi < v then hi else v

/-- Ladder timers in ticks (R68). -/
def State.tAlign (s : State) (g : Nat) : Nat := 8000 * clamp 1 100 (bits (s.reg (Reg.grpTmo g)) 31 25)
def State.tNeg (s : State) (g : Nat) : Nat := 1000 * clamp 1 80 (bits (s.reg (Reg.grpTmo g)) 24 18)
def State.tVerify (s : State) (g : Nat) : Nat := 1000 * clamp 2 80 (bits (s.reg (Reg.grpTmo g)) 17 11)
def State.dropTime (s : State) (g : Nat) : Nat := 8000 * clamp 1 1000 (bits (s.reg (Reg.grpTmo g)) 9 0)
def State.corrMax (s : State) (g : Nat) : Nat := bits (s.reg (Reg.grpLadCfg g)) 15 0

/-- A written 0 acts as 1 (R122, R175). -/
def atLeast1 (n : Nat) : Nat := if n = 0 then 1 else n

/-- Integration counts of lane defect `d` (R122) and of Wheel defect `d` (R175). -/
def State.laneSet (s : State) (n d : Nat) : Nat := atLeast1 (bits (s.reg (Reg.defInt n d)) 31 16)
def State.laneClr (s : State) (n d : Nat) : Nat := atLeast1 (bits (s.reg (Reg.defInt n d)) 15 0)
def State.whlSet (s : State) (d : Nat) : Nat := atLeast1 (bits (s.reg (Reg.whlInt d)) 31 16)
def State.whlClr (s : State) (d : Nat) : Nat := atLeast1 (bits (s.reg (Reg.whlInt d)) 15 0)

/-- FAIL_SET and FAIL_CLR in ticks (R123). -/
def State.failSet (s : State) (g : Nat) : Nat := 8000 * atLeast1 (bits (s.reg (Reg.failInt g)) 31 16)
def State.failClr (s : State) (g : Nat) : Nat := 8000 * atLeast1 (bits (s.reg (Reg.failInt g)) 15 0)

/-- FRM_GRP_CFG[g].TIMING: the group is foreign-timed (R127). -/
def State.foreign (s : State) (g : Nat) : Bool := bit (s.reg (Reg.frmGrp g)) 0
/-- FRM_GRP_FAB_CFG[g].DIR, and ASYM as a signed number (R345). -/
def State.fabDir (s : State) (g : Nat) : Nat := bits (s.reg (Reg.fabGrp g)) 31 30
def State.fabAsym (s : State) (g : Nat) : Int := ((s.reg (Reg.fabGrp g)).setWidth 24).toInt
/-- FRM_LANE_CFG[n].FABRIC and FORCE_AIS (R106, R126). -/
def State.laneFabric (s : State) (n : Nat) : Bool := bit (s.reg (Reg.frmLane n)) 1
def State.forceAis (s : State) (n : Nat) : Bool := bit (s.reg (Reg.frmLane n)) 0

/-- GLB_FAB_CFG: ROLE with 3 acting as 0, LOCAL_PORTS, RETRY (R342). -/
def State.fabRole (s : State) : Nat :=
  let r := bits (s.reg Reg.fabCfg) 31 30
  if r = 3 then 0 else r
def State.localPorts (s : State) : Bool := bit (s.reg Reg.fabCfg) 29
def State.retry (s : State) : Nat := clamp 1000 65535 (bits (s.reg Reg.fabCfg) 15 0)
def State.fabId (s : State) : Word := s.reg Reg.fabId
def State.mgrId (s : State) : Word := s.reg Reg.fabMgr

/-- CAL_MATE_CFG: PLANE with 3 acting as 0, PRIMARY, REVERT, SETTLE in ticks (R374). -/
def State.plane (s : State) : Nat :=
  let r := bits (s.reg Reg.mateCfg) 31 30
  if r = 3 then 0 else r
def State.primaryCfg (s : State) : Bool := bit (s.reg Reg.mateCfg) 29
def State.mateRevert (s : State) : Bool := bit (s.reg Reg.mateCfg) 28
def State.settle (s : State) : Nat := 8000 * atLeast1 (bits (s.reg Reg.mateCfg) 15 0)

/-- STR_TN_CTRL.SRC (R26). -/
def State.tnSrc (s : State) : Nat := bits (s.reg Reg.tnCtrl) 2 0

/-- CAV_ARB_FREEZE bit of stack `t` (R288). -/
def State.frozen (s : State) (t : Nat) : Bool := bit (s.reg Reg.arbFreeze) t

end Sys2Proof.Machine
end

