-- ==== Sys2Proof/Machine/Ops.lean ====
section
/-! DEFINITION. The operations that the meanings share: access to lanes, groups, Wheels, pairs, ring sets and queue
pairs; events; RDMA operations; the journal and completions; roles and yields; time. -/
namespace Sys2Proof.Machine

/-! ### Reading and changing one element of a table -/

def State.lane (s : State) (n : Nat) : Lane := s.sds.lane.look {} n
def State.setLane (s : State) (n : Nat) (l : Lane) : State :=
  { s with sds := { s.sds with lane := Tab.put {} s.sds.lane n l } }
def State.group (s : State) (g : Nat) : Group := s.sds.group.look {} g
def State.setGroup (s : State) (g : Nat) (x : Group) : State :=
  { s with sds := { s.sds with group := Tab.put {} s.sds.group g x } }
def State.rx (s : State) (n : Nat) : RxLane := s.frm.rx.look {} n
def State.setRx (s : State) (n : Nat) (x : RxLane) : State :=
  { s with frm := { s.frm with rx := Tab.put {} s.frm.rx n x } }
def State.tx (s : State) (n : Nat) : TxLane := s.frm.tx.look {} n
def State.setTx (s : State) (n : Nat) (x : TxLane) : State :=
  { s with frm := { s.frm with tx := Tab.put {} s.frm.tx n x } }
def State.wheel (s : State) (w : Nat) : Wheel := s.whl.look {} w
def State.setWheel (s : State) (w : Nat) (x : Wheel) : State := { s with whl := Tab.put {} s.whl w x }
def State.pair (s : State) (p : Nat) : Pair := s.col.pair.look {} p
def State.setPair (s : State) (p : Nat) (x : Pair) : State :=
  { s with col := { s.col with pair := Tab.put {} s.col.pair p x } }
def State.stack (s : State) (t : Nat) : Stack := s.col.stack.look {} t
def State.setStack (s : State) (t : Nat) (x : Stack) : State :=
  { s with col := { s.col with stack := Tab.put {} s.col.stack t x } }
def State.port (s : State) (p : Nat) : Port := s.mgp.port.look {} p
def State.setPort (s : State) (p : Nat) (x : Port) : State :=
  { s with mgp := { s.mgp with port := Tab.put {} s.mgp.port p x } }
def State.qp (s : State) (q : Nat) : Qp := s.mgp.qp.look {} q
def State.setQp (s : State) (q : Nat) (x : Qp) : State :=
  { s with mgp := { s.mgp with qp := Tab.put {} s.mgp.qp q x } }
def State.ring (s : State) (r : Nat) : Ring := s.mgp.ring.look {} r
def State.setRing (s : State) (r : Nat) (x : Ring) : State :=
  { s with mgp := { s.mgp with ring := Tab.put {} s.mgp.ring r x } }
def State.src (s : State) (i : Nat) : Src := s.str.srcs.look {} i
def State.setSrc (s : State) (i : Nat) (x : Src) : State :=
  { s with str := { s.str with srcs := Tab.put {} s.str.srcs i x } }
def State.block (s : State) (b : Nat) : Block := s.prn.block.look {} b
def State.part (s : State) (p : Nat) : Part := s.prn.part.look {} p
def State.setPart (s : State) (p : Nat) (x : Part) : State :=
  { s with prn := { s.prn with part := Tab.put {} s.prn.part p x } }
def State.mbox (s : State) (c : Nat) : Mbx := s.mbx.look {} c
def State.setMbox (s : State) (c : Nat) (x : Mbx) : State := { s with mbx := Tab.put {} s.mbx c x }
def State.whisk (s : State) (m : Nat) : Whisk := s.rck.whk.look {} m
def State.setWhisk (s : State) (m : Nat) (x : Whisk) : State :=
  { s with rck := { s.rck with whk := Tab.put {} s.rck.whk m x } }
def State.dump (s : State) (r : Nat) : Dump := s.cnt.dump.look {} r
def State.setDump (s : State) (r : Nat) (x : Dump) : State :=
  { s with cnt := { s.cnt with dump := Tab.put {} s.cnt.dump r x } }

/-- The link state of a fabric group or of Calrin. -/
def State.plink (s : State) : Link → PeerLink
  | .group g => s.fab.link.look {} g
  | .calrin => s.fab.calrin
def State.setPlink (s : State) (l : Link) (x : PeerLink) : State :=
  match l with
  | .group g => { s with fab := { s.fab with link := Tab.put {} s.fab.link g x } }
  | .calrin => { s with fab := { s.fab with calrin := x } }

/-! ### When the device acts -/

/-- The device is out of reset with its firmware image loaded (R624). -/
def State.up (s : State) : Bool := decide (s.pwr.phase = .running)
/-- Control cores and ring engine run: no control restart is under way (R629). -/
def State.fw (s : State) : Bool := s.up && s.pwr.restart.isNone
/-- The outcome of a command that acts only while the device is out of reset. -/
def whenUp (s t : State) : Out := .next (if s.up then t else s)
/-- The outcome of a command that acts only while firmware and ring engine run. -/
def whenFw (s t : State) : Out := .next (if s.fw then t else s)

/-- The count that places period boundaries: TN, or the Starter's own ticks before TN is valid (R316, R597). -/
def State.secClock (s : State) : Nat := if s.clk.tnValid then s.clk.tn else s.clk.tick
/-- The present tick lies on a selection-period boundary (R33). -/
def State.atPeriod (s : State) : Bool := decide (s.secClock % 8000 = 0)
/-- The present tick lies on a second boundary; only once TN is valid (R33, R579). -/
def State.atSecond (s : State) : Bool := s.clk.tnValid && decide (s.clk.tn % 8000000 = 0)
/-- TN as a completion or event carries it. -/
def State.tnNow (s : State) : Nat := if s.clk.tnValid then s.clk.tn else 0
/-- An action named for tick `n` is due now: in that tick and in no other (R4, R18, R39, R42). -/
def State.dueAt (s : State) (n : Nat) : Bool := s.clk.tnValid && decide (n = s.tnNow)
/-- The work that unit `u` of R23 has left in this tick is discarded. -/
def State.drops (s : State) (u : Nat) : Bool := decide (u ∈ s.clk.dropped)

/-! ### Free values -/

/-- Take the next index of free values (log 5). -/
def State.draw (s : State) : Nat × State := (s.fresh, { s with fresh := s.fresh + 1 })

/-! ### Mate pair -/

/-- The device is a member of a mate pair (R374). -/
def State.mated (s : State) : Bool := decide (s.plane ≠ 0)
/-- The device applies its mate's records: STANDBY or SYNCING (R388, R401). -/
def State.copies (s : State) : Bool := decide (s.cal.role = .standby) || decide (s.cal.role = .syncing)
/-- ACTIVE with a mate that must acknowledge (R391). -/
def State.needsAck (s : State) : Bool := decide (s.cal.role = .active) && !s.cal.lone
/-- The device accepts and posts: standalone, or ACTIVE and not about to leave the role (R391, R393). -/
def State.accepts (s : State) : Bool :=
  decide (s.cal.role = .standalone) || (decide (s.cal.role = .active) && s.cal.yieldAt.isNone)
/-- The device may write host memory: it accepts and posts, no takeover hold runs (R409), firmware runs (R629). -/
def State.writesHost (s : State) : Bool := s.accepts && s.cal.holdUntil.isNone && s.fw

/-- Change the record under construction; only an ACTIVE device has one (R384). -/
def State.recd (s : State) (f : LRec → LRec) : State :=
  if s.cal.role = .active then { s with cal := { s.cal with cur := f s.cal.cur } } else s
/-- Place an event of R386 in the record. -/
def State.recEvt (s : State) (kind object tick value : Nat) : State :=
  s.recd (fun r => { r with evts := r.evts ++ [⟨kind, object, tick, value⟩] })

/-! ### Ring sets, queue pairs and RDMA -/

/-- The ring set bound to a principal (R424). -/
def State.ringOf (s : State) (p : Nat) : Option Nat :=
  (List.range 16).find? (fun r => decide ((s.ring r).st ≠ .unbound) && decide ((s.ring r).prin = p))

/-- A queue pair is working: bound, not in error, its port has LINK (R441). -/
def State.qpWorks (s : State) (q : Nat) : Bool :=
  (s.qp q).bound && !(s.qp q).err && (s.port (s.qp q).port).link

/-- The working queue pair of a ring set: the lowest-numbered of its two that works (R441). -/
def State.workQp (s : State) (r : Nat) : Option Nat :=
  let a := (s.ring r).qpLo
  let b := (s.ring r).qpHi
  if s.qpWorks a then some a else if s.qpWorks b then some b else none

/-- Bytes per packet of a queue pair. -/
def Qp.mtuBytes (q : Qp) : Nat := if q.mtu = 0 then 1024 else 4096

/-- Issue an RDMA operation for a ring set on its working queue pair; without one it waits on the first (R441). -/
def State.issue (s : State) (r : Nat) (op : RdmaOp) : State :=
  let q := (s.workQp r).getD (s.ring r).qpLo
  let x := s.qp q
  let s := s.setQp q { x with ops := x.ops ++ [op], timer := if x.ops.isEmpty then s.clk.tick else x.timer }
  s.count 6 x.port 1 (ceilDiv (max op.bytes.length 1) x.mtuBytes)

/-- PHASE of the entry written at a free-running index (R433). -/
def phaseBit (idx size : Nat) : Nat := (idx / size + 1) % 2

/-- The 32 bytes of a completion entry (R432). -/
def cmpBytes (c : CmpEntry) (phase : Nat) : List Byte :=
  leBytes 8 c.serial ++ leBytes 1 c.opcode ++ leBytes 1 c.status ++ leBytes 1 (phase + 2 * b2n c.remote)
  ++ leBytes 1 c.ring ++ leBytes 4 c.device.toNat ++ leBytes 8 c.tick ++ leBytes 8 c.result.toNat

/-- The 32 bytes of an event entry (R434). -/
def evtBytes (e : EvtEntry) (phase eseq : Nat) : List Byte :=
  leBytes 2 e.code ++ leBytes 1 (phase + 2 * b2n e.loop + 4 * b2n e.remote) ++ [0]
  ++ leBytes 4 e.object ++ leBytes 8 e.tn ++ leBytes 8 e.value.toNat ++ leBytes 4 e.device.toNat ++ leBytes 4 eseq

/-- The 32 bytes of a ring set's index record (R428). -/
def Ring.indexBytes (x : Ring) : List Byte :=
  let st : Nat := match x.st with | .busy => 1 | .halted => 2 | _ => 0
  leBytes 4 x.cmdCons ++ leBytes 4 x.cmpProd ++ leBytes 4 x.evtProd ++ leBytes 4 x.evtLost
  ++ leBytes 4 (st + 16 * (if st = 0 then 0 else x.cause)) ++ leBytes 4 0 ++ leBytes 8 x.expect

/-- Free slots of the completion ring, by the last CMP_CONS read (R442). -/
def Ring.cmpFree (x : Ring) : Nat := x.cmpSize - (x.cmpProd - x.cmpCons)
/-- The ring set's share of the overflow queue holds a completion that finds no free slot (R442, R443). -/
def Ring.overflowing (x : Ring) : Bool := decide (x.cmpFree < x.overflow.length)

/-- Write an event into the event ring of ring set `r` (R435). The bootstrap ring has none (R436). -/
def State.putEvent (s : State) (r : Nat) (e : EvtEntry) : State :=
  let x := s.ring r
  if x.st = .unbound ∨ x.boot then s
  else
    let lost := if x.evtProd - x.evtCons ≥ x.evtSize then 1 else 0
    let s := s.issue r ⟨.event r, x.evtBase + 32 * (x.evtProd % x.evtSize), x.hkeys.getD 2 0,
      evtBytes e (phaseBit x.evtProd x.evtSize) x.eseq, 32⟩
    let s := s.setRing r { x with evtProd := x.evtProd + 1, eseq := x.eseq + 1, evtLost := x.evtLost + lost }
    (s.recd (fun c => { c with rings := c.rings ++ [⟨r, 2, x.evtProd + 1⟩] })).count 3 r 6 1

/-- Deliver an event to the ring sets of principals; a principal without one receives nothing (R424). -/
def State.deliver (s : State) (ps : List Nat) (e : EvtEntry) : State :=
  ps.foldl (fun s p => match s.ringOf p with | some r => s.putEvent r e | none => s) s

/-- Hold an event for later, at most 4,096; beyond that each ring of a device that accepts counts it as lost (R629). -/
def State.holdEvent (s : State) (ps : List Nat) (e : EvtEntry) : State :=
  if s.mgp.held.length < 4096 then { s with mgp := { s.mgp with held := s.mgp.held ++ [(ps, e)] } }
  else if s.accepts then ps.foldl (fun s p => match s.ringOf p with
    | some r => s.setRing r { s.ring r with evtLost := (s.ring r).evtLost + 1 } | none => s) s
  else s

/-- A fabric message originated by this device; FROM_MATE marks what a standby member sends from the Ladle (R348, R369). -/
def State.send (s : State) (link : Option Link) (type : Nat) (dest : Word) (body : List Byte) : State :=
  { s with fab := { s.fab with
      serial := s.fab.serial + 1,
      sendQ := s.fab.sendQ ++ [⟨link, type, s.fabId, dest, s.fab.serial + 1, body, s.copies && decide (0x10 ≤ type)⟩] } }

/-- Raise an event to principals. It is written at once where the device may write host memory and is held otherwise
(R629; log 9). A worker with LOCAL_PORTS 0 sends it to its manager (R363). -/
def State.emit (s : State) (ps : List Nat) (e : EvtEntry) : State :=
  if s.sealed && decide (s.fabRole = 2) && !s.localPorts then
    ps.foldl (fun s p => s.send none 0x22 s.mgrId (leBytes 1 p ++ evtBytes e 0 0)) s
  else if s.writesHost then s.deliver ps e
  else s.holdEvent ps e

/-- Write the events held so far, once the device may (R629, R409). -/
def State.flushHeld (s : State) : State :=
  if s.writesHost then
    s.mgp.held.foldl (fun (t : State) x => t.deliver x.1 x.2) { s with mgp := { s.mgp with held := [] } }
  else s

/-- An event of this device (R434). -/
def State.event (s : State) (ps : List Nat) (code object value : Nat) : State :=
  s.emit ps ⟨code, false, false, object, s.tnNow, BitVec.ofNat 64 value, 0⟩

/-! ### The journal and completions (R405 to R410) -/

/-- The journaled command of a handle. -/
def State.job (s : State) (h : Nat) : Option JEntry := (s.mgp.journal.find? (fun p => p.1 = h)).map (·.2)

/-- Change a journaled command. -/
def State.setJob (s : State) (h : Nat) (f : JEntry → JEntry) : State :=
  let j := s.mgp.journal.map (fun p => if p.1 = h then (p.1, f p.2) else p)
  { s with mgp := { s.mgp with journal := j } }

/-- Forget a journaled command (R436, R441). -/
def State.dropJob (s : State) (h : Nat) : State :=
  let j := s.mgp.journal.filter (fun p => p.1 ≠ h)
  { s with mgp := { s.mgp with journal := j } }

/-- Change a worker's record of a manager command (R359). -/
def State.setWcmd (s : State) (m : Nat) (f : WorkerCmd → WorkerCmd) : State :=
  let ws := s.fab.wcmds.map (fun w => if w.mserial = m then f w else w)
  { s with fab := { s.fab with wcmds := ws } }

/-- Commands of a ring set in the journal (R443). -/
def State.journalCount (s : State) (r : Nat) : Nat :=
  (s.mgp.journal.filter (fun p => decide (p.2.ring = r) && decide (p.2.origin = .ring))).length

/-- Journal a completion entry of a command: it takes the next place of its completion ring, goes into the record in a
mate pair, and counts as refused unless OK or E_HELD (R408, R570). A standby keeps it without a slot, which the active
device's record gives (R388, R408). A command of a manager answers with RESULT
(R358, R359), and its entry of the record names ring 16 (log 19); on the bootstrap ring, which
has no completion ring, the entry goes to the buffer that the body of an ATTEST_QUOTE or KEY_AGREE names (R436). -/
def State.completeEntry (s : State) (h : Nat) (c : CmpEntry) : State :=
  match s.job h with
  | none => s
  | some e =>
    if e.cmp.isSome then s else
    match e.origin with
    | .manager m =>
      let c := { c with remote := true, device := s.fabId }
      let s := s.setJob h (fun e => { e with cmp := some c, posted := true })
      let s := s.recd (fun k => { k with cmps := k.cmps ++ [⟨16, h, 0, c⟩] })
      let s := s.setWcmd m (fun w => { w with result := some c })
      let s := match s.fab.wcmds.find? (fun w => w.mserial = m) with
        | some w => w.output.foldl (fun (t : State) (o : Nat × List Byte) => t.send none 0x26 s.mgrId (beBytes 8 m ++ beBytes 4 o.1 ++ o.2)) s
        | none => s
      s.send none 0x21 s.mgrId (beBytes 8 m ++ cmpBytes c 0)
    | .ring =>
      if s.copies then s.setJob h (fun e => { e with cmp := some c }) else
      let x := s.ring e.ring
      let slot := x.cmpProd + x.overflow.length
      let s := s.setJob h (fun e => { e with cmp := some c, slot := some slot, posted := x.boot, recTn := none })
      let s := if c.status = 0 ∨ c.status = 10 then s else s.count 3 e.ring 1 1
      if x.boot then
        let s := if e.d.opcode = 0x75 ∨ e.d.opcode = 0x72 then
            s.issue e.ring ⟨.completion e.ring, fld e.d.body 8 8, fld e.d.body 16 4, cmpBytes c 0, 32⟩
          else s
        s.dropJob h
      else
        let s := s.setRing e.ring { x with overflow := x.overflow ++ [h] }
        s.recd (fun c' => { c' with cmps := c'.cmps ++ [⟨e.ring, h, slot, c⟩] })

/-- Complete a command of this device with a status, TICK and RESULT (R432). -/
def State.complete (s : State) (h status tick : Nat) (result : Nat) : State :=
  match s.job h with
  | none => s
  | some e => s.completeEntry h ⟨e.d.serial, e.d.opcode, status, false, e.d.ring, 0, tick, BitVec.ofNat 64 result⟩

/-- Refuse a command at acceptance: its completion carries the acceptance tick and RESULT 0 unless stated (R500). -/
def State.refuse (s : State) (h status : Nat) : State := s.complete h status s.tnNow 0

/-- Write bytes to the host buffer of a command, before its completion (R499). On a worker they go to the manager
(R364). -/
def State.output (s : State) (h addr hkey off : Nat) (bytes : List Byte) : State :=
  match s.job h with
  | none => s
  | some e =>
    match e.origin with
    | .manager m => s.setWcmd m (fun w => { w with output := w.output ++ pieces (bytes.length / 1472 + 1) off bytes })
    | .ring =>
      let s := s.setJob h (fun e => { e with outLeft := e.outLeft + 1 })
      s.issue e.ring ⟨.output h, addr + off, hkey, bytes, bytes.length⟩

/-! ### Roles (R391 to R393) -/

/-- Number of a role in CAL_MATE_STATUS.ROLE. -/
def Role.num : Role → Nat
  | .standalone => 0 | .active => 1 | .standby => 2 | .syncing => 3 | .detached => 4 | .suspended => 5

/-- Change the role and raise MATE_ROLE to the owner (R391). -/
def State.setRole (s : State) (r : Role) : State :=
  if s.cal.role = r then s
  else
    let out := decide (r = .standby) && s.cal.reclaimOut
    let from_ := (decide (r = .detached) && (decide (s.cal.role = .syncing) || s.cal.fromSync))
      || (decide (r = .syncing) && s.cal.fromSync)
    let s := { s with cal := { s.cal with role := r, roleSince := s.clk.tick, reclaimOut := out, fromSync := from_ } }
    s.event [0] 0x0070 r.num s.cal.lastYield

/-- The active device yields: YIELD and the cause go into the record of this tick, it accepts and posts nothing from
the next tick and enters SYNCING four ticks later (R393). -/
def State.yield (s : State) (cause : Nat) : State :=
  if s.cal.role = .active ∨ s.cal.role = .suspended then
    if s.cal.yieldAt.isSome then s
    else
      let rec_ := { s.cal.cur with yield_ := true, evts := s.cal.cur.evts ++ [⟨8, 0, s.tnNow, cause⟩] }
      { s with cal := { s.cal with yieldAt := some (s.clk.tick + 4), lastYield := cause, cur := rec_ } }
  else s

/-! ### Access of hosts (R445, R449) -/

/-- The principal of a queue pair whose accesses the device serves: the port must be protected (R417, R423). -/
def State.accessor (s : State) (q : Nat) : Option Nat :=
  let x := s.qp q
  if x.bound ∧ (s.port x.port).mode = 2 then some x.prin else none

/-- The device's answer to a host access, with NAKs counted (R419, R570). -/
def State.answer (s : State) (q : Nat) (r : Resp) : State :=
  let s := { s with mgp := { s.mgp with resp := some r } }.count 6 (s.qp q).port 1 1
  match r with
  | .nak => s.count 6 (s.qp q).port 7 1
  | _ => s

/-- A register write that only the owner may make: any other accessor gets a remote access error (R445). -/
def State.ownerWrite (s : State) (q : Nat) (f : State → State) : State :=
  if s.accessor q = some 0 then (f s).answer q .ack else s.answer q .nak

end Sys2Proof.Machine
end

