-- ==== Sys2Proof/Machine/Rings.lean ====
section
/-! DEFINITION. The ring engine (11_management_port): doorbells, fetch, checks of a descriptor, the journal, completions
and their RDMA operations. -/
namespace Sys2Proof.Machine

/-! ### Outstanding operations of queue pairs (R420, R421, R441) -/

/-- Whether an operation reads host memory. -/
def OpKind.isRead : OpKind → Bool
  | .doorbell _ | .descs _ _ _ | .batch _ | .cmpRing _ => true
  | _ => false

/-- Take the first operation of a kind off one queue pair. -/
def dropFirst (p : RdmaOp → Bool) : List RdmaOp → List RdmaOp
  | [] => []
  | o :: t => if p o then t else o :: dropFirst p t

/-- Take the first operation of a kind off the queue pairs of a ring set. -/
def State.doneOp (s : State) (r : Nat) (k : RdmaOp → Bool) : State :=
  let a := (s.ring r).qpLo
  let b := (s.ring r).qpHi
  let q := if (s.qp a).ops.any k then a else b
  s.setQp q { s.qp q with ops := dropFirst k (s.qp q).ops, retries := 0, timer := s.clk.tick }

/-- Operations in flight on a queue pair that no longer works are issued on the other one of its ring set (R441). -/
def State.moveOps (s : State) (q : Nat) : State :=
  let x := s.qp q
  let r := x.ring
  match s.workQp r with
  | some w =>
    if w = q ∨ s.qpWorks q then s
    else
      let s := s.setQp q { x with ops := [] }
      let y := s.qp w
      s.setQp w { y with ops := y.ops ++ x.ops, timer := if y.ops.isEmpty then s.clk.tick else y.timer }
  | none => s

/-! ### Doorbell reads and fetch (R437, R438) -/

/-- The ring engine fetches descriptors of a ring set: firmware runs, the device accepts (R444), the device is sealed or
the set is ring set 0 (R636), and it is not a sealed worker (R344, R637). -/
def State.ringFetches (s : State) (r : Nat) : Bool :=
  s.fw && s.accepts && decide ((s.ring r).st ≠ .unbound) && (s.sealed || decide (r = 0))
  && !(s.sealed && decide (s.fabRole = 2))

/-- Issue the READ of a ring set's doorbell record unless one is outstanding. -/
def State.readDoorbell (s : State) (r : Nat) : State :=
  let x := s.ring r
  if x.dbRead then s.setRing r { x with kickAgain := true, kicked := false }
  else ((s.setRing r { x with dbRead := true, kicked := false }).issue r
    ⟨.doorbell r, x.dbAddr, x.hkeys.getD 3 0, [], 16⟩).count 3 r 5 1

/-- The index of the next descriptor to take. -/
def Ring.takeIdx (x : Ring) : Nat := x.fetchIdx - x.fetch.length

/-- Issue the next fetch: up to 32 descriptors in the buffer, not across the end of the ring (R438). -/
def State.fetchNow (s : State) (r : Nat) : State :=
  let x := s.ring r
  let n := min (min (32 - x.fetch.length) (x.cmdProd - x.fetchIdx)) (x.cmdSize - x.fetchIdx % x.cmdSize)
  if x.fetching ≠ 0 ∨ n = 0 then s
  else (s.setRing r { x with fetching := n }).issue r
    ⟨.descs r x.fetchIdx n, x.cmdBase + 128 * (x.fetchIdx % x.cmdSize), x.hkeys.getD 0 0, [], 128 * n⟩

/-- The fetch goes on by itself; a halted ring fetches at a doorbell read only (R440). -/
def State.fetchMore (s : State) (r : Nat) : State := if (s.ring r).st = .halted then s else s.fetchNow r

/-- Halt a ring with a cause: fetched descriptors are dropped and the failing slot is fetched afresh. A slot that fails
again leaves the ring halted as it was (R440). -/
def State.halt (s : State) (r cause : Nat) : State :=
  let x := s.ring r
  let s := s.setRing r { x with st := .halted, cause := cause, fetch := [], fetchIdx := x.takeIdx, dirty := true }
  if x.st = .halted ∧ x.cause = cause then s else (s.count 3 r 2 1).event [x.prin] 0x0081 r cause

/-! ### Acceptance pauses (R443) -/

/-- The resync queue holds 4,096 writes in 16 fixed shares of 256, one per ring set (R219). -/
def resyncShare : Nat := 256

/-- Map writes of a ring set that wait in the resync queue. -/
def State.resyncUsed (s : State) (r : Nat) : Nat := (s.flp.queue.filter (fun q => q.ring = r)).length

/-- The cause for which a ring set pauses acceptance; 0 for none (R443). -/
def State.pauseCause (s : State) (r : Nat) : Nat :=
  if (s.ring r).overflowing then 1
  else if s.journalCount r ≥ 256 then 2
  else if s.resyncUsed r ≥ resyncShare then 3
  else 0

/-- Follow the conditions of R443 in STATE; DEVICE_BUSY is raised once at the start of a pause. -/
def State.refreshBusy (s : State) (r : Nat) : State :=
  let x := s.ring r
  let c := s.pauseCause r
  match x.st with
  | .open_ =>
    if c = 0 then s
    else ((s.setRing r { x with st := .busy, cause := c, dirty := true }).count 3 r 3 1).event [x.prin] 0x0080 r c
  | .busy =>
    if c = 0 then s.setRing r { x with st := .open_, cause := 0, dirty := true }
    else s.setRing r { x with cause := c }
  | _ => s

/-- Commands whose completion's slot the host has passed leave the journal (R443). -/
def State.pruneJournal (s : State) (r : Nat) : State :=
  let cons := (s.ring r).cmpCons
  let gone := fun (e : JEntry) => decide (e.ring = r) && decide (e.origin = .ring) && e.posted &&
    (match e.slot with | some k => decide (k < cons) | none => false)
  let j := s.mgp.journal.filter (fun p => !gone p.2)
  { s with mgp := { s.mgp with journal := j } }

/-- A 32-bit free-running index restored to the full count at or after `base` (R425). -/
def idxFrom (base v : Nat) : Nat := base + (v + 2 ^ 32 - base % 2 ^ 32) % 2 ^ 32

/-- A kick of a ring set (R437, R438, R444). -/
def State.kickRing (s : State) (r : Nat) : State :=
  if s.ringFetches r then s.setRing r { s.ring r with kicked := true } else s

/-- A host access to the doorbell window (R437). -/
def State.doorbell (s : State) (q : Nat) (rkey : Word) (addr len : Nat) : State :=
  let x := s.qp q
  let m := (s.port x.port).mode
  let r := (addr - 0x20000000) / 8
  if !x.bound || m = 0 then s
  else if x.rkey ≠ rkey ∨ addr < 0x20000000 ∨ addr ≥ 0x20000080 ∨ addr % 8 ≠ 0 ∨ len ≠ 8
      ∨ (s.ring r).st = .unbound ∨ (s.ring r).prin ≠ x.prin ∨ (m = 1 ∧ (q ≠ 0 ∨ r ≠ 0)) then s.answer q .nak
  else ((s.kickRing r).count 3 r 4 1).answer q .ack

/-- KICK: an RDMA WRITE to a doorbell address. -/
def execKick (qp : Fin 16) (rkey : Word) (addr len : Nat) (s : State) : Out :=
  whenUp s (s.doorbell qp rkey addr len)

/-- DOORBELL_POLL: every bound ring set's record is read in each tick with TN mod 512 = 32 r (R438). -/
def execDoorbellPoll (r : Fin 16) (s : State) : Out :=
  .next (if s.ringFetches r ∧ s.clk.tnValid ∧ s.clk.tn % 512 = 32 * r.val then s.readDoorbell r else s)

/-- DOORBELL_READ_DONE: the record's indices arrive; new descriptors are fetched, or the ring halts with cause 5 (R427,
R438, R440, R443). -/
def execDoorbellReadDone (r : Fin 16) (cmdProd cmpCons evtCons : Nat) (s : State) : Out :=
  let x := s.ring r
  .next (
    if s.fw ∧ x.dbRead then
      let prod := idxFrom x.cmdCons cmdProd
      let s := s.doneOp r (fun o => o.kind = .doorbell r)
      let x := { s.ring r with
        dbRead := false
        cmpCons := min (idxFrom x.cmpCons cmpCons) x.cmpProd
        evtCons := min (idxFrom x.evtCons evtCons) x.evtProd }
      let s := (s.setRing r x).pruneJournal r
      let s :=
        if prod - x.cmdCons > x.cmdSize then s.halt r 5
        else
          let x := s.ring r
          let over5 := decide (x.st = .halted) && decide (x.cause = 5)
          let x := if over5 then { x with st := .open_, cause := 0, dirty := true } else x
          s.setRing r { x with cmdProd := max prod x.takeIdx }
      let s := s.refreshBusy r
      let s := if (s.ring r).cause = 5 then s else s.fetchNow r
      if (s.ring r).kickAgain then (s.setRing r { s.ring r with kickAgain := false }).readDoorbell r else s
    else s)

/-- DESCRIPTOR_FETCH_DONE: the descriptors of the fetch in flight arrive in the buffer; those that a halt has overtaken are
dropped (R438, R440). -/
def execDescriptorFetchDone (r : Fin 16) (ds : List Desc) (s : State) : Out :=
  let x := s.ring r
  .next (
    if s.fw ∧ x.fetching ≠ 0 then
      let mine := fun (o : RdmaOp) => match o.kind with | .descs r' _ _ => decide (r' = r.val) | _ => false
      let start := match ((s.qp x.qpLo).ops ++ (s.qp x.qpHi).ops).find? mine with
        | some o => (match o.kind with | .descs _ i _ => i | _ => 0)
        | none => 0
      let got := if start = x.fetchIdx then ds.take x.fetching else []
      let s := s.doneOp r mine
      let x := s.ring r
      (s.setRing r { x with fetching := 0, fetch := x.fetch ++ got, fetchIdx := x.fetchIdx + got.length }).fetchMore r
    else s)

/-! ### Checks of a descriptor (R439, R494) -/

/-- Bytes 0 to 111 of a descriptor (R430). -/
def descBytes (d : Desc) : List Byte :=
  leBytes 1 d.opcode ++ [d.flags] ++ leBytes 1 d.ring ++ leBytes 5 0 ++ leBytes 8 d.serial ++ leBytes 96 d.body.toNat

/-- The IV of a tag: RING, kind, 0x0000, SERIAL (R430, R431). -/
def tagIv (ring kind serial : Nat) : BitVec 96 :=
  BitVec.ofNat 96 (leNat (leBytes 1 ring ++ leBytes 1 kind ++ leBytes 2 0 ++ leBytes 8 serial))

/-- The key under which a serial of a ring set is checked (R487). -/
def Ring.keyFor (x : Ring) (serial : Nat) : Option (BitVec 256) :=
  match x.oldKey with
  | some (k, last) => if serial ≤ last then some k else x.key
  | none => x.key

/-- The opcodes of R494. -/
def opcodes : List Nat :=
  [0x00, 0x10, 0x11, 0x12, 0x13, 0x20, 0x21, 0x22, 0x30, 0x31, 0x40, 0x41, 0x42, 0x50, 0x51, 0x52, 0x60, 0x61, 0x62,
   0x70, 0x71, 0x72, 0x73, 0x74, 0x75, 0x80, 0x81, 0x82, 0x83]

/-- FLAGS.BATCH of a descriptor (R430). -/
def descHasBatch (d : Desc) : Bool := d.flags.getLsbD 0

/-- The first failed check of R439, as a halt cause; 0 when the descriptor passes. -/
def Ring.check (x : Ring) (r : Nat) (d : Desc) : Nat :=
  if d.ring ≠ r then 1
  else if d.serial ≠ x.expect then 2
  else if (match x.keyFor d.serial with
      | some k => decide (d.tag ≠ Config.gmac k (tagIv r 0 d.serial) (descBytes d))
      | none => false) then 3
  else if d.opcode ∉ opcodes then 4
  else 0

/-- A batch reference that can be read: ADDR aligned to 8, LEN 8 to 1,048,576 and a multiple of 8 (R431). -/
def descBatchRef (d : Desc) : Bool :=
  let len := fld d.body 72 4
  decide (fld d.body 64 8 % 8 = 0) && decide (8 ≤ len) && decide (len ≤ 1048576) && decide (len % 8 = 0)

/-- Journal a descriptor that passed its checks: it gets a handle, goes into the record of this tick, and EXPECT advances
(R405, R439). -/
def State.journalCmd (s : State) (r : Nat) (d : Desc) (b : Option Batch) (ok : Bool) : State :=
  let x := s.ring r
  let h := s.mgp.nextH
  let e : JEntry := { ring := r, prin := x.prin, d := d, batch := b, batchOk := ok, j := s.clk.tick, jtn := s.tnNow }
  let e := { e with recTn := if s.cal.role = .active then some s.tnNow else none }
  let s := { s with mgp := { s.mgp with nextH := (h + 1) % 65536, journal := s.mgp.journal ++ [(h, e)] } }
  let s := s.setRing r { x with expect := x.expect + 1, fetch := x.fetch.drop 1, batchWait := false, dirty := true }
  s.recd (fun c => { c with accs := c.accs ++ [⟨r, x.prin, h, s.tnNow, d⟩] })

/-- A ring set whose next descriptor may be taken: it fetches, does not pause, and waits for no batch. -/
def State.takeable (s : State) (r : Nat) : Bool :=
  s.ringFetches r && !(s.ring r).fetch.isEmpty && !(s.ring r).batchWait
  && decide (s.pauseCause r = 0)

/-- The ring set served next: the first takeable one after the last one served (R439). -/
def State.nextRing (s : State) : Option Nat :=
  ((List.range 16).map (fun k => (s.mgp.rr + 1 + k) % 16)).find? s.takeable

/-- A slot that passes lets a halted ring go on (R440). -/
def State.resumeRing (s : State) (r : Nat) : State :=
  let x := s.ring r
  if x.st = .halted then s.setRing r { x with st := .open_, cause := 0, dirty := true } else s

/-- Take the first descriptor of a ring set's buffer (R439, R440, R497). -/
def State.takeFrom (s : State) (r : Nat) : State :=
  match (s.ring r).fetch with
  | [] => s
  | d :: _ =>
    let c := (s.ring r).check r d
    if c ≠ 0 then s.halt r c
    else
    let s := s.resumeRing r
    if descHasBatch d && descBatchRef d then
      let x := s.ring r
      (s.setRing r { x with batchWait := true }).issue r
        ⟨.batch r, fld d.body 64 8, fld d.body 76 4, [], fld d.body 72 4⟩
    else (s.journalCmd r d none true).fetchMore r

/-- Take one descriptor of the next ring set, at most 4 per tick. -/
def State.takeNext (s : State) : State :=
  if s.clk.takeUsed ≥ 4 then s
  else
    match s.nextRing with
    | none => s
    | some r =>
      ({ s with clk := { s.clk with takeUsed := s.clk.takeUsed + 1 }, mgp := { s.mgp with rr := r } }).takeFrom r

/-- DESCRIPTOR_TAKE. -/
def execDescriptorTake (s : State) : Out := .next ((List.range 16).foldl State.refreshBusy s).takeNext

/-- Whether a batch carries the tag its reference names; a KEY_AGREE on a ring set without a key ignores it (R431,
R527). -/
def Ring.batchOk (x : Ring) (r : Nat) (d : Desc) (b : Batch) : Bool :=
  match x.keyFor d.serial with
  | some k => decide (BitVec.ofNat 128 (fld d.body 80 16) = Config.gmac k (tagIv r 1 d.serial) b.bytes)
  | none => true

/-- A journaled command lacks the batch that it names: it came in a record of the mate (R388). -/
def JEntry.lacksBatch (e : JEntry) : Bool := descHasBatch e.d && descBatchRef e.d && e.batch.isNone

/-- The batch of a command that came in a record arrives (R388, R535). -/
def State.attachBatch (s : State) (r : Nat) (b : Batch) : State :=
  match s.mgp.journal.find? (fun p => decide (p.2.ring = r) && decide (p.2.origin = .ring) && p.2.lacksBatch
      && decide (b.bytes.length = fld p.2.d.body 72 4)) with
  | some (h, e) =>
    let ok := (s.ring r).batchOk r e.d b
    (s.doneOp r (fun o => o.kind = .batch r)).setJob h (fun e => { e with batch := some b, batchOk := ok })
  | none => s

/-- BATCH_READ_DONE: the batch of the waiting descriptor is whole and its BTAG checked; the descriptor is journaled
(R431, R497). On a standby it is the batch of a command of a record (R388). -/
def execBatchReadDone (r : Fin 16) (b : Batch) (s : State) : Out :=
  let x := s.ring r
  .next (
    if s.fw = false then s
    else match x.fetch with
    | d :: _ =>
      if x.batchWait ∧ b.bytes.length = fld d.body 72 4 then
        let s := s.doneOp r (fun o => o.kind = .batch r)
        (s.journalCmd r d (some b) (x.batchOk r d b)).fetchMore r
      else s.attachBatch r b
    | [] => s.attachBatch r b)

/-! ### Completions (R408, R441, R442) -/

/-- The record that carries the journaled datum has been acknowledged, or no acknowledgement is needed (R406, R408). -/
def State.ackedRec (s : State) (e : JEntry) : Bool :=
  !s.needsAck || e.acked ||
  (match e.recTn, s.cal.ackRx with | some t, some a => decide (t ≤ a) | _, _ => false)

/-- Write the completion at the head of a ring set's posting order into its slot. -/
def State.postOne (s : State) (r h : Nat) (e : JEntry) (c : CmpEntry) : State :=
  let x := s.ring r
  match e.dest with
  | some (a, k, ph) =>
    ((s.issue r ⟨.completion r, a, k, cmpBytes c ph, 32⟩).setRing r { x with overflow := x.overflow.drop 1 }).dropJob h
  | none =>
  let slot := x.cmpProd
  let s := s.issue r ⟨.completion r, x.cmpBase + 32 * (slot % x.cmpSize), x.hkeys.getD 1 0,
    cmpBytes c (phaseBit slot x.cmpSize), 32⟩
  let s := s.setRing r { x with cmpProd := slot + 1, overflow := x.overflow.drop 1, dirty := true }
  let s := s.setJob h (fun _ => { e with posted := true, slot := some slot })
  (s.recd (fun k => { k with rings := k.rings ++ [⟨r, 1, slot + 1⟩] })).refreshBusy r

/-- The READ of a completion ring at the end of a takeover hold is outstanding (R409). -/
def State.cmpReadOut (s : State) (r : Nat) : Bool :=
  (s.qp (s.ring r).qpLo).ops.any (fun o => decide (o.kind = .cmpRing r))
  || (s.qp (s.ring r).qpHi).ops.any (fun o => decide (o.kind = .cmpRing r))

/-- The old ring key is discarded once every command with a serial up to the agreement's has completed (R487). -/
def State.dropOldKey (s : State) (r : Nat) : State :=
  let x := s.ring r
  match x.oldKey with
  | some (_, last) =>
    if s.mgp.journal.any (fun p => decide (p.2.ring = r) && decide (p.2.d.serial ≤ last) && !p.2.posted) then s
    else s.setRing r { x with oldKey := none }
  | none => s

/-- COMPLETION_POST: a journaled completion whose record is acknowledged and whose output writes have been acknowledged
takes a free slot (R408, R442, R499). -/
def execCompletionPost (r : Fin 16) (s : State) : Out :=
  let x := s.ring r
  .next (
    if s.writesHost ∧ x.cmpFree ≠ 0 ∧ s.cmpReadOut r = false then
      match x.overflow with
      | [] => s.refreshBusy r
      | h :: _ =>
        match s.job h with
        | none => s.setRing r { x with overflow := x.overflow.drop 1 }
        | some e =>
          match e.cmp with
          | some c => if s.ackedRec e ∧ e.outLeft = 0 ∧ e.notBefore ≤ s.clk.tick then (s.postOne r h e c).dropOldKey r else s
          | none => s
    else s.refreshBusy r)

/-- A write of a dump image is acknowledged: after the last one its trailer follows as a write of its own (R583). -/
def State.dumpAcked (s : State) (r q : Nat) : State :=
  let d := s.dump r
  let left := fun (p : Nat) => (s.qp p).ops.any (fun (o : RdmaOp) => decide (o.kind = .dump r q))
  match d.imgs.find? (fun i => decide (i.seq = q) && !i.sent) with
  | some i =>
    if left (s.ring r).qpLo ∨ left (s.ring r).qpHi then s
    else
      let mark := d.imgs.map (fun (x : DumpImg) => if x.seq = q then { x with sent := true } else x)
      (s.setDump r { d with imgs := mark }).issue r
        ⟨.trailer r q, i.tail, d.hkey, leBytes 8 i.latch ++ leBytes 8 q, 16⟩
  | none => s

/-- The host acknowledges the oldest outstanding WRITE of a queue pair (R420, R442). -/
def State.writeAcked (s : State) (q : Nat) : State :=
  let x := s.qp q
  match x.ops.find? (fun o => !o.kind.isRead) with
  | none => s
  | some o =>
    let s := s.setQp q { x with ops := dropFirst (fun o => !o.kind.isRead) x.ops, retries := 0, timer := s.clk.tick }
    match o.kind with
    | .output h => s.setJob h (fun e => { e with outLeft := e.outLeft - 1 })
    | .dump r i => s.dumpAcked r i
    | .trailer r i =>
      let d := s.dump r
      match d.imgs.find? (fun y => y.seq = i) with
      | some y => s.setDump r { d with imgs := d.imgs.filter (fun y => y.seq ≠ i), prev := Tab.put (0, 0) d.prev y.src (y.latch, 0) }
      | none => s
    | _ => s

/-- RDMA_WRITE_ACK: the oldest outstanding WRITE of a queue pair is acknowledged. An acknowledged output lets its
completion follow, and the last acknowledged write of a dump image lets its trailer follow (R441, R499, R583). -/
def execRdmaWriteAck (qp : Fin 16) (s : State) : Out := whenUp s (s.writeAcked qp)

/-- The local ACK timeout of 131.072 us in ticks (R420). -/
def ackTimeout : Nat := 1049

/-- QP_ACK_TIMEOUT: the local ACK timeout has run out and the oldest operation is retried; after 7 retries the queue pair enters the error state and its
operations move to the other one (R420, R441). -/
def execQpAckTimeout (qp : Fin 16) (s : State) : Out :=
  let x := s.qp qp
  .next (
    if s.fw ∧ x.bound ∧ x.err = false ∧ x.ops ≠ [] ∧ x.timer + ackTimeout ≤ s.clk.tick then
      if x.retries < 7 then (s.setQp qp { x with retries := x.retries + 1, timer := s.clk.tick }).count 6 x.port 8 1
      else
        let s := s.setQp qp { x with err := true, retries := 0 }
        let s := s.moveOps qp
        s.event (if x.prin = 0 then [0] else [0, x.prin]) 0x0082 qp.val 0
    else s)

end Sys2Proof.Machine
end

