-- ==== Sys2Proof/Machine/Cmd.lean ====
section
/-! DEFINITION. Acceptance of journaled host commands (R406, R439, R461, R495 to R500): order, permission, fields common to
every body, and the way of a command to a worker. The meanings of the opcodes give a check and an effect each. -/
namespace Sys2Proof.Machine

/-- Status codes (R501). -/
def stOk := 0
def eAuth := 1
def ePerm := 2
def eRange := 3
def eConflict := 4
def eLate := 5
def eCapacity := 6
def eBudget := 7
def eState := 8
def eAborted := 9
def eHeld := 10

/-- A field of a command's body. -/
def JEntry.f (e : JEntry) (off size : Nat) : Nat := fld e.d.body off size

/-- TARGET (R495). -/
def JEntry.target (e : JEntry) : Nat := e.f 0 4

/-- The batch bytes of a command; none without a batch. -/
def JEntry.bytes (e : JEntry) : List Byte := match e.batch with | some b => b.bytes | none => []

/-- The list of a command's items: inline bytes of the body, or the batch (R496). -/
def JEntry.items (e : JEntry) (off size : Nat) : List Byte :=
  if descHasBatch e.d then e.bytes else leBytes size (e.f off size)

/-- Which principal may issue an opcode and mode (R459, R494). Lanes of LANE_LOOP and scopes of counters are checked with
the opcode. -/
def permOk (prin opc : Nat) (e : JEntry) : Bool :=
  if prin = 0 then true
  else if prin ≤ 63 then
    decide (opc ∈ [0x00, 0x10, 0x11, 0x12, 0x13, 0x21, 0x30, 0x31, 0x60, 0x61, 0x62, 0x75])
    || (decide (opc = 0x22) && decide (e.f 4 1 ≠ 0))
    || (decide (opc = 0x72) && decide (e.f 4 1 = 1))
  else if prin = 64 then
    decide (opc ∈ [0x00, 0x41, 0x42, 0x60, 0x62, 0x75]) || (decide (opc = 0x72) && decide (e.f 4 1 = 1))
  else false

/-- Byte ranges (offset, size) that the body layout of an opcode uses below byte 64 (13_commands). -/
def bodyFields : Nat → List (Nat × Nat)
  | 0x10 => [(4, 1), (8, 4), (16, 48)]
  | 0x11 => [(4, 1), (8, 20)]
  | 0x12 => [(4, 60)]
  | 0x13 => [(4, 2)]
  | 0x20 => [(4, 1), (8, 8)]
  | 0x21 => [(4, 11), (16, 2), (20, 44)]
  | 0x22 => [(4, 1), (8, 8)]
  | 0x30 => [(4, 17), (22, 2)]
  | 0x31 => [(4, 3), (8, 8)]
  | 0x40 => [(4, 2), (8, 4)]
  | 0x41 => [(4, 3), (8, 8)]
  | 0x42 => [(4, 3), (8, 2), (16, 12)]
  | 0x50 => [(4, 4)]
  | 0x51 => [(4, 2)]
  | 0x52 => [(4, 1), (6, 6), (16, 8)]
  | 0x60 => [(4, 1), (8, 8), (16, 16)]
  | 0x61 => [(4, 1), (8, 4), (16, 24)]
  | 0x62 => [(4, 1), (8, 16)]
  | 0x70 => [(4, 2)]
  | 0x71 => [(4, 3)]
  | 0x72 => [(4, 1), (8, 12)]
  | 0x73 => [(4, 1), (8, 8)]
  | 0x74 => [(4, 1)]
  | 0x75 => [(4, 2), (8, 12), (32, 32)]
  | 0x80 => [(4, 1), (8, 4), (16, 64)]
  | 0x81 => [(4, 4)]
  | 0x83 => [(4, 1), (8, 8)]
  | _ => []

/-- Opcodes with a batch column, and those whose batch is required (R494). -/
def batchOpcodes : List Nat := [0x10, 0x12, 0x21, 0x50, 0x70, 0x71, 0x72, 0x73]
def batchNeeded (e : JEntry) : Bool :=
  decide (e.d.opcode ∈ [0x50, 0x72, 0x73]) || (decide (e.d.opcode = 0x70) && decide (e.f 5 1 = 0))
  || (decide (e.d.opcode = 0x71) && decide (e.f 6 1 = 0))

/-- Allowed bits of the flag byte at offset 4 or elsewhere: (opcode, offset, mask) (13_commands). -/
def flagMasks : List (Nat × Nat × Nat) :=
  [(0x10, 4, 1), (0x12, 9, 15), (0x20, 4, 1), (0x21, 14, 1), (0x73, 4, 3), (0x74, 4, 3), (0x75, 5, 1)]

/-- Every reserved byte of the body is 0, reserved flag bits are 0, and the batch reference is as the opcode wants it
(R431, R496). -/
def JEntry.bodyOk (e : JEntry) : Bool :=
  let used := (0, 4) :: bodyFields e.d.opcode
  let hasB := descHasBatch e.d
  let byteUsed := fun i => used.any (fun p => decide (p.1 ≤ i) && decide (i < p.1 + p.2))
  let top := if hasB then 64 else 96
  (List.range top).all (fun i => byteUsed i || decide (e.f i 1 = 0))
  && flagMasks.all (fun m => decide (m.1 ≠ e.d.opcode) || decide (e.f m.2.1 1 ≤ m.2.2))
  && (!hasB || (decide (e.d.opcode ∈ batchOpcodes) && descBatchRef e.d))
  && (hasB || !batchNeeded e)

/-- Opcodes that never act on a worker (R494). -/
def localOnly (e : JEntry) : Bool :=
  decide (e.d.opcode ∈ [0x62, 0x71, 0x72]) || (decide (e.d.opcode = 0x20) && decide (e.f 4 1 % 2 = 1))

/-- The device is the manager of a fabric (R342). -/
def State.isManager (s : State) : Bool := decide (s.fabRole = 1)
def State.isWorker (s : State) : Bool := decide (s.fabRole = 2)

/-- The worker table's entry of a fabric ID (R361). -/
def State.worker (s : State) (id : Word) : Option Worker := s.fab.workers.find? (fun w => w.id = id)

/-- An opcode that takes effect at its execution waits until earlier map writes have run, but not for those of another
ring set that wait for room in their share of the resync queue (R410). -/
def actsAtExecution (opc : Nat) : Bool :=
  decide (opc ∈ [0x00, 0x11, 0x12, 0x13, 0x30, 0x40, 0x60, 0x70, 0x71, 0x72, 0x73, 0x74, 0x75, 0x80, 0x81, 0x82])

/-- Earlier map writes hold up this command. -/
def State.mapBusy (s : State) (e : JEntry) : Bool :=
  s.flp.jobs.any (fun j => !j.rest.isEmpty &&
    (decide (j.ring = e.ring) || decide (s.resyncUsed j.ring < resyncShare)))

/-- Earlier commands of the same ring set that are not yet accepted (R410). -/
def State.earlier (s : State) (h : Nat) (e : JEntry) : Bool :=
  (s.mgp.journal.takeWhile (fun p => decide (p.1 ≠ h))).any (fun p => decide (p.2.ring = e.ring)
    && decide (p.2.origin = e.origin) && (p.2.accepted.isNone || p.2.resume) && p.2.cmp.isNone)

/-- The command may be accepted in this tick (R406, R410, R443). A full share of the resync queue pauses the later commands of its ring;
share 0 pauses no command of a manager (R219; DESIGN CHOICE, log 91). -/
def State.acceptable (s : State) (h : Nat) (e : JEntry) : Bool :=
  s.fw && s.accepts && (e.accepted.isNone || e.resume) && e.cmp.isNone && !s.earlier h e && !e.lacksBatch
  && (decide (e.origin ≠ .ring) || decide (s.clk.tick > e.j)) && s.ackedRec e
  && (decide (e.origin ≠ .ring) || s.sealed || decide (e.ring = 0))
  && (decide (e.origin ≠ .ring) || (!(s.ring e.ring).overflowing && decide (s.resyncUsed e.ring < resyncShare)))
  && (!actsAtExecution e.d.opcode || !s.mapBusy e)

/-- Commit acceptance: the consumer index moves past the command (R406). A command accepted before a takeover or a
warm reset only resumes. -/
def State.accept (s : State) (h : Nat) (e : JEntry) : State :=
  let s := s.setJob h (fun e => { e with accepted := some s.clk.tick, resume := false })
  match e.origin with
  | .manager _ => s
  | .ring =>
    if e.resume then s
    else
      let x := s.ring e.ring
      let s := (s.setRing e.ring { x with cmdCons := x.cmdCons + 1, dirty := true }).count 3 e.ring 0 1
      s.recd (fun c => { c with rings := c.rings ++ [⟨e.ring, 0, x.cmdCons + 1⟩] })

/-- A ring set without a ring key, or the bootstrap ring while its port is open, takes only ATTEST_QUOTE and KEY_AGREE
(R436, R486). -/
def State.unkeyed (s : State) (e : JEntry) : Bool :=
  decide (e.origin = .ring) && (s.ring e.ring).key.isNone && decide (e.d.opcode ∉ [0x72, 0x75])

/-- The first failed check common to all opcodes; 0 when none fails (R461, R486, R495 to R497). -/
def State.commonCheck (s : State) (e : JEntry) : Nat :=
  if s.unkeyed e ∨ e.batchOk = false then eAuth
  else if permOk e.prin e.d.opcode e = false then ePerm
  else if e.bodyOk = false then eRange
  else if e.origin = .ring ∧ e.target ≠ 0 then
    if s.isManager = false ∨ localOnly e then eRange
    else match s.worker (BitVec.ofNat 32 e.target) with
      | none => eRange
      | some w =>
        if e.prin ≠ 0 ∧ ¬ (s.fab.holds.any (fun x => decide (x.1 = w.id) && decide (x.2.1 = e.prin))) then eRange
        else if w.lost then eState
        else 0
  else 0

/-- Send a CMD with its batch to a worker (R358, R364). The manager's serial of a command is its journal handle. -/
def State.sendCmd (s : State) (h : Nat) (e : JEntry) (w : Word) : State :=
  let s := (pieces 713 0 e.bytes).foldl
    (fun (t : State) (p : Nat × List Byte) => t.send none 0x25 w (beBytes 8 h ++ beBytes 4 p.1 ++ p.2)) s
  s.send none 0x20 w (beBytes 8 h ++ beBytes 1 e.prin ++ descBytes e.d)

/-- The manager sends an accepted command to its worker and waits for the RESULT (R358). -/
def State.remote (s : State) (h : Nat) (e : JEntry) : State :=
  let w := BitVec.ofNat 32 e.target
  let s := { s with fab := { s.fab with cmds := s.fab.cmds ++ [(⟨h, w, s.clk.tick, false⟩ : RemoteCmd)] } }
  s.sendCmd h e w

/-- What a check of an opcode answers: a status and the RESULT of a refusal. Status 0 lets the effect run. -/
abbrev Check := JEntry → State → Nat × Nat
/-- The effect of an opcode, given its handle. -/
abbrev Effect := Nat → JEntry → State → State

/-- Accept a journaled command of an opcode and carry it out: the common checks, the opcode's own, then its effect. A
refused command completes in its acceptance tick (R463, R500). Where acceptance is not due the command waits. -/
def State.runCmd (s : State) (opc : Nat) (chk : Check) (eff : Effect) (h : Nat) : State :=
  match s.job h with
  | none => s
  | some e =>
    if e.d.opcode ≠ opc ∨ s.acceptable h e = false then s
    else
      let s := s.accept h e
      let c := s.commonCheck e
      if c ≠ 0 then s.refuse h c
      else if e.origin = .ring ∧ e.target ≠ 0 then s.remote h e
      else
        let r := chk e s
        if r.1 ≠ 0 then s.complete h r.1 s.tnNow r.2 else eff h e s

/-- The lead-time rule of a named tick (R28, R41). -/
def State.leadCheck (s : State) (n : Nat) : Nat :=
  if !s.clk.tnValid then eState
  else if n ≤ s.clk.tn then eLate
  else if n < s.clk.tn + 16 ∨ s.clk.tn + 65535 < n then eRange
  else 0

/-- The lead of a Flip proposed to a worker: as R41, but a worker arms until F - 8 (R241). -/
def State.leadArm (s : State) (n : Nat) : Nat :=
  if !s.clk.tnValid then eState
  else if n ≤ s.clk.tn then eLate
  else if n < s.clk.tn + 8 ∨ s.clk.tn + 65535 < n then eRange
  else 0

/-- First of several statuses that is not 0. -/
def firstErr : List Nat → Nat
  | [] => 0
  | a :: t => if a ≠ 0 then a else firstErr t

/-- `c` when a condition fails. -/
def need (ok : Bool) (c : Nat) : Nat := if ok then 0 else c

/-- Complete a command whose completion is posted from the next tick (R224, R229, R231). -/
def State.completeNext (s : State) (h status tick result : Nat) : State :=
  (s.complete h status tick result).setJob h (fun e => { e with notBefore := s.clk.tick + 1 })

/-- The abort layout of a FLIP_AT's RESULT (R510). -/
def abortResult (committed reason failId : Nat) : Nat :=
  committed % 2 ^ 24 * 2 ^ 40 + reason * 2 ^ 32 + failId % 2 ^ 32

/-- The window of a Flip at F is open from F - 4 (R215). -/
def inWindow (tn f : Nat) : Bool := decide (f ≤ tn + 4) && decide (tn < f)

/-- This device's own outcome in the manager's record of a fabric Flip. -/
def State.ownResult (s : State) (x : Flip) (done : Bool) : State :=
  let f := fun (y : FabFlip) => if y.id = x.id ∧ y.h = x.h then { y with results := y.results ++ [(s.fabId, done)] } else y
  { s with flp := { s.flp with fab := s.flp.fab.map f } }

/-- The manager cancels a fabric Flip: FLIP_CANCEL goes to every worker and the manager does not commit (R243). Before F - 4 its
own outcome stands with that; from then on it is recorded at F. -/
def State.cancelFab (s : State) (x : FabFlip) (failId : Word) (reason : Nat) : State :=
  if x.cancelled then s
  else
    let m := fun (y : FabFlip) =>
      if y.id = x.id then { y with cancelled := true, reason := reason, failId := failId } else y
    let keep := s.flp.flips.filterMap (fun (y : Flip) =>
      if y.fabric ∧ y.id = x.id then (if inWindow s.tnNow y.f then some { y with cancelled := true } else none)
      else some y)
    let own := s.flp.flips.find? (fun (y : Flip) => y.fabric && decide (y.id = x.id) && !inWindow s.tnNow y.f)
    let s := { s with flp := { s.flp with fab := s.flp.fab.map m, flips := keep } }
    let s := match own with | some y => s.ownResult y false | none => s
    (s.send none 0x12 0xFFFFFFFF (beBytes 4 x.id.toNat ++ beBytes 4 failId.toNat)).recEvt 2 x.h 0 0

/-- A control link, of a group or Calrin, fails before a worker behind it has answered READY (R243, R370). -/
def State.fabLinkFailed (s : State) (g : Option Nat) : State :=
  s.flp.fab.foldl (fun (t : State) (x : FabFlip) =>
    match s.fab.workers.find? (fun w => decide (w.link = g) && decide (w.id ∈ x.ws) && decide (w.id ∉ x.ready)) with
    | some w => if s.tnNow < x.f then t.cancelFab x w.id 6 else t
    | none => t) s

end Sys2Proof.Machine
end

