-- ==== Sys2Proof/Machine/Harp.lean ====
section
/-! DEFINITION. The Harp (05_harp): map entries, slot rules of principals, branches, the path allocator, the map check. -/
namespace Sys2Proof.Machine

/-! ### Entries (R192, R193) -/

def entKind (e : Word) : Nat := bits e 22 21
def entForce (e : Word) : Bool := bit e 20
def entValid (e : Word) : Bool := bit e 19
def entSrc (e : Word) : Nat := bits e 18 0

/-- ECRC over entry bits [23:0]. -/
def ecrc (v : Nat) : Byte := crc8 0xFF (msbBits (BitVec.ofNat 24 v))
/-- The stored entry for bits [22:0]. -/
def mkEntry (v : Nat) : Word := BitVec.ofNat 32 ((ecrc (v % 2 ^ 23)).toNat * 2 ^ 24 + v % 2 ^ 23)
/-- The entry passes its check. -/
def entryOk (e : Word) : Bool := decide (BitVec.ofNat 8 (bits e 31 24) = ecrc (bits e 23 0))
/-- What every entry holds after reset. -/
def entryReset : Word := 0x2B000000

/-- A branch by number: ingress group, source position (bit 14 a Colander position), egress group (R184). -/
def branchOf (g q h : Nat) : Nat := (g * 32768 + q) * 32 + h
def brIn (k : Nat) : Nat := k / 2 ^ 20
def brPos (k : Nat) : Nat := k / 32 % 32768
def brOut (k : Nat) : Nat := k % 32
/-- The global slot of a branch's source. -/
def brSlot (k : Nat) : Nat := brIn k * 16384 + brPos k % 16384

/-- The branch that an entry of an egress slot uses (R184). -/
def entryBranch (e : Word) (slot : Nat) : Option Nat :=
  if entValid e && !entForce e && decide (entKind e < 2) then
    let src := entSrc e
    some (branchOf (src / 16384) (src % 16384 + 16384 * entKind e) (slot / 16384))
  else none

/-- The egress table entry of a map entry whose branch, if any, is placed. -/
def entryOut (e : Word) (slot : Nat) : EgOut :=
  if !entValid e then {}
  else if entForce e then { out := 2 }
  else match entryBranch e slot with
    | some k => { out := 0, br := k }
    | none => { out := 1, word := BitVec.ofNat 12 (entSrc e) }

/-! ### Pages -/

/-- Page 0 or 1. -/
def State.page (s : State) (i : Nat) : Page := if i = 0 then s.hrp.p0 else s.hrp.p1
def State.setPage (s : State) (i : Nat) (p : Page) : State :=
  if i = 0 then { s with hrp := { s.hrp with p0 := p } } else { s with hrp := { s.hrp with p1 := p } }
def State.activeNo (s : State) : Nat := b2n s.hrp.active
def State.standbyNo (s : State) : Nat := 1 - s.activeNo
def State.activePage (s : State) : Page := s.page s.activeNo
def State.standby (s : State) : Page := s.page s.standbyNo
def State.setStandby (s : State) (p : Page) : State := s.setPage s.standbyNo p

/-- The entry of an egress slot on a page. -/
def Page.entry (p : Page) (slot : Nat) : Word := p.ent.look entryReset slot

/-- The branch of an egress slot: none where its entry failed its check and is treated as AIS (R199). -/
def Page.branchAt (p : Page) (slot : Nat) : Option Nat :=
  if slot ∈ p.bad then none else entryBranch (p.entry slot) slot

/-- Internal slots in use at an ingress group and at an egress group. -/
def Page.usedIn (p : Page) (g : Nat) : List Nat :=
  (p.br.filter (fun (x : Nat × Branch) => brIn x.1 = g)).map (fun x => x.2.slot)
def Page.usedOut (p : Page) (h : Nat) : List Nat :=
  (p.br.filter (fun (x : Nat × Branch) => brOut x.1 = h)).map (fun x => x.2.slot)

/-- One reference to a branch less; the last one frees its internal slot (R202). -/
def Page.unref (p : Page) (k : Nat) : Page :=
  let b := p.br.look {} k
  { p with br := Tab.put {} p.br k (if b.refs ≤ 1 then {} else { b with refs := b.refs - 1 }) }

/-- Take an egress slot out of the egress table and free its branch. -/
def Page.free (p : Page) (slot : Nat) : Page :=
  let o := p.eg.look {} slot
  let p := if o.out = 0 then p.unref o.br else p
  { p with eg := Tab.put {} p.eg slot {} }

/-- One reference more to a branch that is placed at `sl`. -/
def Page.addRef (p : Page) (k sl : Nat) : Page :=
  let b := p.br.look {} k
  { p with br := Tab.put {} p.br k ⟨if b.refs = 0 then sl else b.slot, b.refs + 1⟩ }

/-- The lowest number from `i` on that a list lacks. -/
def lowestFree (used : List Nat) : Nat → Nat → Option Nat
  | 0, _ => none
  | n + 1, i => if i ∈ used then lowestFree used n (i + 1) else some i

/-- The branches on the path from egress group `v` (or ingress group, alternately) between internal slots `a` and `b`
(R187). -/
def Page.path (p : Page) (a b : Nat) : Nat → Bool → Nat → List Nat
  | 0, _, _ => []
  | n + 1, true, v =>
    match p.br.find? (fun (x : Nat × Branch) => decide (brOut x.1 = v) && decide (x.2.slot = a)) with
    | some (k, _) => k :: Page.path p a b n false (brIn k)
    | none => []
  | n + 1, false, v =>
    match p.br.find? (fun (x : Nat × Branch) => decide (brIn x.1 = v) && decide (x.2.slot = b)) with
    | some (k, _) => k :: Page.path p a b n true (brOut k)
    | none => []

/-- Exchange two internal slots along a path (R187). -/
def Page.swap (p : Page) (a b : Nat) (ks : List Nat) : Page :=
  { p with br := p.br.map (fun (x : Nat × Branch) =>
      if x.1 ∈ ks then (x.1, { x.2 with slot := if x.2.slot = a then b else a }) else x) }

/-- How a new branch finds its internal slot. -/
inductive Place where
  | at_ (p : Page) (slot moves : Nat)
  | blocked
deriving DecidableEq, Repr

/-- Place branch `k`: the lowest internal slot free at both groups, else the first exchange that moves no branch of
`keep` (R187, R202, R235). -/
def Page.place (p : Page) (k : Nat) (keep : List Nat) : Place :=
  let ug := p.usedIn (brIn k)
  let uh := p.usedOut (brOut k)
  match lowestFree (ug ++ uh) 32768 0 with
  | some i => .at_ p i 0
  | none =>
    let as := (List.range 32768).filter (fun i => i ∉ ug)
    let bs := (List.range 32768).filter (fun i => i ∉ uh)
    let tries := as.flatMap (fun a => bs.map (fun b => (a, b)))
    match tries.find? (fun (ab : Nat × Nat) => (p.path ab.1 ab.2 64 true (brOut k)).all (fun x => decide (x ∉ keep))) with
    | some (a, b) =>
      let ks := p.path a b 64 true (brOut k)
      .at_ (p.swap a b ks) a ks.length
    | none => .blocked

/-! ### Slots of principals (R451 to R453) -/

/-- A principal may write and read the map entry of an egress slot. -/
def State.egressOk (s : State) (p slot : Nat) : Bool :=
  decide (slot < 524288) && (decide (p = 0) ||
    (match (s.block (slot / 64)).hand with
     | some (f, _) => decide (f = p)
     | none => decide ((s.block (slot / 64)).owner = p)))

/-- The principal whose ingress block holds a slot. -/
def State.ingressOf (s : State) (slot : Nat) : Nat :=
  match (s.block (slot / 64)).hand with
  | some (_, h) => h
  | none => (s.block (slot / 64)).owner

/-- A principal may use an ingress slot as source or Wheel member. -/
def State.ingressOk (s : State) (p slot : Nat) : Bool :=
  decide (slot < 524288) && (decide (p = 0) || decide (s.ingressOf slot = p))

/-- Ingress blocks of a principal in a group. -/
def State.blocksIn (s : State) (p g : Nat) : Nat :=
  ((List.range 256).filter (fun i => decide (s.ingressOf ((256 * g + i) * 64) = p))).length

/-! ### Branch counts (R185, R190, R235) -/

/-- Branches of the standby page, those of deferred entries included. -/
def State.branches (s : State) : List Nat :=
  let p := s.standby
  let ds := s.hrp.deferred.filterMap (fun d => p.branchAt d.slot)
  p.br.map (fun x => x.1) ++ (ds.filter (fun k => (p.br.look {} k).refs = 0)).eraseDups

/-- B_g of the standby page. -/
def State.bCount (s : State) (g : Nat) : Nat := (s.branches.filter (fun k => brIn k = g)).length
/-- B_g of the active page. -/
def State.bActive (s : State) (g : Nat) : Nat := (s.activePage.usedIn g).length
/-- Branches of a principal with a source in group g (R453). -/
def State.bOf (s : State) (p g : Nat) : Nat :=
  (s.branches.filter (fun k => decide (brIn k = g) && decide (s.ingressOf (brSlot k) = p))).length

/-- HRP_BRANCH_HIGH is raised when B_g rises above 16,384, and again only after it has fallen back (R190). -/
def State.noteHigh (s : State) (g : Nat) : State :=
  let b := s.bCount g
  if b ≤ 16384 then { s with hrp := { s.hrp with branchHigh := s.hrp.branchHigh.filter (· ≠ g) } }
  else if g ∈ s.hrp.branchHigh then s
  else ({ s with hrp := { s.hrp with branchHigh := s.hrp.branchHigh ++ [g] } }).event [0] 0x0030 g b

/-- A group whose B_g has fallen back to 16,384 or below without a write may raise the event again (R190). -/
def State.noteLow (s : State) : State :=
  { s with hrp := { s.hrp with branchHigh := s.hrp.branchHigh.filter (fun g => decide (16384 < s.bCount g)) } }

/-! ### Writing an entry (R194, R199, R202, R203, R235, R453, R503, R676) -/

/-- Egress slots of pending roll sets. -/
def State.rollSlots (s : State) : List Nat := s.flp.seqs.flatMap (fun f => f.roll)
/-- Branches that pending roll sets use on the standby page: none of them is moved (R235). -/
def State.keepBranches (s : State) : List Nat :=
  s.rollSlots.filterMap s.standby.branchAt

/-- The status of an entry's own check: R452, R194, then a pending roll set. -/
def State.entryCheck (s : State) (prin slot v : Nat) : Nat :=
  let e := BitVec.ofNat 32 v
  if s.egressOk prin slot = false ∨ 2 ^ 23 ≤ v ∨ entKind e = 3 ∨ (entKind e = 2 ∧ entSrc e ≥ 4096)
      ∨ (entValid e ∧ entKind e < 2 ∧ s.ingressOk prin (entSrc e) = false) then eRange
  else if slot ∈ s.rollSlots then eConflict
  else 0

/-- What a map write comes to: the state after it, its status, the branches moved, and whether it is deferred. -/
structure Put where
  s : State
  status : Nat := 0
  moves : Nat := 0
  deferred : Bool := false

/-- The map write of a deferred entry counts as placed (R676): one open entry of its job less. -/
def State.closeOne (s : State) (h : Nat) (moves : Nat) : State :=
  let f := fun (j : MapJob) => if j.h = h then { j with open_ := j.open_ - 1, moved := j.moved + moves } else j
  { s with flp := { s.flp with jobs := s.flp.jobs.map f } }

/-- Take a deferred entry of a slot out of the list, as placed. -/
def State.dropDeferred (s : State) (slot moves : Nat) : State :=
  match s.hrp.deferred.find? (fun d => decide (d.slot = slot)) with
  | none => s
  | some d =>
    ({ s with hrp := { s.hrp with deferred := s.hrp.deferred.filter (fun x => x.slot ≠ slot) } }).closeOne d.h moves

/-- Store an entry with its egress table entry. -/
def Page.store (p : Page) (slot : Nat) (e : Word) (o : EgOut) : Page :=
  { p with ent := Tab.put entryReset p.ent slot e, eg := Tab.put {} p.eg slot o, bad := p.bad.filter (· ≠ slot) }

/-- Put page `p` on the standby side; the branch counts of groups may have changed (R190). -/
def State.putPage (s : State) (p : Page) (groups : List Nat) : State := groups.foldl State.noteHigh (s.setStandby p)

/-- A new branch `k` would exceed a bound of its group or of its principal's blocks (R185, R453). -/
def State.branchFull (s : State) (bare : State) (k src : Nat) : Bool :=
  let o := s.ingressOf src
  !(bare.branches.contains k)
    && (decide (bare.bCount (brIn k) ≥ 32768) || decide (bare.bOf o (brIn k) ≥ 128 * s.blocksIn o (brIn k)))

/-- Store an entry whose branch `k` the standby page does not have yet: it is placed, with moves if they are allowed,
or deferred (R187, R202, R235). -/
def State.putNew (s : State) (h slot k : Nat) (e : Word) (groups : List Nat) (noMove : Bool) : Put :=
  let q := s.standby.free slot
  let t := s.dropDeferred slot 0
  if s.branchFull (t.setStandby (q.store slot e {})) k (entSrc e) then { s := s, status := eCapacity }
  else
    match q.place k s.keepBranches with
    | .at_ q' i m =>
      if noMove ∧ m ≠ 0 then { s := s, status := eCapacity }
      else { s := t.putPage ((q'.addRef k i).store slot e (entryOut e slot)) groups, moves := m }
    | .blocked =>
      if noMove then { s := s, status := eCapacity }
      else
        let d := { t.hrp with deferred := t.hrp.deferred ++ [⟨slot, h⟩] }
        { s := ({ t with hrp := d }).putPage (q.store slot e {}) groups, deferred := true }

/-- Execute one map write of a principal on the standby page. -/
def State.mapPut (s : State) (prin h slot v : Nat) (noMove : Bool) : Put :=
  let c := s.entryCheck prin slot v
  if c ≠ 0 then { s := s, status := c }
  else
    let e := mkEntry v
    let p := s.standby
    let groups := (p.branchAt slot).toList.map brIn
    match entryBranch e slot with
    | none => { s := (s.dropDeferred slot 0).putPage ((p.free slot).store slot e (entryOut e slot)) groups }
    | some k =>
      if (p.br.look {} k).refs ≠ 0 then
        { s := (s.dropDeferred slot 0).putPage (((p.addRef k 0).free slot).store slot e (entryOut e slot)) (brIn k :: groups) }
      else s.putNew h slot k e (brIn k :: groups) noMove

/-! ### The map check (R197 to R199) -/

/-- Entry `i` of the standby page waits for resync to copy it (R217). -/
def State.uncopied (s : State) (i : Nat) : Bool :=
  match s.flp.resync with
  | some f => decide (s.tnNow < f + 128) && decide (4096 * (s.tnNow - f) ≤ i)
  | none => false

/-- An entry of a page fails its check. On the standby page it is treated as AIS where `treat` says so: an entry that resync is
still to replace is only reported, because its derived tables are the new ones already (log 75). A deferred entry that fails is placed no more: its
slot carries AIS, and it counts as placed (log 76). -/
def State.entryFails (s : State) (pg i : Nat) (treat : Bool) : State :=
  let idx := pg * 524288 + i
  let s := { s with hrp := { s.hrp with crcIdx := idx }, cal := { s.cal with passFrom := 0 } }
  if pg = s.activeNo then ((s.setSticky Reg.mapStatus 0x80000000).event [0] 0x0031 i pg).yield 1
  else
    let p := s.page pg
    let q := p.free i
    let q := { q with eg := Tab.put {} q.eg i { out := 2 }, bad := if i ∈ p.bad then p.bad else p.bad ++ [i] }
    let s := if treat then ((s.setPage pg q).dropDeferred i 0).noteLow else s
    (s.setSticky Reg.mapStatus 0x40000000).event [0] 0x0031 i pg

/-- The allocator reads a standby entry and checks it; one that failed before is reported no more (R197). -/
def State.checkRead (s : State) (slot : Nat) : State :=
  if slot ∈ s.standby.bad ∨ entryOk (s.standby.entry slot) then s else s.entryFails s.standbyNo slot (!s.uncopied slot)

/-- Place a deferred entry; none while a pending FLIP_SEQ blocks its moves (R235). -/
def State.placeDeferred (s : State) (slot : Nat) : Option (State × Nat) :=
  let s := s.checkRead slot
  let p := s.standby
  match p.branchAt slot with
  | none => some (s.dropDeferred slot 0, 0)
  | some k =>
    if (p.br.look {} k).refs ≠ 0 then
      let q := p.addRef k 0
      some ((s.setStandby { q with eg := Tab.put {} q.eg slot ⟨0, k, 0⟩ }).dropDeferred slot 0, 0)
    else match p.place k s.keepBranches with
      | .at_ q i m =>
        let q := q.addRef k i
        some ((s.setStandby { q with eg := Tab.put {} q.eg slot ⟨0, k, 0⟩ }).dropDeferred slot m, m)
      | .blocked => none

/-- Check one entry of the pass by its number, page 1 after page 0. -/
def State.checkEntry (s : State) (n : Nat) : State :=
  let pg := n / 524288
  let i := n % 524288
  if entryOk ((s.page pg).entry i) then s else s.entryFails pg i (!s.uncopied i)

/-- MAP_CHECK: the 132 entries of this tick; a new pass starts in the tick after one ends (R197). -/
def execMapCheck (s : State) : Out :=
  whenUp s (
    if s.clk.checked then s
    else
      let a := s.hrp.checkPos
      let n := min 132 (1048576 - a)
      let s := ((List.range n).map (a + ·)).foldl State.checkEntry s
      let next := if a + n ≥ 1048576 then 0 else a + n
      let c := s.cal
      let c := if next = 0 then { c with passOk := c.passOk || decide (c.passFrom = 1), passFrom := 1 } else c
      { s with hrp := { s.hrp with checkPos := next }, clk := { s.clk with checked := true }, cal := c })

end Sys2Proof.Machine
end

