-- ==== Sys2Proof/Machine/MapCmds.lean ====
section
/-! DEFINITION. Map writes and reads (R203 to R206, R215 to R220, R503 to R505): the command engine's jobs, the resync
queue and the commands MAP_WRITE and MAP_READ. -/
namespace Sys2Proof.Machine

/-! ### The commit window and resync (R215, R217) -/

/-- The Flip whose window is open now: no write executes on the standby page. -/
def State.windowF (s : State) : Option Nat :=
  match s.flp.flips.find? (fun x => s.clk.tnValid && inWindow s.tnNow x.f) with
  | some x => some x.f
  | none => match s.flp.frozen with
    | some f => if inWindow s.tnNow f then some f else none
    | none => none

/-- Resync runs, from F to F + 127. -/
def State.resyncing (s : State) : Bool :=
  match s.flp.resync with
  | some f => decide (s.tnNow < f + 128)
  | none => false

/-- The device executes map writes of its own: the standby member of a pair applies the active one's (R388). -/
def State.executes (s : State) : Bool :=
  s.fw && (decide (s.cal.role = .standalone) || decide (s.cal.role = .active) || decide (s.cal.role = .suspended))

/-! ### Jobs (R503, R504) -/

def State.setJobs (s : State) (f : MapJob → MapJob) (h : Nat) : State :=
  { s with flp := { s.flp with jobs := s.flp.jobs.map (fun j => if j.h = h then f j else j) } }

/-- RESULT of a MAP_WRITE. -/
def MapJob.result (j : MapJob) : Nat :=
  let first := match j.firstRef with | some (i, _) => i | none => 0x3FFFF
  j.written * 2 ^ 46 + j.held * 2 ^ 28 + first * 2 ^ 10 + min 1023 j.moved

/-- STATUS of a MAP_WRITE: E_HELD if any entry was held, else that of the first refused entry. -/
def MapJob.status (j : MapJob) : Nat :=
  if j.held ≠ 0 then eHeld else match j.firstRef with | some (_, c) => c | none => 0

/-- Complete the jobs whose every entry has been executed, refused, placed or replaced (R504, R676). -/
def State.endJobs (s : State) : State :=
  let done := s.flp.jobs.filter (fun j => j.rest.isEmpty && decide (j.open_ = 0))
  let s := { s with flp := { s.flp with jobs := s.flp.jobs.filter (fun j => !(j.rest.isEmpty && decide (j.open_ = 0))) } }
  done.foldl (fun (t : State) (j : MapJob) =>
    let tick := if j.held ≠ 0 then j.heldF.getD t.tnNow else t.tnNow
    t.complete j.h j.status tick j.result) s

/-- The Flip that an entry of a job has missed: its window is open, or the job was accepted before F − 4 and the entry was not
reached by the end of F − 5; an entry that its rate brings to the engine from F on has missed none (R216, R218). -/
def State.missed (s : State) (j : MapJob) : Option Nat :=
  match s.windowF with
  | some f => some f
  | none => match s.flp.lastF with
    | some f => if j.acc + 4 < f then some f else none
    | none => none

/-- Count an entry as held for a Flip. -/
def MapJob.hold (j : MapJob) (f : Option Nat) : MapJob :=
  match f with
  | none => j
  | some f => { j with held := j.held + 1, heldF := match j.heldF with | some g => some g | none => some f }

/-- Let the next entry of a job join the resync queue (R216, R218). -/
def State.joinOne (s : State) (j : MapJob) : State :=
  match j.rest with
  | [] => s
  | (slot, v) :: rest =>
    let f := s.missed j
    let q : QWrite := ⟨j.ring, j.h, j.idx, slot, v, f⟩
    let s := { s with clk := { s.clk with joinUsed := s.clk.joinUsed + 1 }, flp := { s.flp with queue := s.flp.queue ++ [q] } }
    let s := s.setJobs (fun j => ({ j with rest := rest, idx := j.idx + 1, open_ := j.open_ + 1 }).hold f) j.h
    (s.count 7 0 1 (b2n f.isSome)).recd (fun r => { r with maps := r.maps ++ [⟨j.h, slot, v, 1⟩] })

/-- Entries join the queue in acceptance order; in one tick at most 32 entries join or are executed, so that the tick's record
holds them all (R20, R387). A full share holds up its ring set alone (R219). -/
def State.joinMany : Nat → State → State
  | 0, s => s
  | n + 1, s =>
    if s.clk.joinUsed + s.clk.wrUsed ≥ 32 then s
    else
      match s.flp.jobs.find? (fun j => !j.rest.isEmpty && decide (s.resyncUsed j.ring < resyncShare)) with
      | none => s
      | some j => State.joinMany n (s.joinOne j)

/-- Note a write that reached the standby page for the next Flip (R214, R509). -/
def State.carry (s : State) (prin : Nat) : State :=
  let ps := if prin = 0 ∨ prin ∈ s.flp.parts then s.flp.parts else s.flp.parts ++ [prin]
  { s with flp := { s.flp with carried := s.flp.carried + 1, parts := ps } }

/-- What the execution of an entry leaves in its job, in the queue, the counters and the record. -/
def State.noteRun (t : State) (j : MapJob) (idx slot v : Nat) (queued held : Bool) (status moves : Nat) (deferred : Bool)
    (cost : Nat) : State :=
  let t := { t with clk := { t.clk with wrUsed := t.clk.wrUsed + cost } }
  let t := if status = 0 then t.carry j.prin else t
  let t := t.setJobs (fun y =>
    { y with
      rest := if queued then y.rest else y.rest.drop 1
      idx := if queued then y.idx else y.idx + 1
      open_ := y.open_ + b2n deferred - b2n queued
      written := y.written + (if status = 0 ∧ held = false then 1 else 0)
      moved := y.moved + moves
      firstRef := if status = 0 ∨ y.firstRef.isSome then y.firstRef else some (idx, status) }) j.h
  let t := if queued then { t with flp := { t.flp with queue := t.flp.queue.drop 1 } } else t
  let t := (t.count 7 0 0 (b2n (decide (status = 0)))).count 7 0 2 moves
  t.recd (fun c => { c with maps := c.maps ++ [⟨j.h, slot, v, if status = 0 then 0 else 2⟩] })

/-- Execute one entry of a job, from its own list or from the queue. A write that moves branches takes 8 write positions;
where fewer remain it waits and no further write executes in this tick (R203). The allocator checks the entry that it reads
there before (R197). -/
def State.runEntry (s : State) (j : MapJob) (idx slot v : Nat) (queued held : Bool) : State :=
  let r := (s.checkRead slot).mapPut j.prin j.h slot v j.noMove
  let cost := if r.moves ≠ 0 then 8 else 1
  if s.clk.wrUsed + s.clk.joinUsed + cost > 32 then { s with clk := { s.clk with wrStop := true } }
  else r.s.noteRun j idx slot v queued held r.status r.moves r.deferred cost

/-- Execute the next map write: the head of the resync queue, else the next entry of the first job (R218). A write still in
the queue when the window of a later Flip closed has missed that Flip (R216). -/
def State.runNext (s : State) : Option State :=
  match s.flp.queue with
  | q :: _ =>
    match s.flp.jobs.find? (fun j => j.h = q.h) with
    | some j =>
      let f := if q.held.isSome then none else s.missed j
      let s := (s.setJobs (fun y => y.hold f) j.h).count 7 0 1 (b2n f.isSome)
      some (s.runEntry (j.hold f) q.idx q.slot q.bits true (q.held.isSome || f.isSome))
    | none => some { s with flp := { s.flp with queue := s.flp.queue.drop 1 } }
  | [] =>
    match s.flp.jobs.find? (fun j => !j.rest.isEmpty) with
    | none => none
    | some j =>
      match j.rest with
      | [] => none
      | (slot, v) :: _ =>
        let f := s.missed j
        let s := s.setJobs (fun y => y.hold f) j.h
        some (s.runEntry (j.hold f) j.idx slot v false f.isSome)

/-- Execute map writes until the positions of this tick or the writes run out. -/
def State.runMany : Nat → State → State
  | 0, s => s
  | n + 1, s =>
    if s.clk.wrStop ∨ s.clk.wrUsed + s.clk.joinUsed ≥ 32 then s
    else match s.runNext with
      | none => s
      | some t => if t.clk.wrStop then { s with clk := { s.clk with wrStop := true } } else State.runMany n t

/-- The command engine's map writes of one tick. -/
def State.mapTick (s : State) : State :=
  if !s.executes then s
  else
    let closed := s.windowF.isSome || s.resyncing
    let s := if closed then s else s.runMany 33
    let s := if closed || !s.flp.queue.isEmpty then s.joinMany 32 else s
    s.endJobs

/-- The map writes of this tick: none after the tick's record is sealed, and none where the command engine's work of the tick
is discarded; they wait for the next tick (R17, R20, R22, R23). -/
def State.mapNow (s : State) : State := if s.clk.sealDone ∨ s.drops 3 then s else s.mapTick

/-- DEFERRED_ENTRY_PLACE: a deferred entry's branch is placed with 8 write positions, in a tick in which no pending
FLIP_SEQ blocks its moves; a standby places its own (R203, R235, R388). -/
def execDeferredEntryPlace (slot : Fin 524288) (s : State) : Out :=
  .next (
    if (s.executes ∨ s.cal.role = .standby) ∧ s.clk.wrStop = false ∧ s.clk.wrUsed + 8 ≤ 32 ∧ s.hrp.deferred.any (fun d => d.slot = slot.val) then
      match s.placeDeferred slot with
      | none => s
      | some (t, m) =>
        let t := { t.count 7 0 2 m with clk := { t.clk with wrUsed := t.clk.wrUsed + 8 } }
        if s.executes then t.endJobs else t
    else s)

/-! ### MAP_WRITE and MAP_READ -/

/-- The entries of a MAP_WRITE body: slot and value. -/
def mapEntries : Nat → List Byte → List (Nat × Nat)
  | 0, _ => []
  | n + 1, l => (leAt l 0 4, leAt l 4 4) :: mapEntries n (l.drop 8)

/-- COUNT and the place of the entries agree (R496). -/
def chkMapWrite : Check := fun e _ =>
  let n := e.f 8 4
  let ok := decide (1 ≤ n) && decide (n ≤ 131072)
    && (if descHasBatch e.d then decide (e.bytes.length = 8 * n) else decide (n ≤ 6))
  (need ok eRange, 0)

/-- The request joins the command engine's jobs. -/
def effMapWrite : Effect := fun h e s =>
  let j : MapJob := { h := h, ring := if e.origin = .ring then e.ring else 0, prin := e.prin,
                      noMove := e.f 4 1 % 2 = 1, acc := s.tnNow, rest := mapEntries (e.f 8 4) (e.items 16 48) }
  { s with flp := { s.flp with jobs := s.flp.jobs ++ [j] } }

/-- MAP_WRITE (R503, R504). -/
def execMapWrite (h : Nat) (s : State) : Out := .next (s.runCmd 0x10 chkMapWrite effMapWrite h)

/-- The page that a MAP_READ names. -/
def State.pageSel (s : State) (n : Nat) : Nat :=
  if n = 2 then s.activeNo else if n = 3 then s.standbyNo else n

/-- An entry as a principal may see it: a source not visible to it reads 0x7FFFF (R459, R505). -/
def State.seenEntry (s : State) (prin : Nat) (e : Word) : Word :=
  if entValid e ∧ entKind e < 2 ∧ s.ingressOk prin (entSrc e) = false then mkEntry (bits e 22 19 * 2 ^ 19 + 0x7FFFF) else e

/-- The slots lie in the map and are visible to the issuer (R452, R505). -/
def chkMapRead : Check := fun e s =>
  let n := e.f 12 4
  let a := e.f 8 4
  (need (decide (e.f 4 1 ≤ 3) && decide (1 ≤ n) && decide (n ≤ 1024) && decide (a + n ≤ 524288)
    && decide (e.f 16 8 % 8 = 0) && (List.range n).all (fun i => s.egressOk e.prin (a + i))) eRange, 0)

/-- The entries as they stand now; during resync those of the standby page as they will stand at its end, which is how the
active page's stand (R205, R220). -/
def effMapRead : Effect := fun h e s =>
  let pg := s.pageSel (e.f 4 1)
  let p := if s.resyncing then s.activePage else s.page pg
  let ents := (List.range (e.f 12 4)).map (fun i => s.seenEntry e.prin (p.entry (e.f 8 4 + i)))
  let first := match ents with | x :: _ => x.toNat | [] => 0
  let role := if pg = s.activeNo then 0 else 1
  (s.output h (e.f 16 8) (e.f 24 4) 0 (ents.flatMap (fun x => leBytes 4 x.toNat))).complete h 0 s.tnNow
    (first + pg * 2 ^ 32 + role * 2 ^ 33)

/-- MAP_READ (R205, R505). -/
def execMapRead (h : Nat) (s : State) : Out := .next (s.runCmd 0x11 chkMapRead effMapRead h)

end Sys2Proof.Machine
end

