-- ==== Sys2Proof/Machine/Coding.lean ====
section
/-! DEFINITION. Line coding in both directions (R54 to R56, R108 to R112): the RS code and its decoder, scramblers, Gray
symbols and precoding. -/
namespace Sys2Proof.Machine

/-! ### RS codewords (R108) -/

/-- A symbol of GF(2^10). -/
abbrev Sym := BitVec 10

/-- Multiply by x modulo x^10 + x^3 + 1. -/
def gfX (a : Sym) : Sym := if a.getLsbD 9 then (a <<< 1) ^^^ 9#10 else a <<< 1

/-- The product of two symbols, `n` bits of the second taken from the lowest. -/
def gfMulN : Nat → Sym → Sym → Sym
  | 0, _, _ => 0
  | n + 1, a, b => (if b.getLsbD 0 then a else 0) ^^^ gfMulN n (gfX a) (b >>> 1)
def gfMul (a b : Sym) : Sym := gfMulN 10 a b

/-- The power of x. -/
def gfPow : Nat → Sym
  | 0 => 1
  | n + 1 => gfX (gfPow n)

/-- A polynomial, highest coefficient first, times x - r. -/
def polyTimes (r : Sym) (p : List Sym) : List Sym :=
  List.zipWith (fun a b => a ^^^ b) (p ++ [0]) (0 :: p.map (fun a => gfMul r a))

/-- The generator of IEEE 802.3 clause 119 with 30 parity symbols, without its leading 1: the product of x - x^j for j from 0 to
29 (log 4). -/
def rsGen : List Sym := ((List.range 30).foldl (fun p j => polyTimes (gfPow j) p) [1]).drop 1

/-- One message symbol enters the parity register. -/
def rsStep (g : List Sym) (reg : List Sym) (m : Sym) : List Sym :=
  let fb := m ^^^ reg.headD 0
  List.zipWith (fun a c => a ^^^ gfMul fb c) (reg.drop 1 ++ [0]) g

/-- The 30 parity symbols of a message, highest degree first. -/
def rsParity (msg : List Sym) : List Sym := msg.foldl (rsStep rsGen) (List.replicate 30 0)

/-- Ten consecutive bits form a symbol, the first the most significant. -/
def toSyms : Nat → List Bool → List Sym
  | 0, _ => []
  | n + 1, l => BitVec.ofNat 10 (ofMsb (l.take 10)) :: toSyms n (l.drop 10)

/-- The bits of a codeword of `k` message symbols: the message, then its parity. -/
def codeword (k : Nat) (l : List Bool) : List Bool := l ++ (rsParity (toSyms k l)).flatMap msbBits

/-- `n` codewords in a row, not interleaved (R109, R379). -/
def codewords (k : Nat) : Nat → List Bool → List Bool
  | 0, _ => []
  | n + 1, l => codeword k (l.take (10 * k)) ++ codewords k n (l.drop (10 * k))

/-! ### Scramblers (R110, R112) -/

/-- The additive PRBS31 scrambler from a state. -/
def prbs31 : BitVec 31 → List Bool → List Bool
  | _, [] => []
  | s, d :: t =>
    let k := xor (s.getLsbD 30) (s.getLsbD 27)
    xor d k :: prbs31 ((s <<< 1) ||| BitVec.ofNat 31 (b2n k)) t

/-- The state at f = 128: s[30:10] all ones, s[9:0] as given. -/
def prbsSeed (id : Nat) : BitVec 31 := BitVec.ofNat 31 ((2 ^ 21 - 1) * 2 ^ 10 + id % 2 ^ 10)

/-- One bit of the self-synchronous scrambler x^58 + x^39 + 1. -/
def selfSync (z : BitVec 58 × List Bool) (d : Bool) : BitVec 58 × List Bool :=
  let o := xor d (xor (z.1.getLsbD 38) (z.1.getLsbD 57))
  ((z.1 <<< 1) ||| BitVec.ofNat 58 (b2n o), o :: z.2)

/-! ### Decoding a codeword (R108, R111) -/

/-- The inverse of a symbol, its 1,022nd power; 0 for 0. -/
def gfInv (a : Sym) : Sym :=
  ((List.range 9).foldl (fun (p : Sym × Sym) _ => let q := gfMul p.1 p.1; (q, gfMul p.2 q)) (a, 1)).2

/-- A polynomial at a point, lowest coefficient first. -/
def polyAt (p : List Sym) (x : Sym) : Sym := p.foldr (fun c a => gfMul a x ^^^ c) 0

/-- The sum of two polynomials, lowest coefficient first. -/
def polyAdd : List Sym → List Sym → List Sym
  | [], q => q
  | p, [] => p
  | a :: p, b :: q => (a ^^^ b) :: polyAdd p q

/-- The 30 syndromes of a received word, highest degree first. -/
def rsSyndromes (r : List Sym) : List Sym := (List.range 30).map (fun j => polyAt r.reverse (gfPow j))

/-- The search for the error locator: the locator, the one before the last change of length, the length, the steps since that
change, and its discrepancy. -/
structure RsLoc where
  lam : List Sym := [1]
  prev : List Sym := [1]
  len : Nat := 0
  gap : Nat := 1
  last : Sym := 1
deriving DecidableEq, Repr

/-- One step of the search with syndrome `n`. -/
def RsLoc.step (syn : List Sym) (z : RsLoc) (n : Nat) : RsLoc :=
  let d := (List.range (z.len + 1)).foldl (fun a i => a ^^^ gfMul (z.lam.getD i 0) (syn.getD (n - i) 0)) 0
  if d = 0 then { z with gap := z.gap + 1 }
  else
    let q := gfMul d (gfInv z.last)
    let lam := polyAdd z.lam (List.replicate z.gap 0 ++ z.prev.map (fun a => gfMul q a))
    if 2 * z.len ≤ n then { lam := lam, prev := z.lam, len := n + 1 - z.len, gap := 1, last := d }
    else { z with lam := lam, gap := z.gap + 1 }

/-- The error value at degree `i`, if the locator has a root there. -/
def rsError (lam om : List Sym) (i : Nat) : Option Sym :=
  let x := gfPow i
  let y := gfInv x
  if polyAt lam y = 0 then
    let dl := ((List.range lam.length).filter (fun j => decide (j % 2 = 1))).foldl
      (fun a j => a ^^^ gfMul (lam.getD j 0) ((List.range (j - 1)).foldl (fun p _ => gfMul p y) 1)) 0
    some (gfMul x (gfMul (polyAt om y) (gfInv dl)))
  else none

/-- Correct up to 15 symbols of a word, highest degree first: the word and the number corrected; none when it cannot be
corrected. -/
def rsDecode (r : List Sym) : Option (List Sym × Nat) :=
  let syn := rsSyndromes r
  if syn.all (fun a => decide (a = 0)) then some (r, 0)
  else
    let z := (List.range 30).foldl (RsLoc.step syn) {}
    if 15 < z.len then none
    else
      let om := (List.range 30).map (fun n =>
        (List.range (n + 1)).foldl (fun a i => a ^^^ gfMul (z.lam.getD i 0) (syn.getD (n - i) 0)) 0)
      let errs := (List.range r.length).map (fun j => rsError z.lam om (r.length - 1 - j))
      let c := List.zipWith (fun a (e : Option Sym) => a ^^^ e.getD 0) r errs
      if (errs.filter Option.isSome).length = z.len ∧ (rsSyndromes c).all (fun a => decide (a = 0)) then some (c, z.len)
      else none

/-- The bits of the messages of `n` codewords of `k` message symbols, the symbols corrected, and which codewords were
uncorrectable: those pass as they were received (R111). -/
def decodeWords (k : Nat) : Nat → List Bool → List Bool × Nat × List Bool
  | 0, _ => ([], 0, [])
  | n + 1, l =>
    let r := toSyms (k + 30) l
    let z := decodeWords k n (l.drop (10 * (k + 30)))
    match rsDecode r with
    | some (c, e) => ((c.take k).flatMap msbBits ++ z.1, e + z.2.1, false :: z.2.2)
    | none => ((r.take k).flatMap msbBits ++ z.1, z.2.1, true :: z.2.2)

/-- The Gray symbol of a pair of bits: 00, 01, 11, 10 give 0 to 3 (R54). -/
def gray (a b : Bool) : Nat := if a then (if b then 2 else 3) else b2n b

/-- The Gray symbols of a bit stream. -/
def graySyms : List Bool → List Nat
  | a :: b :: t => gray a b :: graySyms t
  | _ => []

/-- 1/(1 + D) modulo 4 from the last level sent; the level indices 0 to 3 stand for -3, -1, +1, +3 (R55). -/
def precode : Nat → List Nat → List Nat
  | _, [] => []
  | p, g :: t =>
    let q := (g + 4 - p) % 4
    q :: precode q t

/-- The Gray symbols behind precoded level indices, from the level before them (R55). -/
def deprecode : Nat → List Nat → List Nat
  | _, [] => []
  | p, q :: t => (q + p) % 4 :: deprecode q t

/-- The bits of Gray symbols. -/
def grayBits (l : List Nat) : List Bool := l.flatMap (fun g => [decide (2 ≤ g), decide (g = 1 ∨ g = 2)])

/-- The self-synchronous descrambler: payload bits from the bits on the line (R112). -/
def descramble58 : BitVec 58 → List Bool → List Bool
  | _, [] => []
  | z, b :: t => xor b (xor (z.getLsbD 38) (z.getLsbD 57)) :: descramble58 ((z <<< 1) ||| BitVec.ofNat 58 (b2n b)) t

/-- `n` blocks of 66 bits: whether each sync header is 01, and the payloads. -/
def splitBlocks : Nat → List Bool → List Bool × List Bool
  | 0, _ => ([], [])
  | n + 1, l =>
    let z := splitBlocks n (l.drop 66)
    (decide (l.take 2 = [false, true]) :: z.1, (l.drop 2).take 64 ++ z.2)

end Sys2Proof.Machine
end

