-- ==== Sys2Proof/Machine/Lanes.lean ====
section
/-! DEFINITION. Lanes and lane groups (02_odvin_lanes): power states, the rung ladder, loops, eye scans, the board table;
and the entry of a receive direction to HUNT (R119). -/
namespace Sys2Proof.Machine

/-- Ticks per frame at a rung (R97). -/
def frameTicks (rung : Nat) : Nat := 2 ^ (3 - rung)

/-- Slots per lane at a rung (R51). -/
def slotsAt (rung : Nat) : Nat := 2048 / frameTicks rung

/-- The lanes of a group. -/
def groupLanes (g : Nat) : List Nat := (List.range 8).map (fun i => 8 * g + i)

/-- The present rung of a lane's group, and the one at which its transmitters send. -/
def State.rungOf (s : State) (n : Nat) : Nat := (s.group (n / 8)).rung
def State.txRungOf (s : State) (n : Nat) : Nat := (s.group (n / 8)).txRung

/-- A lane takes part in the ladder (R67). -/
def State.takesPart (s : State) (n : Nat) : Bool :=
  let l := s.lane n
  decide (l.tx = .active) && decide (l.rx = .active) && !l.noPeer && !l.isolated

/-- The lanes of a group that take part. -/
def State.partLanes (s : State) (g : Nat) : List Nat := (groupLanes g).filter s.takesPart

/-- The held board table has a record for a lane at a rung (R64). -/
def State.btRec (s : State) (n k : Nat) : Option BtRec :=
  match s.sds.bt.held with
  | some b => b.recs.find? (fun r => decide (r.lane = n) && decide (r.rung = k))
  | none => none

/-- A lane has a rung-0 record in the held table; without one it stays OFF (R64). -/
def State.hasBase (s : State) (n : Nat) : Bool := (s.btRec n 0).isSome

/-- The record that a lane's group has applied for a rung (R66). -/
def State.appliedRec (s : State) (n k : Nat) : Option BtRec :=
  match s.sds.bt.tab.look none (n / 8) with
  | some b => b.recs.find? (fun r => decide (r.lane = n) && decide (r.rung = k))
  | none => none

/-- A group applies the held table, at power-up or a rung switch (R66). -/
def State.applyTable (s : State) (g : Nat) : State :=
  { s with sds := { s.sds with bt := { s.sds.bt with tab := Tab.put none s.sds.bt.tab g s.sds.bt.held } } }

/-- This end offers rung `k` on lane `n` (R64, R72). -/
def State.offers (s : State) (n k : Nat) : Bool :=
  (s.btRec n k).isSome && !(s.group (n / 8)).cleared.getLsbD k

/-- The receiver requests precoding at a rung (R62). -/
def State.preReq (s : State) (n k : Nat) : Bool :=
  match s.btRec n k with
  | some r => r.flags.getLsbD 0
  | none => false

/-- A defect of a lane (R121): 0 LOS, 1 LOF, 2 AIS, 3 RDI. -/
def State.laneDef (s : State) (n d : Nat) : Defect := (s.rx n).defects.look {} d
def RxLane.setDef (x : RxLane) (d : Nat) (f : Defect) : RxLane := { x with defects := Tab.put {} x.defects d f }
def State.declared (s : State) (n d : Nat) : Bool := (s.laneDef n d).declared

/-- Note a change of a raw condition of a defect (R122). -/
def Defect.note (x : Defect) (raw : Bool) (tick : Nat) : Defect :=
  if x.raw = raw then x else { x with raw := raw, since := tick }

/-- Follow the raw conditions of LOF, AIS and RDI under their masks (R121). -/
def State.noteDefects (s : State) (n : Nat) : State :=
  let x := s.rx n
  let on := decide ((s.lane n).rx = .active)
  let los := (s.laneDef n 0).declared
  let lof := (s.laneDef n 1).declared
  let t := s.clk.tick
  let x := x.setDef 1 ((x.defects.look {} 1).note (on && decide (x.align = .hunt) && !los) t)
  let x := x.setDef 2 ((x.defects.look {} 2).note (on && x.ais && x.good && !los && !lof) t)
  let x := x.setDef 3 ((x.defects.look {} 3).note (on && x.rdi && x.good && !los && !lof) t)
  s.setRx n x

/-- A Wheel enters HUNT (R156). -/
def Wheel.toHunt (w : Wheel) (tick : Nat) : Wheel :=
  { w with align := .hunt, huntUntil := tick + 128, cand := [], bad := 0, bip := none, presC := none, nextC := none,
           mark := false, markNext := false, trCyc := [], trCount := 0 }

/-- A Wheel has a member on a lane. -/
def Wheel.onLane (w : Wheel) (n : Nat) : Bool := w.members.any (fun m => decide (m / 2048 = n))

/-- A copy goes to HUNT at tick `now`: the chunk of the multiframe under way is ABSENT, or the last whole one, whose BIP-8 never
comes, ERRORED (R257, R673). -/
def cutChunks (now : Nat) : List Chunk → List Chunk
  | [] => []
  | [c] => if now < c.t0 + 64 then [{ c with absent := true }] else [{ c with errored := true }]
  | c :: t => c :: cutChunks now t

/-- What the HUNT of the Wheels named does to the pairs of which they are inputs. -/
def State.cutCopies (s : State) (hit : Nat → Bool) : State :=
  { s with col := { s.col with pair := s.col.pair.map (fun (p : Nat × Pair) =>
      (p.1, { p.2 with
        ca := if p.2.defined && hit p.2.wa then cutChunks s.secClock p.2.ca else p.2.ca
        cb := if p.2.defined && hit p.2.wb then cutChunks s.secClock p.2.cb else p.2.cb })) } }

/-- Every Wheel with a member on a lane enters HUNT, or, in HUNT, waits anew from now (R156). -/
def State.huntWheels (s : State) (n : Nat) : State :=
  let s := s.cutCopies (fun w => (s.wheel w).onLane n && decide ((s.wheel w).align ≠ .hunt))
  { s with whl := s.whl.map (fun (p : Nat × Wheel) => if p.2.onLane n then (p.1, p.2.toHunt s.clk.tick) else p) }

/-- A receive direction enters HUNT (R119); an in-service loss of frame starts (R76). -/
def State.enterHunt (s : State) (n : Nat) : State :=
  let s := s.huntWheels n
  let x := s.rx n
  let s := s.setRx n { x with align := .hunt, bad := 0, cands := [], acc := none, bip := none, blockLock := false,
                              syncRun := 0, syncWin := [] }
  let l := s.lane n
  let s := if l.dropSince.isNone then s.setLane n { l with dropSince := some s.clk.tick } else s
  s.noteDefects n

/-! ### Eye scans (R90 to R94) -/

/-- Symbols compared per tick at a rung (R92). -/
def scanSymbols : Nat → Nat
  | 0 => 3300 | 1 => 6600 | 2 => 6800 | _ => 13600

/-- A point word: SAT where the count does not fit in 31 bits, and the count (R92). -/
def pointWord (c : Nat) : List Byte := leBytes 4 (if c < 2 ^ 31 then c else 2 ^ 32 - 1)

/-- End a scan: the result is written to the host buffer and the command completes (R92, R94, R519). -/
def State.endScan (s : State) (c : Scan) (status done vstep : Nat) (points : List Nat) : State :=
  let start := c.start.getD s.clk.tick
  let stn := s.tnNow - (s.clk.tick - start)
  let most := c.dwell * scanSymbols c.rung
  let serial := match s.job c.h with | some e => e.d.serial | none => 0
  let hdr := leBytes 2 c.lane ++ leBytes 1 c.rung ++ leBytes 1 c.eye ++ leBytes 2 c.dwell ++ leBytes 2 vstep
    ++ leBytes 8 stn ++ leBytes 8 (stn + done * (c.dwell + 2)) ++ leBytes 8 most ++ leBytes 2 done
    ++ leBytes 1 status ++ [0] ++ leBytes 8 serial ++ leBytes 20 0
  let pts := points.flatMap (fun p => pointWord (min p most)) ++ List.replicate (4 * (4096 - points.length)) 0
  let s := { s with sds := { s.sds with scans := s.sds.scans.filter (fun x => x.h ≠ c.h) } }
  (s.output c.h c.out c.hkey 0 (hdr ++ pts)).complete c.h 0 stn (done + status * 2 ^ 16)

/-- End the running scan of a lane early with a cause; its counts are measured values (log 5). -/
def State.abortScan (s : State) (n status : Nat) : State :=
  match s.sds.scans.find? (fun c => decide (c.lane = n) && c.start.isSome) with
  | none => s
  | some c =>
    let done := min 4096 ((s.clk.tick - c.start.getD 0) / (c.dwell + 2))
    let pts := (List.range done).map (fun i => Config.eyeCount (s.fresh + i))
    { (s.endScan c status done Config.eyeVstep.toNat pts) with fresh := s.fresh + done }

/-! ### Fabric link state as far as lanes move it (R346) -/

/-- Number of a link state (R347). -/
def LinkSt.num : LinkSt → Nat
  | .down => 0 | .keying => 1 | .measuring => 2 | .up => 3

/-- Move a fabric link to a state; keys and samples are discarded in DOWN, and FAB_LINK is raised (R346). -/
def State.setLinkSt (s : State) (l : Link) (st : LinkSt) : State :=
  let x := s.plink l
  if x.st = st then s
  else
    let s := s.setPlink l (if st = .down then { x with st := .down, keys := none, samples := [], nonceOwn := none,
                                                       helloFar := none, reqSerial := none, delayPs := 0 }
                           else { x with st := st })
    match l with
    | .group g => s.event [0] 0x0060 g.val st.num
    | .calrin => s

/-- The group leaves IN_SERVICE, so its fabric link goes DOWN (R346). -/
def State.groupLinkDown (s : State) (g : Nat) : State :=
  if h : g < 32 then
    let l := Link.group ⟨g, h⟩
    if (s.plink l).st = .down then s else (s.setLinkSt l .down).fabLinkFailed (some g)
  else s

/-- The Calrin link goes DOWN: no port works, its delay exceeds the limit, 16 messages failed, or the block is reset. -/
def State.calLinkDown (s : State) : State :=
  if s.fab.calrin.st = .down then s else (s.setLinkSt .calrin .down).fabLinkFailed none

/-! ### The ladder (R67 to R79) -/

/-- Enter R0_ALIGN at rung 0; capability words are taken afresh. A group that was at another rung switches (R66, R94). -/
def State.enterAlign (s : State) (g : Nat) : State :=
  let x := s.group g
  let moved := decide (x.rung ≠ 0) || decide (x.txRung ≠ 0)
  let s := if moved ∨ x.st = .down then s.applyTable g else s
  let s := s.setGroup g { x with st := .r0Align, rung := 0, txRung := 0, since := s.clk.tick, target := 0, sendAct := 0,
                                 ownSeq := none, farSeq := none, ownDone := false, farDone := false }
  (groupLanes g).foldl (fun s n =>
    let l := s.lane n
    let s := s.setLane n { l with capLast := none, cap := none, wakeDue := none }
    let s := if moved then (s.setRx n { s.rx n with decoded := false }).abortScan n 1 else s
    if (s.lane n).rx = .active then s.enterHunt n else s) s

/-- The frame sequence at which this end's transmitter switches: a frame start 128 to 8,000 ticks after the first frame
that carries it (R73); the distance is a free value. -/
def State.chooseSeq (s : State) (g : Nat) : State × Nat :=
  let n := frameTicks (s.group g).txRung
  let first := (s.secClock / n + 1) * n
  let lo := ceilDiv 128 n
  let hi := 8000 / n
  let j := lo + (Config.switchLead s.fresh).val % (hi - lo + 1)
  ({ s with fresh := s.fresh + 1 }, (first + j * n) % 2 ^ 24)

/-- The target that the leader proposes (R72): the highest rung offered by both ends on every participating lane up to the
ceiling; 0 where no rung is. -/
def State.bestRung (s : State) (g : Nat) : Nat :=
  let ok := fun k => (s.partLanes g).all (fun n =>
    s.offers n k && (match (s.lane n).cap with | some w => w.getLsbD (48 + k) | none => false))
  ((List.range ((s.group g).ceil + 1)).filter ok).foldl max 0

/-- The group reaches IN_SERVICE and LADDER_UP is raised (R78). As a source of the Starter it qualifies anew (R298). -/
def State.inService (s : State) (g : Nat) : State :=
  let x := s.group g
  let s := s.setGroup g { x with st := .inService, sendAct := 0 }
  let s := s.setSrc g { s.src g with qualified := false, since := none }
  let s := (groupLanes g).foldl (fun s n =>
    let l := s.lane n
    s.setLane n { l with dropSince := if (s.rx n).align = .hunt then some s.clk.tick else none }) s
  s.event [0] 0x0010 g x.rung

/-- Announce a switch to a target rung with the given action (R72, R73). -/
def State.announce (s : State) (g target act : Nat) : State :=
  let (s, q) := s.chooseSeq g
  let x := s.group g
  s.setGroup g { x with target := target, sendAct := act, ownSeq := some (BitVec.ofNat 24 q), ownDone := false,
                        exch := if act = 1 then (x.exch + 1) % 256 else x.exch }

/-- The leader's move in NEGOTIATE. -/
def State.propose (s : State) (g : Nat) : State := s.announce g (s.bestRung g) 1

/-- Enter NEGOTIATE; the leading end proposes at once. -/
def State.enterNegotiate (s : State) (g : Nat) : State :=
  let x := s.group g
  let s := s.setGroup g { x with st := .negotiate, since := s.clk.tick, ownSeq := none, farSeq := none,
                                 ownDone := false, farDone := false }
  if s.grpLead g then s.propose g else s

/-- The lanes named go out and the group falls back to rung 0 with a lowered ceiling (R67, R78). -/
def State.fallback (s : State) (g : Nat) (lanes : List Nat) : State :=
  let x := s.group g
  let bits := lanes.foldl (fun a n => a + 2 ^ (n % 8)) 0
  let s := s.setGroup g { x with st := .fallback, ceil := x.rung - 1, since := s.clk.tick, farSeq := none,
                                 farDone := false }
  let s := s.announce g 0 1
  let s := (groupLanes g).foldl (fun s n => s.setLane n { s.lane n with cap := none, capLast := none }) s
  (s.event [0] 0x0011 g (x.rung + bits * 256)).groupLinkDown g

/-- A failure of participating lanes under FALLBACK_POLICY (R75): under ISOLATE the lanes alone go out, unless all fail. -/
def State.laneFailure (s : State) (g : Nat) (bad : List Nat) : State × Bool :=
  if !s.grpIsolate g || decide (bad.length = (s.partLanes g).length) then (s.fallback g bad, true)
  else (bad.foldl (fun s n => s.setLane n { s.lane n with isolated := true }) s, false)

/-- Enter VERIFY: the checks of every participating lane start afresh (R74). -/
def State.enterVerify (s : State) (g : Nat) : State :=
  let s := s.setGroup g { s.group g with st := .verify, since := s.clk.tick, sendAct := 0 }
  (groupLanes g).foldl (fun s n =>
    s.setLane n { s.lane n with verBad := false, verCorr := 0, frameAt := none, cap := none, capLast := none }) s

/-- A switch of one end to the target rung is complete: at the later one VERIFY starts, or R0_ALIGN after a fallback. -/
def State.switched (s : State) (g : Nat) : State :=
  let x := s.group g
  if x.st = .step ∧ x.ownDone ∧ x.farDone then s.enterVerify g
  else if x.st = .fallback ∧ x.ownDone ∧ (x.farSeq.isNone ∨ x.farDone) then s.enterAlign g
  else s

/-- The tick named by a 24-bit sequence has come. -/
def State.seqReached (s : State) (q : BitVec 24) : Bool :=
  decide (diff24 (BitVec.ofNat 24 s.secClock) q < 2 ^ 23)

/-- A word's SWITCH_SEQ names a frame start, of frames of `n` ticks, and keeps the bounds of R73 against the first frame that
carried it. -/
def seqOk (n : Nat) (first q : BitVec 24) : Bool :=
  decide (128 ≤ diff24 q first) && decide (diff24 q first ≤ 8000) && decide (diff24 q first % n = 0)

/-- The SWITCH_SEQ of a word of lane `n` is in order (R73). -/
def State.seqFits (s : State) (n : Nat) (q : BitVec 24) : Bool := seqOk (frameTicks (s.rungOf n)) (s.lane n).capSeq q

/-- Fields of a capability word (R69). -/
def capAct (w : BitVec 64) : Nat := bits w 47 46
def capTarget (w : BitVec 64) : Nat := bits w 45 44
def capLead (w : BitVec 64) : Bool := bit w 43
def capReady (w : BitVec 64) : Bool := bit w 40
def capSeqOf (w : BitVec 64) : BitVec 24 := BitVec.ofNat 24 (bits w 39 16)
def capExch (w : BitVec 64) : Nat := bits w 15 8

/-- A word is well formed: TYPE, VER and CRC-8 (R69). -/
def capOk (w : BitVec 64) : Bool :=
  decide (bits w 63 56 = 0xC5) && decide (bits w 55 52 = 1)
  && decide (crc8 0 ((msbBits w).take 56) = BitVec.ofNat 8 (bits w 7 0))

/-- Both ends of a lane are in frame. -/
def State.bothInFrame (s : State) (n : Nat) : Bool :=
  decide ((s.rx n).align = .inFrame) && (match (s.lane n).cap with | some w => capReady w | none => false)

/-- In R0_ALIGN every participating lane is in frame in both directions: NEGOTIATE follows, unless both ends lead (R67,
R71). -/
def State.tryNegotiate (s : State) (g : Nat) : State :=
  let ps := s.partLanes g
  if (s.group g).st = .r0Align ∧ ps ≠ [] ∧ ps.all s.bothInFrame then
    if s.grpLead g ∧ ps.any (fun n => match (s.lane n).cap with | some w => capLead w | none => false) then
      s.setSticky (Reg.grpStatus g) 0x00400000
    else s.enterNegotiate g
  else s

/-- A PROPOSE of TARGET 0 by a group that has left rung 0: both ends fall back (R74, R75). -/
def State.onFail (s : State) (g n : Nat) (w : BitVec 64) : State :=
  let s := if (s.group g).st = .verify ∨ (s.group g).st = .inService then s.fallback g (s.partLanes g) else s
  let x := s.group g
  if x.st = .fallback ∧ x.farSeq.isNone then
    if s.seqFits n (capSeqOf w) then
      s.setGroup g { x with farSeq := some (capSeqOf w), farDone := false, sendAct := 2, exch := capExch w }
    else s.setGroup g { x with sendAct := 3, exch := capExch w }
  else s

/-- A PROPOSE at the following end, or a fallback proposal at either (R72, R73). An agreed target of 0 puts the group in
service, and the ACCEPT goes on in its frames (R67). -/
def State.onPropose (s : State) (g n : Nat) (w : BitVec 64) : State :=
  let x := s.group g
  let t := capTarget w
  if x.st = .negotiate then
    if !s.seqFits n (capSeqOf w) ∨ ¬ (s.partLanes g).all (fun n => s.offers n t) then
      s.setGroup g { x with sendAct := 3, exch := capExch w }
    else
      let s := (s.setGroup g { x with exch := capExch w }).announce g t 2
      if t = 0 then
        let s := s.inService g
        s.setGroup g { s.group g with sendAct := 2 }
      else s.setGroup g { s.group g with st := .step, farSeq := some (capSeqOf w), farDone := false }
  else if t = 0 ∧ ¬ (x.st = .inService ∧ x.rung = 0) then s.onFail g n w
  else s

/-- The far end's answer at the leading end, to the exchange that is under way (R70, R72, R73). -/
def State.onAnswer (s : State) (g n : Nat) (w : BitVec 64) : State :=
  let x := s.group g
  if capExch w ≠ x.exch then s
  else if capAct w = 2 then
    if (x.st = .negotiate ∧ x.sendAct = 1 ∧ capTarget w = x.target)
        ∨ (x.st = .fallback ∧ x.farSeq.isNone ∧ capTarget w = 0) then
      if !s.seqFits n (capSeqOf w) then s.setGroup g { x with sendAct := 3 }
      else if x.st = .negotiate ∧ x.target = 0 then s.inService g
      else s.setGroup g { x with farSeq := some (capSeqOf w), farDone := false,
                                 st := if x.st = .negotiate then .step else x.st }
    else s
  else if x.st = .negotiate ∧ x.sendAct = 1 then
    (s.setGroup g { x with cleared := x.cleared ||| BitVec.ofNat 4 (2 ^ x.target) }).propose g
  else s

/-- CAPABILITY_WORD: a word received in two consecutive frames acts (R70). The far OFFER shown is that of the
lowest-numbered participating lane. -/
def execCapabilityWord (lane : Fin 256) (w : BitVec 64) (s : State) : Out :=
  whenUp s (
    if (s.lane lane).cap = some w ∧ capOk w then
      let g := lane.val / 8
      let s := if (s.partLanes g).head? = some lane.val then
          s.setGroup g { s.group g with farOffer := bits w 51 48 } else s
      let s := s.tryNegotiate g
      if capAct w = 1 then s.onPropose g lane w
      else if capAct w = 2 ∨ capAct w = 3 then s.onAnswer g lane w
      else s
    else s)

/-- LADDER_T_ALIGN_EXPIRY: lanes not in frame in both directions are marked NO_PEER and the rest continue (R67). -/
def execLadderTAlignExpiry (g : Fin 32) (s : State) : Out :=
  let x := s.group g
  whenUp s (
    if x.st = .r0Align ∧ x.since + s.tAlign g ≤ s.clk.tick then
      let bad := (s.partLanes g).filter (fun n => !s.bothInFrame n)
      let s := bad.foldl (fun s n => s.setLane n { s.lane n with noPeer := true }) s
      s.tryNegotiate g
    else s)

/-- LADDER_T_NEG_EXPIRY: NEGOTIATE ends and the group returns to R0_ALIGN; NO_LEADER is set when neither end leads (R67,
R71). -/
def execLadderTNegExpiry (g : Fin 32) (s : State) : Out :=
  let x := s.group g
  whenUp s (
    if x.st = .negotiate ∧ x.since + s.tNeg g ≤ s.clk.tick then
      let farLeads := (s.partLanes g).any (fun n => match (s.lane n).cap with | some w => capLead w | none => false)
      let s := if s.grpLead g ∨ farLeads then s else s.setSticky (Reg.grpStatus g) 0x00200000
      s.enterAlign g
    else s)

/-- A direction of a group takes a new rung, the transmit direction at this end's switch and the receive direction at the far
end's: receivers realign, precoding follows the requests, the held table applies, running eye scans end (R52, R55, R59, R66,
R94, R119). -/
def State.takeRung (s : State) (g rung : Nat) (own : Bool) : State :=
  let s := (s.applyTable g).setGroup g (if own then { s.group g with txRung := rung } else { s.group g with rung := rung })
  (groupLanes g).foldl (fun s n =>
    let l := s.lane n
    let far := match l.cap with
      | some w => (decide (rung = 3) && bit w 42) || (decide (rung = 2) && bit w 41)
      | none => false
    let l := if own then { l with preTx := decide (rung ≥ 2) && far }
             else { l with preRx := decide (rung ≥ 2) && s.preReq n rung }
    let s := (s.setLane n l).abortScan n 1
    if own then s
    else
      let s := s.setRx n { s.rx n with decoded := false }
      if l.rx = .active then s.enterHunt n else s) s

/-- STEP_SWITCH: this end's transmitter, or the far end's, starts the target rung with the frame whose sequence equals its
SWITCH_SEQ (R73). -/
def execStepSwitch (g : Fin 32) (far : Bool) (s : State) : Out :=
  let x := s.group g
  let q := if far then x.farSeq else x.ownSeq
  let isDone := if far then x.farDone else x.ownDone
  whenUp s (
    match q with
    | some q =>
      if (x.st = .step ∨ x.st = .fallback) ∧ isDone = false ∧ s.seqReached q then
        let s := s.takeRung g x.target (!far)
        let y := s.group g
        (s.setGroup g (if far then { y with farDone := true } else { y with ownDone := true })).switched g
      else s
    | none => s)

/-- A lane meets the criteria of VERIFY counted from tick `t0` with window `tv` (R74). -/
def State.verified (s : State) (n t0 tv : Nat) : Bool :=
  let l := s.lane n
  (match l.frameAt with
   | some t => decide (t ≤ t0 + min (tv / 2) 4000)
   | none => false)
  && !l.verBad && (decide (s.rungOf n < 2) || decide (l.verCorr ≤ s.corrMax (n / 8)))

/-- LADDER_T_VERIFY_EXPIRY: every participating lane that met the criteria and whose far end reports READY passes; the
outcome follows FALLBACK_POLICY (R74, R75, R78). -/
def execLadderTVerifyExpiry (g : Fin 32) (s : State) : Out :=
  let x := s.group g
  whenUp s (
    if x.st = .verify ∧ x.since + s.tVerify g ≤ s.clk.tick then
      let ok := fun n => s.verified n x.since (s.tVerify g) &&
        (match (s.lane n).cap with | some w => capReady w && decide (capAct w ≠ 1) | none => false)
      let bad := (s.partLanes g).filter (fun n => !ok n)
      if bad = [] then s.inService g
      else
        let (s, fell) := s.laneFailure g bad
        if fell then s else s.inService g
    else s)

/-- LANE_DROP: a loss of frame of DROP_TIME on a participating lane of a group in service (R75, R76). -/
def execLaneDrop (lane : Fin 256) (s : State) : Out :=
  let g := lane.val / 8
  let x := s.group g
  whenUp s (
    match (s.lane lane).dropSince with
    | some t =>
      if x.st = .inService ∧ s.takesPart lane ∧ t + s.dropTime g ≤ s.clk.tick then
        if x.rung = 0 then (s.enterAlign g).groupLinkDown g
        else (s.laneFailure g [lane.val]).1
      else s
    | none => s)

/-- LANE_WAKE_VERIFY_EXPIRY: a woken or returned lane that missed the criteria is marked ISOLATED (R84). -/
def execLaneWakeVerifyExpiry (lane : Fin 256) (s : State) : Out :=
  let g := lane.val / 8
  whenUp s (
    match (s.lane lane).wakeDue with
    | some t =>
      if t ≤ s.clk.tick ∧ (s.group g).st = .inService then
        let l := s.lane lane
        let bad := !s.verified lane (t - s.tVerify g) (s.tVerify g)
        s.setLane lane { l with wakeDue := none, isolated := l.isolated || bad }
      else s
    | none => s)

/-! ### Directions (R80 to R84) -/

/-- Time of a transition of a direction; none when there is nothing to change (R81). -/
def powTime (isRx : Bool) : Pow → Pow → Option Nat
  | .active, .sleep => some 16
  | .sleep, .active => some (if isRx then 1600 else 800)
  | .off, .active => some 80000
  | .off, .sleep => some 80000
  | .active, .off => some 16
  | .sleep, .off => some 16
  | _, _ => none

/-- Every defect declared on a receive direction that leaves ACTIVE clears in the same tick (R83). -/
def State.clearDefects (s : State) (n : Nat) : State :=
  let x := s.rx n
  let f := fun d =>
    let y := x.defects.look {} d
    let since := if y.declared then s.clk.tick else y.decSince
    ({ y with raw := false, since := s.clk.tick, declared := false, decSince := since } : Defect)
  s.setRx n ((List.range 4).foldl (fun y d => y.setDef d (f d)) x)

/-- The criteria of VERIFY are counted for a lane from this tick (R84). -/
def State.startWake (s : State) (n : Nat) : State :=
  let at_ := if (s.rx n).align = .inFrame then some s.clk.tick else none
  let due := s.clk.tick + s.tVerify (n / 8)
  s.setLane n { s.lane n with wakeDue := some due, verBad := false, verCorr := 0, frameAt := at_ }

/-- A group in DOWN whose first lane is ACTIVE in both directions enters R0_ALIGN (R516). -/
def State.tryAlign (s : State) (g : Nat) : State :=
  let up := fun n => decide ((s.lane n).txCmd = .active) && decide ((s.lane n).rxCmd = .active)
  if (s.group g).st = .down ∧ (s.partLanes g).any up then s.enterAlign g else s

/-- The receive direction of a lane takes its commanded state. -/
def State.settleRx (s : State) (n : Nat) : State :=
  let l := s.lane n
  let was := l.rx
  let s := s.setLane n { l with rx := l.rxCmd, rxDue := none, rxReady := decide (l.rxCmd = .active) }
  if l.rxCmd = .active then
    let s := s.enterHunt n
    if (s.group (n / 8)).st = .inService then s.startWake n else s
  else if was = .active then
    let s := (s.huntWheels n).setRx n { s.rx n with align := .hunt, good := false, frames := [] }
    let s := s.setLane n { s.lane n with dropSince := none, wakeDue := none, cap := none, capLast := none }
    (s.clearDefects n).abortScan n 2
  else s

/-- LANE_DIRECTION_SETTLED: a direction's transition time has run and it takes its commanded state (R81, R83, R84). -/
def execLaneDirectionSettled (lane : Fin 256) (rx : Bool) (s : State) : Out :=
  let l := s.lane lane
  let g := lane.val / 8
  whenUp s (
    match (if rx then l.rxDue else l.txDue) with
    | some t =>
      if t ≤ s.clk.tick then
        let s := if rx then s.settleRx lane else s.setLane lane { l with tx := l.txCmd, txDue := none }
        s.tryAlign g
      else s
    | none => s)

/-! ### Loops (R85 to R89) -/

/-- A loop of a mode may be active on a lane (R86). -/
def State.loopOk (s : State) (n mode : Nat) : Bool :=
  decide ((s.lane n).tx = .active) && decide ((s.lane n).rx = .active)
  && decide ((s.group (n / 8)).st = .inService) && (decide (mode ≠ 3) || !s.foreign (n / 8))

/-- Set the loop of a lane; a change puts the receiver in HUNT and ends a running scan (R94, R119). -/
def State.setLoop (s : State) (n mode : Nat) (maint : Bool) : State :=
  let l := s.lane n
  if l.loop = mode then s.setLane n { l with loopMaint := maint }
  else ((s.setLane n { l with loop := mode, loopMaint := maint, loopAt := s.secClock }).enterHunt n).abortScan n 4

/-- The loop action of a lane that names this tick. -/
def State.loopDue (s : State) (n : Nat) : Option LoopAct :=
  s.sds.loops.find? (fun a => decide (a.lane = n) && s.dueAt a.n)

/-- The loop of a lane is activated or released in its tick; an activation whose conditions no longer hold leaves no loop
on the lane and completes with E_STATE (R86, R87). -/
def State.loopNow (s : State) (lane : Nat) : State :=
  match s.loopDue lane with
  | none => s
  | some a =>
    let s := { s with sds := { s.sds with loops := s.sds.loops.filter (fun b => b.h ≠ a.h) } }
    if a.mode = 0 then (s.setLoop lane 0 false).complete a.h 0 a.n 0
    else if s.loopOk lane a.mode then (s.setLoop lane a.mode a.maint).complete a.h 0 a.n 0
    else (s.setLoop lane 0 false).complete a.h eState a.n 0

/-- The loop actions of this tick, the last of cycle 0 (R46). -/
def State.loopsNow (s : State) : State := (s.sds.loops.map (fun a => a.lane)).foldl State.loopNow s

/-- A MAINT grant covers a lane at a tick (R460). -/
def State.granted (s : State) (n t : Nat) : Bool :=
  (s.part 64).grants.any (fun g => decide (g.first ≤ n) && decide (n ≤ g.last) && decide (g.fromTn ≤ t)
    && decide (t ≤ g.toTn))

/-- LOOP_GRANT_RELEASE: the first tick after a grant's window ends releases the loop MAINT activated (R88). -/
def execLoopGrantRelease (lane : Fin 256) (s : State) : Out :=
  whenUp s (
    if (s.lane lane).loop ≠ 0 ∧ (s.lane lane).loopMaint ∧ s.granted lane s.tnNow = false then s.setLoop lane 0 false
    else s)

/-- EYE_SCAN_END: the last point of a running scan is counted (R92, R519). -/
def execEyeScanEnd (lane : Fin 256) (points : List Nat) (vstep : BitVec 16) (s : State) : Out :=
  whenUp s (
    match s.sds.scans.find? (fun c => decide (c.lane = lane.val) && c.start.isSome) with
    | none => s
    | some c =>
      if c.start.getD 0 + 4096 * (c.dwell + 2) ≤ s.clk.tick then
        s.endScan c 0 4096 vstep.toNat (points.take 4096)
      else s)

/-- Write FRM_GRP_CFG[g].TIMING: before SEAL and only while the group is DOWN (R10, R127). -/
def State.setTiming (s : State) (g : Nat) (foreign : Bool) : State :=
  if s.sealed ∨ (s.group g).st ≠ .down then s
  else s.setReg (Reg.frmGrp g) ((s.reg (Reg.frmGrp g) &&& ~~~1#32) ||| (if foreign then 1 else 0))

/-- GROUP_TIMING_WRITE: the owner's write takes effect before SEAL and only while the group is DOWN (R10, R127). -/
def execGroupTimingWrite (qp : Fin 16) (g : Fin 32) (foreign : Bool) (s : State) : Out :=
  whenUp s (s.ownerWrite qp (fun s => s.setTiming g foreign))

/-! ### The board table (R60 to R66) -/

/-- The staging window's bytes. -/
def State.btBytes (s : State) (n : Nat) : List Byte :=
  (List.range (ceilDiv n 4)).flatMap (fun k => leBytes 4 (s.sds.bt.buf.look 0 k).toNat)

/-- Magnitude of a signed byte. -/
def absByte (b : Byte) : Nat := b.toInt.natAbs

/-- A record keeps the ranges of R62. -/
def btRecOk (r : List Byte) : Bool :=
  let lane := leAt r 0 2
  let rung := leAt r 2 1
  let fl := leAt r 3 1
  let calrin := decide (0x200 ≤ lane) && decide (lane ≤ 0x205)
  let phase := (BitVec.ofNat 16 (leAt r 20 2)).toInt
  (decide (lane < 0x120) || calrin) && decide (rung ≤ 3) && (!calrin || decide (rung = 2))
  && decide (fl < 8) && (decide (fl % 2 = 0) || decide (2 ≤ rung))
  && decide ((((r.drop 4).take 4).map absByte).sum ≤ 127)
  && decide (leAt r 8 1 ≤ 31) && decide (leAt r 9 1 ≤ 31) && decide (leAt r 10 1 ≤ 15) && decide (leAt r 11 1 ≤ 63)
  && decide (-32 ≤ phase) && decide (phase ≤ 31) && (decide (2 ≤ rung) || decide (leAt r 22 3 = 0))
  && decide (leAt r 25 7 = 0)

/-- The records of a table of `n` records. -/
def btSplit : Nat → List Byte → List (List Byte)
  | 0, _ => []
  | n + 1, l => l.take 32 :: btSplit n (l.drop 32)

/-- Check a table: 4 for a format error, 5 for another part, 3 for a signature failure, 2 when valid (R61, R63, R64). -/
def btCheck (b : List Byte) (sigs : Bool) : Nat :=
  let n := leAt b 6 2
  let recs := btSplit n (b.drop 64)
  if leAt b 0 4 ≠ 0x56504254 ∨ leAt b 4 2 ≠ 1 ∨ n = 0 ∨ 1320 < n ∨ leAt b 32 32 ≠ 0
      ∨ ¬ recs.all btRecOk ∨ ¬ (recs.map (fun r => leAt r 0 3)).Nodup then 4
  else if leAt b 16 4 ≠ 0x5000 then 5
  else if !sigs then 3
  else 2

/-- Start the verification of the staging window (R63). -/
def State.btLoad (s : State) : State :=
  if s.sealed ∨ s.sds.bt.state = 1 then s
  else { s with sds := { s.sds with bt := { s.sds.bt with state := 1 } } }

/-- BOARD_TABLE_LOAD: the owner writes 1 to SDS_BT_CTRL.LOAD. -/
def execBoardTableLoad (qp : Fin 16) (s : State) : Out := whenUp s (s.ownerWrite qp State.btLoad)

/-- BOARD_TABLE_VERIFY_DONE: the verification ends; a valid table replaces the one held, but for the table in force at SEAL
(R63, R65, R66). -/
def execBoardTableVerifyDone (ecOk lmsOk : Bool) (s : State) : Out :=
  whenUp s (
    if s.sds.bt.state ≠ 1 then s
    else
      let n := leAt (s.btBytes 64) 6 2
      let b := (s.btBytes (64 + 32 * n + 1868)).take (64 + 32 * n + 1868)
      let c := btCheck b (ecOk && lmsOk)
      let recs := (btSplit n (b.drop 64)).map (fun r =>
        (⟨leAt r 0 2, leAt r 2 1, BitVec.ofNat 8 (leAt r 3 1), r⟩ : BtRec))
      let held := if c = 2 ∧ s.sealed = false then some (⟨leAt b 20 4, recs, b⟩ : BoardTable) else s.sds.bt.held
      { s with sds := { s.sds with bt := { s.sds.bt with state := c, held := held } } })

end Sys2Proof.Machine
end

