-- ==== Sys2Proof/Machine/Framer.lean ====
section
/-! DEFINITION. The receive framers (03_odvin_frame): header check, alignment, overhead channel, lane defects and failures. -/
namespace Sys2Proof.Machine

/-- Fields of a frame header (R98). -/
def hdrLaneId (h : BitVec 128) : Nat := bits h 79 70
def hdrSeq (h : BitVec 128) : BitVec 24 := BitVec.ofNat 24 (bits h 69 46)
def hdrRung (h : BitVec 128) : Nat := bits h 45 42
def hdrPlane (h : BitVec 128) : Nat := bits h 41 40
def hdrAis (h : BitVec 128) : Bool := bit h 39
def hdrRdi (h : BitVec 128) : Bool := bit h 38
def hdrQl (h : BitVec 128) : Nat := bits h 37 34
def hdrNegValid (h : BitVec 128) : Bool := bit h 33

/-- The alignment word (R98). -/
def alignWord : BitVec 48 := 0xF6F628A5D30C

/-- The header CRC fits (R100). -/
def hcrcFits (h : BitVec 128) : Bool := decide (crc16 (msbBits h) = 0)

/-- ALIGN differs in at most 2 bits (R115). -/
def alignFits (h : BitVec 128) : Bool :=
  decide (popCount (BitVec.ofNat 48 (bits h 127 80) ^^^ alignWord) ≤ 2)

/-- A near-end loop is active on a lane (R85). -/
def State.nearLoop (s : State) (n : Nat) : Bool := decide ((s.lane n).loop = 1) || decide ((s.lane n).loop = 2)

/-- The conditions of tick-aligned groups in VERIFY or IN_SERVICE (R128), or of looped frames (R670). -/
def State.timingFits (s : State) (n : Nat) (f : RxFrame) : Bool :=
  let g := n / 8
  let k := frameTicks (s.group g).rung
  if s.nearLoop n then decide (hdrSeq f.hdr = BitVec.ofNat 24 (s.secClock - k))
  else if s.foreign g ∨ ¬ ((s.group g).st = .verify ∨ (s.group g).st = .inService) then true
  else decide (-8000 ≤ f.arr) && decide (f.arr ≤ 8000) && decide (s.secClock % k = 0)
    && decide (hdrSeq f.hdr = BitVec.ofNat 24 s.secClock)

/-- Everything of R115 but PLANE holds. -/
def State.passNoPlane (s : State) (n : Nat) (f : RxFrame) : Bool :=
  alignFits f.hdr && hcrcFits f.hdr && decide (hdrRung f.hdr = s.rungOf n) && s.timingFits n f

/-- PLANE is none or the receiver's own (R115). -/
def State.planeFits (s : State) (h : BitVec 128) : Bool :=
  decide (hdrPlane h = 0) || decide (hdrPlane h = s.plane ∧ s.plane ≠ 0)

/-- A header passes (R115). -/
def State.passes (s : State) (n : Nat) (f : RxFrame) : Bool := s.passNoPlane n f && s.planeFits f.hdr

/-! ### The overhead channel (R103 to R106) -/

/-- Byte LBi of an overhead channel. -/
def lb (o : BitVec 512) (i : Nat) : Byte := BitVec.ofNat 8 (bits o (511 - 8 * i) (504 - 8 * i))

/-- The packet's check sequence fits (R104). -/
def fcsFits (p : List Byte) : Bool :=
  let n := p.length - 4
  decide (5 ≤ p.length) && decide (leNat (p.drop n) = (crc32 (p.take n)).toNat)

/-- Take one fragment of a channel: the new reassembly, how many discards it counts, and a packet that it completes. A discard is
counted for a packet in progress, which a fragment with SOP itself begins (R105). -/
def Reasm.take (r : Reasm) (bad : Bool) (hdr : Nat) (data : List Byte) : Reasm × Nat × Option (List Byte) :=
  let sop := decide (hdr / 2 ^ 13 % 2 = 1)
  let eop := decide (hdr / 2 ^ 12 % 2 = 1)
  let len := hdr / 64 % 64
  let fs := hdr % 64
  let skip := match r.fseq with | some p => decide (fs ≠ (p + 1) % 64) | none => false
  let idle : Reasm := { fseq := some fs }
  if bad then (idle, b2n r.busy, none)
  else if len > 54 then (idle, b2n r.busy + b2n sop, none)
  else
    let lost := r.busy && (sop || skip)
    if !sop && (!r.busy || skip) then (idle, b2n lost, none)
    else
      let d := (if sop then [] else r.data) ++ data.take len
      if d.length > 1536 then (idle, b2n lost + 1, none)
      else if !eop then ({ busy := true, data := d, fseq := some fs }, b2n lost, none)
      else if fcsFits d then (idle, b2n lost, some (d.take (d.length - 4)))
      else (idle, b2n lost + 1, none)

/-- Take the fragment that a frame carries. Channel 1 is accepted on fabric lanes only (R106); a complete channel-1 packet
acts as the command of its message. -/
def State.takeOverhead (s : State) (n : Nat) (good : Bool) (f : RxFrame) : State :=
  let hdr := (lb f.ovh 8).toNat * 256 + (lb f.ovh 9).toNat
  let data := (List.range 54).map (fun i => lb f.ovh (10 + i))
  let bad := !good || f.uncorr.getLsbD 0
  let x := s.rx n
  match hdr / 2 ^ 14 with
  | 1 =>
    if s.laneFabric n then
      let (r, c, _) := x.ch1.take bad hdr data
      (s.setRx n { x with ch1 := r }).count 0 n 5 c
    else s.count 0 n 5 1
  | 2 =>
    let (r, c, p) := x.ch2.take bad hdr data
    (s.setRx n { x with ch2 := r, done2 := x.done2 ++ p.toList }).count 0 n 5 c
  | _ => s

/-- Note the capability word of a good frame: the same word in two consecutive frames qualifies (R69, R70). -/
def State.takeCap (s : State) (n : Nat) (good : Bool) (f : RxFrame) : State :=
  let w := BitVec.ofNat 64 (bits f.ovh 511 448)
  let l := s.lane n
  if good && hdrNegValid f.hdr && capOk w then
    if l.capLast = some w then s.setLane n { l with cap := some w }
    else s.setLane n { l with capLast := some w, capSeq := hdrSeq f.hdr }
  else s.setLane n { l with capLast := none }

/-! ### Alignment (R113 to R120) -/

/-- The BIP-16 that the next frame must carry (R107). -/
def frameBip (ovh : BitVec 512) (cells : List SlotWord) : BitVec 16 :=
  bipOf 16 1568 (msbBits ovh ++ wordsBits cells) 0

/-- A receive direction is in frame (R118). -/
def State.toInFrame (s : State) (n pos : Nat) : State :=
  let x := s.rx n
  let s := s.setRx n { x with align := .inFrame, pos := pos, bad := 0 }
  let s := if x.align = .hunt then s.huntWheels n else s
  let l := s.lane n
  let at_ := match l.frameAt with | some t => some t | none => some s.clk.tick
  s.setLane n { l with dropSince := none, frameAt := at_ }

/-- Another lane of the group in frame carries another QL in its header of the same frame (R304). -/
def State.qlMixed (s : State) (n q : Nat) (seq : BitVec 24) : Bool :=
  decide ((s.rx n).align = .inFrame) && (groupLanes (n / 8)).any (fun m =>
    decide (m ≠ n) && decide ((s.rx m).align = .inFrame) && decide ((s.rx m).seq = seq) && decide ((s.rx m).ql ≠ q))

/-- Take the fields of a good header (R118, R121, R304). -/
def State.goodHeader (s : State) (n : Nat) (f : RxFrame) : State :=
  let s := if s.qlMixed n (hdrQl f.hdr) (hdrSeq f.hdr) then s.setSticky (Reg.srcStatus (n / 8)) 0x00040000 else s
  let x := s.rx n
  let q := hdrQl f.hdr
  let same := x.qlFresh || (x.qlSame && decide (x.ql = q))
  s.setRx n { x with good := true, laneId := hdrLaneId f.hdr, ais := hdrAis f.hdr, rdi := hdrRdi f.hdr, ql := q,
                     qlSame := same, qlFresh := false, seq := hdrSeq f.hdr }

/-- Count what a frame at the expected position shows (R107, R108, R111, R113, R118, R571) and the checks of VERIFY and
of a woken lane (R74, R84). -/
def State.countFrame (s : State) (n : Nat) (f : RxFrame) : State :=
  let nrz := decide (s.rungOf n < 2)
  let hcrc := !hcrcFits f.hdr
  let be := match (s.rx n).bip with | some b => popCount (b ^^^ f.bip) | none => 0
  let s := s.count 0 n 0 (if nrz then 0 else f.corr)
  let s := s.count 0 n 1 (if nrz then 0 else popCount f.uncorr)
  let s := s.count 0 n 2 (b2n hcrc)
  let s := s.count 0 n 3 be
  let s := s.count 0 n 6 (if nrz then f.sync.countP (fun b => !b) else 0)
  let s := s.setRx n { s.rx n with bip := some (frameBip f.ovh f.cells) }
  let l := s.lane n
  if l.frameAt.isSome then
    let bad := hcrc || (if nrz then decide (be ≠ 0) else decide (f.uncorr ≠ 0))
    s.setLane n { l with verBad := l.verBad || bad, verCorr := l.verCorr + (if nrz then 0 else f.corr) }
  else s

/-- Hold the cells of a frame for the datapath and for the Wheels of the lane; frames older than 128 ticks are spent (R101, R128,
R160, R161, R672). -/
def State.holdCells (s : State) (n : Nat) (good : Bool) (f : RxFrame) : State :=
  let x := s.rx n
  let k := frameTicks (s.rungOf n)
  let nrz := decide (s.rungOf n < 2)
  let keep := x.frames.filter (fun g => decide (s.secClock < g.t + 128))
  s.setRx n { x with frames := keep ++ [⟨s.secClock, k, ⟨f.hdr, f.ovh, f.cells, f.bip⟩, !good,
    (if nrz then 0 else f.uncorr), (if nrz then f.sync else [])⟩] }

/-- What an examined header shows besides its verdict: one that fails only on PLANE, and one that passes at an arrival between 4
and 8 ns from its tick edge (R115, R128). -/
def State.noteHeader (s : State) (n : Nat) (f : RxFrame) : State :=
  let g := n / 8
  let svc := decide ((s.group g).st = .verify) || decide ((s.group g).st = .inService)
  let s := if s.passNoPlane n f && !s.planeFits f.hdr then s.setSticky (Reg.frmStatus n) 0x00200000 else s
  if s.passes n f && !s.foreign g && !s.nearLoop n && svc && (decide (f.arr < -4000) || decide (4000 < f.arr)) then
    s.setSticky (Reg.frmStatus n) 0x00040000
  else s

/-- A frame at the expected position in IN_FRAME or OOF (R118). The frame of a return to IN_FRAME is not checked (R107). -/
def State.atExpected (s : State) (n : Nat) (f : RxFrame) : State :=
  let good := s.passes n f
  let s := if good ∧ (s.rx n).align = .oof then s.setRx n { s.rx n with bip := none } else s
  let s := s.countFrame n f
  let s := (s.takeCap n good f).takeOverhead n good f
  let s := s.holdCells n good f
  let x := s.rx n
  if good then
    let s := s.goodHeader n f
    let s := if x.align = .oof then s.toInFrame n x.pos else s
    let x := s.rx n
    if !s.foreign (n / 8) && !s.nearLoop n then s.setRx n { x with offSum := x.offSum + f.arr, offCnt := x.offCnt + 1 }
    else s
  else
    let b := if x.align = .oof then x.bad + 1 else 1
    if b ≥ 8 then (s.enterHunt n).count 0 n 4 1
    else s.setRx n { x with align := .oof, bad := b }

/-- The receiver takes a position: its frame is the first in frame. What it leaves stays known for a frame length (R116 to R118,
R120). -/
def State.acceptAt (s : State) (n : Nat) (f : RxFrame) : State :=
  let x := s.rx n
  let a : Accept := ⟨s.clk.tick, x.align, x.pos, x.bad, bit (s.stick (Reg.frmStatus n)) 20⟩
  let s := if x.align = .oof then s.setSticky (Reg.frmStatus n) 0x00100000 else s
  let s := (s.goodHeader n f).toInFrame n f.pos
  let s := s.setRx n { s.rx n with bip := some (frameBip f.ovh f.cells), acc := some a }
  ((s.takeCap n true f).takeOverhead n true f).holdCells n true f

/-- The acceptance of a position is undone: alignment, position and SLIP are as they were, and its frame is not held (R120). -/
def State.undoAccept (s : State) (n : Nat) (a : Accept) : State :=
  let x := s.rx n
  let s := if a.slip then s else s.clrSticky (Reg.frmStatus n) 0x00100000
  s.setRx n { x with align := a.align, pos := a.pos, bad := a.bad, acc := none, bip := none,
                     frames := x.frames.filter (fun g => decide (g.t + (s.clk.tick - a.tick) ≠ s.secClock)) }

/-- The confirmed method at a position: a passing header that follows one of the same LANE_ID a frame length before, with SEQ
advanced by n (R117). -/
def State.confirmed (s : State) (n : Nat) (f : RxFrame) : Bool :=
  s.passes n f && decide ((s.rx n).cands.look none f.pos = some (hdrLaneId f.hdr, hdrSeq f.hdr))

/-- Keep what the header at a position lets the next one there confirm. -/
def State.noteCand (s : State) (n : Nat) (f : RxFrame) : State :=
  let x := s.rx n
  let next := hdrSeq f.hdr + BitVec.ofNat 24 (frameTicks (s.rungOf n))
  s.setRx n { x with cands := Tab.put none x.cands f.pos (if s.passes n f then some (hdrLaneId f.hdr, next) else none) }

/-- The fast method at a position: a passing header with the LANE_ID of the last good one (R116). -/
def State.fastFits (s : State) (n : Nat) (f : RxFrame) : Bool :=
  s.passes n f && decide (hdrLaneId f.hdr = (s.rx n).laneId)

/-- A frame at another position in OOF (R118). -/
def State.atOther (s : State) (n : Nat) (f : RxFrame) : State := if s.fastFits n f then s.acceptAt n f else s

/-- A frame in HUNT (R118). -/
def State.inHunt (s : State) (n : Nat) (f : RxFrame) : State :=
  if s.confirmed n f then (s.noteCand n f).acceptAt n f else s.noteCand n f

/-- A frame at another position within a frame length of an acceptance: a second position accepted by the same method undoes the
first and sets AMBIG, and a good header at the expected position that was left takes precedence (R120). -/
def State.afterAccept (s : State) (n : Nat) (a : Accept) (f : RxFrame) : State :=
  if a.align = .oof then
    if f.pos = a.pos then (if s.passes n f then (s.undoAccept n a).atExpected n f else s)
    else if s.fastFits n f then (s.undoAccept n a).setSticky (Reg.frmStatus n) 0x00080000
    else s
  else
    let t := s.noteCand n f
    if s.confirmed n f then (t.undoAccept n a).setSticky (Reg.frmStatus n) 0x00080000 else t

/-- A frame at another position in IN_FRAME: only an acceptance less than a frame length ago is still open. -/
def State.atOff (s : State) (n : Nat) (f : RxFrame) : State :=
  match (s.rx n).acc with
  | some a => if s.clk.tick < a.tick + frameTicks (s.rungOf n) then s.afterAccept n a f else s
  | none => s

/-! ### Fabric links: from DOWN to KEYING (R345, R346, R489) -/

/-- The fabric lanes of a group. -/
def State.fabricLanes (s : State) (g : Nat) : List Nat := (groupLanes g).filter s.laneFabric

/-- Fabric lanes in frame. -/
def State.fabricInFrame (s : State) (g : Nat) : List Nat :=
  (s.fabricLanes g).filter (fun n => decide ((s.rx n).align = .inFrame))

/-- A group is a fabric link (R345). -/
def State.isFabricLink (s : State) (g : Nat) : Bool :=
  decide (s.fabDir g ≠ 0) && s.foreign g && decide (2 ≤ (s.fabricLanes g).length)

/-- Begin keying: HELLO with a fresh nonce and an ephemeral key goes out (R489). -/
def State.startKeying (s : State) (l : Link) : State :=
  let i := s.fresh
  let s := { s with fresh := i + 1 }
  let s := s.setLinkSt l .keying
  let s := s.setPlink l { s.plink l with nonceOwn := some i, helloFar := none, retryAt := none }
  s.send (some l) 0x40 0 (beBytes 1 0 ++ beBytes 1 1 ++ beBytes 32 (Config.nonce i).toNat ++ beBytes 96 (Config.ephPub i).toNat)

/-- A link leaves DOWN when the group is in service and two fabric lanes are in frame (R346), but not within 1 s of a
failed keying (R490). -/
def State.linkCheck (s : State) (g : Nat) : State :=
  if h : g < 32 then
    let l := Link.group ⟨g, h⟩
    if (s.plink l).st = .down ∧ s.fabRole ≠ 0 ∧ s.isFabricLink g ∧ (s.group g).st = .inService
        ∧ 2 ≤ (s.fabricInFrame g).length ∧ (s.plink l).retryAt.isNone then s.startKeying l
    else s
  else s

/-! ### From the line to a frame (R55, R56, R108 to R114) -/

/-- One sync header: block lock after 64 of 01 in a row, lost at 16 of any 64 that are not (R113). -/
def RxLane.sync (x : RxLane) (ok : Bool) : RxLane :=
  if x.blockLock then
    let w := (x.syncWin ++ [ok]).drop (x.syncWin.length + 1 - 64)
    if 16 ≤ w.countP (fun b => !b) then { x with blockLock := false, syncRun := 0, syncWin := [] } else { x with syncWin := w }
  else if !ok then { x with syncRun := 0 }
  else if x.syncRun + 1 = 64 then { x with blockLock := true, syncRun := 0, syncWin := [] }
  else { x with syncRun := x.syncRun + 1 }

/-- Receive polarity of a lane is inverted by the table that its group has applied (R56, R62, R66). -/
def State.rxInverted (s : State) (n : Nat) : Bool :=
  match s.appliedRec n (s.rungOf n) with
  | some r => r.flags.getLsbD 2
  | none => false

/-- The information bits 0 to 25,599 of a frame, field by field (R95). -/
def frameOfInfo (f : RxFrame) (hdr : BitVec 128) (l : List Bool) : RxFrame :=
  { f with
    hdr := hdr
    ovh := BitVec.ofNat 512 (ofMsb ((l.drop 128).take 512))
    cells := (List.range 2048).map (fun c => BitVec.ofNat 12 (ofMsb ((l.drop (640 + 12 * c)).take 12)))
    bip := BitVec.ofNat 16 (ofMsb ((l.drop 25216).take 16)) }

/-- A frame of 13,600 PAM4 levels: polarity, precoding, Gray symbols; the header before RS decoding; five codewords; and the
scrambler by the frame's own LANE_ID, or by the last good one where its header is bad (R54, R55, R108 to R111, R114). -/
def State.readPam4 (s : State) (n : Nat) (f : RxFrame) : RxFrame :=
  let p := if s.rxInverted n then f.line.map (fun p => 3 - p) else f.line
  let prev := if (s.rx n).decoded then f.pre.toNat % 4 else 0
  let prev := if s.rxInverted n ∧ (s.rx n).decoded then 3 - prev else prev
  let l := grayBits (if (s.lane n).preRx then deprecode prev p else p)
  let hdr := BitVec.ofNat 128 (ofMsb (l.take 128))
  let z := decodeWords 514 5 l
  let good := s.passes n { f with hdr := hdr }
  let id := if good then hdrLaneId hdr else (s.rx n).laneId
  let info := z.1.take 128 ++ prbs31 (prbsSeed id) (z.1.drop 128)
  { frameOfInfo f hdr info with corr := z.2.1, uncorr := BitVec.ofNat 5 (ofMsb z.2.2.reverse) }

/-- A frame of 26,400 NRZ levels: polarity, 400 blocks, the self-synchronous scrambler (R56, R112). -/
def State.readNrz (s : State) (n : Nat) (f : RxFrame) : RxFrame :=
  let z := splitBlocks 400 (f.line.map (fun p => decide (p = 1) != s.rxInverted n))
  let pre := if s.rxInverted n then ~~~f.pre else f.pre
  let info := descramble58 pre z.2
  { frameOfInfo f (BitVec.ofNat 128 (ofMsb (info.take 128))) info with corr := 0, uncorr := 0, sync := z.1 }

/-- The frame that a command brings: the levels at the pins, where it gives them, and otherwise the frame as decoded. -/
def State.readLine (s : State) (n : Nat) (f : RxFrame) : RxFrame :=
  if f.line.isEmpty then f else if s.rungOf n < 2 then s.readNrz n f else s.readPam4 n f

/-- The positions at which a receiver examines a header: symbols at PAM4 rungs, blocks at NRZ rungs (R114). -/
def positions (rung : Nat) : Nat := if rung < 2 then 400 else 13600

/-- A header at an examined position moves the alignment (R118). -/
def State.examine (s : State) (n : Nat) (f : RxFrame) : State :=
  let s := s.noteHeader n f
  match (s.rx n).align with
  | .hunt => s.inHunt n f
  | .inFrame => if f.pos = (s.rx n).pos then s.atExpected n f else s.atOff n f
  | .oof => if f.pos = (s.rx n).pos then s.atExpected n f else s.atOther n f

/-- Take one received frame of a lane, from the line or from a near-end loop. At NRZ rungs its header is examined only in block
lock, and a loss of block lock enters HUNT (R113, R114, R119). -/
def State.takeFrame (s : State) (n : Nat) (f : RxFrame) : State :=
  let f := s.readLine n f
  let nrz := decide (s.rungOf n < 2)
  let was := (s.rx n).blockLock
  let x := if nrz then f.sync.foldl RxLane.sync (s.rx n) else s.rx n
  let s := s.setRx n { x with decoded := true, lastRx := some ⟨f.hdr, f.ovh, f.cells, f.bip⟩ }
  let s :=
    if nrz && was && !x.blockLock then (if x.align = .hunt then s else s.enterHunt n)
    else if nrz && !was then s
    else if positions (s.rungOf n) ≤ f.pos then s
    else s.examine n f
  ((s.noteDefects n).tryNegotiate (n / 8)).linkCheck (n / 8)

/-- OVERHEAD_PACKET: a complete channel-2 packet is passed to the bridge (R106). -/
def execOverheadPacket (lane : Fin 256) (s : State) : Out :=
  let x := s.rx lane
  whenUp s (
    match x.done2 with
    | [] => s
    | p :: rest =>
      let s := s.setRx lane { x with done2 := rest }
      { s with frm := { s.frm with bridge := s.frm.bridge ++ [(lane.val, p)] } })

/-! ### Defects and failures (R121 to R125) -/

/-- The raw condition of a defect has held, or been absent, for `m` ticks. LOS comes from the pins: the command says for
how many ticks; a lost receive clock gives it on all 8 lanes of the group (R121). -/
def State.heldFor (s : State) (n d held m : Nat) (raw : Bool) : Bool :=
  let x := s.laneDef n d
  if d = 0 then
    match (s.src (n / 8)).lostAt with
    | some t => raw && (decide (m ≤ held) || decide (m ≤ s.clk.tick + 1 - t))
    | none => decide (m ≤ held)
  else decide (x.raw = raw) && decide (m ≤ s.clk.tick + 1 - x.since)

/-- LOS or LOF declared on every fabric lane brings the link down (R346). -/
def State.linkLoss (s : State) (g : Nat) : State :=
  let ls := s.fabricLanes g
  if ls ≠ [] ∧ ls.all (fun n => s.declared n 0 || s.declared n 1) then s.groupLinkDown g else s

/-- Declare or clear a defect from this tick. -/
def State.setDeclared (s : State) (n d : Nat) (v : Bool) : State :=
  let x := s.rx n
  let y := { x.defects.look {} d with declared := v, decSince := s.clk.tick }
  let y := if d = 0 then { y with raw := v } else y
  ((s.setRx n (x.setDef d y)).noteDefects n)

/-- LANE_DEFECT_DECLARE: the raw condition has held for SET ticks (R122). -/
def execLaneDefectDeclare (lane : Fin 256) (d : Fin 4) (held : Nat) (s : State) : Out :=
  whenUp s (
    if (s.lane lane).rx = .active ∧ s.declared lane d = false ∧ s.heldFor lane d held (s.laneSet lane d) true then
      (s.setDeclared lane d true).linkLoss (lane.val / 8)
    else s)

/-- LANE_DEFECT_CLEAR: the raw condition has been absent for CLR ticks (R122). -/
def execLaneDefectClear (lane : Fin 256) (d : Fin 4) (held : Nat) (s : State) : Out :=
  whenUp s (
    if s.declared lane d ∧ s.heldFor lane d held (s.laneClr lane d) false then s.setDeclared lane d false else s)

/-- An event of a lane to the owner and MAINT, with the loop flag (R89, R125). -/
def State.laneEvent (s : State) (code n d : Nat) : State :=
  s.emit [0, 64] ⟨code, decide ((s.lane n).loop ≠ 0), false, n, s.tnNow, BitVec.ofNat 64 d, 0⟩

/-- LANE_FAIL: a defect declared for FAIL_SET at a selection-period boundary (R123, R125). -/
def execLaneFail (lane : Fin 256) (d : Fin 4) (s : State) : Out :=
  let x := s.rx lane
  let y := x.defects.look {} d
  whenUp s (
    if s.atPeriod ∧ y.declared ∧ y.failed = false ∧ y.decSince + s.failSet (lane.val / 8) ≤ s.clk.tick then
      (s.setRx lane (x.setDef d { y with failed := true })).laneEvent 0x0012 lane d
    else s)

/-- LANE_CLEAR: a defect cleared for FAIL_CLR at a selection-period boundary (R123, R125). -/
def execLaneClear (lane : Fin 256) (d : Fin 4) (s : State) : Out :=
  let x := s.rx lane
  let y := x.defects.look {} d
  whenUp s (
    if s.atPeriod ∧ y.declared = false ∧ y.failed ∧ y.decSince + s.failClr (lane.val / 8) ≤ s.clk.tick then
      (s.setRx lane (x.setDef d { y with failed := false })).laneEvent 0x0013 lane d
    else s)

/-- The lane's ingress slots carry lane AIS in this tick (R124). -/
def State.laneAis (s : State) (n : Nat) : Bool :=
  s.declared n 0 || s.declared n 1 || s.declared n 2 || decide ((s.rx n).align = .hunt)
  || decide ((s.lane n).rx ≠ .active) || (s.lane n).isolated

/-- Mean arrival offsets of the period that ends are reported (R129): the mean over the good headers at the expected position,
rounded down to whole ps; a period without one keeps the value before (DESIGN CHOICE, log 83). -/
def State.reportPhases (s : State) : State :=
  (List.range 256).foldl (fun s n =>
    let x := s.rx n
    if x.offCnt = 0 then s
    else
      let m := x.offSum / (x.offCnt : Int)
      s.setRx n { x with phase := max (-16000) (min 16000 m), offSum := 0, offCnt := 0 }) s

end Sys2Proof.Machine
end

