-- ==== Sys2Proof/Machine/Wheels.lean ====
section
/-! DEFINITION. Wheels (04_wheels_retiming): overhead, justification, alignment, defects, definition and deletion. -/
namespace Sys2Proof.Machine

/-- Members and payload area in bits (R139, R143). -/
def Wheel.k (w : Wheel) : Nat := w.members.length
def areaOf (k : Nat) : Nat := 768 * k - 96

/-- Every member lies in a foreign-timed group; members never mix (R140). -/
def State.whlForeign (s : State) (w : Wheel) : Bool := w.members.any (fun m => s.foreign (m / 16384))

/-- The protected pair of which a Wheel is an input (R247). -/
def State.pairOf (s : State) (w : Nat) : Option Nat :=
  (s.col.pair.find? (fun (p : Nat × Pair) => p.2.defined && (decide (p.2.wa = w) || decide (p.2.wb = w)))).map (fun p => p.1)

/-- The Wheel passes the Retimer (R165). -/
def State.retimed (s : State) (w : Nat) : Bool :=
  (s.wheel w).defined && s.whlForeign (s.wheel w) && (s.pairOf w).isNone

/-- A member-lane fault: a case of R124 on the lane of a member (R174). -/
def State.laneFault (s : State) (w : Wheel) : Bool := w.members.any (fun m => s.laneAis (m / 2048))

/-! ### Overhead bits (R145, R148) -/

def ohMfa (h : BitVec 96) : Nat := bits h 95 90
def ohAis (h : BitVec 96) : Bool := bit h 89
def ohRdi (h : BitVec 96) : Bool := bit h 88
def ohOseq (h : BitVec 96) : BitVec 24 := BitVec.ofNat 24 (bits h 87 64)
def ohCnt (h : BitVec 96) : Nat := bits h 63 40
def ohJcrc (h : BitVec 96) : Byte := BitVec.ofNat 8 (bits h 39 32)
def ohBip (h : BitVec 96) : Byte := BitVec.ofNat 8 (bits h 31 24)
def ohTrace (h : BitVec 96) : Byte := BitVec.ofNat 8 (bits h 23 16)
def ohPt (h : BitVec 96) : Nat := bits h 15 12
def ohPsig (h : BitVec 96) : Nat := bits h 11 0

/-- JCRC over OH[87:40]. -/
def jcrc (h : BitVec 96) : Byte := crc8 0 (msbBits (BitVec.ofNat 48 (bits h 87 40)))

/-- A good overhead of a Wheel with area `a` (R147, R156). -/
def ohGood (h : BitVec 96) (a : Nat) : Bool :=
  decide (ohMfa h = 0x35) && decide (ohJcrc h = jcrc h) && decide (ohCnt h ≤ a)

/-- Build an overhead (R145). -/
def mkOh (ais rdi : Bool) (oseq : BitVec 24) (cnt : Nat) (bip trace : Byte) (pt psig : Nat) : BitVec 96 :=
  let h := 0x35 * 2 ^ 90 + b2n ais * 2 ^ 89 + b2n rdi * 2 ^ 88 + oseq.toNat * 2 ^ 64 + cnt % 2 ^ 24 * 2 ^ 40
    + bip.toNat * 2 ^ 24 + trace.toNat * 2 ^ 16 + pt % 16 * 2 ^ 12 + psig % 4096
  let j := jcrc (BitVec.ofNat 96 h)
  BitVec.ofNat 96 (h + j.toNat * 2 ^ 32)

/-- The lead's word of Wheel tick `t` of an overhead. -/
def ohWord (h : BitVec 96) (t : Nat) : SlotWord := BitVec.ofNat 12 (bits h (95 - 12 * t) (84 - 12 * t))

/-! ### Payload and justification (R142, R143, R149, R153) -/

/-- The overhead carried by the words of a multiframe. -/
def mfOh (k : Nat) (words : List SlotWord) : BitVec 96 :=
  BitVec.ofNat 96 (ofMsb ((List.range 8).flatMap (fun t => msbBits (words.getD (t * k) 0))))

/-- The payload bits of a multiframe with the Wheel tick of each. -/
def mfPayload (k : Nat) (words : List SlotWord) : List (Nat × Bool) :=
  words.zipIdx.flatMap (fun (w, i) =>
    if i < 8 * k ∧ i % k = 0 then [] else (msbBits w).map (fun b => (i / k, b)))

/-- The bits at the data positions of a payload area (R153); `acc` is the accumulator. -/
def pick {α : Type} (a c : Nat) : Nat → List α → List α
  | _, [] => []
  | acc, b :: t => if acc + c ≥ a then b :: pick a c (acc + c - a) t else pick a c (acc + c) t

/-- BIP-8 of a payload area. -/
def bip8 (l : List Bool) : Byte := bipOf 8 (l.length / 8) l 0

/-! ### Receiving a multiframe (R156 to R160) -/

/-- What a multiframe gives: the Wheel after it; whether it was taken at all, its overhead and whether that was good; the
client bits, and whether their count was announced by a good overhead; BIP-8 errors found and the mark of the multiframe before it, now final. -/
structure MfOut where
  w : Wheel
  taken : Bool := false
  first : Bool := false
  oh : BitVec 96 := 0
  good : Bool := false
  c : Option Nat := none
  said : Bool := false
  data : List (Nat × Bool) := []
  bipErr : Nat := 0
  prev : Option (Nat × Bool) := none
deriving DecidableEq, Repr

/-- Take the trace byte of a good overhead (R150). A jump that lands on byte 0 begins a cycle that counts (DESIGN CHOICE, log 84). -/
def Wheel.takeTrace (x : Wheel) (oseq : BitVec 24) (b : Byte) (jump : Bool) : Wheel :=
  let x := if jump then { x with trCyc := [], trCount := 0 } else x
  let i := oseq.toNat % 16
  if i = 0 then { x with trCyc := [b] }
  else if x.trCyc.length = i then
    let c := x.trCyc ++ [b]
    if i < 15 then { x with trCyc := c }
    else
      let n := if x.trPrev = c ∧ x.trCount ≠ 0 then x.trCount + 1 else 1
      { x with trCyc := [], trPrev := c, trCount := n, accTrace := if n ≥ 3 then some c else x.accTrace }
  else { x with trCyc := [] }

/-- The fields of a good overhead. -/
def Wheel.takeGood (x : Wheel) (h : BitVec 96) (t0 : Nat) (jump : Bool) : Wheel :=
  ({ x with goodAny := true, lastGoodT0 := t0, oseq := ohOseq h, oref := ohOseq h, cnt := ohCnt h, pt := ohPt h,
            psig := ohPsig h, aisw := ohAis h, rdiw := ohRdi h, nextC := some (ohCnt h), align := .inMf, bad := 0,
            t0 := t0 }).takeTrace (ohOseq h) (ohTrace h) jump

/-- Take one multiframe. `huntOk`: no member lane is in HUNT and the wait after HUNT has passed. -/
def Wheel.takeMf (x : Wheel) (mf : RxMf) (huntOk : Bool) (tick : Nat) : MfOut :=
  let k := x.k
  let a := areaOf k
  let h := mfOh k mf.words
  let good := ohGood h a
  let pay := mfPayload k mf.words
  let bip := bip8 (pay.map (fun p => p.2))
  if k = 0 ∨ mf.words.length ≠ 64 * k then { w := x }
  else if x.align = .hunt then
    if !good then { w := x }
    else if huntOk ∧ (mf.t0 - 64, ohOseq h - 1) ∈ x.cand ∧ 64 ≤ mf.t0 then
      let y := x.takeGood h mf.t0 false
      { w := { y with cand := [], presC := none, bip := some bip, mark := mf.badCell, markNext := false },
        taken := true, first := true, oh := h, good := true }
    else { w := { x with cand := x.cand.filter (fun c => mf.t0 < c.1 + 64) ++ [(mf.t0, ohOseq h)] } }
  else if mf.t0 ≠ x.t0 + 64 then { w := x }
  else
    let be := match x.bip with | some b => popCount (b ^^^ ohBip h) | none => 0
    let prev := some (x.t0, x.mark || decide (be ≠ 0))
    let c := x.nextC
    let data := match c with | some c => pick a c 0 pay | none => []
    let jump := decide (ohOseq h ≠ x.oref + 1)
    let y : Wheel := if good then { x.takeGood h mf.t0 jump with oseqJump := x.oseqJump || jump, markNext := false }
      else { x with
        align := .oom
        bad := x.bad + 1
        oref := x.oref + 1
        nextC := c
        markNext := true
        trCyc := []
        trCount := 0
        t0 := mf.t0 }
    let y : Wheel := { y with presC := c, bip := some bip, mark := mf.badCell || x.markNext }
    let y : Wheel := if y.bad ≥ 4 then y.toHunt tick else y
    { w := y, taken := true, oh := h, good := good, c := c, said := c.isSome && !x.markNext, data := data, bipErr := be,
      prev := prev }

/-! ### Defects (R174 to R177) -/

def Wheel.def_ (w : Wheel) (d : Nat) : Defect := w.defects.look {} d
def Wheel.setDef (w : Wheel) (d : Nat) (f : Defect) : Wheel := { w with defects := Tab.put {} w.defects d f }
def Wheel.dec (w : Wheel) (d : Nat) : Bool := (w.def_ d).declared

/-- The masked raw condition of a defect (R174); EXC is judged by period. -/
def Wheel.raw (w : Wheel) (fault : Bool) : Nat → Bool
  | 0 => (w.goodAny && w.aisw) || decide (w.leadRun ≥ 64) || fault
  | 1 => decide (w.align = .hunt) && !w.dec 0 && !fault
  | 2 => w.goodAny && w.rdiw && !w.dec 0 && !w.dec 1 && !fault
  | 3 => w.timChk && (match w.accTrace with | some t => decide (t ≠ w.trace) | none => false)
      && !w.dec 0 && !w.dec 1 && !fault
  | 4 => w.ret.rawAdo && !w.dec 0 && !w.dec 1 && !fault
  | _ => false

/-- Follow the raw conditions of a Wheel's defects, by periods. -/
def Wheel.note (w : Wheel) (fault : Bool) : Wheel :=
  (List.range 5).foldl (fun (w : Wheel) d => w.setDef d ((w.def_ d).note (w.raw fault d) w.per)) w

/-- The Wheel sends AIS-W downstream (R177). -/
def Wheel.aisOut (w : Wheel) : Bool := w.dec 0 || w.dec 1 || w.dec 4 || (w.dec 3 && w.timAis) || (w.dec 5 && w.excAis)

/-- RDI-W is set in a Wheel's overhead: it is the reverse of a Wheel that sends AIS-W (R179). -/
def State.rdiSet (s : State) (v : Nat) : Bool :=
  s.whl.any (fun (p : Nat × Wheel) => decide (p.2.reverse = some v) && p.2.aisOut)

/-- The final mark of a multiframe counts toward the selection period of its Wheel tick 0 (R160, R174). -/
def Wheel.countMark (w : Wheel) (t0 : Nat) (err : Bool) : Wheel :=
  if t0 / 8000 = w.excPer then { w with excCur := w.excCur + b2n err }
  else if t0 / 8000 = w.excPer + 1 then { w with excNxt := w.excNxt + b2n err }
  else w

/-- Judge the selection period that ended 70 ticks ago: its marks are final (R174, R175). -/
def Wheel.judge (w : Wheel) (now thr : Nat) (masked : Bool) : Wheel :=
  if now < 8000 * (w.excPer + 1) + 70 then w
  else
    let over_ := decide (thr < w.excCur) && !masked
    let next := decide (now < 8000 * (w.excPer + 2) + 70)
    { w with
      excPer := (now - 70) / 8000
      excCur := if next then w.excNxt else 0
      excNxt := 0
      excRun := if over_ then w.excRun + 1 else 0
      excOk := if over_ then 0 else w.excOk + 1 }

/-- The threshold of EXC. -/
def State.excThr (s : State) : Nat := bits (s.reg Reg.excThr) 7 0

/-- The member lanes let a Wheel leave HUNT (R156). -/
def State.huntOk (s : State) (w : Wheel) : Bool :=
  w.members.all (fun m => decide ((s.rx (m / 2048)).align ≠ .hunt)) && decide (w.huntUntil ≤ s.clk.tick)

/-- The input multiframes of which client bits are still to be sent (R168). -/
def Retimer.unsent (r : Retimer) : List (BitVec 24 × Nat × Nat) :=
  r.recent.filter (fun e => r.buf.any (fun b => decide (b.1 = e.1)) || r.inq.any (fun b => decide (b.2.1 = e.1)))

/-- Hand the client bits of a multiframe to the Retimer; it starts empty with the first multiframe in IN_MF, and a count decided
before that and not yet announced is 0 (R170). -/
def Retimer.feed (r : Retimer) (o : MfOut) (t0 : Nat) : Retimer :=
  let q := o.w.oref
  let r := if o.first then { r with inq := [], buf := [], started := false, own := r.own.map (fun _ => 0),
                                    mate := r.mate.map (fun _ => 0), adoOwn := false } else r
  { r with
    inq := r.inq ++ o.data.map (fun p => (t0 + p.1, q, p.2))
    recent := r.unsent ++ [(q, ohPt o.oh, ohPsig o.oh)]
    last := if o.good then ohCnt o.oh else r.last }

/-! ### Members' words from the frames of their lanes (R124, R160, R161, R163, R670, R672) -/

/-- The tick in which the word of tick 0 of a held frame of lane `n` enters the Harp (R672). -/
def State.entryTick (s : State) (n : Nat) (f : FrameIn) : Nat :=
  if s.foreign (n / 8) && !s.nearLoop n then f.t + 1 else f.t + f.n

/-- A cell came from a frame with a bad header, from an uncorrectable codeword, or from a frame with a bad sync header (R109,
R160). -/
def FrameIn.cellBad (f : FrameIn) (c : Nat) : Bool :=
  f.bad || f.uncorr.getLsbD ((640 + 12 * c) / 5140) || f.uncorr.getLsbD ((651 + 12 * c) / 5140) || f.sync.any (fun b => !b)

/-- The tick `d` of a held frame as its sender counts it: whether it is tick `q` (R161). -/
def FrameIn.tickOf (f : FrameIn) (q : BitVec 24) : Option Nat :=
  if (q - hdrSeq f.f.hdr).toNat < f.n then some (q - hdrSeq f.f.hdr).toNat else none

/-- The tick from which lane `n` can deliver its words of the sender's tick `q`. -/
def State.readyTick (s : State) (n : Nat) (q : BitVec 24) : Option Nat :=
  (s.rx n).frames.findSome? (fun f => (f.tickOf q).map (fun d => s.entryTick n f + d))

/-- The lanes of a Wheel's members. -/
def Wheel.lanes (w : Wheel) : List Nat := (w.members.map (fun m => m / 2048)).eraseDups

/-- The ticks from which a Wheel's lanes can deliver their words of the sender's tick `q`, of those that have received it. -/
def State.readyTicks (s : State) (w : Wheel) (q : BitVec 24) : List Nat := w.lanes.filterMap (fun n => s.readyTick n q)

/-- The sender's tick whose words enter the Harp in tick `t`, once every lane of a foreign-timed Wheel has delivered them (R161). -/
def State.senderTick (s : State) (w : Wheel) (t : Nat) : Option (BitVec 24) :=
  match w.lanes with
  | [] => none
  | n :: _ => ((s.rx n).frames.flatMap (fun f => (List.range f.n).map (fun d => hdrSeq f.f.hdr + BitVec.ofNat 24 d))).find?
      (fun q => decide ((s.readyTicks w q).length = w.lanes.length) && decide ((s.readyTicks w q).foldl max 0 = t))

/-- The received word of a slot, and its mark: of the sender's tick `q` in a foreign-timed group, of local tick `t` otherwise;
none while no frame that holds it has come. -/
def State.heldWord (s : State) (slot t : Nat) (q : Option (BitVec 24)) : Option (SlotWord × Bool) :=
  let n := slot / 2048
  let c := slot % 2048
  let cell := fun (f : FrameIn) (d : Nat) => (f.f.cells.getD (c * f.n + d) aisWord, f.cellBad (c * f.n + d))
  if slotsAt (s.rungOf n) ≤ c ∨ s.laneAis n then some (aisWord, false)
  else match q with
    | some q => (s.rx n).frames.findSome? (fun f => (f.tickOf q).map (fun d => cell f d))
    | none => ((s.rx n).frames.find? (fun f => decide (s.entryTick n f ≤ t) && decide (t < s.entryTick n f + f.n))).map
        (fun f => cell f (t - s.entryTick n f))

/-- A multiframe of a Wheel that starts in tick `t0`: each word as the frames of its lane give it, with lane AIS in place of
received content (R124), and as the command brings it where no frame that holds it has come. -/
def State.mfOf (s : State) (w : Wheel) (mf : RxMf) : RxMf :=
  let q0 := if s.whlForeign w then s.senderTick w mf.t0 else none
  let at_ := fun (i : Nat) =>
    let t := i / w.k
    let own := if s.whlForeign w ∧ q0.isNone ∧ s.laneAis (w.members.getD (i % w.k) 0 / 2048) = false then none
      else s.heldWord (w.members.getD (i % w.k) 0) (mf.t0 + t) (q0.map (fun q => q + BitVec.ofNat 24 t))
    own
  let z := mf.words.zipIdx.map (fun (p : SlotWord × Nat) => (at_ p.2).getD (p.1, false))
  { mf with words := z.map (fun p => p.1), badCell := mf.badCell || z.any (fun p => p.2) }

/-- A foreign-timed Wheel with a member on lane `n` whose words of one sender's tick come more than MAX_SKEW ticks apart enters
HUNT and sets SKEW (R163). -/
def State.noteSkew (s : State) (n : Nat) : State :=
  match (s.rx n).frames.getLast? with
  | none => s
  | some f =>
    let q := hdrSeq f.f.hdr
    let out := fun (w : Wheel) =>
      let l := s.readyTicks w q
      w.defined && w.onLane n && s.whlForeign w && decide (w.maxSkew + l.foldl min (l.headD 0) < l.foldl max 0)
    let s := s.cutCopies (fun w => out (s.wheel w) && decide ((s.wheel w).align ≠ .hunt))
    { s with whl := s.whl.map (fun (p : Nat × Wheel) =>
        if out p.2 then (p.1, { p.2.toHunt s.clk.tick with skew := true }) else p) }

/-- FRAME_RECEIVED: a frame arrives on a lane whose receive direction is ACTIVE; a near-end loop hides the line (R83, R85,
R118, R163). -/
def execFrameReceived (lane : Fin 256) (f : RxFrame) (s : State) : Out :=
  whenUp s (
    if (s.lane lane).rx = .active ∧ (s.lane lane).rxReady ∧ s.nearLoop lane = false then
      (s.takeFrame lane f).noteSkew lane
    else s)

/-- Take a Wheel's multiframe: alignment, trace, counters, marks and the Retimer's input (R149, R160, R572). -/
def State.takeMf (s : State) (n : Nat) (mf : RxMf) : State × MfOut :=
  let x := s.wheel n
  let o := x.takeMf (s.mfOf x mf) (s.huntOk x) s.clk.tick
  let fault := s.laneFault x
  let y := match o.prev with
    | some (t0, err) => o.w.countMark t0 err
    | none => o.w
  let y := if o.taken then { y with per := y.per + 1, perTick := s.clk.tick } else y
  let y := if s.retimed n ∧ o.taken then { y with ret := y.ret.feed o mf.t0 } else y
  let y := y.note fault
  let s := s.setWheel n y
  let free := !x.dec 0
  let s := s.count 1 n 0 (if free then o.bipErr else 0)
  let s := s.count 1 n 5 (if free && (match o.prev with | some (_, e) => e | none => false) then 1 else 0)
  let s := s.count 1 n 2 (b2n (o.good && ohRdi o.oh))
  let chg := match x.presC, o.c with | some a, some b => decide (a ≠ b) | _, _ => false
  let s := s.count 1 n 4 (b2n (chg && !s.retimed n))
  (s, { o with w := y })

/-! ### WHEEL_DEFECT_DECLARE and WHEEL_DEFECT_CLEAR -/

/-- Periods, the present one included, for which the raw condition of a defect has been as it is. -/
def Wheel.periodsOf (w : Wheel) (f : Defect) : Nat := w.per - f.since + 1

/-- Declare or clear a Wheel's defect and raise WHEEL_DEFECT to the Wheel's principal (R176). -/
def State.setWhlDef (s : State) (n d : Nat) (v : Bool) : State :=
  let w := s.wheel n
  let w := w.setDef d { w.def_ d with declared := v, decSince := s.clk.tick }
  let s := s.setWheel n (w.note (s.laneFault w))
  s.event [w.owner] 0x0020 n (d + 256 * b2n v)

/-- WHEEL_DEFECT_DECLARE: the raw condition has held for SET periods (R175). -/
def execWheelDefectDeclare (w : Fin 65536) (d : Fin 6) (s : State) : Out :=
  whenUp s (
    let x := (s.wheel w).note (s.laneFault (s.wheel w))
    let s := s.setWheel w x
    let due := if d = 5 then decide (s.whlSet 5 ≤ x.excRun)
      else (x.def_ d).raw && decide (s.whlSet d ≤ x.periodsOf (x.def_ d))
    if x.defined ∧ x.dec d = false ∧ due then s.setWhlDef w d true else s)

/-- WHEEL_DEFECT_CLEAR: the raw condition has been absent for CLR periods (R175). -/
def execWheelDefectClear (w : Fin 65536) (d : Fin 6) (s : State) : Out :=
  whenUp s (
    let x := (s.wheel w).note (s.laneFault (s.wheel w))
    let s := s.setWheel w x
    let due := if d = 5 then decide (s.whlClr 5 ≤ x.excOk)
      else !(x.def_ d).raw && decide (s.whlClr d ≤ x.periodsOf (x.def_ d))
    if x.defined ∧ x.dec d ∧ due then s.setWhlDef w d false else s)

/-! ### Ranges and quotas (R452, R454) -/

/-- The partitions and MAINT that are set up. -/
def State.parts (s : State) : List (Nat × Part) := s.prn.part.filter (fun p => p.2.set)

/-- A Wheel or pair number is a principal's to use (R452). -/
def State.whUse (s : State) (p n : Nat) : Bool :=
  let own := fun (x : Part) => decide (x.whFirst ≤ n) && decide (n < x.whFirst + x.whCount)
  if p = 0 then s.parts.all (fun x => !own x.2) else (s.part p).set && own (s.part p)
def State.prUse (s : State) (p n : Nat) : Bool :=
  let own := fun (x : Part) => decide (x.prFirst ≤ n) && decide (n < x.prFirst + x.prCount)
  if p = 0 then s.parts.all (fun x => !own x.2) else (s.part p).set && own (s.part p)

/-- What a principal may hold of a quota: its own, or for the owner what remains once every quota is reserved (R253). -/
def State.quota (s : State) (p total : Nat) (f : Part → Nat) : Nat :=
  if p = 0 then total - (s.parts.map (fun x => f x.2)).sum else f (s.part p)

/-- The Wheels of a principal. -/
def State.wheelsOf (s : State) (p : Nat) : List (Nat × Wheel) :=
  s.whl.filter (fun w => w.2.defined && decide (w.2.owner = p))
/-- Skew store reserved and pairing entries used by a principal (R162, R178). -/
def State.skewOf (s : State) (p : Nat) : Nat := ((s.wheelsOf p).map (fun w => w.2.k * w.2.maxSkew)).sum
def State.monOf (s : State) (p : Nat) : Nat := ((s.wheelsOf p).filter (fun w => w.2.reverse.isSome)).length

/-! ### WHEEL_DEFINE and WHEEL_DELETE (R506, R507) -/

/-- `n` words of 32 bits. -/
def words32 : Nat → List Byte → List Nat
  | 0, _ => []
  | n + 1, l => leAt l 0 4 :: words32 n (l.drop 4)

/-- The member words of a WHEEL_DEFINE. -/
def wdMembers (e : JEntry) : List Nat := words32 (e.f 6 2) (e.items 28 36)

/-- Refusals of WHEEL_DEFINE; the first row of R506 that applies decides. -/
def chkWheelDefine : Check := fun e s =>
  let w := e.f 4 2
  let k := e.f 6 2
  let ms := wdMembers e
  let fl := e.f 9 1
  let bidir := decide (fl / 8 % 2 = 1)
  let v := e.f 10 2
  let sized := if descHasBatch e.d then decide (e.bytes.length = 8 * ceilDiv k 2)
      && (decide (k % 2 = 0) || decide (leAt e.bytes (4 * k) 4 = 0)) else decide (k ≤ 9)
  let groups := ms.map (fun m => s.foreign (m / 16384))
  let range := sized && decide (1 ≤ k) && decide (k ≤ 16384) && decide (e.f 8 1 ≤ 32) && s.whUse e.prin w
    && ms.all (fun m => decide (m < 524288) && s.ingressOk e.prin m) && decide (ms.Nodup)
    && (groups.all (fun g => g) || groups.all (fun g => !g))
    && (if bidir then decide (v ≠ w) && s.whUse e.prin v && (s.wheel v).defined else decide (v = 0))
  let state := !(s.wheel w).defined
    && s.whl.all (fun x => x.2.members.all (fun m => decide (m ∉ ms)))
    && (!bidir || s.whl.all (fun x => decide (x.2.reverse ≠ some v)))
  let cap := decide (s.skewOf e.prin + k * e.f 8 1 ≤ s.quota e.prin 4194304 (fun p => p.skew))
    && (!bidir || decide (s.monOf e.prin + 1 ≤ s.quota e.prin 8192 (fun p => p.mon)))
  (firstErr [need range eRange, need state eState, need cap eCapacity], 0)

/-- The Wheel enters HUNT and its counters are cleared. -/
def effWheelDefine : Effect := fun h e s =>
  let fl := e.f 9 1
  let x : Wheel :=
    { defined := true, owner := e.prin, members := wdMembers e, maxSkew := e.f 8 1, timChk := fl % 2 = 1,
      timAis := fl / 2 % 2 = 1, excAis := fl / 4 % 2 = 1, reverse := if fl / 8 % 2 = 1 then some (e.f 10 2) else none,
      trace := leBytes 16 (e.f 12 16), huntUntil := s.clk.tick + 128, excPer := s.secClock / 8000,
      perTick := s.clk.tick, defects := [] }
  let x := x.note (s.laneFault x)
  ((s.setWheel (e.f 4 2) x).clearCounters 1 (e.f 4 2)).complete h 0 s.tnNow 0

/-- WHEEL_DEFINE. -/
def execWheelDefine (h : Nat) (s : State) : Out := .next (s.runCmd 0x12 chkWheelDefine effWheelDefine h)

/-- A principal may delete a Wheel: one of its own range; the owner also clears a partition's (R457). -/
def chkWheelDelete : Check := fun e s =>
  let w := e.f 4 2
  let busy := (s.pairOf w).isSome || s.whl.any (fun x => decide (x.2.reverse = some w))
    || s.flp.seqs.any (fun f => decide (f.trigger = w) || decide (f.reference = some w))
  (firstErr [need ((decide (e.prin = 0) || s.whUse e.prin w) && (s.wheel w).defined) eRange, need (!busy) eState], 0)

/-- Monitoring stops, the reservation and pairing entry go, the counters return to 0 (R180). -/
def effWheelDelete : Effect := fun h e s =>
  ((s.setWheel (e.f 4 2) {}).clearCounters 1 (e.f 4 2)).complete h 0 s.tnNow 0

/-- WHEEL_DELETE. -/
def execWheelDelete (h : Nat) (s : State) : Out := .next (s.runCmd 0x13 chkWheelDelete effWheelDelete h)

end Sys2Proof.Machine
end

