-- ==== Sys2Proof/Machine/Flips.lean ====
section
/-! DEFINITION. Flips (06_flips): tick-keyed Flips with their window and resync, sequence-keyed Flips, fabric Flips at the
manager. -/
namespace Sys2Proof.Machine

/-! ### FLIP_FREEZE, FLIP_COMMIT, RESYNC_END (R212 to R217) -/

/-- FLIP_FREEZE: from F - 4 the standby page is frozen and the Flip is fixed (R42, R215). -/
def execFlipFreeze (s : State) : Out :=
  whenUp s (
    match s.flp.flips.find? (fun x => s.clk.tnValid && inWindow s.tnNow x.f) with
    | some x => { s with flp := { s.flp with frozen := some x.f } }
    | none => s)

/-- A worker reports the outcome of a fabric Flip to its manager (R367). -/
def State.sendResult (s : State) (x : Flip) (done : Bool) : State :=
  if x.fromMgr then s.send none 0x13 s.mgrId (beBytes 4 x.id.toNat ++ beBytes 1 (b2n done)) else s

/-- RESULT of a FLIP_AT that committed on one device (R509). -/
def flipResultWord (f page carried : Nat) : Nat := (f + 127) % 2 ^ 32 * 2 ^ 32 + page * 2 ^ 31 + carried % 2 ^ 21

/-- Swap the pages. The new standby page keeps its entries until resync copies them; its derived tables are the active page's
at once (R212, R217, log 75). -/
def State.swapPages (s : State) : State :=
  let s := { s with hrp := { s.hrp with active := !s.hrp.active } }
  s.setStandby { s.activePage with ent := s.standby.ent }

/-- Copy entries into a page's map, those of a list. -/
def copyEnts (q : Page) (l : List Nat) (t : Tab Word) : Tab Word :=
  l.foldl (fun (t : Tab Word) i => Tab.put entryReset t i (q.entry i)) t

/-- Resync: tick F + j copies and checks entries 4,096 x j to 4,096 x j + 4,095 (R22, R197, R217). A copied entry that fails its check
is a failure of the standby page, as R199 treats it: R197 does not say which treatment it gets (DESIGN CHOICE, log 87). -/
def State.copySlice (s : State) : State :=
  match s.flp.resync with
  | some f =>
    if f ≤ s.tnNow ∧ s.tnNow < f + 128 ∧ s.drops 4 = false then
      let l := (List.range 4096).map (4096 * (s.tnNow - f) + ·)
      let q := s.activePage
      let s := s.setStandby { s.standby with ent := copyEnts q l s.standby.ent }
      (l.filter (fun i => !entryOk (q.entry i))).foldl (fun (t : State) i => t.entryFails t.standbyNo i true) s
    else s
  | none => s

/-- A Flip that commits: its own completion, or its place in the fabric Flip's record (R214, R224, R509). -/
def State.flipDone (s : State) (carried : Nat) (x : Flip) : State :=
  if x.fromMgr then s.sendResult x true
  else if x.fabric then s.ownResult x true
  else s.completeNext x.h 0 x.f (flipResultWord x.f s.activeNo carried)

/-- Carry out the tick-keyed Flips that are due. -/
def State.commit (s : State) : State :=
  let due := s.flp.flips.filter (fun x => s.dueAt x.f)
  match due with
  | [] => s
  | d :: _ =>
    let rest := s.flp.flips.filter (fun x => !s.dueAt x.f)
    let s := { s with flp := { s.flp with flips := rest, frozen := none, lastF := some d.f } }
    let go := due.filter (fun x => !x.cancelled)
    let s := (due.filter (fun x => x.cancelled)).foldl (fun (t : State) x => (t.sendResult x false).ownResult x false) s
    match go with
    | [] => s
    | g :: _ =>
      let n := s.flp.carried
      let ps := s.flp.parts
      let s := s.swapPages
      let s := { s with flp := { s.flp with resync := some g.f, carried := 0, parts := [] } }
      let s := go.foldl (fun (t : State) x => t.flipDone n x) s
      (s.count 7 0 3 1).event (0 :: ps) 0x0032 s.activeNo g.f

/-- RESYNC_END: from F + 128 the two pages are equal (R217). -/
def execResyncEnd (s : State) : Out :=
  whenUp s (
    match s.flp.resync with
    | some f => if f + 128 ≤ s.tnNow then { s with flp := { s.flp with resync := none } } else s
    | none => s)

/-! ### FLIP_AT (R222, R240, R508) -/

/-- The tick at which a pending FLIP_SEQ expires, as TN (R230). -/
def State.expiryTn (s : State) (f : SeqFlip) : Nat := s.tnNow + (f.expiry - s.clk.tick)

/-- Two Flip ticks lie less than 128 ticks apart (R221). -/
def tooNear (a b : Nat) : Bool := decide (a < b + 128) && decide (b < a + 128)

/-- The conflicts of a tick-keyed Flip at `f` on this device (R221, R222). A fabric Flip that was cancelled and is kept for its window
still counts as an accepted one (DESIGN CHOICE, log 90). -/
def State.flipClash (s : State) (f : Nat) (id : Word) : Bool :=
  s.flp.flips.any (fun x => tooNear x.f f && !(decide (x.f = f) && decide (x.id = id)))
  || (match s.flp.resync with | some r => tooNear r f | none => false)
  || s.flp.seqs.any (fun x => decide (f ≤ s.expiryTn x + 4))

/-- The conflicts that the manager knows on workers: their pending FLIP_AT and FLIP_SEQ commands (R240). It reckons that a worker's
FLIP_SEQ expires at the latest EXPIRY + 12 ticks after its own journal tick; the spec gives no such reckoning (DESIGN CHOICE,
log 88). -/
def State.workerClash (s : State) (f : Nat) : Bool :=
  s.fab.cmds.any (fun c =>
    match s.job c.h with
    | some e =>
      (decide (e.d.opcode = 0x20) && tooNear (e.f 8 8) f)
      || (decide (e.d.opcode = 0x21) && decide (f ≤ e.jtn + e.f 12 2 + 12))
    | none => false)

/-- lmin of R43: the longest designated path. -/
def State.lmin (s : State) : Nat := max 16 (8 + (s.fab.workers.map (fun w => w.pathSum)).foldl max 0)

/-- The fabric can act as one: no worker is lost, and every link on the designated paths is UP at rung 3 (R354, R365, R367). -/
def State.fabReady (s : State) : Bool :=
  s.isManager && s.fab.workers.all (fun w => !w.lost && w.rung3 && (match w.link with
    | some g => decide ((s.fab.link.look {} g).st = .up) && decide ((s.group g).rung = 3)
    | none => decide (s.fab.calrin.st = .up)))

/-- The Flip identifier of a command. -/
def JEntry.flipId (e : JEntry) : Word := BitVec.ofNat 32 e.d.serial

/-- Refusals of FLIP_AT in the order of R222. -/
def chkFlipAt : Check := fun e s =>
  let f := e.f 8 8
  let fabric := decide (e.f 4 1 % 2 = 1)
  (firstErr [
    s.leadCheck f,
    need (!fabric || decide (s.clk.tn + s.lmin ≤ f)) eRange,
    need (!s.flipClash f e.flipId) eConflict,
    need (!fabric || !s.workerClash f) eConflict,
    need (!fabric || s.fabReady) eState], 0)

/-- The Flip enters the schedule; a fabric Flip also goes to every worker (R240, R367). -/
def effFlipAt : Effect := fun h e s =>
  let f := e.f 8 8
  let fabric := decide (e.f 4 1 % 2 = 1)
  let x : Flip := { h := h, f := f, id := e.flipId, fabric := fabric }
  let s := ({ s with flp := { s.flp with flips := s.flp.flips ++ [x] } }).recEvt 1 h f 0
  if fabric then
    let y : FabFlip := { h := h, id := e.flipId, f := f, a := s.tnNow, ws := s.fab.workers.map (fun w => w.id) }
    let s := { s with flp := { s.flp with fab := s.flp.fab ++ [y] } }
    s.send none 0x10 0xFFFFFFFF (beBytes 4 e.flipId.toNat ++ beBytes 8 f)
  else s

/-- FLIP_AT. -/
def execFlipAt (h : Nat) (s : State) : Out := .next (s.runCmd 0x20 chkFlipAt effFlipAt h)

/-! ### Fabric Flips at the manager (R243, R244, R368) -/

/-- FABRIC_FLIP_READY_TIMEOUT: no READY from a worker by its deadline (R243). -/
def execFabricFlipReadyTimeout (h : Nat) (worker : Word) (s : State) : Out :=
  .next (
    match s.flp.fab.find? (fun x => x.h = h), s.worker worker with
    | some x, some w =>
      if s.fw ∧ worker ∈ x.ws ∧ worker ∉ x.ready ∧ x.a + 2 * w.pathSum + 8 ≤ s.tnNow ∧ s.tnNow < x.f
      then s.cancelFab x worker 5 else s
    | _, _ => s)

/-- FABRIC_FLIP_ABORTED names a device that committed or did not answer (R244, R368). -/
def State.tellOutcome (t : State) (o : Option Bool) (id : Word) : State :=
  match o with
  | some false => t
  | some true => t.event [0] 0x0063 id.toNat 1
  | none => if id = t.fabId then t else t.event [0] 0x0063 id.toNat 2

/-- Post the completion of a fabric FLIP_AT and name the devices whose outcome differs (R244, R368, R510). -/
def State.finishFab (s : State) (x : FabFlip) : State :=
  let ids := s.fabId :: x.ws
  let outc := fun id => (x.results.find? (fun r => r.1 = id)).map (fun r => r.2)
  let n := (ids.filter (fun id => outc id = some true)).length
  let all := decide (n = ids.length)
  let first := (ids.find? (fun id => decide (outc id ≠ some true))).getD 0
  let reason := if all then 0 else if x.cancelled then x.reason
    else match outc first with | some _ => 4 | none => 6
  let fail := if all then 0 else if x.cancelled then x.failId else first
  let fail := if fail = s.fabId then 0 else fail
  let st := if all then 0 else eAborted
  let s := { s with flp := { s.flp with fab := s.flp.fab.filter (fun y => y.h ≠ x.h) } }
  let s := s.complete x.h st x.f (abortResult n reason fail.toNat)
  if all then s else ids.foldl (fun (t : State) id => t.tellOutcome (outc id) id) s

/-- The manager holds the outcome of every device (R368). -/
def State.finishReady (s : State) : State :=
  let whole := fun (x : FabFlip) => (s.fabId :: x.ws).all (fun id => x.results.any (fun r => r.1 = id))
  (s.flp.fab.filter whole).foldl State.finishFab s

/-- The tick-keyed Flips of this tick, the first of cycle 0 (R46). -/
def State.flipsNow (s : State) : State := s.commit.finishReady

/-- FLIP_COMMIT: cycle 0 of F. -/
def execFlipCommit (s : State) : Out := whenUp s s.flipsNow

/-- FABRIC_FLIP_RESULT_TIMEOUT: 65,536 ticks after F the completion goes out with what is held (R368). -/
def execFabricFlipResultTimeout (h : Nat) (s : State) : Out :=
  .next (
    match s.flp.fab.find? (fun x => x.h = h) with
    | some x => if s.fw ∧ x.f + 65536 ≤ s.tnNow then s.finishFab x else s
    | none => s)

/-! ### Sequence-keyed Flips (R225 to R239) -/

/-- OFFSET of R231. -/
def offset16 : Option Int → Nat
  | none => 0x8000
  | some d => (BitVec.ofInt 16 (max (-32767) (min 32767 d))).toNat

/-- RESULT of a FLIP_SEQ (R512). -/
def seqResult (off : Option Int) (oseq : BitVec 24) (reason n : Nat) : Nat :=
  offset16 off * 2 ^ 48 + oseq.toNat * 2 ^ 24 + reason * 2 ^ 16 + n % 2 ^ 16

/-- Note this device's own outcome of a FLIP_SEQ on a standby, for the comparison of R239. -/
def State.ownFire (s : State) (h : Nat) (t : Option Nat) : State :=
  if s.copies = false then s
  else
    let r := (s.flp.fires.find? (fun x => x.h = h)).getD { h := h }
    { s with flp := { s.flp with fires := s.flp.fires.filter (fun x => x.h ≠ h) ++ [{ r with own := some t }] } }

/-- A FLIP_SEQ ends without firing (R229, R230, R238). -/
def State.endSeq (s : State) (f : SeqFlip) (status reason : Nat) (off : Option Int) (late : Bool) : State :=
  let s := { s with flp := { s.flp with seqs := s.flp.seqs.filter (fun x => x.h ≠ f.h) } }
  let s := s.ownFire f.h none
  let r := seqResult off 0 reason f.roll.length
  if late then s.completeNext f.h status s.tnNow r else s.complete f.h status s.tnNow r

/-- The roll set is committed to the active page with its branches (R226, R236). -/
def State.fireRoll (s : State) (roll : List Nat) : State :=
  let q := s.standby
  let p := roll.foldl (fun (p : Page) x => p.free x) s.activePage
  let p := roll.foldl (fun (p : Page) x =>
    let o := q.eg.look {} x
    let p := { p with ent := Tab.put entryReset p.ent x (q.entry x), eg := Tab.put {} p.eg x o,
                      bad := p.bad.filter (· ≠ x) ++ (if x ∈ q.bad then [x] else []) }
    if o.out = 0 then
      let b := p.br.look {} o.br
      { p with br := Tab.put {} p.br o.br ⟨(q.br.look {} o.br).slot, b.refs + 1⟩ }
    else p) p
  s.setPage s.activeNo p

/-- A FLIP_SEQ whose fire tick is the present one. -/
def State.fireDue (s : State) (h : Nat) : Option (SeqFlip × Nat × BitVec 24) :=
  (s.flp.seqs.find? (fun f => f.h = h)).bind (fun f =>
    f.armed.bind (fun a => if a.1 = s.secClock then some (f, a.1, a.2) else none))

/-- Fire a FLIP_SEQ in its tick (R227, R231). -/
def State.fireNow (s : State) (h : Nat) : State :=
  match s.fireDue h with
  | none => s
  | some (f, t, o) =>
    let s := s.fireRoll f.roll
    let s := { s with flp := { s.flp with seqs := s.flp.seqs.filter (fun x => x.h ≠ h) } }
    let s := ((s.ownFire h (some t)).recEvt 3 h t o.toNat).count 7 0 4 1
    s.completeNext h 0 t (seqResult f.offset o 0 f.roll.length)

/-- The sequence-keyed Flips of this tick, the second of cycle 0 (R46). -/
def State.firesNow (s : State) : State := (s.flp.seqs.map (fun f => f.h)).foldl State.fireNow s

/-- FLIP_SEQ_FIRE: cycle 0 of the fire tick, after a tick-keyed Flip of that tick (R46, R227, R231). -/
def execFlipSeqFire (h : Nat) (s : State) : Out :=
  whenUp s (if (s.fireDue h).isSome then s.flipsNow.fireNow h else s)

/-- FLIP_SEQ_EXPIRE: not fired by E (R230). -/
def execFlipSeqExpire (h : Nat) (s : State) : Out :=
  whenUp s (
    match s.flp.seqs.find? (fun f => f.h = h) with
    | none => s
    | some f =>
      let fires := match f.armed with | some (t, _) => decide (t ≤ s.secClock) | none => false
      if f.expiry ≤ s.clk.tick ∧ fires = false then s.endSeq f eState 3 f.offset false else s)

/-- FLIP_SEQ_DIFF: the standby compares its outcome with the active device's fire tick (R239). -/
def execFlipSeqDiff (h : Nat) (s : State) : Out :=
  whenUp s (
    match s.flp.fires.find? (fun r => r.h = h) with
    | none => s
    | some r =>
      match r.mate, r.own with
      | some m, some o =>
        let s := { s with flp := { s.flp with fires := s.flp.fires.filter (fun x => x.h ≠ h) } }
        if o = some m then s
        else (s.setSticky Reg.flipStatus 0x20000000).event [0] 0x0033 h (o.getD (2 ^ 64 - 1))
      | _, _ => s)

/-- The signed distance from `b` to `a` modulo 2^24. -/
def sdiff24 (a b : BitVec 24) : Int := (a - b).toInt

/-- At a good overhead of its trigger Wheel, with OSEQ `x` and Wheel tick 0 at `t0`, a FLIP_SEQ arms, or is withheld as
MISALIGNED (R227 to R229). -/
def State.watchOne (s : State) (x : BitVec 24) (t0 : Nat) (f : SeqFlip) : State :=
  if f.armed.isSome ∨ (x - (f.s - 1)).toNat ≥ 2 ^ 23 then s
  else
    let fire := t0 + 64
    let o := x + 1
    let arm := fun (off : Option Int) =>
      let g := fun (y : SeqFlip) => if y.h = f.h then { y with armed := some (fire, o), offset := off } else y
      { s with flp := { s.flp with seqs := s.flp.seqs.map g } }
    match f.reference with
    | none => arm none
    | some r =>
      let w := s.wheel r
      if w.goodAny ∧ s.secClock < w.lastGoodT0 + 128 then
        let off : Int := (w.lastGoodT0 : Int) + 64 * sdiff24 o w.oseq - (fire : Int)
        if off = 0 then arm (some 0) else s.endSeq f eState 2 (some off) true
      else s.endSeq f eState 2 none true

/-- Every pending FLIP_SEQ watches a good overhead of its trigger. -/
def State.seqWatch (s : State) (w : Nat) (x : BitVec 24) (t0 : Nat) : State :=
  (s.flp.seqs.filter (fun f => f.trigger = w)).foldl (fun (t : State) f => t.watchOne x t0 f) s

/-! ### FLIP_SEQ (R225, R234, R237) -/

/-- The roll set's own former branches on the active page: those that its entries alone use. -/
def Page.released (p : Page) (roll : List Nat) : List Nat :=
  let ks := roll.filterMap (fun x => let o := p.eg.look {} x; if o.out = 0 then some o.br else none)
  ks.filter (fun k => (p.br.look {} k).refs ≤ (ks.filter (· = k)).length)

/-- Internal slot `i` suits branch `k` on the active page: free at both groups, or held by branches released (R234), or held there by
the same branch already (DESIGN CHOICE, log 89). -/
def Page.suits (p : Page) (rel : List Nat) (k i : Nat) : Bool :=
  p.br.all (fun (x : Nat × Branch) => decide (x.2.slot ≠ i) || (decide (brIn x.1 ≠ brIn k) && decide (brOut x.1 ≠ brOut k))
    || decide (x.1 = k) || decide (x.1 ∈ rel))

/-- The lowest internal slot that is free for branch `k` on the standby page `q` and suits it on the active page. -/
def Page.fitAt (q p : Page) (rel : List Nat) (k : Nat) : Option Nat :=
  let used := q.usedIn (brIn k) ++ q.usedOut (brOut k)
  (List.range 32768).find? (fun i => decide (i ∉ used) && p.suits rel k i)

/-- Move the branch of one slot of a roll set on the standby page to an internal slot that suits the active page (R234). -/
def fitOne (p : Page) (rel : List Nat) (q : Page) (x : Nat) : Option Page :=
  let o := q.eg.look {} x
  let b := q.br.look {} o.br
  if o.out ≠ 0 ∨ p.suits rel o.br b.slot then some q
  else (q.fitAt p rel o.br).map (fun i => { q with br := Tab.put {} q.br o.br { b with slot := i } })

/-- The same for every slot of the set. -/
def fitRoll (p : Page) (rel roll : List Nat) (q : Page) : Option Page :=
  roll.foldl (fun (o : Option Page) x => o.bind (fun q => fitOne p rel q x)) (some q)

/-- The slots of a FLIP_SEQ. -/
def seqSlots (e : JEntry) : List Nat := words32 (e.f 16 2) (e.items 20 44)

/-- Refusals of FLIP_SEQ in the order of R237. -/
def chkFlipSeq : Check := fun e s =>
  let n := e.f 16 2
  let roll := seqSlots e
  let tr := e.f 4 2
  let rf := e.f 6 2
  let align := decide (e.f 14 1 % 2 = 1)
  let exp := e.f 12 2
  let w := s.wheel tr
  let whOk := fun k => s.whUse e.prin k && (s.wheel k).defined && !s.whlForeign (s.wheel k)
  let sized := if descHasBatch e.d then decide (e.bytes.length = 8 * ceilDiv n 2)
      && (decide (n % 2 = 0) || decide (leAt e.bytes (4 * n) 4 = 0)) else decide (n ≤ 11)
  let d := (BitVec.ofNat 24 (e.f 8 4) - w.oseq).toNat
  let vis := sized && decide (e.f 8 4 < 2 ^ 24) && whOk tr && (if align then whOk rf else decide (rf = 0))
    && roll.all (fun x => s.egressOk e.prin x && (s.block (x / 64)).hand.isNone)
  let clash := roll.any (fun x => decide (x ∈ s.rollSlots) || s.hrp.deferred.any (fun y => y.slot = x))
  let ring := if e.origin = .ring then e.ring else 0
  let own := (s.ringOf 0).getD 0
  let a := s.tnNow
  (firstErr [
    need vis eRange,
    need (decide (1 ≤ n) && decide (n ≤ 16384) && decide roll.Nodup && decide (64 ≤ exp)) eRange,
    need (decide (w.align = .inMf)) eState,
    need (decide (d ≠ 0) && decide (d < 2 ^ 23)) eLate,
    need (decide (d ≠ 1) && decide (d < 1024)) eRange,
    need (!clash) eConflict,
    need (!s.resyncing && decide (s.resyncUsed ring = 0) && decide (s.resyncUsed own = 0)) eConflict,
    need (!s.flp.flips.any (fun x => decide (x.f ≤ a + exp + 4))) eConflict,
    need (decide ((s.flp.seqs.filter (fun f => f.prin = e.prin)).length < 4)) eCapacity,
    need (fitRoll s.activePage (s.activePage.released roll) roll s.standby).isSome eCapacity], 0)

/-- The FLIP_SEQ is pending until it fires, expires or is cancelled. -/
def effFlipSeq : Effect := fun h e s =>
  let roll := seqSlots e
  let s := roll.foldl State.checkRead s
  let s := match fitRoll s.activePage (s.activePage.released roll) roll s.standby with
    | some q => s.setStandby q
    | none => s
  let f : SeqFlip := { h := h, prin := e.prin, serial := e.d.serial, trigger := e.f 4 2,
                       reference := if e.f 14 1 % 2 = 1 then some (e.f 6 2) else none,
                       s := BitVec.ofNat 24 (e.f 8 4), expiry := s.clk.tick + e.f 12 2, roll := roll }
  ({ s with flp := { s.flp with seqs := s.flp.seqs ++ [f], asked := s.flp.asked ++ [(e.prin, e.d.serial)] } }).recEvt 1 h (s.tnNow + e.f 12 2) 0

/-- FLIP_SEQ. -/
def execFlipSeq (h : Nat) (s : State) : Out := .next (s.runCmd 0x21 chkFlipSeq effFlipSeq h)

/-! ### FLIP_CANCEL (R223, R238, R511) -/

/-- The pending FLIP_SEQ of a principal with a serial. -/
def State.seqNamed (s : State) (prin serial : Nat) : Option SeqFlip :=
  s.flp.seqs.find? (fun f => decide (f.prin = prin) && decide (f.serial = serial))

/-- Refusals of FLIP_CANCEL (R223, R238). A Flip that has committed is no accepted Flip of that tick any more: E_RANGE (DESIGN CHOICE,
log 90). -/
def chkFlipCancel : Check := fun e s =>
  let key := e.f 8 8
  if e.f 4 1 = 0 then
    match s.flp.flips.find? (fun x => decide (x.f = key) && !x.cancelled) with
    | none => (eRange, 0)
    | some x => (need (decide (s.tnNow + 4 < x.f)) eState, 0)
  else if e.f 4 1 = 1 then
    match s.seqNamed e.prin key with
    | some f => (need f.armed.isNone eState, 0)
    | none => (if (e.prin, key) ∈ s.flp.asked then eState else eRange, 0)
  else (eRange, 0)

/-- Remove a tick-keyed Flip, or end a FLIP_SEQ; its completion goes ahead of the cancel's own. -/
def effFlipCancel : Effect := fun h e s =>
  let key := e.f 8 8
  let s :=
    if e.f 4 1 = 0 then
      match s.flp.flips.find? (fun x => decide (x.f = key) && !x.cancelled) with
      | none => s
      | some x =>
        if x.fromMgr then
          let m := fun (y : Flip) => if y.id = x.id then { y with cancelled := true } else y
          { s with flp := { s.flp with flips := s.flp.flips.map m } }
        else if x.fabric then
          match s.flp.fab.find? (fun y => y.id = x.id) with
          | some y => s.cancelFab y s.fabId 1
          | none => s
        else
          let s := { s with flp := { s.flp with flips := s.flp.flips.filter (fun y => y.h ≠ x.h) } }
          (s.recEvt 2 x.h 0 0).complete x.h eAborted x.f (abortResult 0 1 0)
    else
      match s.seqNamed e.prin key with
      | some f => (s.recEvt 2 f.h 0 0).endSeq f eAborted 1 none false
      | none => s
  s.complete h 0 s.tnNow 0

/-- FLIP_CANCEL. -/
def execFlipCancel (h : Nat) (s : State) : Out := .next (s.runCmd 0x22 chkFlipCancel effFlipCancel h)

end Sys2Proof.Machine
end

