-- ==== Sys2Proof/Machine/Overhead.lean ====
section
/-! DEFINITION. Sending over overhead channel 1: the capability word, fragments, and the order in which fabric and mate
messages leave (R69, R103, R104, R347 to R353, R382, R491). -/
namespace Sys2Proof.Machine

/-! ### The capability word sent (R69) -/

/-- The receiver is in frame; during VERIFY, it has passed so far (R69, R74). -/
def State.laneReady (s : State) (n : Nat) : Bool :=
  let l := s.lane n
  decide ((s.rx n).align = .inFrame)
    && (decide ((s.group (n / 8)).st ≠ .verify) || (!l.verBad && decide (l.verCorr ≤ s.corrMax (n / 8))))

/-- The capability word of a lane. TARGET and SWITCH_SEQ are 0 without a proposal or an answer (log 22). -/
def State.capWord (s : State) (n : Nat) : BitVec 64 :=
  let g := n / 8
  let x := s.group g
  let named := decide (x.sendAct = 1) || decide (x.sendAct = 2)
  let offer := ((List.range 4).map (fun k => b2n (s.offers n k) * 2 ^ k)).sum
  let seq := if named then (x.ownSeq.getD 0).toNat else 0
  let v := 0xC5 * 2 ^ 56 + 1 * 2 ^ 52 + offer * 2 ^ 48 + x.sendAct % 4 * 2 ^ 46 + (if named then x.target % 4 else 0) * 2 ^ 44
    + b2n (s.grpLead g) * 2 ^ 43 + b2n (s.preReq n 3) * 2 ^ 42 + b2n (s.preReq n 2) * 2 ^ 41 + b2n (s.laneReady n) * 2 ^ 40
    + seq * 2 ^ 16 + x.exch % 256 * 2 ^ 8
  let w := BitVec.ofNat 64 v
  BitVec.ofNat 64 (v + (crc8 0 ((msbBits w).take 56)).toNat)

/-- Frames carry a capability word at rung 0 and during STEP and VERIFY (R69); a group that falls back to rung 0 proposes
TARGET 0 in them (R74). -/
def State.capSent (s : State) (n : Nat) : Bool :=
  let x := s.group (n / 8)
  decide (x.txRung = 0) || decide (x.st = .step) || decide (x.st = .verify) || decide (x.st = .fallback)

/-! ### Fragments (R103, R104) -/

/-- The 64 bytes of an overhead channel: 8 bytes for the capability word, a fragment header and 54 data bytes. -/
def ovhBits (cap hdr : Nat) (data : List Byte) : BitVec 512 :=
  BitVec.ofNat 512 (beNat (beBytes 8 cap ++ beBytes 2 hdr ++ data ++ List.replicate (54 - data.length) 0))

/-- The next fragment of a packet of which `sent` bytes have gone: its header, its data, and whether it is the last. -/
def nextFragment (ch : Nat) (pkt : List Byte) (sent fseq : Nat) : Nat × List Byte × Bool :=
  let d := (pkt.drop sent).take 54
  let eop := decide (pkt.length ≤ sent + 54)
  (ch * 2 ^ 14 + b2n (decide (sent = 0)) * 2 ^ 13 + b2n eop * 2 ^ 12 + d.length * 2 ^ 6 + fseq, d, eop)

/-- The next fragment of a packet in hand, of the channels in turn where both have one, or an idle one: the framer after it, its
header and its data (R104). -/
def TxLane.fragment (x : TxLane) : TxLane × Nat × List Byte :=
  if !x.pkt.isEmpty ∧ (x.pkt2.isEmpty ∨ x.was2) then
    let (hdr, d, eop) := nextFragment 1 x.pkt x.sent x.fseq
    let y := { x with fseq := (x.fseq + 1) % 64, was2 := false }
    ((if eop then { y with pkt := [], sent := 0 } else { y with sent := x.sent + 54 }), hdr, d)
  else if !x.pkt2.isEmpty then
    let (hdr, d, eop) := nextFragment 2 x.pkt2 x.sent2 x.fseq2
    let y := { x with fseq2 := (x.fseq2 + 1) % 64, was2 := true }
    ((if eop then { y with pkt2 := [], sent2 := 0 } else { y with sent2 := x.sent2 + 54 }), hdr, d)
  else (x, 0, [])

/-! ### Messages (R347 to R353) -/

/-- Urgent types (R350). -/
def urgentType (t : Nat) : Bool := decide (t ∈ [1, 2, 3, 0x10, 0x11, 0x12])

/-- Order of leaving: FLIP_* ahead of other urgent messages (R353), then bulk messages, DUMP last (R363). -/
def msgRank (t : Nat) : Nat :=
  if t ∈ [0x10, 0x11, 0x12] then 0 else if urgentType t then 1 else if t = 0x23 then 3 else 2

/-- A link in a state carries messages of a type (R346). Keying messages end with the exchange. -/
def linkCarries (st : LinkSt) (t : Nat) : Bool :=
  match st with
  | .down => false
  | .keying => decide (t = 0x40)
  | .measuring => decide (t ∈ [2, 3, 0x40])
  | .up => true

/-- The links by which a message of this device leaves: a worker's go up, a manager's down (R350, R351). -/
def State.msgLinks (s : State) : List Link :=
  let dirs := if s.fabRole = 1 then [2, 3] else if s.fabRole = 2 then [1, 3] else []
  ((List.range 32).filter (fun g => decide (s.fabDir g ∈ dirs) && decide ((s.plink (.group (Fin.ofNat 32 g))).st = .up))).map
    (fun g => Link.group (Fin.ofNat 32 g))

/-- Give every queued message its links; one for which no link is usable is lost. -/
def State.routeMsgs (s : State) : State :=
  let q := s.fab.sendQ.flatMap (fun (m : OutMsg) => match m.link with
    | some l => if linkCarries (s.plink l).st m.type then [m] else []
    | none => s.msgLinks.map (fun l => { m with link := some l }))
  { s with fab := { s.fab with sendQ := q } }

/-- Length of a message's packet (R348). -/
def OutMsg.length (m : OutMsg) : Nat := 18 + m.body.length + 16 + 4

/-- The message of a link that leaves next among those that a lane may carry: the first of the lowest rank. -/
def State.nextMsg (s : State) (l : Link) (ok : OutMsg → Bool) : Option OutMsg :=
  let c := s.fab.sendQ.filter (fun m => decide (m.link = some l) && ok m)
  [0, 1, 2, 3].findSome? (fun r => c.find? (fun m => decide (msgRank m.type = r)))

/-- Take the first occurrence of a message off the queue. -/
def dropMsg (m : OutMsg) : List OutMsg → List OutMsg
  | [] => []
  | x :: t => if x = m then t else x :: dropMsg m t

/-- The packet of a message whose first fragment leaves on lane `i` of its link in the frame that starts `d` ticks from now
(R348, R349, R489, R491). -/
def State.packet (s : State) (l : Link) (i d : Nat) (m : OutMsg) : List Byte :=
  let body := if m.type = 1 then beBytes 8 (s.tnNow + d) else m.body
  let clear := beBytes 1 m.type ++ beBytes 1 (b2n m.fromMate) ++ beBytes 4 m.origin.toNat ++ beBytes 4 m.dest.toNat
    ++ beBytes 8 m.serial
  let n := 8 * (s.secClock + d) + i
  let p := match (if m.type = 0x40 then none else (s.plink l).keys) with
    | some k => clear ++ Config.gcmCipher k.tx n body ++ beBytes 16 (Config.gcmTag k.tx n clear body).toNat
    | none => clear ++ body ++ beBytes 16 0
  p ++ leBytes 4 (crc32 p).toNat

/-- A message leaves; the departure of a DELAY_REQ is its t1 (R355). -/
def State.depart (s : State) (l : Link) (d : Nat) (m : OutMsg) : State :=
  let s := { s with fab := { s.fab with sendQ := dropMsg m s.fab.sendQ } }
  if m.type = 2 then s.setPlink l { s.plink l with reqSerial := some m.serial, reqT1 := s.clk.tick + d } else s

/-- What a lane may start with: the control lane takes urgent messages and, alone, bulk ones of one fragment; every other
fabric lane takes bulk messages (R347). -/
def laneTakes (lanes : List Nat) (n : Nat) (m : OutMsg) : Bool :=
  match lanes with
  | [] => false
  | c :: rest =>
    if n = c then urgentType m.type || (rest.isEmpty && decide (m.length ≤ 54))
    else decide (n ∈ rest) && !urgentType m.type

/-- A lane takes the next packet that the bridge has for its channel 2 (R104, R106). -/
def State.takeSend2 (s : State) (n : Nat) : State :=
  if !(s.tx n).pkt2.isEmpty then s
  else match s.frm.send2.find? (fun p => decide (p.1 = n)) with
    | none => s
    | some p =>
      let s := { s with frm := { s.frm with send2 := s.frm.send2.erase p } }
      s.setTx n { s.tx n with pkt2 := p.2 ++ leBytes 4 (crc32 p.2).toNat, sent2 := 0 }

/-- The overhead channel of the frame that lane `n` of a link starts `d` ticks from now; `tx` is its transmit framer, `i` its
number within the link, and `lanes` the lanes of the link that carry channel 1. -/
def State.linkFragment (s : State) (l : Link) (lanes : List Nat) (n tx i d cap : Nat) : State × BitVec 512 :=
  let s := if (s.plink l).st = .down then s.setTx tx { s.tx tx with pkt := [], sent := 0 } else s
  let s :=
    if (s.tx tx).pkt.isEmpty then
      match s.nextMsg l (laneTakes lanes n) with
      | some m =>
        let p := s.packet l i d m
        let s := s.depart l d m
        s.setTx tx { s.tx tx with pkt := p, sent := 0 }
      | none => s
    else s
  let s := s.takeSend2 tx
  let (x, hdr, b) := (s.tx tx).fragment
  (s.setTx tx x, ovhBits cap hdr b)

end Sys2Proof.Machine
end

