-- ==== Sys2Proof/Machine/Line.lean ====
section
/-! DEFINITION. The frames sent on the line (R54 to R56, R95 to R97, R108 to R112, R378, R379), down to the levels at the
pins. -/
namespace Sys2Proof.Machine

/-! ### Frames on the line -/

/-- The 25,600 information bits of a frame (R95, R96). -/
def TxFrame.info (f : TxFrame) : List Bool :=
  msbBits f.hdr ++ msbBits f.ovh ++ f.cells.flatMap msbBits ++ msbBits f.bip ++ List.replicate 368 false

/-- The 27,200 line bits of a frame at rungs 2 and 3 (R108 to R110). -/
def TxFrame.pam4 (f : TxFrame) : List Bool :=
  let l := f.info ++ List.replicate 100 false
  codewords 514 5 (l.take 128 ++ prbs31 (prbsSeed (bits f.hdr 79 70)) (l.drop 128))

/-- Blocks of 64 bits behind the sync header 01. -/
def nrzBlocks : Nat → List Bool → List Bool
  | 0, _ => []
  | n + 1, l => [false, true] ++ l.take 64 ++ nrzBlocks n (l.drop 64)

/-- The 26,400 line bits of a frame at rungs 0 and 1, and the scrambler's state after it (R112). -/
def TxFrame.nrz (f : TxFrame) (scr : BitVec 58) : BitVec 58 × List Bool :=
  let z := f.info.foldl selfSync (scr, [])
  (z.1, nrzBlocks 400 z.2.reverse)

/-- The transmit polarity of a lane is inverted at its rung, by the table that its group has applied (R56, R62, R66). -/
def State.txInverted (s : State) (n : Nat) : Bool :=
  match s.appliedRec n (s.txRungOf n) with
  | some r => r.flags.getLsbD 1
  | none => false

/-- Put a frame on the line: the level indices at the pins, 0 and 1 for low and high at NRZ rungs (R54 to R56). -/
def State.putOnLine (s : State) (n : Nat) (x : TxLane) (f : TxFrame) : TxLane :=
  let k := s.txRungOf n
  let inv := s.txInverted n
  if k < 2 then
    let z := f.nrz x.scr
    { x with scr := z.1, lineRung := k, line := z.2.map (fun b => b2n (b != inv)) }
  else
    let prev := if x.lineRung = k then x.prev else 0
    let g := graySyms f.pam4
    let l := if (s.lane n).preTx then precode prev g else g
    { x with lineRung := k, prev := l.getLastD prev, line := if inv then l.map (fun p => 3 - p) else l }

/-- The 13,600 line bits of a Calrin frame (R378, R379). -/
def CalOut.lineBits (o : CalOut) : List Bool :=
  let l := msbBits o.hdr ++ msbBits o.ovh ++ bytesBits o.share
  let crc := ~~~ (l.foldl (crcStep 0x04C11DB7#32) 0xFFFFFFFF#32)
  let l := l ++ msbBits crc ++ List.replicate 40 false
  codewords 650 2 (l.take 128 ++ prbs31 (prbsSeed (0x3FC + o.lane)) (l.drop 128))

/-- Polarity of a Calrin lane's transmitter (bit 1) or receiver (bit 2) is inverted by its board-table record (R62, R377). -/
def State.calInverted (s : State) (lane bitNo : Nat) : Bool :=
  match s.btRec (0x200 + lane) 2 with
  | some r => r.flags.getLsbD bitNo
  | none => false

/-- The levels of a Calrin frame at the pins. -/
def State.calLevels (s : State) (o : CalOut) : List Nat :=
  let l := graySyms o.lineBits
  if s.calInverted o.lane 1 then l.map (fun p => 3 - p) else l

end Sys2Proof.Machine
end

