-- ==== Sys2Proof/Machine/Colander.lean ====
section
/-! DEFINITION. The Colander (07_colander_cave): chunks, lock, selection, the output Wheel of a protected pair. -/
namespace Sys2Proof.Machine

/-- Either copy lies in a foreign-timed group: the output is built as the Retimer builds (R264). -/
def State.pairForeign (s : State) (p : Pair) : Bool :=
  s.whlForeign (s.wheel p.wa) || s.whlForeign (s.wheel p.wb)

/-- G: 8 for the near store and 16 for the Cave (R260). -/
def Pair.g (p : Pair) : Nat := if p.tier = 2 then 16 else 8

/-- P(x) of a locked pair (R259). -/
def Pair.at_ (p : Pair) (x : Nat) : Nat := p.p0 + 64 * x - 64 * p.x0

/-- The origin sequence restored to a full count (R38, R255). -/
def State.fullX (s : State) (o : BitVec 24) : Nat := (extend24 o (s.secClock / 64)).toNat

def chunkOf (l : List Chunk) (x : Nat) : Option Chunk := l.find? (fun c => c.x = x)

/-- PAIR_STATE to the principal that owns the pair (R275). -/
def State.pairEvent (s : State) (n kind value : Nat) : State := s.event [(s.pair n).owner] 0x0040 n (kind + 16 * value)

/-! ### Requests and eligibility (R272 to R274, R276, R674) -/

/-- A copy has signal fail, signal degrade (R273). -/
def Wheel.sf (w : Wheel) : Bool := w.dec 0 || w.dec 1 || (w.dec 3 && w.timAis)
def Wheel.sd (w : Wheel) : Bool := w.dec 5

/-- REQ of a pair (R268, R674). -/
def State.reqOf (s : State) (p : Pair) : Nat :=
  let a := s.wheel p.wa
  let b := s.wheel p.wb
  if p.lockout then 7
  else if p.forced then 6
  else if a.sf || b.sf then 5
  else if a.sd || b.sd then 4
  else if p.manual.isSome then 3
  else if p.wtrEnd.isSome then 2
  else if p.mode = 3 ∧ p.revert = false then 1
  else 0

/-- LOCKOUT and FORCED as they hold for the chunk that leaves at tick `t`: commands named up to it count (R271). -/
def State.eligAt (s : State) (n t : Nat) : Bool × Bool :=
  let p := s.pair n
  let acts := sortBy (fun (a b : PairAct) => decide (a.n ≤ b.n)) (s.col.acts.filter (fun a => decide (a.pair = n) && decide (a.n ≤ t)))
  acts.foldl (fun (r : Bool × Bool) a =>
    if a.cmd = 0 then (true, r.2) else if a.cmd = 1 then (r.1, true) else if a.cmd = 4 then (false, false) else r)
    (p.lockout, p.forced)

/-- State of a copy's chunk (R257): 0 ABSENT, 1 FAILED, 2 ERRORED, 3 GOOD. -/
def chunkState : Option Chunk → Nat
  | none => 0
  | some c => if c.absent then 0 else if c.failed then 1 else if c.errored then 2 else 3

/-- The states of both copies' chunk `x` for the output that starts at tick `t`, eligibility included (R272, R276). -/
def State.chunkStates (s : State) (n x t : Nat) : Nat × Nat :=
  let p := s.pair n
  let a := chunkState (chunkOf p.ca x)
  let b := chunkState (chunkOf p.cb x)
  if p.mode = 3 then (a, b)
  else
    let (lo, fo) := s.eligAt n t
    (if fo ∧ b ≠ 1 then 0 else a, if lo then 0 else b)

/-- Copy B leads for a chunk: it entered first; where both enter in one tick, copy A leads (R258). -/
def Pair.leadB (p : Pair) (x : Nat) : Bool :=
  match chunkOf p.ca x, chunkOf p.cb x with
  | some a, some b => decide (b.t0 < a.t0)
  | none, some _ => true
  | _, _ => false

/-- The copy taken in errorless and fast mode (R265): `some true` is copy B. -/
def selectCopy (mode a b : Nat) (leadB : Bool) : Option Bool :=
  let ld := if leadB then b else a
  let lg := if leadB then a else b
  if mode = 1 then
    if ld = 3 then some leadB else if lg ≥ 2 then some (!leadB) else if ld = 2 then some leadB else none
  else
    if ld ≥ 2 then some leadB else if lg ≥ 2 then some (!leadB) else none

/-! ### Taking chunks (R255 to R258, R262, R280, R281) -/

/-- The regions and units a booking takes on each stack of its stripe (R282). -/
def stackCount (m : BitVec 6) : Nat := popCount m
def caveQ (k d : Nat) : Nat := ceilDiv (k * 12 * (d + 128)) 32768

/-- The stacks of a stripe in ascending number. -/
def stacksOf (m : BitVec 6) : List Nat := (List.range 6).filter (fun i => m.getLsbD i)

/-- The bursts of group `j` of a chunk that lie on the stripe index `i` of `n` (R675). -/
def groupBursts (k n x j i : Nat) : Nat :=
  let nb := ceilDiv (12 * k) 64
  ((List.range nb).filter (fun b => (x + (j * nb + b)) % n = i)).length

/-- The stripe that holds a chunk (R289). -/
def Pair.stripeOf (p : Pair) (x : Nat) : BitVec 6 :=
  match p.old.find? (fun z => decide (x < z.2)) with
  | some z => z.1
  | none => p.stk

/-- A request at pseudo-channel `pc`. -/
def State.raiseReq (s : State) (pc : Nat) (r : CavReq) : State :=
  { s with col := { s.col with reqs := Tab.put [] s.col.reqs pc (s.col.reqs.look [] pc ++ [r]) } }

/-- The pseudo-channel of a group of a chunk on a stack. -/
def reqChannel (stack n x j : Nat) (read : Bool) : Nat := 32 * stack + (Config.channelOf (2 * n + b2n read) (8 * x + j)).val

/-- The Wheel tick, within its group, of the last word in burst `i` of a group of Wheels of `k` members: 12 k bits a tick (R675). -/
def burstTick (k i : Nat) : Nat := (min (512 * (i + 1)) (96 * k) - 1) / (12 * k)

/-- Raise the writes of a chunk, burst by burst: each is due 4 ticks after its last word (R285, R675). -/
def State.raiseWrites (s : State) (n x t0 : Nat) : State :=
  let p := s.pair n
  let st := stacksOf (p.stripeOf x)
  let nb := ceilDiv (12 * p.k) 64
  (List.range 8).foldl (fun (s : State) j =>
    (List.range nb).foldl (fun (s : State) i =>
      let stack := st.getD ((x + (j * nb + i)) % st.length) 0
      s.raiseReq (reqChannel stack n x j false)
        { who := 0, deadline := t0 + 8 * j + burstTick p.k i + 4, bursts := 1, pair := n, x := x, grp := j }) s) s

/-- A read of a group of a chunk is abandoned and counts CAV_MISS (R287). -/
def State.missRead (s : State) (n x j : Nat) : State :=
  let p := s.pair n
  (s.setPair n { p with missed := if (x, j) ∈ p.missed then p.missed else p.missed ++ [(x, j)] }).count 2 n 4 1

/-- Raise the reads of a chunk that starts to leave in tick `t`, group by group; a failed stack's are abandoned (R285, R292,
R675). -/
def State.raiseReads (s : State) (n x t : Nat) : State :=
  let p := s.pair n
  let st := stacksOf (p.stripeOf x)
  (List.range 8).foldl (fun (s : State) j =>
    st.zipIdx.foldl (fun (s : State) (z : Nat × Nat) =>
      let c := groupBursts p.k st.length x j z.2
      if c = 0 then s
      else if (s.stack z.1).failed then s.missRead n x j
      else s.raiseReq (reqChannel z.1 n x j true)
        { who := 1, deadline := t + 8 * j - 4, bursts := c, pair := n, x := x, grp := j }) s) s

/-- The tag's x (R294). -/
def tagX (x : Nat) : BitVec 24 := BitVec.ofNat 24 x

/-- Write a chunk into its Cave position with its tag; positions are used again after D + 128 ticks (R280, R282, R294). -/
def State.caveWrite (s : State) (n x t0 : Nat) (copyB again : Bool) : State :=
  let p := s.pair n
  let keep := p.cave.filter (fun c => decide (c.x ≠ tagX x) && decide (64 * diff24 (tagX x) c.x < p.diff + 192))
  let s := s.setPair n { p with cave := keep ++ [⟨tagX x, p.gen, copyB⟩], holes := p.holes.filter (fun h => h.1 ≠ x) }
  let s := s.raiseWrites n x t0
  if again ∨ p.locked = false ∨ s.pairForeign p then s else s.raiseReads n x (p.at_ x)

/-- Set LATE for a copy; PAIR_STATE is raised when the bit is newly set (R262, R275). -/
def State.setLate (s : State) (n : Nat) (copyB : Bool) : State :=
  let p := s.pair n
  let q := if copyB then { p with lateB := true } else { p with lateA := true }
  let s := s.setPair n q
  if q = p then s else s.pairEvent n 3 (b2n q.lateA + 2 * b2n q.lateB)

/-- Mark a chunk of a copy. -/
def Pair.mapCopy (p : Pair) (copyB : Bool) (f : List Chunk → List Chunk) : Pair :=
  if copyB then { p with cb := f p.cb } else { p with ca := f p.ca }

/-- What the Cave does with a chunk that has just entered: the lead's is written unless ABSENT or FAILED, the lag's over it where
the lead's is not fit. Of two that enter in one tick copy A's is the lead's, in whichever order they come (R258, R280, R281). -/
def State.caveTake (s : State) (n : Nat) (c : Chunk) (copyB : Bool) : State :=
  let p := s.pair n
  let t := if s.pairForeign p then s.secClock else p.at_ c.x
  let (a, b) := s.chunkStates n c.x t
  let own := if copyB then b else a
  let oth := if copyB then a else b
  match chunkOf (if copyB then p.ca else p.cb) c.x with
  | none => if own ≥ 2 then s.caveWrite n c.x c.t0 copyB false else s
  | some l =>
    let short := decide (p.mode = 1) && decide (c.t0 < l.t0 + 70)
    let s := if short then s.setPair n { p with shortDiff := satInc 65535 p.shortDiff } else s
    let lead := !copyB && decide (c.t0 = l.t0)
    let take := if lead then true else if p.mode = 1 ∧ short = false then decide (oth ≠ 3) else decide (oth ≤ 1)
    if own ≥ 2 ∧ take then s.caveWrite n c.x c.t0 copyB (oth ≥ 2) else s

/-- How long a chunk is kept: through the longest lag of its pair (R260, R263, R282). -/
def Pair.span (p : Pair) : Nat := p.diff + 160

/-- A chunk of a copy has entered: the differential is that of chunk `x` where its twin has entered (R258). -/
def Pair.noteEntry (p : Pair) (x t0 : Nat) (copyB : Bool) : Pair :=
  let keep := fun (l : List (Nat × Nat)) => l.filter (fun z => decide (t0 ≤ z.2 + p.span))
  let far := if copyB then p.seenA else p.seenB
  match far.find? (fun z => decide (z.1 = x)) with
  | some z => { p with
      delta := if copyB then (t0 : Int) - z.2 else (z.2 : Int) - t0
      seenA := if copyB then p.seenA.filter (fun y => decide (x < y.1)) else p.seenA
      seenB := if copyB then p.seenB else p.seenB.filter (fun y => decide (x < y.1)) }
  | none => { p with
      seenA := if copyB then keep p.seenA else keep p.seenA ++ [(x, t0)]
      seenB := if copyB then keep p.seenB ++ [(x, t0)] else keep p.seenB }

/-- The two copies announce different counts for chunk `x`: the lag's chunk is ABSENT and CNT_DIFF counts (R256). -/
def Pair.clash (p : Pair) (x : Nat) : Pair :=
  match chunkOf p.ca x, chunkOf p.cb x with
  | some a, some b =>
    if a.said ∧ b.said ∧ a.c ≠ b.c then
      let f := fun (l : List Chunk) => l.map (fun c => if c.x = x then { c with absent := true } else c)
      { p with
        ca := if p.leadB x then f p.ca else p.ca
        cb := if p.leadB x then p.cb else f p.cb
        cntDiff := satInc 65535 p.cntDiff }
    else p
  | _, _ => p

/-- Take a copy's multiframe as a chunk; the mark of the one before it is now final (R255 to R258, R262). -/
def State.feedPair (s : State) (w : Nat) (o : MfOut) (t0 : Nat) : State :=
  match s.pairOf w with
  | none => s
  | some n =>
    if !o.taken then s
    else
      let p := s.pair n
      let copyB := decide (p.wb = w)
      let x := s.fullX o.w.oref
      let wasErr := match o.prev with | some (t, e) => some (t, e || !o.good) | none => none
      let fin := fun (l : List Chunk) => match wasErr with
        | some (t, e) => l.map (fun c => if c.t0 = t then { c with errored := c.errored || e } else c)
        | none => l
      let keep := fun (l : List Chunk) => l.filter (fun c => (p.locked && decide (p.nextX ≤ c.x))
        || decide (t0 ≤ c.t0 + p.span))
      let p := { p.mapCopy copyB fin with
        psigA := if copyB then p.psigA else o.w.psig
        psigB := if copyB then o.w.psig else p.psigB }
      let p := { p with ca := keep p.ca, cb := keep p.cb }
      let absent := o.first || !o.good
      let failed := ohAis o.oh || o.w.dec 0 || o.w.dec 1 || (o.w.dec 3 && o.w.timAis)
      let late := p.locked && decide (p.mode ≠ 3) && !s.pairForeign p && decide (p.x0 ≤ x) && decide (p.at_ x < t0 + p.g)
      let c : Chunk := { x := x, t0 := t0, c := o.c, data := o.data, said := o.said, absent := absent || late, failed := failed,
                         errored := o.w.mark, good := o.good, rdi := o.w.rdiw, pt := o.w.pt,
                         nextC := if o.good then some (ohCnt o.oh) else none }
      let p := (p.noteEntry x t0 copyB).mapCopy copyB (fun l => l.filter (fun d => d.x ≠ x) ++ [c])
      let s := s.setPair n (p.clash x)
      let s := if late then s.setLate n copyB else s
      match chunkOf (if copyB then (s.pair n).cb else (s.pair n).ca) x with
      | some c => if p.tier = 2 ∧ p.mode ≠ 3 then s.caveTake n c copyB else s
      | none => s

/-! ### Lock (R260, R263) -/

/-- The first multiframe of a Wheel that enters after tick `t`: its full sequence and its tick. -/
def State.nextMf (s : State) (w : Wheel) (t : Nat) : Nat × Nat :=
  let j := (t - w.t0) / 64 + 1
  (s.fullX w.oref + j, w.t0 + 64 * j)

/-- The least tick at or above `lo` that is `r` modulo 64. -/
def alignUp (lo r : Nat) : Nat := lo + (r + 64 - lo % 64) % 64

/-- The output multiframe in progress is cut off in tick `now` (R267). -/
def Pair.cutOut (p : Pair) (now : Nat) : Pair :=
  { p with prevT0 := p.outT0, prev := p.out, outT0 := now, out := [] }

/-- Lock a pair with the copies present now; nothing changes when neither is in IN_MF. A pair that locks again puts out the chunks
that it holds from the new P(x) on (R260, R263). -/
def State.lockNow (s : State) (n : Nat) : State :=
  let p := s.pair n
  let a := s.wheel p.wa
  let b := s.wheel p.wb
  let ha := decide (a.align = .inMf)
  let hb := decide (b.align = .inMf)
  let now := s.secClock
  if !ha && !hb then s
  else
    let delta : Int := (b.t0 : Int) - a.t0 + 64 * sdiff24 a.oref b.oref
    let both := ha && hb
    let refB := if both then decide (delta < 0) else hb
    let d := if both ∧ p.lag = false then min delta.natAbs p.diff else p.diff
    let (x0, tx) := s.nextMf (if refB then b else a) now
    let minL := if p.mode = 3 then 2 else if p.mode = 1 then max (d + p.g) 72 else d + p.g
    let p0 := if p.mode = 3 ∨ s.pairForeign p then tx + minL else alignUp (tx + minL) (n % 64)
    let l := p0 - tx
    let first := if s.pairForeign p ∨ p.mode = 3 then (if p.locked then p.nextX else x0) else x0 - (p0 - now - 1) / 64
    let p := if p.locked then p else p.cutOut now
    let q := { p with
      locked := true
      fromX := if p.locked then p.fromX else x0
      plag := l
      minLag := minL
      p0 := p0
      x0 := x0
      nextX := first
      refB := refB
      delta := if both then delta else p.delta }
    ((s.setPair n q).recEvt 4 n p0 (x0 % 2 ^ 24)).recEvt 5 n 0 l

/-- PAIR_LOCK: the first tick in which both copies are in IN_MF, or ALIGN_WAIT has passed with one (R260). -/
def execPairLock (p : Fin 32768) (s : State) : Out :=
  let x := s.pair p
  let ha := decide ((s.wheel x.wa).align = .inMf)
  let hb := decide ((s.wheel x.wb).align = .inMf)
  let waited := decide (x.alignWait ≤ s.secClock / 8000 - x.defTick / 8000)
  whenUp s (
    if x.defined ∧ x.locked = false ∧ ((ha ∧ hb) ∨ (waited ∧ (ha ∨ hb))) then (s.lockNow p).pairEvent p 0 0
    else s)

/-! ### The output Wheel (R259, R265 to R268) -/

/-- PSIG of the output (R268). -/
def State.psigOut (s : State) (p : Pair) (src : Bool) : Nat :=
  s.reqOf p * 512 + b2n src * 256 + 128 + p.mode * 32

/-- Payload bits of a multiframe: data bits at the positions of R153, 0 elsewhere. -/
def fillArea (a c : Nat) : Nat → Nat → List Bool → List Bool
  | 0, _, _ => []
  | n + 1, acc, l =>
    if acc + c ≥ a then l.headD true :: fillArea a c n (acc + c - a) l.tail
    else false :: fillArea a c n (acc + c) l

/-- The words of a multiframe of `k` members from its overhead and payload bits. -/
def mfWords (k : Nat) (oh : BitVec 96) : Nat → Nat → List Bool → List SlotWord
  | 0, _, _ => []
  | n + 1, i, l =>
    if i < 8 * k ∧ i % k = 0 then ohWord oh (i / k) :: mfWords k oh n (i + 1) l
    else BitVec.ofNat 12 (ofMsb (l.take 12)) :: mfWords k oh n (i + 1) (l.drop 12)

/-- The trace byte of the output: copy A's accepted trace, or B's (R267). -/
def State.outTrace (s : State) (p : Pair) (x : Nat) : Byte :=
  match (s.wheel p.wa).accTrace, (s.wheel p.wb).accTrace with
  | some t, _ => t.getD (x % 16) 0
  | none, some t => t.getD (x % 16) 0
  | none, none => Config.noTrace (x % 16)

/-- CNT of the output multiframe of chunk `x` (R267). -/
def Pair.outCnt (p : Pair) (x : Nat) : Nat :=
  let ld := if p.leadB x then chunkOf p.cb x else chunkOf p.ca x
  let lg := if p.leadB x then chunkOf p.ca x else chunkOf p.cb x
  match ld.bind (fun c => c.nextC), lg.bind (fun c => c.nextC) with
  | some c, _ => c
  | none, some c => c
  | none, none => ((ld.bind (fun c => c.c)).orElse (fun _ => lg.bind (fun c => c.c))).getD 0

/-- Count and note which copy an output chunk is taken from (R266, R570). -/
def State.noteTaken (s : State) (n : Nat) (t : Option Bool) : State :=
  let p := s.pair n
  match t with
  | none => s.count 2 n 3 1
  | some b =>
    let sw := match p.takenB with | some o => decide (o ≠ b) | none => false
    ((s.setPair n { p with takenB := some b }).count 2 n 0 (b2n sw)).count 2 n (if b then 2 else 1) 1

/-- Start an output multiframe at tick `t0`: chunk `c` of a copy, or AIS-W when none is taken. RDI-W is the one received (R267;
DESIGN CHOICE beside R179, log 86). -/
def State.sendMf (s : State) (n x t0 cnt : Nat) (taken : Option (Bool × Chunk)) : State :=
  let p := s.pair n
  let src := match taken with | some (b, _) => b | none => p.takenB.getD false
  let w := s.wheel (if src then p.wb else p.wa)
  let a := areaOf p.k
  let pt := match taken with | some (_, c) => c.pt | none => w.pt
  let oh := mkOh taken.isNone w.rdiw (BitVec.ofNat 24 x) cnt p.outBip (s.outTrace p x) pt (s.psigOut p src)
  let pay := match taken with
    | some (_, c) => fillArea a (c.c.getD 0) a 0 (c.data.map (fun z => z.2))
    | none => List.replicate a true
  let words := mfWords p.k oh (64 * p.k) 0 pay
  s.setPair n { p with outT0 := t0, out := words, outBip := bip8 pay, prevT0 := p.outT0, prev := p.out }

/-- The preferred copy in a tick (R259). -/
def Pair.prefAt (p : Pair) (tick : Nat) : Bool :=
  match p.prefNew with
  | some (t, b) => if t ≤ tick then b else p.pref
  | none => p.pref

/-- The lag's chunk `x` stands in where a Cave read was abandoned, if it is neither ABSENT nor FAILED (R287). -/
def State.lagFor (s : State) (n x t : Nat) : Option (Bool × Chunk) :=
  let p := s.pair n
  let (a, b) := s.chunkStates n x t
  let lagB := !p.leadB x
  if (if lagB then b else a) ≥ 2 then (chunkOf (if lagB then p.cb else p.ca) x).map (fun c => (lagB, c)) else none

/-- The chunk that leaves at P(x), in tick `t`, from the store of the pair's tier: of a Cave position, the chunk written there, if
its tag fits and its copy is eligible (R265, R271, R276, R279, R280, R287, R294). -/
def State.takenAt (s : State) (n x t : Nat) : Option (Bool × Chunk) :=
  let p := s.pair n
  let (a, b) := s.chunkStates n x t
  let get := fun (z : Bool) => (chunkOf (if z then p.cb else p.ca) x).map (fun c => (z, c))
  if x < p.fromX then none
  else if p.mode = 3 then
    let z := p.prefAt s.clk.tick
    if (if z then b else a) = 0 then none else get z
  else if p.tier = 2 then
    if (x, 0) ∈ p.missed then s.lagFor n x t
    else if (x, 0) ∈ p.holes then none
    else match p.cave.find? (fun c => decide (c.x = tagX x) && decide (c.gen = p.gen)) with
      | some c =>
        let (lo, fo) := s.eligAt n t
        if (c.copyB ∧ lo) ∨ (c.copyB = false ∧ fo ∧ b ≠ 1) then none else get c.copyB
      | none => none
  else (selectCopy p.mode a b (p.leadB x)).bind get

/-- The words of a chunk's multiframe with payload `pay`, from Wheel tick `t` on, in place of those of the output multiframe that
carries the chunk (R287). -/
def Pair.splice (p : Pair) (t : Nat) (pay : List Bool) : Pair :=
  let words := mfWords p.k (mfOh p.k p.out) (64 * p.k) 0 pay
  let out := p.out.take (t * p.k) ++ words.drop (t * p.k)
  { p with out := out, outBip := bip8 ((mfPayload p.k out).map (fun z => z.2)) }

/-- The output multiframe of chunk `x` from the first of its groups whose read or write was abandoned: the lag's words, or none
(R287). -/
def State.spliceMiss (s : State) (n x t : Nat) : State :=
  let p := s.pair n
  let area := areaOf p.k
  let first := fun (l : List (Nat × Nat)) => (List.range 8).find? (fun j => decide ((x, j) ∈ l))
  let s := match first p.holes with
    | some j => if j = 0 then s else s.setPair n (p.splice (8 * j) (List.replicate area true))
    | none => s
  let p := s.pair n
  match first p.missed with
  | some j =>
    if j = 0 then s
    else s.setPair n (p.splice (8 * j) (match s.lagFor n x t with
      | some (_, c) => fillArea area (c.c.getD 0) area 0 (c.data.map (fun z => z.2))
      | none => List.replicate area true))
  | none => s

/-- Output chunk `x` is put out. What the stores hold of it stays for as long as an output chunk may be repeated (R263). -/
def Pair.spent (p : Pair) (x : Nat) : Pair :=
  { p with
    nextX := x + 1
    missed := p.missed.filter (fun y => x ≤ y.1)
    holes := p.holes.filter (fun y => x ≤ y.1) }

/-- One output multiframe in selector mode, two ticks behind the preferred copy (R260, R265). -/
def State.selectorOut (s : State) (n : Nat) : State :=
  let p := s.pair n
  let now := s.secClock
  let b := p.prefAt s.clk.tick
  match (if b then p.cb else p.ca).find? (fun c => c.t0 + 2 = now) with
  | some c =>
    let take := if c.absent then none else some (b, c)
    let s := s.noteTaken n (if c.absent then none else some b)
    let s := s.sendMf n c.x now (p.outCnt c.x) take
    s.setPair n ((s.pair n).spent c.x)
  | none =>
    if p.outT0 + 64 ≤ now then
      let s := s.noteTaken n none
      let s := s.sendMf n p.nextX now (p.outCnt p.nextX) none
      s.setPair n ((s.pair n).spent p.nextX)
    else s

/-- The output multiframe of a pair that starts in this tick: before lock, or of the next chunk; once in a tick. An output
built under R264 is built word by word in SLOT_PROCESSING. Where the Colander's work of the tick is discarded the chunk goes
unsent (R23, log 74). -/
def State.playout (s : State) (p : Nat) : State :=
  let x := s.pair p
  let now := s.secClock
  if x.defined = false ∨ s.pairForeign x ∨ (x.outT0 = now ∧ x.out ≠ []) then s
  else if x.locked = false then
    if now % 64 = p % 64 ∧ s.drops 2 = false then s.sendMf p (now / 64) now 0 none else s
  else if x.mode = 3 then (if s.drops 2 then s else s.selectorOut p)
  else if x.at_ x.nextX = now then
    let y := x.nextX
    if s.drops 2 then s.setPair p (x.spent y)
    else
      let c := s.takenAt p y now
      let s := s.noteTaken p (c.map (fun z => z.1))
      let s := (s.sendMf p y now (x.outCnt y) c).spliceMiss p y now
      s.setPair p ((s.pair p).spent y)
  else s

/-- The output multiframes of every pair that start in this tick (R16, R22). -/
def State.playouts (s : State) : State := (s.col.pair.map (fun (p : Nat × Pair) => p.1)).foldl State.playout s

/-- COLANDER_PLAYOUT: the output multiframe of a pair that starts in this tick. -/
def execColanderPlayout (p : Fin 32768) (s : State) : Out := whenUp s (s.playout p)

/-! ### Preferred copy, REQ, WTR (R273 to R275) -/

/-- The preferred copy of R273. -/
def State.prefOf (s : State) (p : Pair) : Bool :=
  let a := s.wheel p.wa
  let b := s.wheel p.wb
  if p.lockout then false
  else if b.sf then false
  else if p.forced then true
  else if a.sf then true
  else if a.sd ∧ b.sd = false then true
  else if b.sd ∧ a.sd = false then false
  else match p.manual with
    | some m => m
    | none => if p.wtrEnd.isSome then true else if p.revert then false else p.pref

/-- A change of the preferred copy that has come into force is the preferred copy (R259). -/
def Pair.settle (p : Pair) (now : Nat) : Pair :=
  { p with pref := p.prefAt now, prefNew := if p.prefAt now = p.pref then p.prefNew else none }

/-- WTR of a pair in selector mode: SF or SD on copy A stops it, and it starts when they clear while copy B is preferred because
of them (R274). -/
def State.wtrStep (s : State) (p : Pair) : Pair :=
  let a := s.wheel p.wa
  let b := s.wheel p.wb
  if p.mode ≠ 3 then p
  else if a.sf || a.sd then
    { p with wtrEnd := none, autoB := !b.sf && (a.sf || !b.sd) && !p.lockout && !p.forced }
  else if p.autoB ∧ (b.sf ∨ b.sd ∨ p.lockout) ∧ p.wtrEnd.isNone then { p with autoB := false }
  else if p.autoB ∧ p.revert ∧ p.wtrEnd.isNone then
    if p.wtr = 0 then { p with autoB := false } else { p with wtrEnd := some (s.clk.tick + 8000000 * p.wtr) }
  else p

/-- The preferred copy that the requests give (R273), unchanged outside selector mode. -/
def State.prefWish (s : State) (p : Pair) : Bool := if p.mode = 3 then s.prefOf p else p.pref

/-- REQ and the preferred copy from tick `eff`. -/
def State.prefStep (s : State) (p : Pair) (eff : Nat) : Pair :=
  let pr := s.prefWish p
  { p with
    reqCode := s.reqOf p
    pref := if eff ≤ s.clk.tick then pr else p.pref
    prefNew := if pr = p.pref ∨ eff ≤ s.clk.tick then none else some (eff, pr) }

/-- Evaluate a standby's pair: WTR and REQ are its own; the preferred copy is the active device's, and a change that this device
alone would make is kept until the active device's record of the tick shows whether it made it (R270). -/
def State.evalMate (s : State) (n : Nat) : State :=
  let p := s.wtrStep ((s.pair n).settle s.clk.tick)
  let pr := s.prefWish { p with pref := p.ownPref }
  let old := p.reqCode
  let q := { p with reqCode := s.reqOf p, ownPref := pr,
                    ownChg := if pr = p.ownPref then p.ownChg else p.ownChg ++ [(s.tnNow, pr)] }
  let s := s.setPair n q
  if q.reqCode = old then s else s.pairEvent n 2 q.reqCode

/-- Evaluate a pair: WTR, the preferred copy from tick `eff`, REQ (R259, R273 to R275). -/
def State.evalPair (s : State) (n eff : Nat) : State :=
  if s.copies then s.evalMate n else
  let p := s.wtrStep ((s.pair n).settle s.clk.tick)
  let q := s.prefStep p eff
  let pr := s.prefWish p
  let old := (s.pair n).reqCode
  let s := s.setPair n q
  let s := if pr = p.pref then s
    else (s.recEvt 6 n (s.tnNow + (eff - s.clk.tick)) (b2n pr)).pairEvent n 1 (b2n pr)
  if q.reqCode = old then s else s.pairEvent n 2 q.reqCode

/-- SELECTOR_EVALUATE: once per multiframe, in the tick with TN mod 64 = p mod 64 (R259). -/
def execSelectorEvaluate (p : Fin 32768) (s : State) : Out :=
  whenUp s (
    if (s.pair p).defined ∧ s.secClock % 64 = p.val % 64 ∧ s.drops 2 = false then s.evalPair p (s.clk.tick + 1) else s)

/-- PAIR_WTR_EXPIRY: copy A becomes preferred when WTR has run (R274). -/
def execPairWtrExpiry (p : Fin 32768) (s : State) : Out :=
  let x := s.pair p
  whenUp s (
    match x.wtrEnd with
    | some t =>
      if t ≤ s.clk.tick then (s.setPair p { x with wtrEnd := none, autoB := false }).evalPair p (s.clk.tick + 1) else s
    | none => s)

/-- Apply an operator command to a pair (R271, R272). -/
def Pair.command (p : Pair) : Nat → Pair
  | 0 => { p with lockout := true }
  | 1 => { p with forced := true }
  | 2 => { p with manual := some false }
  | 3 => { p with manual := some true }
  | 4 => { p with lockout := false, forced := false, manual := none, wtrEnd := none, autoB := false }
  | _ => p

/-- REALIGN: the pair locks again; LATE bits clear (R263, R644). -/
def State.realignPair (s : State) (n : Nat) : State :=
  let p := s.pair n
  let s := s.setPair n { p with realign := satInc 65535 p.realign, lateA := false, lateB := false }
  ((s.lockNow n).recEvt 7 n s.tnNow 0).pairEvent n 4 0

/-- The protection command of a pair that names this tick. -/
def State.pairDue (s : State) (p : Nat) : Option PairAct :=
  s.col.acts.find? (fun a => decide (a.pair = p) && s.dueAt a.n)

/-- The protection command of a pair takes effect in its tick (R271, R515). -/
def State.pairNow (s : State) (p : Nat) : State :=
  match s.pairDue p with
  | none => s
  | some a =>
    let s := { s with col := { s.col with acts := s.col.acts.filter (fun b => b.h ≠ a.h) } }
    if a.cmd = 5 then
      let s := s.realignPair p
      s.completeNext a.h 0 a.n (s.pair p).plag
    else
      let s := (s.setPair p ((s.pair p).command a.cmd)).evalPair p s.clk.tick
      s.complete a.h 0 a.n 0

/-- The protection commands of this tick, the third of cycle 0 (R46). -/
def State.pairsNow (s : State) : State := (s.col.acts.map (fun a => a.pair)).foldl State.pairNow s

/-- PAIR_CMD_APPLY: at its named tick a command takes effect, after the Flips of that tick (R46, R271, R515). -/
def execPairCmdApply (p : Fin 32768) (s : State) : Out :=
  whenUp s (if (s.pairDue p).isSome then s.flipsNow.firesNow.pairNow p else s)

end Sys2Proof.Machine
end

