-- ==== Sys2Proof/Machine/Memory.lean ====
section
/-! DEFINITION. The memories behind the Rack (R542, R547): what their words hold, and the regions that Whisk holds. -/
namespace Sys2Proof.Machine

/-- What a 16-byte word of a memory holds where nothing was written: target 1 Pantry, 2 retention RAM, 3 firmware SRAM,
5 Cave. In the code region the image that was loaded (R624, R629; log 80); elsewhere zeros after they were written (R469, R629),
and a free value otherwise (log 10). -/
def Mem.dflt (m : Mem) (k a : Nat) : BitVec 128 :=
  let zero := if k = 5 then m.zeroed && !(m.caveWr.getLsbD (a / 3000000000)) else if k = 2 then m.zeroed
    else if k = 3 then m.volZero || m.sramClr else m.volZero
  if k = 3 ∧ Config.isCode a then Config.codeWord m.code a
  else if zero then 0 else Config.rawMemory (8 * (if k = 5 ∨ k = 2 then m.raw else m.rawVol) + k) a

/-- The same, of the device's memories as they stand. -/
def State.memDflt (s : State) (k a : Nat) : BitVec 128 := s.mem.dflt k a

/-- The table of a memory. -/
def Mem.tabOf (m : Mem) (k : Nat) : Tab (BitVec 128) :=
  if k = 1 then m.pantry else if k = 2 then m.ret else if k = 3 then m.sram else m.cave
def Mem.setTabOf (m : Mem) (k : Nat) (t : Tab (BitVec 128)) : Mem :=
  if k = 1 then { m with pantry := t } else if k = 2 then { m with ret := t } else if k = 3 then { m with sram := t }
  else { m with cave := t }

/-- The memories are in canonical form: in every table the addresses rise, and no entry holds what an unlisted word reads
as. -/
abbrev Mem.wf (m : Mem) : Prop :=
  Tab.wfOn (m.dflt 1) m.pantry ∧ Tab.wfOn (m.dflt 2) m.ret ∧ Tab.wfOn (m.dflt 3) m.sram ∧ Tab.wfOn (m.dflt 5) m.cave
  ∧ Tab.wf 0 m.owner

/-- Whisk holds the region of a word of the Pantry or of retention RAM (R548). -/
def State.heldAt (s : State) (k a : Nat) : Bool :=
  if k = 1 ∨ k = 2 then decide ((s.whisk (k - 1)).held = some (a / 16)) else false

/-- A word as a master reads it: from the save copy while Whisk holds its region (R548). -/
def State.memRead (s : State) (k a : Nat) : BitVec 128 :=
  if s.heldAt k a then (s.whisk (k - 1)).save.look (s.memDflt k a) a else (s.mem.tabOf k).look (s.memDflt k a) a

/-- Write a word of a memory: into the save copy while Whisk holds its region (R548). -/
def State.memWrite (s : State) (k a : Nat) (v : BitVec 128) : State :=
  if s.heldAt k a then
    let w := s.whisk (k - 1)
    s.setWhisk (k - 1) { w with save := Tab.put (s.memDflt k a) w.save a v }
  else { s with mem := s.mem.setTabOf k (Tab.put (s.memDflt k a) (s.mem.tabOf k) a v) }

/-- Bytes `d` laid over a word from byte `o`. -/
def overlay (w : BitVec 128) (o : Nat) (d : List Byte) : BitVec 128 :=
  let l := leBytes 16 w.toNat
  BitVec.ofNat 128 (leNat (l.take o ++ d ++ l.drop (o + d.length)))

/-- The words of a region of 256 bytes. -/
def regionWords (r : Nat) : List Nat := (List.range 16).map (fun i => 16 * r + i)

/-- Whisk's save copy of a region of the Pantry or of retention RAM. -/
def State.saveRegion (s : State) (m r : Nat) : Tab (BitVec 128) :=
  if m < 2 then (s.mem.tabOf (m + 1)).filter (fun p => decide (p.1 / 16 = r)) else []

/-- Write the save copy of a held region back to its memory (R548). -/
def State.restoreRegion (s : State) (m : Nat) : State :=
  let w := s.whisk m
  let t := s.setWhisk m { w with held := none, save := [] }
  match w.held with
  | none => t
  | some r =>
    if m < 2 then
      let tab := (regionWords r).foldl (fun (t : Tab (BitVec 128)) a =>
        Tab.put (s.memDflt (m + 1) a) t a (w.save.look (s.memDflt (m + 1) a) a)) (s.mem.tabOf (m + 1))
      { t with mem := s.mem.setTabOf (m + 1) tab }
    else t

/-- The Colander has written to a stack: what nothing else wrote there is no longer known. -/
def State.caveTouched (s : State) (t : Nat) : State :=
  if s.mem.caveWr.getLsbD t then s
  else
    let m := { s.mem with caveWr := s.mem.caveWr ||| BitVec.ofNat 6 (2 ^ t) }
    let u := { s with mem := m }
    { u with mem := { m with cave := m.cave.filter (fun p => decide (p.2 ≠ u.memDflt 5 p.1)) } }

end Sys2Proof.Machine
end

