-- ==== Sys2Proof/Machine/Cave.lean ====
section
/-! DEFINITION. The Cave (R277 to R295): bookings, the deadline arbiters, stacks out of service and failed stacks. -/
namespace Sys2Proof.Machine

/-! ### Bookings (R277, R282, R289) -/

/-- The pairs that a principal has defined. -/
def State.pairsOf (s : State) (p : Nat) : List (Nat × Pair) :=
  s.col.pair.filter (fun x => x.2.defined && decide (x.2.owner = p))

/-- Near-store slot-ticks of a tier and mode (R277). -/
def nearBook (tier mode k d : Nat) : Nat :=
  if mode = 3 then 0 else if tier = 2 then 8 * k else if mode = 1 then 144 * k else (d + 16) * k
def Pair.near (p : Pair) : Nat := nearBook p.tier p.mode p.k p.diff
def State.nearOf (s : State) (p : Nat) : Nat := ((s.pairsOf p).map (fun x => x.2.near)).sum
/-- CAV_NEAR_BOOK. -/
def State.nearAll (s : State) : Nat := ((s.col.pair.filter (fun x => x.2.defined)).map (fun x => x.2.near)).sum

/-- Regions and bandwidth units that a stripe books on stack `t` (R282). -/
def stripeRegions (k d : Nat) (m : BitVec 6) (t : Nat) : Nat :=
  if m.getLsbD t then ceilDiv (caveQ k d) (stackCount m) else 0
def stripeUnits (k : Nat) (m : BitVec 6) (t : Nat) : Nat :=
  if m.getLsbD t then ceilDiv (60 * k) (stackCount m) else 0

/-- What a pair books on a stack, the stripes of its moves included (R289). -/
def Pair.regions (p : Pair) (t : Nat) : Nat :=
  if p.tier ≠ 2 then 0
  else stripeRegions p.k p.diff p.stk t + (p.old.map (fun z => stripeRegions p.k p.diff z.1 t)).sum
def Pair.units (p : Pair) (t : Nat) : Nat :=
  if p.tier ≠ 2 then 0
  else stripeUnits p.k p.stk t + (p.old.map (fun z => stripeUnits p.k z.1 t)).sum

def State.regionsOf (s : State) (p t : Nat) : Nat := ((s.pairsOf p).map (fun x => x.2.regions t)).sum
def State.unitsOf (s : State) (p t : Nat) : Nat := ((s.pairsOf p).map (fun x => x.2.units t)).sum
/-- Regions and units booked on a stack (CAV_STACK_STATUS.REGIONS, CAV_STACK_BW). -/
def State.stackRegions (s : State) (t : Nat) : Nat :=
  ((s.col.pair.filter (fun x => x.2.defined)).map (fun x => x.2.regions t)).sum
def State.stackUnits (s : State) (t : Nat) : Nat :=
  ((s.col.pair.filter (fun x => x.2.defined)).map (fun x => x.2.units t)).sum

/-- A stack is out of service: its freeze bit is set and it holds no booking (R290). -/
def State.oos (s : State) (t : Nat) : Bool := s.frozen t && decide (s.stackRegions t = 0)

/-- A stack admits bookings: in service, and no return pass is owed (R283, R291). -/
def State.admits (s : State) (t : Nat) : Bool := !s.oos t && !(s.stack t).testing && !(s.stack t).unproven

/-- A principal's Cave booking fits with `r` regions and `u` units more on each stack of a stripe (R253, R283). -/
def State.caveFits (s : State) (p k d : Nat) (m : BitVec 6) : Bool :=
  (stacksOf m).all (fun t =>
    s.admits t
    && decide (s.regionsOf p t + stripeRegions k d m t ≤ s.quota p 10416666 (fun x => x.caveReg.getD t 0))
    && decide (s.unitsOf p t + stripeUnits k m t ≤ s.quota p 2625000 (fun x => x.caveBw.getD t 0)))

/-- A principal's near-store booking fits (R253, R277). -/
def State.nearFits (s : State) (p n : Nat) : Bool :=
  decide (s.nearOf p + n ≤ s.quota p 16777216 (fun x => x.near))

/-! ### The deadline arbiters (R284 to R288) -/

def State.reqsAt (s : State) (pc : Nat) : List CavReq := s.col.reqs.look [] pc
def State.setReqs (s : State) (pc : Nat) (l : List CavReq) : State :=
  { s with col := { s.col with reqs := Tab.put [] s.col.reqs pc l } }

/-- The request that wins: nearest deadline, then the lower requester index, then the earlier one (R284). -/
def winner : List CavReq → Option CavReq
  | [] => none
  | r :: t =>
    match winner t with
    | none => some r
    | some w => if w.deadline < r.deadline ∨ (w.deadline = r.deadline ∧ w.who < r.who) then some w else some r

/-- The request served next: the one granted, unless a request with a nearer deadline revokes the grant at this burst boundary
(R286). -/
def served (l : List CavReq) : Option CavReq :=
  match l.find? (fun r => r.granted), winner l with
  | some g, some w => if w.deadline < g.deadline then some w else some g
  | some g, none => some g
  | none, w => w

/-- Replace the first occurrence of a request, or take it out. -/
def replaceReq (r : CavReq) (n : Option CavReq) : List CavReq → List CavReq
  | [] => []
  | x :: t => if x = r then n.toList ++ t else x :: replaceReq r n t

/-- CAVE_BURST_COMPLETE: a 64-byte burst of the winning request completes; on a frozen stack only a burst already
granted does (R286, R288, R292). -/
def execCaveBurstComplete (pc : Fin 192) (uncorr : Bool) (s : State) : Out :=
  let t := pc.val / 32
  let l := s.reqsAt pc
  whenUp s (
    match (if s.frozen t then l.find? (fun r => r.granted) else served l) with
    | none => s
    | some r =>
      let s := if s.frozen t = false ∧ r.granted = false ∧ l.any (fun x => x.granted) then s.count 4 t 3 1 else s
      let n : Option CavReq := if r.bursts ≤ 1 then none
        else some { r with bursts := r.bursts - 1, granted := !s.frozen t }
      let rest := (replaceReq r n (l.map (fun x => x))).map (fun (x : CavReq) =>
        if some x = n then x else { x with granted := false })
      let s := s.setReqs pc rest
      let s := s.count 4 t (if r.who = 0 then 0 else if r.who = 1 then 1 else 5) 1
      let s := if r.who = 0 then s.caveTouched t else s
      if uncorr then (s.count 4 t 2 1).setStack t { s.stack t with uncorr := (s.stack t).uncorr + 1 } else s)

/-- CAVE_REQUEST_ABANDON: a request not served by its deadline is abandoned and counts CAV_MISS; what its chunk's output multiframe
has not yet sent changes with it (R287). -/
def execCaveRequestAbandon (pc : Fin 192) (s : State) : Out :=
  let t := pc.val / 32
  whenUp s (
    match (s.reqsAt pc).find? (fun r => decide (r.deadline < s.secClock)) with
    | none => s
    | some r =>
      let s := (s.setReqs pc (replaceReq r none (s.reqsAt pc))).count 4 t 4 1
      if r.who > 1 then s
      else
        let s := s.count 2 r.pair 4 1
        let p := s.pair r.pair
        let s := s.setPair r.pair (if r.who = 0 then { p with holes := (r.x, r.grp) :: p.holes }
          else { p with missed := (r.x, r.grp) :: p.missed })
        let t0 := p.at_ r.x
        if p.defined ∧ s.pairForeign p = false ∧ p.outT0 = t0 ∧ t0 ≤ s.secClock ∧ s.secClock < t0 + 64 then
          s.spliceMiss r.pair r.x t0
        else s)

/-- Take Whisk's requests off a stack's pseudo-channels. -/
def State.dropWhisk (s : State) (t : Nat) : State :=
  (List.range 32).foldl (fun (s : State) i => s.setReqs (32 * t + i) ((s.reqsAt (32 * t + i)).filter (fun r => r.who ≠ 2))) s

/-- The request that wins a pseudo-channel is granted before its stack freezes (R288). -/
def State.grantAt (s : State) (pc : Nat) : State :=
  match winner (s.reqsAt pc) with
  | none => s
  | some r => s.setReqs pc (replaceReq r (some { r with granted := true }) (s.reqsAt pc))

/-- The same at every pseudo-channel of a stack. -/
def State.grantStack (s : State) (t : Nat) : State :=
  (List.range 32).foldl (fun (s : State) i => s.grantAt (32 * t + i)) s

/-- A stack's FREEZE bit is set (R288). -/
def State.freezeStack (s : State) (t : Nat) : State :=
  let s := s.grantStack t
  s.setReg Reg.arbFreeze (s.reg Reg.arbFreeze ||| BitVec.ofNat 32 (2 ^ t))

/-- A stack's FREEZE bit is cleared: a stack that was out of service owes a test pass (R288, R291, R292). -/
def State.thawStack (s : State) (t : Nat) : State :=
  let back := s.oos t
  let x := s.stack t
  let s := s.setStack t { x with failed := false, testing := x.testing || back, unproven := x.unproven || back }
  let s := if back then (s.dropWhisk t).setWhisk (3 + t) { s.whisk (3 + t) with held := none, nextRegion := 0, passFault := false }
    else s
  s.setReg Reg.arbFreeze (s.reg Reg.arbFreeze &&& ~~~(BitVec.ofNat 32 (2 ^ t)))

/-- Set or clear freeze bits. A burst already granted completes; clearing the bit of a stack out of service starts its
return pass (R288, R291). -/
def State.writeFreeze (s : State) (v : Word) : State :=
  (List.range 6).foldl (fun (s : State) t =>
    if s.frozen t = bit v t then s else if bit v t then s.freezeStack t else s.thawStack t) s

/-- CAV_ARB_FREEZE_WRITE: only the owner writes it, also after SEAL (R288). -/
def execCavArbFreezeWrite (qp : Fin 16) (v : Word) (s : State) : Out :=
  whenUp s (s.ownerWrite qp (fun s => s.writeFreeze v))

/-- The reads raised at a stack are abandoned (R292). -/
def State.missReads (s : State) (t : Nat) : State :=
  (List.range 32).foldl (fun (s : State) i =>
    let l := s.reqsAt (32 * t + i)
    (l.filter (fun r => r.who = 1)).foldl (fun (s : State) r => s.missRead r.pair r.x r.grp)
      (s.setReqs (32 * t + i) (l.filter (fun r => r.who ≠ 1)))) s

/-- CAVE_STACK_FAULT: too many uncorrectable bursts in the period, or the interface has lost training (R292). -/
def execCaveStackFault (st : Fin 6) (training : Bool) (s : State) : Out :=
  let thr := bits (s.reg Reg.faultThr) 15 0
  whenUp s (
    if training ∨ thr < (s.stack st).uncorr then
      let booked := decide (s.stackRegions st ≠ 0)
      let s := s.setSticky (Reg.stackStatus st) 0x20000000
      let s := s.setReg Reg.arbFreeze (s.reg Reg.arbFreeze ||| BitVec.ofNat 32 (2 ^ st.val))
      let s := (s.setStack st { s.stack st with failed := true, uncorr := 0 }).missReads st
      let s := s.event [0] 0x0041 st 0
      if booked then s.yield 3 else s
    else s)

/-- STACK_MOVE_END: at the P(x) of the first chunk written to the new stripe the old one is released (R289). -/
def execStackMoveEnd (p : Fin 32768) (s : State) : Out :=
  let x := s.pair p
  whenUp s (
    match x.old with
    | [] => s
    | z :: rest =>
      if x.locked = false ∨ x.at_ z.2 ≤ s.secClock then (s.setPair p { x with old := rest }).pairEvent p 5 0 else s)

end Sys2Proof.Machine
end

