-- ==== Sys2Proof/Machine/Retime.lean ====
section
/-! DEFINITION. The Retimer (R165 to R173), the outputs that the Colander builds as the Retimer does (R264), and
WHEEL_OVERHEAD. -/
namespace Sys2Proof.Machine

/-- An RTM_DIFF or COL_DIFF has been counted in this selection period (R402). -/
def State.noteDiff (s : State) : State := { s with cal := { s.cal with diffSeen := true } }

/-! ### WHEEL_OVERHEAD (R156) -/

/-- The whole multiframe moves the Wheel's alignment, the Retimer's or Colander's input, and arms sequence-keyed Flips. -/
def State.wheelOverhead (s : State) (w : Nat) (mf : RxMf) : State :=
  if !(s.wheel w).defined then s
  else
    let (s, o) := s.takeMf w mf
    if !o.taken then s
    else
      let s := s.feedPair w o mf.t0
      if o.good then s.seqWatch w (ohOseq o.oh) mf.t0 else s

/-- WHEEL_OVERHEAD. -/
def execWheelOverhead (w : Fin 65536) (mf : RxMf) (s : State) : Out := whenUp s (s.wheelOverhead w mf)

/-! ### The count decision (R167) -/

/-- T of R167. -/
def targetFill (l : Nat) : Nat := l / 32 + 192

/-- r of R167, before it is limited to 0 and A. -/
def rawCount (l held t : Nat) : Int := (l : Int) + ((held : Int) - (t : Int)) / 256

/-- The decision: the count and whether r exceeded A. -/
def decideCount (a l held t : Nat) : Nat × Bool :=
  let r := rawCount l held t
  if r > (a : Int) then (a, true) else (r.toNat, false)

/-- Client bits that have arrived and are not yet sent. -/
def Retimer.held (r : Retimer) (now : Nat) : Nat := r.buf.length + (r.inq.filter (fun b => decide (b.1 ≤ now))).length

/-- Decide with a fill and a target; the output carries no client bit until the fill has reached the target (R170). -/
def Retimer.decide_ (r : Retimer) (a l held t : Nat) : Retimer :=
  let st := r.started || decide (t ≤ held)
  if !st then { r with own := some 0, adoOwn := false }
  else
    let d := decideCount a l held t
    { r with started := true, own := some d.1, adoOwn := d.2 }

/-- The copy whose arrivals count as held (R264). -/
def Pair.refWheel (p : Pair) : Nat := if p.refB then p.wb else p.wa

/-- Client bits of the reference copy that have arrived and are not yet sent (R264). -/
def Pair.held (p : Pair) (now : Nat) : Nat :=
  p.ret.buf.length + (((if p.refB then p.cb else p.ca).filter (fun c => p.nextX ≤ c.x)).map
    (fun c => (c.data.filter (fun b => decide (c.t0 + b.1 ≤ now))).length)).sum

/-- The pair built under R264 whose copy A is Wheel `w`. -/
def State.retPair (s : State) (w : Nat) : Option Nat :=
  match s.pairOf w with
  | some n => if (s.pair n).wa = w ∧ s.pairForeign (s.pair n) then some n else none
  | none => none

/-- The outputs whose counts the record of a tick carries, in its order: retimed Wheels, then pairs built under R264
(R385). -/
def State.countKeys (s : State) (tn : Nat) : List (Bool × Nat) :=
  let ws := (s.whl.map (fun (p : Nat × Wheel) => p.1)).filter (fun w => decide (w % 64 = tn % 64) && s.retimed w)
  let ps := (s.col.pair.filter (fun (p : Nat × Pair) =>
    decide (p.1 % 64 = tn % 64) && p.2.defined && p.2.locked && s.pairForeign p.2)).map (fun p => p.1)
  ws.map (fun w => (false, w)) ++ ps.map (fun p => (true, p))

/-- The Retimer of an output. -/
def State.retOf (s : State) (k : Bool × Nat) : Retimer := if k.1 then (s.pair k.2).ret else (s.wheel k.2).ret

/-- RETIMER_DECIDE: the count of output multiframe n + 1, in the tick with TN mod 64 = w mod 64, or p mod 64 for a pair of
which the Wheel is copy A; an active device puts it in the record of the tick (R166, R171, R264). -/
def execRetimerDecide (w : Fin 65536) (s : State) : Out :=
  let x := s.wheel w
  let now := s.secClock
  whenUp s (
    if s.drops 1 then s
    else if s.retimed w then
      if now % 64 = w.val % 64 ∧ x.ret.own.isNone then
        s.setWheel w { x with ret := x.ret.decide_ (areaOf x.k) x.ret.last (x.ret.held now) (targetFill x.ret.last) }
      else s
    else match s.retPair w with
      | some n =>
        let p := s.pair n
        if now % 64 = n % 64 ∧ p.locked ∧ p.ret.own.isNone then
          let l := (s.wheel p.refWheel).cnt
          s.setPair n { p with ret := p.ret.decide_ (areaOf p.k) l (p.held now) (targetFill l + l * p.minLag / 64) }
        else s
      | none => s)

/-- RETIMER_COUNT_DEADLINE: a standby without the active device's count sends its own (R172). -/
def execRetimerCountDeadline (w : Fin 65536) (s : State) : Out :=
  let x := s.wheel w
  let now := s.secClock
  whenUp s (
    if s.copies = false then s
    else if s.retimed w then
      if now % 64 = (w.val + 32) % 64 ∧ x.ret.own.isSome ∧ x.ret.mate.isNone then
        (s.setWheel w { x with ret := { x.ret with mate := x.ret.own }, rtmDiff := satInc 65535 x.rtmDiff }).noteDiff
      else s
    else match s.retPair w with
      | some n =>
        let p := s.pair n
        if now % 64 = (n + 32) % 64 ∧ p.ret.own.isSome ∧ p.ret.mate.isNone then
          (s.setPair n { p with ret := { p.ret with mate := p.ret.own }, colDiff := satInc 65535 p.colDiff }).noteDiff
        else s
      | none => s)

/-! ### Output multiframes (R166, R168 to R170, R177) -/

/-- Bits that arrive in a tick enter the buffer; those beyond its capacity are lost. -/
def Retimer.arrive (r : Retimer) (cap now : Nat) : Retimer × Bool :=
  let due := (r.inq.filter (fun b => decide (b.1 ≤ now))).map (fun b => (b.2.1, b.2.2))
  let room := cap - r.buf.length
  ({ r with inq := r.inq.filter (fun b => now < b.1), buf := r.buf ++ due.take room }, decide (room < due.length))

/-- The count that a standby sends is the active device's. -/
def Retimer.counted (r : Retimer) (standby : Bool) : Nat :=
  if standby then r.mate.getD (r.own.getD 0) else r.own.getD 0

/-- Start an output multiframe at tick `now` with the overhead of R168; `idle` is its OSEQ where it holds no client bit, and
`ps` its PSIG where it is a Colander's (R268). Without a client bit PT and PSIG are those of the last input multiframe, or 0; the
first multiframe after AIS-W carries the count decided, though the one before announced 0 (R177; DESIGN CHOICE, log 85). -/
def Retimer.start (r : Retimer) (now : Nat) (standby ais rdi : Bool) (trace : Nat → Byte) (idle : BitVec 24)
    (ps : Option Nat) : Retimer :=
  let n := r.counted standby
  let q := if r.ann = 0 then idle else match r.buf with | b :: _ => b.1 | [] => idle
  let src := match r.recent.find? (fun x => x.1 = q) with
    | some x => some x
    | none => r.recent.getLast?
  let pt := match src with | some x => x.2.1 | none => 0
  let psig := ps.getD (match src with | some x => x.2.2 | none => 0)
  let bip := bip8 r.sent
  let oh := mkOh ais rdi q (if ais then 0 else n) bip (trace (q.toNat % 16)) pt psig
  { r with live := true, cur := r.ann, ann := n, own := none, mate := none, outT0 := now, acc := 0, oh := oh, sent := [],
           bip := bip, oseq := q, pt := pt, psig := psig, ais := ais, rawAdo := r.adoAnn, adoAnn := r.adoOwn,
           adoOwn := false }

/-- One payload bit: a client bit at a data position, 0 at a stuff position; a bit that has not arrived is sent as 1 and
counts as underflow (R153, R169). In AIS-W every payload bit is 1. -/
def Retimer.bit_ (r : Retimer) (a : Nat) : Retimer × Bool × Bool :=
  if r.acc + r.cur ≥ a then
    match r.buf with
    | b :: t =>
      let v := r.ais || b.2
      ({ r with acc := r.acc + r.cur - a, buf := t, sent := r.sent ++ [v] }, v, false)
    | [] => ({ r with acc := r.acc + r.cur - a, sent := r.sent ++ [true] }, true, true)
  else ({ r with acc := r.acc + r.cur, sent := r.sent ++ [r.ais] }, r.ais, false)

/-- One word of 12 payload bits. -/
def Retimer.word (a : Nat) : Nat → Retimer → List Bool → Bool → Retimer × List Bool × Bool
  | 0, r, l, u => (r, l, u)
  | n + 1, r, l, u =>
    let (r, v, w) := r.bit_ a
    Retimer.word a n r (l ++ [v]) (u || w)

/-- The `k` words of one tick; whether a bit was missing. -/
def Retimer.words (a t : Nat) : Nat → Nat → Retimer → List SlotWord → Bool → Retimer × List SlotWord × Bool
  | 0, _, r, l, u => (r, l, u)
  | n + 1, m, r, l, u =>
    if m = 0 ∧ t < 8 then Retimer.words a t n (m + 1) r (l ++ [ohWord r.oh t]) u
    else
      let (r, b, w) := Retimer.word a 12 r [] false
      Retimer.words a t n (m + 1) r (l ++ [BitVec.ofNat 12 (ofMsb b)]) (u || w)

/-- Keep the words of a tick, and those of the two ticks before it. -/
def Retimer.put (r : Retimer) (now : Nat) (l : List SlotWord) : Retimer :=
  { r with outs := r.outs.filter (fun p => decide (now < p.1 + 3)) ++ [(now, l)] }

/-- The words of this tick have been made. -/
def Retimer.done (r : Retimer) (now : Nat) : Bool := r.outs.any (fun p => decide (p.1 = now))

/-- The word of member `i` that enters the Harp in tick `now`: it left two ticks before (R169, R269, R672). -/
def Retimer.wordAt (r : Retimer) (now i : Nat) : SlotWord :=
  match r.outs.find? (fun p => decide (p.1 + 2 = now)) with
  | some p => p.2.getD i aisWord
  | none => aisWord

/-- The words of this tick. Before the first output multiframe they are 0xFFF. -/
def Retimer.tickWords (r : Retimer) (k now : Nat) : Retimer × Bool :=
  if !r.live then (r.put now (List.replicate k aisWord), false)
  else
    let (r, l, u) := Retimer.words (areaOf k) (now - r.outT0) k 0 r [] false
    (r.put now l, u)

/-- A trace by index; a free value where none has been accepted (log 13). -/
def traceOf (t : Option (List Byte)) (i : Nat) : Byte := match t with | some l => l.getD i 0 | none => Config.noTrace i

/-- One tick of the Retimer of Wheel `w`. -/
def State.retimeTick (s : State) (w : Nat) : State :=
  let x := s.wheel w
  let now := s.secClock
  let k := x.k
  if x.ret.done now then s
  else
    let (r, lost) := x.ret.arrive (64 * k + 768) now
    let first := decide (now % 64 = (w + 32) % 64)
    let prev := if r.ais then 0 else r.cur
    let r := if first then
        r.start now s.copies x.aisOut (x.rdiw || s.rdiSet w) (traceOf x.accTrace) (Config.idleOseq w now) none else r
    let sent := if r.ais then 0 else r.cur
    let (r, miss) := r.tickWords k now
    let y : Wheel := { x with ret := r, overflow := x.overflow || lost, underflow := x.underflow || miss,
                              mark := x.mark || lost || miss }
    let s := s.setWheel w (y.note (s.laneFault y))
    let s := s.count 1 w 3 (b2n (first && r.rawAdo))
    s.count 1 w 4 (b2n (first && decide (sent ≠ prev)))

/-- The next chunk of a merged stream enters the output's buffer when the bits at hand run out: the copy of R265, or ones
where none is taken. A chunk is late when it starts to arrive less than G ticks before its first bit is sent (R264). -/
def State.pullChunk (s : State) (n : Nat) : State :=
  let p := s.pair n
  let x := p.nextX
  let now := s.secClock
  let late := fun (c : Chunk) => decide (now < c.t0 + p.g)
  let f := fun (l : List Chunk) => l.map (fun (c : Chunk) => if c.x = x ∧ late c then { c with absent := true } else c)
  let isLate := fun (l : List Chunk) => match chunkOf l x with | some c => late c && !c.absent | none => false
  let la := isLate p.ca
  let lb := isLate p.cb
  let s := s.setPair n { p with ca := f p.ca, cb := f p.cb }
  let s := if la then s.setLate n false else s
  let s := if lb then s.setLate n true else s
  let q := s.pair n
  let t := s.takenAt n x now
  let cnt := q.outCnt x
  let data := match t with
    | some (_, c) => c.data.map (fun b => (BitVec.ofNat 24 x, b.2))
    | none => List.replicate cnt (BitVec.ofNat 24 x, true)
  let s := s.noteTaken n (t.map (fun z => z.1))
  let q := s.pair n
  let pt := match t with | some (_, c) => c.pt | none => (s.wheel q.wa).pt
  let ps := s.psigOut q (match t with | some (b, _) => b | none => q.takenB.getD false)
  let r := { q.ret with
    buf := q.ret.buf ++ data
    recent := q.ret.unsent ++ [(BitVec.ofNat 24 x, pt, ps)]
    rawAdo := t.isNone }
  let s := s.setPair n { q.spent x with ret := r }
  if q.tier = 2 && t.isSome then s.raiseReads n x (now + q.g) else s

/-- One tick of an output built under R264. Its RDI-W is the one received from the copy taken: the RDI-W that R179 sets for a reverse
Wheel is not applied again (DESIGN CHOICE, log 86). Its AIS-W is that of a first bit whose chunk gave none; before lock it sends AIS-W
with the number of the multiframe in OSEQ (R37, R267). A chunk that neither copy brings is passed over once a later one has
come. -/
def State.pairTick (s : State) (n : Nat) : State :=
  let p := s.pair n
  let now := s.secClock
  if p.ret.done now then s
  else
    let first := decide (now % 64 = (n + 32) % 64)
    let need_ := p.locked && p.ret.started && decide (p.ret.buf.length < 24 * p.k)
      && (p.ca ++ p.cb).any (fun c => decide (p.nextX ≤ c.x) && decide (c.t0 ≤ now))
    let s := if need_ then s.pullChunk n else s
    let p := s.pair n
    let none_ := p.ret.rawAdo
    let src := p.takenB.getD false
    let rdi := (s.wheel (if src then p.wb else p.wa)).rdiw
    let tr := match (s.wheel p.wa).accTrace with | some t => some t | none => (s.wheel p.wb).accTrace
    let r := if first then
        { p.ret.start now s.copies (!p.locked || none_) rdi (traceOf tr)
            (if p.locked then Config.idleOseq (65536 + n) now else BitVec.ofNat 24 (now / 64)) (some (s.psigOut p src))
          with rawAdo := none_ }
      else p.ret
    s.setPair n { p with ret := (r.tickWords p.k now).1 }

end Sys2Proof.Machine
end

