-- ==== Sys2Proof/Machine/Starter.lean ====
section
/-! DEFINITION. The Starter (08_starter) and the tick number's sources (01_tick): sources, selection, states, holdover,
phase steps, REF_CONFIG, REF_FORCE, PHASE_STEP, time of day. -/
namespace Sys2Proof.Machine

/-! ### Set-up fields (R308, R313, R321, R326, R331) -/

def ticksPerSecond : Nat := 8000000
def State.qualTime (s : State) : Nat := ticksPerSecond * clamp 1 3600 (bits (s.reg Reg.selCfg) 15 0)
def State.selWtr (s : State) : Nat := ticksPerSecond * clamp 0 3600 (bits (s.reg Reg.selCfg) 27 16)
def State.selRevert (s : State) : Bool := bit (s.reg Reg.selCfg) 31
def State.qlEn (s : State) : Bool := bit (s.reg Reg.selCfg) 30
/-- WINDOW in units of 0.1 ppb. -/
def State.qualWindow (s : State) : Nat := 1000 * clamp 1 2000 (bits (s.reg Reg.qualCfg) 10 0)
def State.acqTmo (s : State) : Nat := ticksPerSecond * clamp 1 3600 (bits (s.reg Reg.loopCfg) 31 16)
def State.transRate (s : State) : Nat := atLeast1 (bits (s.reg Reg.transCfg) 15 0)
def State.hoLimit (s : State) : Nat := ticksPerSecond * clamp 1 604800 (bits (s.reg Reg.hoCfg) 19 0)
def State.frTrim (s : State) : Int := (s.reg Reg.frTrim).toInt
def State.entAlign (s : State) (k : Nat) : Bool :=
  bit (s.reg (Reg.refPrio k)) 22 || decide (bits (s.reg (Reg.refPrio k)) 21 16 = 37)
def State.entSource (s : State) (k : Nat) : Nat := bits (s.reg (Reg.refPrio k)) 21 16
/-- An entry is in use: its PRIO is not 0 and it names a source that the table may name (R299, R313). -/
def State.entUsed (s : State) (k : Nat) : Bool :=
  decide (bits (s.reg (Reg.refPrio k)) 11 8 ≠ 0) && (decide (s.entSource k ≤ 35) || decide (s.entSource k = 37))
def State.entPrio (s : State) (k : Nat) : Nat := bits (s.reg (Reg.refPrio k)) 11 8
def State.entOvr (s : State) (k : Nat) : Nat := bits (s.reg (Reg.refPrio k)) 3 0

/-- Change the Starter. -/
def State.onStr (s : State) (f : Str → Str) : State := { s with str := f s.str }

/-- A quotient rounded to the nearest whole number. -/
def roundDiv (a : Int) (n : Nat) : Int := (2 * a + n) / (2 * n)

/-! ### Quality levels (R303 to R306) -/

/-- A code of R303; any other acts as QL-DNU. -/
def qlValid (q : Nat) : Bool := decide (q ∈ [2, 4, 8, 11, 15])
/-- Rank of a code: 1 is best, 5 stands for QL-DNU. -/
def qlRank (q : Nat) : Nat := if q = 2 then 1 else if q = 4 then 2 else if q = 8 then 3 else if q = 11 then 4 else 5

/-- Effective QL of an entry (R305). -/
def State.effQl (s : State) (k : Nat) : Nat :=
  if s.entOvr k ≠ 0 then s.entOvr k
  else
    let src := s.entSource k
    if 32 ≤ src ∧ src ≤ 35 then 15 else (s.src src).qlRx

/-- A member of a pair that is not sealed takes its TN from its mate: by SRC 4, or because the mate is ACTIVE or the primary when
it needs one (R398). -/
def State.takesMateTn (s : State) : Bool :=
  s.mated && !s.sealed && (decide (s.tnSrc = 4)
    || (if s.clk.tnValid then s.clk.tnMate else decide (s.cal.mateHb = .active)))

/-- The Starter follows its mate over source 36 (R299, R324, R398). -/
def State.follows (s : State) : Bool := s.copies || s.takesMateTn

/-- QL sent in a state that has none of its own to pass on. -/
def State.ownQl (s : State) : Nat :=
  match s.str.st with
  | .locked => match s.str.sel with | some k => s.effQl k | none => bits (s.reg Reg.qlCfg) 3 0
  | .holdover => bits (s.reg Reg.qlCfg) 7 4
  | _ => bits (s.reg Reg.qlCfg) 3 0

/-- The device's own QL (R306). -/
def State.qlOut (s : State) : Nat :=
  if s.str.followMate then s.str.mateQl
  else if s.str.st = .acquiring then s.str.acqQl else s.ownQl

/-! ### Sources (R297 to R309) -/

/-- The nominal frequency of a source in Hz (R57, R297). -/
def State.srcHz (s : State) (i : Nat) : Nat :=
  if i < 32 then
    match (s.group i).rung with | 0 => 1650000000 | 1 => 3300000000 | 2 => 3400000000 | _ => 6800000000
  else if i < 36 then clamp 1 800000000 (bits (s.reg (Reg.refinCfg (i - 32))) 29 0)
  else if i = 36 then 3400000000 else 1

/-- A frequency in units of 10^-10 Hz as its offset from nominal in units of 0.1 ppb (R308). -/
def freqOffset (hz f : Nat) : Int := roundDiv ((f : Int) - (hz : Int) * 10 ^ 10) hz

/-- An offset in fs taken within half a period of the reference (R325). -/
def wrapFs (hz : Nat) (o : Int) : Int :=
  let k := -((10 ^ 15 - 2 * o * hz) / (2 * 10 ^ 15))
  o - roundDiv (k * 10 ^ 15) hz

/-- What is subtracted from the phase of a source before it is compared, in ps: the link delay of a worker's upstream group, that
of Calrin, the delay of PPS_IN (R300, R324, R339). -/
def State.srcDelay (s : State) (i : Nat) (align : Bool) : Int :=
  if h : i < 32 then (if s.fabRole = 2 ∧ align then ((s.plink (.group ⟨i, h⟩)).delayPs : Int) else 0)
  else if i = 36 then (s.fab.calrin.delayPs : Int)
  else if i = 37 then max (-1000000) (min 1000000 (BitVec.ofNat 21 (bits (s.reg Reg.ppsCfg) 20 0)).toInt)
  else 0

/-- The transition offset toward a source whose phase was measured against the output, in fs (R325). -/
def State.srcOffset (s : State) (i : Nat) (align : Bool) (phase : Int) : Int :=
  wrapFs (s.srcHz i) (1000 * (phase - s.srcDelay i align))

/-- A lane group may serve as a source (R298); otherwise the reason. -/
def State.srcBar (s : State) (i : Nat) : Nat :=
  if 32 ≤ i then 0 else if s.foreign i = false then 6 else if (s.group i).st ≠ .inService then 8 else 0

/-- A source is qualified, and its group still meets R298. -/
def State.qualified (s : State) (i : Nat) : Bool := (s.src i).qualified && decide (s.srcBar i = 0)

/-- The receive clock input of a group is powered (R58). -/
def State.clockOn (s : State) (g : Nat) : Bool := (groupLanes g).any (fun n => decide ((s.lane n).rx ≠ .off))

/-- The selected entry names a source, or the Starter follows source 36. -/
def State.selects (s : State) (i : Nat) : Bool :=
  if s.str.followMate then decide (i = 36)
  else match s.str.sel with | some k => decide (s.entSource k = i) | none => false

/-- The selected reference is lost: the loop holds its control word (R310, R330). -/
def State.loseRef (s : State) (i : Nat) : State :=
  if s.selects i then s.onStr (fun x => { x with held := true, lossTick := some (x.lossTick.getD s.secClock) }) else s

/-- Disqualify a source for a reason. -/
def State.disqualify (s : State) (i reason : Nat) : State :=
  let x := s.src i
  let s := s.setSrc i { x with qualified := false, reason := reason, since := none, outlier := x.outlier || decide (reason = 4) }
  if x.qualified then s.loseRef i else s

/-- A source has shown no edge since tick `t` for long enough: 16 ticks from 1 MHz on, 1.5 periods below (R307). -/
def State.edgeFree (s : State) (i t : Nat) : Bool :=
  if 1000000 ≤ s.srcHz i then decide (t + 16 ≤ s.clk.tick)
  else decide (3 * ticksPerSecond ≤ 2 * (s.clk.tick - t) * s.srcHz i)

/-- SOURCE_ACTIVITY_LOSS: a source whose last edge came too long ago is disqualified in this tick; a group's receive clock that
is lost gives LOS on its lanes (R121, R307, R309, R310). -/
def execSourceActivityLoss (last : LastEdge) (s : State) : Out :=
  let src := last.src
  let x := s.src src
  let t := max last.at_ x.edgeAt
  whenUp s (
    if x.active ∧ s.edgeFree src t then
      (s.disqualify src 1).setSrc src { (s.disqualify src 1).src src with active := false, inWindow := false, freq := 0,
                                                                           hist := [], lostAt := some t }
    else s)

/-- Source 37 has gone four edges without a valid message (R309). -/
def State.noMessage (s : State) : Bool := decide (4 ≤ s.clk.todMiss)

/-- A measurement joins the average over the last 1,000 periods; the source is active (R308). -/
def Src.push (x : Src) (f : Int) : Src :=
  let h := (x.hist ++ [f]).drop (x.hist.length - 999)
  { x with active := true, lostAt := none, hist := h, freq := roundDiv h.sum h.length }

/-- What the Starter measures of a source in the period that ends: nothing where a group's clock input is not powered (R58,
R308). -/
def State.measured (s : State) (m : PeriodIn) (i : Nat) : Option Int :=
  if i < 32 ∧ s.clockOn i = false then none
  else (m.freqs.find? (fun f => f.1 = i)).map (fun f => freqOffset (s.srcHz i) f.2)

/-- Measure one source at a period's end (R298, R308, R309). A period that brings no measurement of an active source leaves its
average as it was: loss of activity is declared by R307 alone (log 77). -/
def State.measure (s : State) (m : PeriodIn) (i : Nat) : State :=
  let x := s.src i
  let y := match s.measured m i with | some f => x.push f | none => x
  let inw := y.active && !y.hist.isEmpty && decide (y.freq.natAbs ≤ s.qualWindow)
  let bar := if i = 37 ∧ s.noMessage then 7 else s.srcBar i
  let out := x.active && !x.inWindow && !inw
  let y := { y with inWindow := inw }
  if y.active = false then (if bar = 6 then s.setSrc i { y with reason := 6 } else s)
  else if bar ≠ 0 then (s.setSrc i y).disqualify i bar
  else if out then (s.setSrc i y).disqualify i (if y.outlier then 4 else 2)
  else if y.qualified then s.setSrc i y
  else
    let since := if inw then some (y.since.getD s.clk.tick) else none
    s.setSrc i { y with since := since, reason := if y.outlier then 4 else if inw then 3 else 2 }

/-- SOURCE_QUALIFIED: active and in window without interruption for QUAL_TIME (R309). -/
def execSourceQualified (src : Fin 38) (s : State) : Out :=
  let x := s.src src
  whenUp s (
    match x.since with
    | some t =>
      if x.active ∧ x.inWindow ∧ x.qualified = false ∧ s.srcBar src = 0 ∧ t + s.qualTime ≤ s.clk.tick then
        s.setSrc src { x with qualified := true, reason := 0, outlier := false }
      else s
    | none => s)

/-- The enabled entries' sources. -/
def State.namedSources (s : State) : List Nat :=
  ((List.range 16).filter s.entUsed).map s.entSource

/-- Median of sorted values; of an even count the mean of the two middle ones, twice the value kept exact. -/
def median2 (l : List Int) : Int :=
  let v := sortBy (fun a b => decide (a ≤ b)) l
  let n := v.length
  v.getD ((n - 1) / 2) 0 + v.getD (n / 2) 0

/-- A frequency lies within 50 ppb of the median; `m2` is twice the median. -/
def near50 (m2 f : Int) : Bool := decide ((2 * f - m2).natAbs ≤ 1000)

/-- Disagreeing references (R311). -/
def State.outliers (s : State) : State :=
  let q := (s.namedSources.eraseDups).filter s.qualified
  let fs := q.map (fun i => (s.src i).freq)
  let m2 := median2 fs
  let inn := q.filter (fun i => near50 m2 (s.src i).freq)
  let back := fun (s : State) =>
    (List.range 38).foldl (fun (s : State) i =>
      let x := s.src i
      if x.outlier && !near50 m2 x.freq then s.setSrc i { x with since := none } else s) s
  if 3 ≤ q.length ∧ q.length < 2 * inn.length then
    let s := (q.filter (fun i => !near50 m2 (s.src i).freq)).foldl (fun (s : State) i => s.disqualify i 4) (back s)
    let gs := inn.map (fun i => (s.src i).freq)
    s.onStr (fun x => { x with dispute := gs.any (fun a => gs.any (fun b => decide (500 < (a - b).natAbs)))
      && x.dispute })
  else
    let dis := fs.any (fun a => fs.any (fun b => decide (500 < (a - b).natAbs)))
    let s := if q = [] then s else back s
    let s := if dis && !s.str.dispute then s.event [0] 0x0051 0 0 else s
    s.onStr (fun x => { x with dispute := dis })

/-- Take the received QL of lane groups (R304); a new period of headers begins. -/
def State.takeQl (s : State) : State :=
  let s := (List.range 32).foldl (fun (s : State) g =>
    let ls := (groupLanes g).filter (fun n => decide ((s.rx n).align = .inFrame))
    match ls with
    | [] => s
    | n :: _ =>
      let x := s.rx n
      if x.qlSame && !x.qlFresh then
        let s := if qlValid x.ql then s else s.setSticky (Reg.srcStatus g) 0x00080000
        s.setSrc g { s.src g with qlRx := if qlValid x.ql then x.ql else 15 }
      else s) s
  (List.range 256).foldl (fun (s : State) n =>
    let x := s.rx n
    if x.qlFresh then s else s.setRx n { x with qlFresh := true, qlSame := false }) s

/-! ### Selection (R315 to R318) -/

/-- An entry is selectable (R315). -/
def State.selectable (s : State) (k : Nat) : Bool :=
  s.entUsed k && s.qualified (s.entSource k) && decide (k ∉ s.str.lockout)
  && (!s.qlEn || decide (qlRank (s.effQl k) < 5))

/-- Follow since when each entry has been selectable (R318). -/
def State.noteSelectable (s : State) : State :=
  (List.range 16).foldl (fun (s : State) k =>
    let was := s.str.selSince.look 0 k
    if s.selectable k then
      (if was = 0 then s.onStr (fun x => { x with selSince := Tab.put 0 x.selSince k (s.clk.tick + 1) }) else s)
    else s.onStr (fun x => { x with selSince := Tab.put 0 x.selSince k 0, wtrDone := Tab.put false x.wtrDone k false })) s

/-- REFERENCE_WTR_EXPIRY: an entry has been selectable for WTR (R318). -/
def execReferenceWtrExpiry (entry : Fin 16) (s : State) : Out :=
  let t := s.str.selSince.look 0 entry
  whenUp s (
    if t ≠ 0 ∧ t - 1 + s.selWtr ≤ s.clk.tick then
      s.onStr (fun x => { x with wtrDone := Tab.put false x.wtrDone entry true })
    else s)

/-- Quality and priority of an entry as it ranks (R315). -/
def State.entRank (s : State) (k : Nat) : Nat := (if s.qlEn then qlRank (s.effQl k) else 0) * 16 + s.entPrio k

/-- The best-ranked of some entries; the lower index among equals. -/
def State.bestOf (s : State) (ks : List Nat) : Option Nat :=
  ks.foldl (fun (b : Option Nat) k =>
    match b with
    | none => some k
    | some j => if s.entRank k < s.entRank j ∨ (s.entRank k = s.entRank j ∧ k < j) then some k else some j) none

/-- Sources of two entries differ by more than 50 ppb (R312). -/
def State.differ (s : State) (k j : Nat) : Bool :=
  decide (500 < ((s.src (s.entSource k)).freq - (s.src (s.entSource j)).freq).natAbs)

/-- The selection outcome of a boundary (R312, R317). -/
def State.choose (s : State) : Option Nat :=
  let ok := (List.range 16).filter s.selectable
  match s.str.forced.filter (fun k => s.entUsed k && s.qualified (s.entSource k)) with
  | some k => some k
  | none =>
    match s.str.sel with
    | some j =>
      if !s.selectable j then s.bestOf ok
      else if s.selRevert then
        let up := ok.filter (fun k => decide (s.entRank k < s.entRank j)
          && (s.str.wtrDone.look false k || decide (s.selWtr = 0)) && (!s.str.dispute || !s.differ k j))
        match s.bestOf up with | some k => some k | none => some j
      else some j
    | none => s.bestOf ok

/-! ### Holdover (R329 to R331) -/

/-- The history before second `n` is complete; the holdover value it gives. -/
def Str.window (n : Nat) : List Nat := if n < 660 then [] else (List.range 600).map (fun i => n - 660 + i)
def Str.complete (x : Str) (n : Nat) : Bool :=
  !(Str.window n).isEmpty && (Str.window n).all (fun m => x.hoValid.look false m)
/-- The mean, rounded to the nearest unit. -/
def Str.mean (x : Str) (n : Nat) : Int := roundDiv ((Str.window n).map (fun m => x.hoRing.look 0 m)).sum 600

/-- The sample of a second that ends (R329). -/
def State.holdSample (s : State) : State :=
  let n := s.secClock / ticksPerSecond
  s.onStr (fun x =>
    let v := if x.secCnt = 0 then x.word else roundDiv x.secSum x.secCnt
    let ok := x.secLocked && decide (x.st = .locked)
    let x := { x with
      hoRing := (Tab.put 0 x.hoRing (n - 1) v).filter (fun p => n ≤ p.1 + 1024)
      hoValid := (Tab.put false x.hoValid (n - 1) ok).filter (fun p => n ≤ p.1 + 1024)
      secSum := 0
      secCnt := 0
      secLocked := decide (x.st = .locked) }
    if x.complete n ∧ x.followMate = false then { x with hoValue := x.mean n } else x)

/-! ### States (R320 to R328) -/

/-- The Starter enters a state and raises STR_STATE (R320); LOST makes an active member yield (R393). -/
def State.enter (s : State) (st : StrState) : State :=
  if s.str.st = st then s
  else
    let n : Nat := match st with | .freeRun => 0 | .acquiring => 1 | .locked => 2 | .holdover => 3 | .lost => 4
    let s := s.onStr (fun x => { x with
      st := st
      enterTick := s.clk.tick
      bwStep := if st = .locked then 0 else 4
      lockedOnce := x.lockedOnce || decide (st = .locked)
      secLocked := x.secLocked && decide (st = .locked)
      goodSince := none })
    let s := s.event [0] 0x0050 n (s.str.sel.getD 0)
    if st = .lost then s.yield 2 else s

/-- The remaining transition offset in fs (R326). -/
def State.offsetNow (s : State) : Int :=
  let o := s.str.offset
  if !s.str.trans then o
  else
    let d := s.transRate * (s.clk.tick - s.str.offTick)
    if o.natAbs ≤ d then 0 else if o < 0 then o + d else o - d

/-- Select an entry: a new transition offset is taken from the present phase (R300, R325, R328). -/
def State.selectEntry (s : State) (k : Nat) (phase : Int) : State :=
  let al := s.entAlign k
  let o := s.srcOffset (s.entSource k) al phase
  s.onStr (fun x => { x with sel := some k, selTick := s.clk.tick, offset := o, offTick := s.clk.tick,
                              trans := al && decide (o ≠ 0), held := false, lossTick := none, goodSince := none })

/-- No entry is selectable: HOLDOVER with a complete history, else LOST, or FREE_RUN before the first lock (R320, R331). -/
def State.noRef (s : State) : State :=
  let n := s.str.lossTick.getD s.secClock / ticksPerSecond
  let full := s.str.complete n
  let s := s.onStr (fun x => { x with sel := none, trans := false, held := false })
  match s.str.st with
  | .acquiring | .locked =>
    if full then
      let v := s.str.mean n
      (s.onStr (fun x => { x with word := v, hoValue := v })).enter .holdover
    else if s.str.st = .locked ∨ s.str.lockedOnce then s.enter .lost
    else (s.onStr (fun x => { x with word := s.frTrim })).enter .freeRun
  | _ => s

/-- The outcome of selection from the own table (R317, R319, R320). A forced HOLDOVER is entered once: after LIMIT it is LOST, until
CLEAR_ALL (R331). -/
def State.outcome (s : State) (phase : Int) : State :=
  if s.str.hoForced then
    if s.str.st = .holdover ∨ s.str.hoDone then s.onStr (fun x => { x with hoDone := true })
    else
      let n := s.secClock / ticksPerSecond
      let v := s.str.mean n
      (s.onStr (fun x => { x with hoDone := true, sel := none, trans := false, held := false, word := v, hoValue := v })).enter .holdover
  else match s.choose with
    | none => s.noRef
    | some k =>
      if s.str.sel = some k then s
      else
        let q := s.ownQl
        let s := s.selectEntry k phase
        if s.str.st = .locked ∨ s.str.st = .acquiring then s
        else (s.onStr (fun x => { x with acqQl := q })).enter .acquiring

/-- The Starter follows source 36; a word held while it was lost is held no more once it is back. Without source 36 no reference
is left (R310, R320, R324). -/
def State.followOutcome (s : State) (phase : Int) : State :=
  let here := (s.src 36).active
  let s := s.onStr (fun x => { x with followMate := true, sel := none, held := x.held && !here,
                                       lossTick := if here then none else x.lossTick })
  if (s.src 36).active ∧ s.str.st ≠ .locked ∧ s.str.st ≠ .acquiring then
    let q := s.ownQl
    let o := s.srcOffset 36 true phase
    let s := s.onStr (fun x => { x with acqQl := q, selTick := s.clk.tick, offset := o, offTick := s.clk.tick,
                                         trans := decide (o ≠ 0) })
    s.enter .acquiring
  else if here then s
  else s.noRef

/-- The device no longer follows its mate: its own table, or the holdover value received in the Ladle (R324). -/
def State.unfollow (s : State) (phase : Int) : State :=
  let q := s.qlOut
  let s := s.onStr (fun x => { x with followMate := false, sel := none })
  match (if s.str.hoForced then none else s.choose) with
  | some k =>
    let s := s.selectEntry k phase
    if s.str.st = .locked ∨ s.str.st = .acquiring then s
    else (s.onStr (fun x => { x with acqQl := q })).enter .acquiring
  | none =>
    (s.onStr (fun x => { x with word := x.hoValue, trans := false, held := false })).enter .holdover

/-- The control word of the period: what the loop measured while it follows a reference. -/
def State.takeWord (s : State) (m : PeriodIn) : State :=
  s.onStr (fun x =>
    let w := if (x.st = .acquiring ∨ x.st = .locked) ∧ x.held = false then m.loopWord
      else if x.st = .freeRun then s.frTrim else x.word
    let good := m.loopOk && decide (x.st = .acquiring)
    { x with
      word := w
      secSum := x.secSum + w
      secCnt := x.secCnt + 1
      goodSince := if good then some (x.goodSince.getD (s.clk.tick - 8000)) else none })

/-- The Starter's work at a selection-period boundary (R308, R311, R316, R317). -/
def State.starterPeriod (s : State) (m : PeriodIn) : State :=
  let s := s.takeWord m
  let s := (List.range 38).foldl (fun (s : State) i => s.measure m i) s
  let s := s.takeQl.outliers.noteSelectable
  if s.follows then s.followOutcome m.newPhase
  else if s.str.followMate then s.unfollow m.newPhase
  else s.outcome m.newPhase

/-- STARTER_LOCK: errors within limits for 8,000,000 ticks, at a boundary (R321). -/
def execStarterLock (s : State) : Out :=
  whenUp s (
    match s.str.goodSince with
    | some t =>
      if s.atPeriod ∧ s.str.st = .acquiring ∧ t + ticksPerSecond ≤ s.clk.tick then s.enter .locked else s
    | none => s)

/-- ACQ_TMO_EXPIRY: the source is disqualified with ACQ_FAIL (R321). -/
def execAcqTmoExpiry (s : State) : Out :=
  whenUp s (
    match s.str.sel with
    | some k =>
      if s.atPeriod ∧ s.str.st = .acquiring ∧ s.str.selTick + s.acqTmo ≤ s.clk.tick then s.disqualify (s.entSource k) 5
      else s
    | none => s)

/-- LOOP_BANDWIDTH_STEP: a boundary 15, 30, 45 or 60 s after entry to LOCKED (R316, R322). -/
def execLoopBandwidthStep (s : State) : Out :=
  whenUp s (
    if s.atPeriod ∧ s.str.st = .locked ∧ s.str.bwStep < 4
        ∧ s.str.enterTick + 15 * ticksPerSecond * (s.str.bwStep + 1) ≤ s.clk.tick then
      s.onStr (fun x => { x with bwStep := x.bwStep + 1 })
    else s)

/-- TRANSITION_END: the offset has reached 0 (R326). -/
def execTransitionEnd (s : State) : Out :=
  whenUp s (
    if s.str.trans ∧ s.offsetNow = 0 then s.onStr (fun x => { x with trans := false, offset := 0, offTick := s.clk.tick })
    else s)

/-- HOLDOVER_LIMIT_EXPIRY: HOLDOVER has lasted LIMIT (R331). -/
def execHoldoverLimitExpiry (s : State) : Out :=
  whenUp s (if s.atPeriod ∧ s.str.st = .holdover ∧ s.str.enterTick + s.hoLimit ≤ s.clk.tick then s.enter .lost else s)

/-! ### REF_CONFIG and REF_FORCE (R313, R314, R319, R520, R521) -/

/-- The register of word `k` of a REF_CONFIG batch. -/
def rcReg (k : Nat) : Nat :=
  if k < 16 then Reg.refPrio k
  else if k = 16 then Reg.selCfg else if k = 17 then Reg.qualCfg else if k = 18 then Reg.loopCfg
  else if k = 19 then Reg.transCfg else if k = 20 then Reg.qlCfg else Reg.refinCfg (k - 21)

/-- A word's fields lie in their ranges and its reserved bits are 0. -/
def rcOk (k : Nat) (w : Word) : Bool :=
  decide (w &&& ~~~((regSpec (rcReg k)).rws) = 0) &&
  (if k < 16 then
     let src := bits w 21 16
     let ovr := bits w 3 0
     (decide (src ≤ 35) || decide (src = 37)) && (decide (ovr = 0) || qlValid ovr)
   else if k = 16 then decide (bits w 27 16 ≤ 3600) && decide (1 ≤ bits w 15 0) && decide (bits w 15 0 ≤ 3600)
   else if k = 17 then decide (1 ≤ bits w 10 0) && decide (bits w 10 0 ≤ 2000)
   else if k = 18 then decide (1 ≤ bits w 31 16) && decide (bits w 31 16 ≤ 3600) && decide (1 ≤ bits w 13 0)
     && decide (bits w 13 0 ≤ 10000)
   else if k = 19 then decide (1 ≤ bits w 15 0)
   else if k = 20 then true
   else decide (1 ≤ bits w 29 0) && decide (bits w 29 0 ≤ 800000000))

/-- No two used entries of a table name one source (R313). -/
def prioTableOk (ws : List Word) : Bool :=
  decide ((ws.filter (fun w => decide (bits w 11 8 ≠ 0))).map (fun w => bits w 21 16)).Nodup

/-- The first selection-period boundary at least 16 ticks on (R314, R319). -/
def State.nextBoundary (s : State) : Nat := ceilDiv (s.secClock + 16) 8000 * 8000

def rcWords (e : JEntry) : List Word := (words32 26 e.bytes).map (BitVec.ofNat 32)
def rcPicks (e : JEntry) (k : Nat) : Bool := decide (e.f 4 4 / 2 ^ k % 2 = 1)

/-- An entry as it will stand once the REF_CONFIGs that wait have been applied (R313). -/
def State.prioAhead (s : State) (k : Nat) : Word :=
  s.str.cfgs.foldl (fun w c => if c.mask / 2 ^ k % 2 = 1 then c.words.getD k 0 else w) (s.reg (Reg.refPrio k))

/-- An entry as it is kept: ALIGN is 1 for source 37 (R313). -/
def prioWord (w : Word) : Word := if bits w 21 16 = 37 then w ||| 0x400000 else w

/-- A register write to an entry may stand: it names a source of the table, and no other entry in use names it (R299, R313). A write
that may not leaves the register as it is (log 78). -/
def State.prioFits (s : State) (k : Nat) (w : Word) : Bool :=
  (decide (bits w 21 16 ≤ 35) || decide (bits w 21 16 = 37))
  && prioTableOk ((List.range 16).map (fun i => if i = k then w else s.reg (Reg.refPrio i)))

def chkRefConfig : Check := fun e s =>
  let ws := rcWords e
  let table := (List.range 16).map (fun k => if rcPicks e k then ws.getD k 0 else s.prioAhead k)
  let ok := decide (e.bytes.length = 104) && decide (e.f 4 4 < 2 ^ 25) && decide (ws.getD 25 0 = 0)
    && (List.range 25).all (fun k => !rcPicks e k || rcOk k (ws.getD k 0)) && prioTableOk table
  (firstErr [need ok eRange, need (!s.str.cfgs.any (fun c => decide (c.at_ = s.nextBoundary))) eConflict], 0)

def effRefConfig : Effect := fun h e s =>
  let at_ := s.nextBoundary
  let c : RefCfg := ⟨h, at_, e.f 4 4, rcWords e⟩
  (s.onStr (fun x => { x with cfgs := x.cfgs ++ [c] })).recEvt 1 h at_ 0

/-- REF_CONFIG. -/
def execRefConfig (h : Nat) (s : State) : Out := .next (s.runCmd 0x50 chkRefConfig effRefConfig h)

/-- The REF_CONFIG whose boundary has come. -/
def State.cfgDue (s : State) : Option RefCfg := if s.atPeriod then s.str.cfgs.find? (fun c => decide (c.at_ ≤ s.secClock)) else none

/-- The words of a REF_CONFIG take effect; a transition keeps the offset it has reached, and a changed TRACK_BW applies in one step
(R313, R314, R322). Where the Starter's work of the tick is discarded they wait for the next boundary (R23, log 74). -/
def State.cfgNow (s : State) : State :=
  match (if s.drops 7 then none else s.cfgDue) with
  | none => s
  | some c =>
    let o := s.offsetNow
    let bw := bits (s.reg Reg.loopCfg) 13 0
    let s := s.onStr (fun x => { x with cfgs := x.cfgs.filter (fun y => y.h ≠ c.h), offset := o, offTick := s.clk.tick })
    let s := (List.range 25).foldl (fun (s : State) k =>
      if c.mask / 2 ^ k % 2 = 1 then s.setReg (rcReg k) (if k < 16 then prioWord (c.words.getD k 0) else c.words.getD k 0)
      else s) s
    let s := if bits (s.reg Reg.loopCfg) 13 0 ≠ bw ∧ s.str.st = .locked then s.onStr (fun x => { x with bwStep := 4 }) else s
    s.complete c.h 0 c.at_ 0

def chkRefForce : Check := fun e s =>
  let a := e.f 4 1
  let k := e.f 5 1
  let range := decide (a ≤ 4) && decide (k ≤ 15) && (decide (a ≤ 2) || decide (k = 0))
    && (decide (2 < a) || decide (s.entPrio k ≠ 0))
  let state := decide (a ≠ 4) || (!s.str.followMate && s.str.complete (s.secClock / ticksPerSecond))
  (firstErr [need range eRange, need state eState], 0)

def effRefForce : Effect := fun h e s =>
  let at_ := s.nextBoundary
  let c : RefForce := ⟨h, at_, e.f 4 1, e.f 5 1⟩
  (s.onStr (fun x => { x with forces := x.forces ++ [c] })).recEvt 1 h at_ 0

/-- REF_FORCE. -/
def execRefForce (h : Nat) (s : State) : Out := .next (s.runCmd 0x51 chkRefForce effRefForce h)

/-- An action of REF_FORCE (R319). -/
def Str.force (x : Str) (a k : Nat) : Str :=
  if a = 0 then { x with forced := some k }
  else if a = 1 then { x with lockout := if k ∈ x.lockout then x.lockout else x.lockout ++ [k] }
  else if a = 2 then
    { x with forced := if x.forced = some k then none else x.forced, lockout := x.lockout.filter (fun j => j ≠ k) }
  else if a = 3 then { x with forced := none, lockout := [], hoForced := false, hoDone := false }
  else { x with hoForced := true, hoDone := false }

/-- The REF_FORCE whose boundary has come. -/
def State.forceDue (s : State) : Option RefForce := if s.atPeriod then s.str.forces.find? (fun c => decide (c.at_ ≤ s.secClock)) else none

/-- The action of a REF_FORCE takes effect (R319). -/
def State.forceNow (s : State) : State :=
  match (if s.drops 7 then none else s.forceDue) with
  | none => s
  | some c =>
    let s := s.onStr (fun x => { x.force c.action c.entry with forces := x.forces.filter (fun y => y.h ≠ c.h) })
    s.complete c.h 0 c.at_ 0

/-- The REF_CONFIG and REF_FORCE actions of this boundary, ahead of its selection outcome (R314, R319). -/
def State.refsNow (s : State) : State :=
  let s := s.str.cfgs.foldl (fun (t : State) _ => t.cfgNow) s
  s.str.forces.foldl (fun (t : State) _ => t.forceNow) s

/-! ### Phase steps (R333 to R337) -/

/-- S of a PHASE_STEP, and its change per tick. -/
def psS (e : JEntry) : Int := (BitVec.ofNat 32 (e.f 8 4)).toInt
def psC (e : JEntry) : Nat := if e.f 4 1 = 0 then 2500 else e.f 6 2
/-- The number of ticks a step takes (R334). -/
def stepTicks (a : Int) (c : Nat) : Nat := ceilDiv a.natAbs c

/-- Refusals of PHASE_STEP in the order of R336. -/
def chkPhaseStep : Check := fun e s =>
  let a := psS e
  let n := e.f 16 8
  let range := decide (e.f 4 1 ≤ 1) && decide (a.natAbs ≤ 500000)
    && (if e.f 4 1 = 0 then decide (e.f 6 2 = 0) else decide (1 ≤ e.f 6 2) && decide (e.f 6 2 ≤ 1000))
  let m := stepTicks a (psC e)
  let all := s.str.steps ++ s.str.step.toList
  let clash := all.any (fun x => decide (x.n = n) || (decide (n < x.n + x.m) && decide (x.n < n + m)))
  (firstErr [need range eRange, if s.clk.tnValid then s.leadCheck n else 0,
    need (s.clk.tnValid && decide (s.str.st ≠ .acquiring)) eState, need (!clash) eConflict], 0)

def effPhaseStep : Effect := fun h e s =>
  let x : Step := ⟨h, e.f 16 8, psS e, psC e, stepTicks (psS e) (psC e)⟩
  (s.onStr (fun y => { y with steps := y.steps ++ [x] })).recEvt 1 h (e.f 16 8) 0

/-- PHASE_STEP. -/
def execPhaseStep (h : Nat) (s : State) : Out := .next (s.runCmd 0x52 chkPhaseStep effPhaseStep h)

/-- The phase step that names this tick. -/
def State.stepDue (s : State) : Option Step := s.str.steps.find? (fun x => s.dueAt x.n)

/-- A phase step that begins; one before it that has run is part of the loop's phase target by then (R334, R335). -/
def Str.begin_ (y : Str) (x : Step) : Str :=
  { y with step := some x, phase := match y.step with | some o => y.phase + o.s | none => y.phase }

/-- The phase step of this tick begins; where the Starter's work of the tick is discarded it is left out, and its command
completes with E_ABORTED (R23, log 74). -/
def State.stepNow (s : State) : State :=
  match s.stepDue with
  | none => s
  | some x =>
    let s := s.onStr (fun y => { y with steps := y.steps.filter (fun z => z.h ≠ x.h) })
    if s.drops 7 then s.complete x.h eAborted x.n 0
    else (s.onStr (fun y => y.begin_ x)).complete x.h 0 x.n 0

/-- PHASE_STEP_END: the step is part of the loop's phase target (R334, R335). -/
def execPhaseStepEnd (s : State) : Out :=
  whenUp s (
    match s.str.step with
    | some x => if x.n + x.m ≤ s.tnNow + 1 then s.onStr (fun y => { y with step := none, phase := y.phase + x.s }) else s
    | none => s)

/-! ### The tick number and time of day (R24 to R32, R301, R302) -/

/-- A write of 1 to STR_TN_CTRL.LOAD: TN is loaded at the next tick boundary where SRC is 3 and VALID is 0 (R26, R31). -/
def State.askLoad (s : State) : State :=
  if s.tnSrc = 3 ∧ s.clk.tnValid = false ∧ s.sealed = false then { s with clk := { s.clk with loadReq := true } } else s

/-- TN_LOAD: the owner writes 1 to LOAD; the value is taken at the next tick boundary (R26). -/
def execTnLoad (qp : Fin 16) (s : State) : Out := whenUp s (s.ownerWrite qp State.askLoad)

/-- A message of R301 with a CRC that fits and VALID set: the second it names and its QL. -/
def todOk (b : List Byte) : Option (Nat × Nat) :=
  if b.length = 16 ∧ leAt b 0 1 = 0xA5 ∧ leAt b 1 1 = 0x5C ∧ leAt b 2 1 = 1 ∧ leAt b 3 1 % 2 = 1
      ∧ crc16 (bytesBits (b.take 14)) = BitVec.ofNat 16 (beNat (b.drop 14)) then
    some (beNat ((b.drop 4).take 6), leAt b 10 1 % 16)
  else none

/-- TOD_MESSAGE: the last stop bit arrives in this tick. -/
def execTodMessage (bytes : List Byte) (s : State) : Out :=
  whenUp s (
    match todOk bytes with
    | some (sec, ql) => { s with clk := { s.clk with todMsg := some (sec, ql, s.clk.tick) } }
    | none => s)

/-- A PPS_IN edge without a valid message: the fourth in a row disqualifies source 37 (R309). -/
def State.missedEdge (s : State) : State :=
  let s := { s with clk := { s.clk with todMiss := s.clk.todMiss + 1 } }
  if s.clk.todMiss = 4 ∧ (s.src 37).active then s.disqualify 37 7 else s

/-- A PPS_IN edge that follows a valid message (R26, R30). -/
def State.edgeWith (s : State) (sec ql : Nat) : State :=
  let s := { s with clk := { s.clk with todMiss := 0, todMsg := none } }
  let s := if qlValid ql then s else s.setSticky (Reg.srcStatus 37) 0x00080000
  let s := s.setSrc 37 { s.src 37 with qlRx := if qlValid ql then ql else 15 }
  if s.tnSrc ≠ 1 then s
  else if !s.clk.tnValid then { s with clk := { s.clk with tnValid := true, tn := ticksPerSecond * sec } }
  else if (s.clk.tn + ticksPerSecond / 2) / ticksPerSecond = sec then s
  else (s.setSticky Reg.tnStatus 1).event [0] 0x0002 0 (ticksPerSecond * sec)

/-- An edge of PPS_IN: source 37 is active (R307). -/
def State.ppsEdge (s : State) : State :=
  s.setSrc 37 { s.src 37 with active := true, edgeAt := s.clk.tick, lostAt := none }

/-- PPS_IN_EDGE: the message counts when its last stop bit came 990 ms to 10 ms before (R302). -/
def execPpsInEdge (s : State) : Out :=
  whenUp s (
    let s := s.ppsEdge
    match s.clk.todMsg with
    | some (sec, ql, t) =>
      if t + 80000 ≤ s.clk.tick ∧ s.clk.tick ≤ t + 7920000 then s.edgeWith sec ql else s.missedEdge
    | none => s.missedEdge)

/-- The TOD_OUT message that names a second (R301, R306). -/
def State.todBytes (s : State) (sec : Nat) : List Byte :=
  let i := s.fresh
  let fl := b2n s.clk.tnValid + 2 * ((Config.todInfo i).toNat % 2)
  let b := [(0xA5 : Byte), 0x5C, 1, BitVec.ofNat 8 fl] ++ beBytes 6 sec
    ++ [BitVec.ofNat 8 s.qlOut, Config.todInfo (i + 1), 0, 0]
  b ++ beBytes 2 (crc16 (bytesBits b)).toNat

/-- TOD_OUT_SEND: half a second before the edge that the message names (R302). -/
def execTodOutSend (s : State) : Out :=
  let t := s.secClock
  whenUp s (
    if t % ticksPerSecond = 4000000 then
      { s with clk := { s.clk with todOut := some (s.todBytes (t / ticksPerSecond + 1)) }, fresh := s.fresh + 2 }
    else s)

end Sys2Proof.Machine
end

