-- ==== Sys2Proof/Machine/Calrin.lean ====
section
/-! DEFINITION. Calrin and the roles of a mate pair (10_mate_pair): the Ladle record's bytes, its sealing and reception,
heartbeat, yields and takeovers. -/
namespace Sys2Proof.Machine

/-! ### The record's bytes (R384 to R387) -/

def strBytes (x : LStr) : List Byte :=
  beBytes 6 (BitVec.ofInt 48 x.word).toNat ++ beBytes 2 (x.st * 2 ^ 13 + x.sel)
  ++ beBytes 6 (BitVec.ofInt 48 x.offset).toNat ++ beBytes 6 (BitVec.ofInt 48 x.hoValue).toNat ++ List.replicate 12 0
def ringBytes (x : LRing) : List Byte := beBytes 1 x.ring ++ beBytes 1 x.kind ++ [0, 0] ++ beBytes 4 x.index
/-- The 128 bytes of a descriptor. -/
def descAll (d : Desc) : List Byte := descBytes d ++ leBytes 16 d.tag.toNat
def accBytes (x : LAcc) : List Byte :=
  beBytes 1 x.ring ++ beBytes 1 x.prin ++ beBytes 2 x.h ++ beBytes 4 x.tn ++ descAll x.d
def lcmpBytes (x : LCmp) : List Byte := beBytes 1 x.ring ++ [0] ++ beBytes 2 x.h ++ beBytes 4 x.slot ++ cmpBytes x.c 0
def mapBytes (x : LMap) : List Byte :=
  beBytes 8 (x.h % 2 ^ 16 * 2 ^ 48 + x.slot * 2 ^ 29 + x.bits % 2 ^ 23 * 2 ^ 6 + x.outcome * 2 ^ 4)
def levtBytes (x : LEvt) : List Byte :=
  beBytes 1 x.kind ++ [0] ++ beBytes 2 x.object ++ beBytes 8 x.tick ++ beBytes 4 x.value

/-- The sections in order, without the snapshot. -/
def LRec.sections (r : LRec) : List Byte :=
  strBytes r.str ++ r.rings.flatMap ringBytes ++ r.accs.flatMap accBytes ++ r.cmps.flatMap lcmpBytes
  ++ r.maps.flatMap mapBytes ++ r.evts.flatMap levtBytes ++ r.cnts.flatMap (beBytes 3)

/-- The record with a CRC field. -/
def LRec.withCrc (r : LRec) (crc : Nat) : List Byte :=
  let body := r.sections ++ r.snap
  let fl := b2n r.yield_ + 2 * b2n r.thin + 4 * b2n (!r.snap.isEmpty)
  beBytes 8 r.tn ++ beBytes 2 (32 + body.length) ++ beBytes 1 fl ++ beBytes 1 r.rings.length ++ beBytes 1 r.accs.length
  ++ beBytes 1 r.cmps.length ++ beBytes 1 r.maps.length ++ beBytes 1 r.evts.length ++ beBytes 2 r.cnts.length ++ [0, 0]
  ++ beBytes 4 r.snapOff ++ beBytes 4 0 ++ beBytes 4 crc ++ body

/-- The bytes of a record. -/
def LRec.bytes (r : LRec) : List Byte := r.withCrc (crc32 (r.withCrc 0)).toNat

/-- `n` entries of `w` bytes read by `f`. -/
def entries {α : Type} (f : List Byte → α) (w : Nat) : Nat → List Byte → List α
  | 0, _ => []
  | n + 1, l => f (l.take w) :: entries f w n (l.drop w)

def beAt (l : List Byte) (off n : Nat) : Nat := beNat ((l.drop off).take n)
def int48 (v : Nat) : Int := (BitVec.ofNat 48 v).toInt

def readStr (l : List Byte) : LStr :=
  ⟨int48 (beAt l 0 6), beAt l 6 2 / 2 ^ 13, beAt l 6 2 % 16, int48 (beAt l 8 6), int48 (beAt l 14 6)⟩
def readRing (l : List Byte) : LRing := ⟨beAt l 0 1, beAt l 1 1, beAt l 4 4⟩
def readDesc (l : List Byte) : Desc :=
  ⟨leAt l 0 1, BitVec.ofNat 8 (leAt l 1 1), leAt l 2 1, leAt l 8 8, BitVec.ofNat 768 (leAt l 16 96),
    BitVec.ofNat 128 (leAt l 112 16)⟩
def readAcc (l : List Byte) : LAcc := ⟨beAt l 0 1, beAt l 1 1, beAt l 2 2, beAt l 4 4, readDesc (l.drop 8)⟩
/-- A completion entry from its 32 bytes (R432). -/
def readCmp (l : List Byte) : CmpEntry :=
  ⟨leAt l 0 8, leAt l 8 1, leAt l 9 1, decide (leAt l 10 1 / 2 % 2 = 1), leAt l 11 1, BitVec.ofNat 32 (leAt l 12 4),
    leAt l 16 8, BitVec.ofNat 64 (leAt l 24 8)⟩
def readLCmp (l : List Byte) : LCmp := ⟨beAt l 0 1, beAt l 2 2, beAt l 4 4, readCmp (l.drop 8)⟩
def readMap (l : List Byte) : LMap :=
  let v := beAt l 0 8
  ⟨v / 2 ^ 48, v / 2 ^ 29 % 2 ^ 19, v / 2 ^ 6 % 2 ^ 23, v / 2 ^ 4 % 4⟩
def readEvt (l : List Byte) : LEvt := ⟨beAt l 0 1, beAt l 2 2, beAt l 4 8, beAt l 12 4⟩

/-- Read a record; none when its RCRC fails or its length does not fit. -/
def readRec (l : List Byte) : Option LRec :=
  let len := beAt l 8 2
  let b := l.take len
  if len < 64 ∨ l.length < len ∨ crc32 (b.take 28 ++ [0, 0, 0, 0] ++ b.drop 32) ≠ BitVec.ofNat 32 (beAt b 28 4) then none
  else
    let fl := beAt b 10 1
    let nr := beAt b 11 1
    let na := beAt b 12 1
    let nc := beAt b 13 1
    let nm := beAt b 14 1
    let ne := beAt b 15 1
    let nn := beAt b 16 2
    let p0 := b.drop 64
    let p1 := p0.drop (8 * nr)
    let p2 := p1.drop (136 * na)
    let p3 := p2.drop (40 * nc)
    let p4 := p3.drop (8 * nm)
    let p5 := p4.drop (16 * ne)
    some {
      tn := beAt b 0 8
      yield_ := fl % 2 = 1
      thin := fl / 2 % 2 = 1
      str := readStr (b.drop 32)
      rings := entries readRing 8 nr p0
      accs := entries readAcc 136 na p1
      cmps := entries readLCmp 40 nc p2
      maps := entries readMap 8 nm p3
      evts := entries readEvt 16 ne p4
      cnts := entries beNat 3 nn p5
      snap := p5.drop (3 * nn)
      snapOff := beAt b 20 4 }

/-! ### Ports and roles (R375, R383, R391) -/

/-- A Calrin port works while both of its lanes are in frame. -/
def State.portWorks (s : State) (p : Nat) : Bool :=
  s.cal.lanesUp.getLsbD (2 * p) && s.cal.lanesUp.getLsbD (2 * p + 1)
def State.anyPort (s : State) : Bool := s.portWorks 0 || s.portWorks 1
/-- The pair runs thin. -/
def State.thin (s : State) : Bool := s.mated && (s.portWorks 0 != s.portWorks 1)

/-- This device is the primary (R375). -/
def State.primary (s : State) : Bool :=
  match s.cal.matePrimary with
  | some m => if m = s.primaryCfg ∨ s.cal.matePlane = s.plane then decide (s.plane = 1) else s.primaryCfg
  | none => s.primaryCfg

/-- The mate's heartbeat has shown none for `m` ticks. -/
def State.hbSilent (s : State) (m : Nat) : Bool :=
  decide (s.cal.mateHb = .none) && decide (s.cal.hbNoneSince.getD 0 + m ≤ s.clk.tick + 1)

/-- LONE (R391). -/
def State.setLone (s : State) : State :=
  { s with cal := { s.cal with lone := s.hbSilent 16 || decide (s.cal.mateRole = 3) || decide (s.cal.mateRole = 4) } }

/-- Put the accepted commands that the journal does not record as executed back to be executed from their descriptors; a
batch resumes after its last recorded write (R409). -/
def State.resumeJournal (s : State) : State :=
  let sched := fun (h : Nat) => s.flp.flips.any (fun x => x.h = h) || s.flp.seqs.any (fun x => x.h = h)
    || s.flp.fab.any (fun x => x.h = h) || s.col.acts.any (fun x => x.h = h) || s.sds.loops.any (fun x => x.h = h)
    || s.sds.scans.any (fun x => x.h = h) || s.str.cfgs.any (fun x => x.h = h) || s.str.forces.any (fun x => x.h = h)
    || s.str.steps.any (fun x => x.h = h) || s.cnt.presets.any (fun x => x.h = h)
    || s.cnt.dumpCfgs.any (fun x => x.h = h) || s.restarts.any (fun x => x.h = h) || s.flp.jobs.any (fun x => x.h = h)
  let jobs := s.flp.jobs.map (fun (j : MapJob) =>
    match s.job j.h with
    | some e => { j with rest := (mapEntries (e.f 8 4) (e.items 16 48)).drop j.idx }
    | none => j)
  let f := fun (e : JEntry) (h : Nat) =>
    let e := { e with acked := true }
    if e.accepted.isSome ∧ e.cmp.isNone ∧ e.origin = .ring ∧ sched h = false then { e with resume := true } else e
  { s with
    flp := { s.flp with jobs := jobs }
    mgp := { s.mgp with journal := s.mgp.journal.map (fun p => (p.1, f p.2 p.1)) } }

/-- The completions that are journaled and not yet posted, in the order of their slots, those without one last. -/
def State.refillOverflow (s : State) (r : Nat) : State :=
  let x := s.ring r
  let js := s.mgp.journal.filter (fun p => decide (p.2.ring = r) && decide (p.2.origin = .ring) && p.2.cmp.isSome
    && (match p.2.slot with | some k => decide (x.cmpProd ≤ k) | none => true))
  let key : JEntry → Nat := fun e => match e.slot with | some k => k | none => x.cmpProd + 2 ^ 32
  let l := sortBy (fun (a b : Nat × JEntry) => decide (key a.2 ≤ key b.2)) js
  let s := s.setRing r { x with overflow := l.map (fun p => p.1), dirty := true }
  l.zipIdx.foldl (fun (s : State) z => s.setJob z.1.1 (fun e => { e with slot := some (x.cmpProd + z.2) })) s

/-- The device becomes ACTIVE: it writes nothing to host memory for 8,000 ticks and executes what is accepted (R409). -/
def State.becomeActive (s : State) : State :=
  let s := s.resumeJournal
  let s := (List.range 16).foldl (fun (s : State) r => if (s.ring r).st = .unbound then s else s.refillOverflow r) s
  let s := { s with cal := { s.cal with holdUntil := some (s.clk.tick + 8000), cur := {}, ackTick := s.clk.tick,
                                         yieldAt := none, store := [], shares := [], snap := [], t0 := none } }
  (s.setRole .active).setLone

/-- The device enters SYNCING and applies nothing until a snapshot starts (R393, R401). -/
def State.enterSyncing (s : State) : State :=
  let s := { s with cal := { s.cal with yieldAt := none, cur := {}, store := [], owed := [], shares := [], t0 := none, snap := [],
                                         snapDone := false, passFrom := 0, passOk := false, diffPeriods := 0,
                                         diffSeen := true, ackOwn := none } }
  s.setRole .syncing

/-- A lost record (R390). -/
def State.recordGap (s : State) : State :=
  let s := s.setSticky Reg.mateStatus 0x00080000
  if s.cal.role = .standby then
    let ack := s.cal.ackOwn
    let s := s.enterSyncing
    { s with cal := { s.cal with ackOwn := ack } }
  else { s with cal := { s.cal with store := [], shares := [], t0 := none, snapDone := false } }

/-- What follows from the heartbeat and the ports for the present role (R395, R399). -/
def State.resolve (s : State) : State :=
  match s.cal.role, s.cal.mateHb with
  | .suspended, .active => s.setRole .detached
  | .suspended, .standby => if s.anyPort then s.yield 8 else s
  | .detached, .active => if s.anyPort then s.enterSyncing else s
  | _, _ => s

/-! ### Sealing (R20, R380, R381, R387) -/

/-- The last index of each ring and kind. -/
def lastIdx (l : List LRing) : List LRing :=
  l.zipIdx.filterMap (fun (z : LRing × Nat) =>
    if (l.drop (z.2 + 1)).any (fun y => decide (y.ring = z.1.ring) && decide (y.kind = z.1.kind)) then none else some z.1)

/-- Events of kinds 1 and 2 go ahead of the others. -/
def evtOrder (l : List LEvt) : List LEvt :=
  l.filter (fun e => decide (e.kind = 1) || decide (e.kind = 2)) ++ l.filter (fun e => !(decide (e.kind = 1) || decide (e.kind = 2)))

/-- STATE of the Starter as a number (R341). -/
def StrState.num : StrState → Nat
  | .freeRun => 0 | .acquiring => 1 | .locked => 2 | .holdover => 3 | .lost => 4

/-- The record of this tick and what is carried on. -/
def State.sealRec (s : State) : LRec × LRec :=
  let c := s.cal.cur
  let rs := lastIdx c.rings
  let es := evtOrder c.evts
  let x := s.str
  let r : LRec := {
    tn := s.tnNow
    yield_ := c.yield_
    thin := s.thin
    str := ⟨x.word, x.st.num, x.sel.getD 0, s.offsetNow.tdiv 1000, x.hoValue⟩
    rings := rs.take 8
    accs := c.accs.take 4
    cmps := c.cmps.take 12
    maps := c.maps.take 32
    evts := es.take 8
    cnts := if s.thin then [] else ((s.countKeys s.secClock).map (fun k => (s.retOf k).own.getD 0)).take 1536 }
  (r, { rings := rs.drop 8, accs := c.accs.drop 4, cmps := c.cmps.drop 12, maps := c.maps.drop 32, evts := es.drop 8 })

/-- Add the next bytes of a snapshot while the mate synchronises (R401). -/
def State.addSnap (s : State) (r : LRec) : State × LRec :=
  if s.cal.mateRole ≠ 3 then ({ s with cal := { s.cal with t0 := none } }, r)
  else
    let s := match s.cal.t0 with
      | some _ => s
      | none => { s with cal := { s.cal with t0 := some r.tn, snap := Config.snapImage r.tn, snapOff := 0 } }
    let room := (if r.thin then 1536 else 6144) - 32 - r.sections.length
    let part := s.cal.snap.take room
    ({ s with cal := { s.cal with snap := s.cal.snap.drop room, snapOff := s.cal.snapOff + part.length } },
     { r with snap := part, snapOff := if part.isEmpty then 0 else s.cal.snapOff })

/-- A Calrin header (R380). -/
def State.calHdr (s : State) (lane : Nat) : BitVec 128 :=
  let ack := match s.cal.ackOwn with | some a => some (min a (s.tnNow - 3)) | none => none
  let h := 0x3C5A96E1 * 2 ^ 96 + lane * 2 ^ 94 + s.plane * 2 ^ 92 + s.cal.role.num * 2 ^ 89 + b2n s.thin * 2 ^ 88
    + b2n s.cal.reclaimOut * 2 ^ 87 + b2n ack.isSome * 2 ^ 86 + (s.tnNow + 1) % 2 ^ 24 * 2 ^ 62
    + ack.getD 0 % 2 ^ 24 * 2 ^ 38 + b2n s.primary * 2 ^ 37
  BitVec.ofNat 128 (h + (crc16 ((msbBits (BitVec.ofNat 128 h)).take 112)).toNat)

/-- The share of a lane (R381, R383). -/
def shareOf (thin : Bool) (b : List Byte) (lane : Nat) : List Byte :=
  let p := if thin then b.take 1536 else (b.drop (1536 * lane)).take 1536
  p ++ List.replicate (1536 - p.length) 0

/-- Keystream of a record share: 96 blocks under a record key, with the frame's TN and the lane (R491). -/
def shareStream (key : BitVec 256) (tn lane : Nat) : List Byte :=
  (List.range 96).flatMap (fun i =>
    beBytes 16 (Config.aes256 key (BitVec.ofNat 128 (tn % 2 ^ 64 * 2 ^ 64 + lane * 2 ^ 56 + i))).toNat)

/-- A record share under the keystream of one direction; in clear while the link is not keyed. -/
def State.maskShare (s : State) (rx : Bool) (tn lane : Nat) (b : List Byte) : List Byte :=
  match s.fab.calrin.keys with
  | some k => List.zipWith (fun x y => x ^^^ y) b (shareStream (if rx then k.recRx else k.recTx) tn lane)
  | none => b

/-- Calrin lanes in frame. -/
def State.calLanes (s : State) : List Nat := (List.range 4).filter (fun l => s.cal.lanesUp.getLsbD l)

/-- The frame that a lane starts in the next tick. -/
def State.calFrame (s : State) (bytes : List Byte) (l : Nat) : State × CalOut :=
  let (t, o) := s.linkFragment .calrin s.calLanes l (256 + l) l 1 0
  (t, ⟨l, s.calHdr l, o, s.maskShare false (s.tnNow + 1) l (shareOf s.thin bytes l)⟩)

/-- The record of this tick, sealed, and its bytes; a member that is not ACTIVE or SUSPENDED has none (R384, R387). -/
def State.sealOwn (s : State) : State × List Byte :=
  if s.cal.role = .active ∨ s.cal.role = .suspended then
    let y := s.addSnap s.sealRec.1
    let left := s.sealRec.2
    let r := y.2
    let s := r.cmps.foldl (fun (s : State) c => s.setJob c.h (fun e => { e with recTn := some r.tn })) y.1
    ({ s with cal := { s.cal with cur := left, sealed_ := some r } }, r.bytes)
  else ({ s with cal := { s.cal with sealed_ := none } }, [])

/-- Seal the tick's record and compose the frames of the next tick. -/
def State.sealTick (s : State) : State :=
  let x := s.sealOwn
  let z := (List.range 4).foldl (fun (x' : State × List CalOut) l =>
    let y := x'.1.calFrame x.2 l
    (y.1, x'.2 ++ [y.2])) (x.1.routeMsgs, [])
  { z.1 with cal := { z.1.cal with out := z.2 } }

/-- The record of this tick is due: the device is a sealed member of a mate pair. -/
def State.sealDue (s : State) : Bool := s.mated && s.sealed && s.clk.tnValid && !s.clk.sealDone

/-- Seal the record of this tick. A Ladle whose work of the tick is discarded seals none: its frames carry no record, and
what it holds goes into the next one (R23, log 74). -/
def State.sealNow (s : State) : State :=
  let s := { s with clk := { s.clk with sealDone := true } }
  if s.drops 5 then { s with cal := { s.cal with sealed_ := none, out := [] } } else s.sealTick

/-! ### Frames (R379, R381, R389, R390) -/

def calRole (h : BitVec 128) : Nat := bits h 91 89
def calPlane (h : BitVec 128) : Nat := bits h 93 92
def calSeq (h : BitVec 128) : BitVec 24 := BitVec.ofNat 24 (bits h 85 62)
def calAck (h : BitVec 128) : Option (BitVec 24) := if bit h 86 then some (BitVec.ofNat 24 (bits h 61 38)) else none

/-- A header of this lane passes: ALIGN in all but at most two bits, its CRC and its lane (R115, R379, R380). -/
def calGood (lane : Nat) (h : BitVec 128) : Bool :=
  decide (popCount (BitVec.ofNat 32 (bits h 127 96) ^^^ 0x3C5A96E1) ≤ 2) && decide (crc16 (msbBits h) = 0)
  && decide (bits h 95 94 = lane)

/-- The frame of a lane from its levels at the pins: the header before RS decoding, two codewords, the scrambler, the share and
its CRC-32 (R378, R379); as decoded where the command gives no levels. -/
def State.readCal (s : State) (lane : Nat) (f : CalFrame) : CalFrame :=
  if f.line.isEmpty then f
  else
    let l := grayBits (if s.calInverted lane 2 then f.line.map (fun p => 3 - p) else f.line)
    let z := (decodeWords 650 2 l).1
    let info := z.take 128 ++ prbs31 (prbsSeed (0x3FC + lane)) (z.drop 128)
    let crc := ~~~ ((info.take 12928).foldl (crcStep 0x04C11DB7#32) 0xFFFFFFFF#32)
    { f with
      hdr := BitVec.ofNat 128 (ofMsb (l.take 128))
      ovh := BitVec.ofNat 512 (ofMsb ((info.drop 128).take 512))
      share := (List.range 1536).map (fun b => BitVec.ofNat 8 (ofMsb ((info.drop (640 + 8 * b)).take 8)))
      crcOk := decide (BitVec.ofNat 32 (ofMsb ((info.drop 12928).take 32)) = crc) }

/-- What a header in HUNT lets the next one at its position confirm, and the acceptance that it may be (R117). -/
def CalRx.hunt (x : CalRx) (now pos : Nat) (pass : Bool) (seq : BitVec 24) : CalRx × Bool :=
  let ok := pass && decide (x.cands.look none pos = some seq)
  let y := { x with cands := Tab.put none x.cands pos (if pass then some (seq + 1) else none) }
  if ok then ({ y with align := .inFrame, pos := pos, bad := 0, acc := some (now, x.align, x.pos, x.bad) }, true) else (y, false)

/-- The acceptance of this tick is undone (R120). -/
def CalRx.undo (x : CalRx) : CalRx :=
  match x.acc with
  | some (_, a, p, b) => { x with align := a, pos := p, bad := b, acc := none }
  | none => x

/-- A header at the expected position (R118). -/
def CalRx.expected (x : CalRx) (pass : Bool) : CalRx × Bool :=
  if pass then ({ x with align := .inFrame, bad := 0 }, true)
  else
    let b := if x.align = .oof then x.bad + 1 else 1
    (if b ≥ 8 then { x with align := .hunt, bad := 0, cands := [], acc := none } else { x with align := .oof, bad := b }, false)

/-- One examined header moves the alignment of a Calrin receiver as R114 to R120 move a lane's, with n = 1; the frame counts where
the receiver stands at its position (R379). Two positions accepted in one frame length leave it as it was (R120). -/
def CalRx.take (x : CalRx) (now pos : Nat) (pass : Bool) (seq : BitVec 24) : CalRx × Bool :=
  match x.align with
  | .hunt => x.hunt now pos pass seq
  | _ =>
    if pos = x.pos then x.expected pass
    else match x.acc with
      | some (t, a, p, _) =>
        if t ≠ now then (if pass && decide (x.align = .oof) then
            ({ x with align := .inFrame, pos := pos, bad := 0, acc := some (now, x.align, x.pos, x.bad) }, true) else (x, false))
        else if a = .oof then
          (if p = pos then (if pass then x.undo.expected true else (x, false)) else if pass then (x.undo, false) else (x, false))
        else
          let y := x.hunt now pos pass seq
          if y.2 then ({ x.undo with cands := y.1.cands }, false) else ({ x with cands := y.1.cands }, false)
      | none =>
        if pass && decide (x.align = .oof) then
          ({ x with align := .inFrame, pos := pos, bad := 0, acc := some (now, x.align, x.pos, x.bad) }, true)
        else (x, false)

/-- Follow the alignment of a lane; the lane is up while it is in frame. -/
def State.calAlign (s : State) (lane pos : Nat) (good : Bool) (seq : BitVec 24) : State × Bool :=
  let y := (s.cal.rxs.look {} lane).take s.clk.tick pos good seq
  let m := BitVec.ofNat 4 (2 ^ lane)
  ({ s with cal := { s.cal with
      rxs := Tab.put {} s.cal.rxs lane y.1
      lanesUp := if y.1.align = .inFrame then s.cal.lanesUp ||| m else s.cal.lanesUp &&& ~~~m } }, y.2)

/-- Keying starts when a port begins to work, and the link's keys go when none does (R382, R489). -/
def State.calLink (s : State) (was : Bool) : State :=
  if !was && s.anyPort then s.startKeying .calrin
  else if was && !s.anyPort then s.calLinkDown
  else s

/-- Take a header's ACK at the sender of the records (R389, R395). -/
def State.takeAck (s : State) (a : BitVec 24) : State :=
  let t := (extend24 a s.tnNow).toNat
  let newer := match s.cal.ackRx with | some o => decide (o < t) | none => true
  if !newer then s
  else
    let s := { s with cal := { s.cal with ackRx := some t, ackTick := s.clk.tick } }
    if s.cal.role = .suspended ∧ s.cal.yieldAt.isNone then s.setRole .active else s

/-- The Cave of a returning device holds nothing from before T0 (R401). -/
def State.dropCave (s : State) : State :=
  { s with col := { s.col with pair := mapTab {} s.col.pair (fun p => { p with cave := [] }) } }

/-- Store a whole record; one that leaves a gap before it finds the earlier one lost (R388, R390). -/
def State.storeRec (s : State) (r : LRec) : State :=
  let start := !r.snap.isEmpty && decide (r.snapOff = 0)
  if s.cal.role = .syncing ∧ s.cal.t0.isNone then
    if start then
      let c := s.cal
      { s.dropCave with cal := { c with t0 := some r.tn, store := [r], snap := r.snap, snapDone := false, ackOwn := some r.tn } }
    else s
  else
    match s.cal.ackOwn with
    | some a =>
      if r.tn ≤ a ∧ s.cal.t0.isNone then s
      else if r.tn ≠ a + 1 then s.recordGap
      else
        let c := s.cal
        { s with cal := { c with
            ackOwn := some r.tn
            store := c.store ++ [r]
            snap := c.snap ++ r.snap
            snapDone := c.snapDone || (decide (c.role = .syncing) && r.snap.isEmpty) } }
    | none => { s with cal := { s.cal with ackOwn := some r.tn, store := s.cal.store ++ [r] } }

/-- Keep a share; the record is read once its shares are all held (R381, R383). -/
def State.takeShare (s : State) (lane tn : Nat) (thin : Bool) (b : List Byte) : State :=
  let sh := s.cal.shares.filter (fun x => decide (x.1 = tn) && decide (x.2.1 ≠ lane)) ++ [(tn, lane, b)]
  let s := { s with cal := { s.cal with shares := sh } }
  let get := fun (l : Nat) => match sh.find? (fun x => x.2.1 = l) with | some x => some x.2.2 | none => none
  let whole : Option (List Byte) :=
    if thin then some b
    else match get 0, get 1, get 2, get 3 with
      | some a, some b, some c, some d => some (a ++ b ++ c ++ d)
      | _, _, _, _ => none
  match whole with
  | none => s
  | some w =>
    let s := { s with cal := { s.cal with shares := [] } }
    match readRec w with
    | none => s.recordGap
    | some r => s.storeRec r

/-- Take a good header of the mate. -/
def State.takeCalHdr (s : State) (h : BitVec 128) : State :=
  let pr := bit h 37
  let s := { s with cal := { s.cal with matePrimary := some pr, matePlane := calPlane h, mateRole := calRole h } }
  let clash := decide (calPlane h = s.plane) || decide (pr = s.primaryCfg)
  let s := if clash then s.setSticky Reg.mateStatus 0x00100000 else s
  let s := s.setLone
  let ours := decide (s.cal.role = .active) || decide (s.cal.role = .suspended)
  let s : State := match calAck h with | some a => if ours then s.takeAck a else s | none => s
  if bit h 87 && decide (s.cal.role = Role.active) then State.yield s 7 else s

/-- Take a good frame of a sender of records. -/
def State.takeRecord (s : State) (lane : Nat) (f : CalFrame) : State :=
  let sends := decide (calRole f.hdr = 1) || decide (calRole f.hdr = 5)
  if !s.copies || !sends then s
  else
    let tn := (extend24 (calSeq f.hdr - 1) s.tnNow).toNat
    if f.crcOk then
      let s := { s with cal := { s.cal with recTick := s.clk.tick } }
      match s.cal.ackOwn with
      | some a => if tn ≤ a then s else s.takeShare lane tn (bit f.hdr 88) (s.maskShare true (tn + 1) lane f.share)
      | none => s.takeShare lane tn (bit f.hdr 88) (s.maskShare true (tn + 1) lane f.share)
    else s.recordGap

/-- CALRIN_FRAME: a frame of a Calrin lane, examined at its position on the line. A mate of the same PLANE keeps the link down
(R375). -/
def execCalrinFrame (lane : Fin 4) (f : CalFrame) (s : State) : Out :=
  whenUp s (
    if s.mated = false ∨ s.sds.bt.held.isNone ∨ 6800 ≤ f.pos then s
    else
      let f := s.readCal lane f
      let was := s.anyPort
      let same := decide (calPlane f.hdr = s.plane)
      let good := calGood lane f.hdr
      if good && same then s.setSticky Reg.mateStatus 0x00100000
      else
        let z := s.calAlign lane f.pos good (calSeq f.hdr)
        let s := z.1.calLink was
        let s := if good && z.2 then (s.takeCalHdr f.hdr).takeRecord lane f else s
        s.resolve)

/-! ### Heartbeat, yield, takeover (R392 to R403) -/

/-- ACK_STALL: the acknowledgement has not advanced for 8 ticks; not during a control restart (R395, R631). -/
def execAckStall (s : State) : Out :=
  whenUp s (
    if s.cal.role = .active ∧ s.cal.lone = false ∧ s.cal.yieldAt.isNone ∧ s.pwr.restart.isNone
        ∧ s.cal.ackTick + 8 ≤ s.clk.tick then (s.setRole .suspended).resolve
    else s)

/-- HEARTBEAT_CHANGE: the level changes of the last 8 ticks (R392). -/
def execHeartbeatChange (changes : BitVec 8) (s : State) : Out :=
  whenUp s (
    if s.mated = false then s
    else
      let n := popCount changes
      let hb := if n = 8 then Hb.active else if n = 2 then Hb.standby else Hb.none
      let c := s.cal
      let since := if hb = .none then (if c.mateHb = .none then c.hbNoneSince else some s.clk.tick) else none
      let s := { s with cal := { c with mateHb := hb, hbNoneSince := since } }
      s.setLone.resolve)

/-- HEARTBEAT_SILENCE: none for 16 ticks (R391, R395, R399, R400). -/
def execHeartbeatSilence (s : State) : Out :=
  whenUp s (
    if s.mated = false ∨ s.hbSilent 16 = false then s
    else
      let s := s.setLone
      match s.cal.role with
      | .suspended => ({ s with cal := { s.cal with ackTick := s.clk.tick } }).setRole .active
      | .syncing => s.setRole .detached
      | .detached => if s.primary && !s.cal.fromSync then s.becomeActive else s
      | _ => s)

/-- SETTLE_DETACHED_EXPIRY (R399). -/
def execSettleDetachedExpiry (s : State) : Out :=
  whenUp s (
    if s.cal.role = .detached ∧ s.cal.fromSync = false ∧ s.hbSilent s.settle then s.becomeActive else s)

/-- RECLAIM_SETTLE_EXPIRY: a primary STANDBY for SETTLE asks for control (R403). -/
def execReclaimSettleExpiry (s : State) : Out :=
  whenUp s (
    if s.cal.role = .standby ∧ s.primary ∧ s.mateRevert ∧ s.cal.roleSince + s.settle ≤ s.clk.tick then
      { s with cal := { s.cal with reclaimOut := true } }
    else s)

/-- YIELD_COMPLETE: four ticks after a yield (R393). -/
def execYieldComplete (s : State) : Out :=
  whenUp s (
    match s.cal.yieldAt with
    | some t => if t ≤ s.clk.tick then s.enterSyncing else s
    | none => s)

/-- A write of 1 to CAL_MATE_CTRL.SWAP: the ACTIVE member yields to a STANDBY mate (R397). -/
def State.swap (s : State) : State := if s.cal.role = .active ∧ s.cal.mateHb = .standby then s.yield 6 else s

/-- CAL_MATE_CTRL_SWAP: the owner's write of 1 (R397). -/
def execCalMateCtrlSwap (qp : Fin 16) (s : State) : Out :=
  whenUp s (s.ownerWrite qp State.swap)

/-- Every condition of R402. -/
def State.syncReady (s : State) : Bool :=
  let booked := (List.range 6).all (fun t => decide (s.stackRegions t = 0) || s.admits t)
  let d := (s.col.pair.filter (fun p => p.2.defined && decide (p.2.tier = 2))).foldl (fun m p => max m p.2.diff) 0
  s.cal.snapDone && s.cal.snap.isEmpty && s.cal.store.isEmpty && s.cal.owed.isEmpty && s.cal.passOk && decide (s.str.st = .locked) && s.str.followMate && booked
  && (match s.cal.t0 with | some t => decide (t + d ≤ s.tnNow) | none => false) && decide (1 ≤ s.cal.diffPeriods)

/-- SYNC_COMPLETE (R402). -/
def execSyncComplete (s : State) : Out :=
  whenUp s (
    if s.cal.role = .syncing ∧ s.syncReady then
      ({ s with cal := { s.cal with recTick := s.clk.tick } }).setRole .standby
    else s)

/-- TAKEOVER_HOLD_END: each completion ring is read, and the consumer indices are published (R409). -/
def execTakeoverHoldEnd (s : State) : Out :=
  whenUp s (
    match s.cal.holdUntil with
    | some t =>
      if t ≤ s.clk.tick then
        let s := { s with cal := { s.cal with holdUntil := none } }
        (List.range 16).foldl (fun (s : State) r =>
          let x := s.ring r
          if x.st = .unbound ∨ x.boot then s
          else (s.setRing r { x with dirty := true }).issue r
            ⟨.cmpRing r, x.cmpBase, x.hkeys.getD 1 0, [], 32 * x.cmpSize⟩) s
      else s
    | none => s)

/-- Post one journaled completion again where the ring does not hold it. -/
def State.repost (s : State) (r : Nat) (slots : List (Nat × CmpEntry)) (h : Nat) : State :=
  match s.job h with
  | none => s
  | some e =>
    match e.cmp, e.slot with
    | some c, some k =>
      let x := s.ring r
      if k < x.cmpCons ∨ x.cmpProd ≤ k ∨ slots.any (fun z => decide (z.1 = k % x.cmpSize) && decide (z.2 = c)) then s
      else s.issue r ⟨.completion r, x.cmpBase + 32 * (k % x.cmpSize), x.hkeys.getD 1 0,
        cmpBytes c (phaseBit k x.cmpSize), 32⟩
    | _, _ => s

/-- COMPLETION_RING_READ_DONE: every journaled completion whose slot does not hold it is posted, in journal order; those
beyond the producer index follow by COMPLETION_POST (R409). -/
def execCompletionRingReadDone (r : Fin 16) (slots : List (Nat × CmpEntry)) (s : State) : Out :=
  whenFw s (
    if s.cmpReadOut r then
      let s := s.doneOp r (fun o => o.kind = .cmpRing r)
      ((s.mgp.journal.filter (fun p => decide (p.2.ring = r.val) && decide (p.2.origin = .ring))).map (fun p => p.1)).foldl
        (fun (s : State) h => s.repost r slots h) s
    else s)

end Sys2Proof.Machine
end

