-- ==== Sys2Proof/Machine/Ledger.lean ====
section
/-! DEFINITION. The energy Ledger (16_energy_ledger): committed power, admission, headroom and grants, energy. -/
namespace Sys2Proof.Machine

/-! ### Committed power (R588 to R591) -/

/-- Figure by rung. -/
def byRung (r a b c d : Nat) : Nat := if r = 0 then a else if r = 1 then b else if r = 2 then c else d
/-- Power of a transmit and of a receive direction at a booked rung. -/
def txPower (r : Nat) : Pow → Nat
  | .off => 0 | .sleep => 15 | .active => byRung r 85 145 205 360
def rxPower (r : Nat) : Pow → Nat
  | .off => 0 | .sleep => 22 | .active => byRung r 110 180 265 455

/-- Power booked for a lane group at a rung, from its lanes' transmit and receive states. -/
def groupPower (r : Nat) (l : List (Pow × Pow)) : Nat :=
  (l.map (fun x => txPower r x.1 + rxPower r x.2)).sum
  + (if l.any (fun x => decide (x.1 ≠ .off) || decide (x.2 ≠ .off)) then byRung r 60 90 120 200 + 3000 else 0)

/-- The commanded states of a group's lanes. -/
def State.cmdStates (s : State) (g : Nat) : List (Pow × Pow) :=
  (groupLanes g).map (fun n => ((s.lane n).txCmd, (s.lane n).rxCmd))
def State.groupMw (s : State) (g : Nat) : Nat := groupPower (s.group g).booked (s.cmdStates g)

/-- Partition quotas of bandwidth on a stack. -/
def State.quotaUnits (s : State) (t : Nat) : Nat := (s.parts.map (fun x => x.2.caveBw.getD t 0)).sum
/-- Pseudo-channels of a stack are committed (R588). -/
def State.stackHeld (s : State) (t : Nat) : Bool :=
  decide (s.regionsOf 0 t ≠ 0) || decide (s.quotaUnits t ≠ 0)
/-- U (R590). -/
def State.bwUnits (s : State) : Nat := ((List.range 6).map (fun t => s.unitsOf 0 t + s.quotaUnits t)).sum

/-- C, NRG_COMMITTED. -/
def State.committed (s : State) : Nat :=
  127900 + 6 * 1200 + 3 * 1200 + ((List.range 32).map s.groupMw).sum
  + 3840 * ((List.range 6).filter s.stackHeld).length + ceilDiv (s.bwUnits * 16) 3125

/-- A change that raises C is admitted only within the budget (R592, R595); the standby applies what the active admitted
(R609). -/
def State.budgetOk (s t : State) : Bool :=
  decide (t.committed ≤ s.committed) || decide (t.committed ≤ s.nrg.budget)

/-! ### BUDGET_SET (R532, R587, R595) -/

/-- A budget of 10,000 to 700,000 mW. -/
def chkBudgetSet : Check := fun e _ => (need (decide (10000 ≤ e.f 4 4) && decide (e.f 4 4 ≤ 700000)) eRange, 0)
def effBudgetSet : Effect := fun h e s =>
  ({ s with nrg := { s.nrg with budget := e.f 4 4 } }).complete h 0 s.tnNow s.committed

/-- BUDGET_SET. -/
def execBudgetSet (h : Nat) (s : State) : Out := .next (s.runCmd 0x81 chkBudgetSet effBudgetSet h)

/-! ### The plan of a period (R596 to R607) -/

/-- RESERVE in mW and RESUME in periods. -/
def State.reserve (s : State) : Nat := 100 * bits (s.reg Reg.nrgCfg) 7 0
def State.resume (s : State) : Nat := atLeast1 (bits (s.reg Reg.nrgCfg) 15 8)

/-- A Whisk memory is enabled (R549): 0 Pantry, 1 retention RAM, 2 map pages, 3 to 8 the Cave stacks (R547). -/
def State.whiskOn (s : State) (m : Nat) : Bool := bit (s.reg Reg.whkCfg) m

/-- Cave pace of a period (R600). -/
def cavePace (period : Nat) : Nat := if period % 3 = 2 then 666 else 667

/-- A Whisk grant from what is left: starts and cost (R601). `base` must remain before any start. -/
def grantOf (full cost base h : Nat) : Nat × Nat :=
  if base + cost ≤ h then (full, base + cost)
  else if h ≤ base then (0, 0)
  else
    let g := full * (h - base) / cost
    if g = 0 then (0, 0) else (g, base + ceilDiv (cost * g) full)

/-- Give a Whisk memory its starts for the period. -/
def State.giveWhisk (s : State) (m full cost base h : Nat) : State × Nat :=
  let (g, c) := grantOf full cost base h
  (s.setWhisk m { s.whisk m with starts := g }, h - c)

/-- Start a waiting scan at the boundary (R602). -/
def State.startScan (s : State) (c : Scan) : State :=
  let f := fun (x : Scan) => if x.h = c.h then { x with start := some s.clk.tick, rung := s.rungOf c.lane } else x
  { s with sds := { s.sds with scans := s.sds.scans.map f } }

/-- The pseudo-channels of a stack have power in the period that begins if the stack is committed or Whisk has a grant on it; those
of a stack out of service have none (R290, R603). -/
def State.powerStack (s : State) (t : Nat) : State :=
  s.setStack t { s.stack t with powered := !s.oos t && (s.stackHeld t || decide ((s.whisk (3 + t)).starts ≠ 0)) }

/-- Grant deferrable work from headroom `h` in the order of R600. A waiting scan starts with its grant also where its lane's receive
direction has left ACTIVE or its eye no longer fits the rung: the spec is silent (DESIGN CHOICE, log 82). -/
def State.plan (s : State) (h : Nat) : State :=
  let per := s.secClock / 8000
  let pace := cavePace per
  let z := (List.range 6).foldl (fun (x : State × Nat) t =>
    if (x.1.stack t).testing ∧ x.1.whiskOn (3 + t) then x.1.giveWhisk (3 + t) pace 800 3840 x.2 else x) (s, h)
  let z := (s.sds.scans.filter (fun c => c.start.isSome)).foldl (fun (x : State × Nat) c =>
    if 45 ≤ x.2 then (x.1, x.2 - 45) else (x.1.abortScan c.lane 3, x.2)) z
  let z := (s.sds.scans.filter (fun c => c.start.isNone)).foldl (fun (x : State × Nat) c =>
    if 45 ≤ x.2 then (x.1.startScan c, x.2 - 45) else x) z
  let one := fun (x : State × Nat) m cost => if x.1.whiskOn m then x.1.giveWhisk m 2000 cost 0 x.2 else x
  let z := one (one (one z 1 40) 2 150) 0 150
  let s := ((List.range 6).foldl (fun (x : State × Nat) t =>
    if x.1.oos t ∨ (x.1.stack t).testing ∨ x.1.whiskOn (3 + t) = false then x
    else x.1.giveWhisk (3 + t) pace 800 (if x.1.stackHeld t then 0 else 3840) x.2) z).1
  (List.range 6).foldl State.powerStack s

/-- Every grant of the period before is over. -/
def State.endGrants (s : State) : State :=
  (List.range 9).foldl (fun (s : State) m => s.setWhisk m { s.whisk m with starts := 0 }) s

/-- The Ledger at a selection-period boundary, from the six domain readings in mW (R596 to R607). -/
def State.ledgerPeriod (s : State) (dom : List Nat) : State :=
  let m := (dom.take 6).sum
  let e := (m + 500) / 1000
  let b := s.nrg.budget
  let hot := decide (b < m)
  let head := b - max s.committed m - s.reserve
  let good := decide (m + s.reserve ≤ b)
  let n := s.nrg
  let okp := if good then n.okPeriods + 1 else 0
  let stopped := hot || (n.stopped && decide (okp < s.resume))
  let whole := if n.stopped then n.stopPeriods + 1 else 0
  let raise := decide (whole = 1) && hot && !n.overRaised
  let s := { s with nrg := { n with
      measured := m
      dom := dom.take 6
      periodE := e
      energy := (n.energy + e) % 2 ^ 64
      headroom := head
      overrun := hot
      stopped := stopped
      stopPeriods := if stopped then whole else 0
      okPeriods := okp
      overRaised := stopped && (n.overRaised || raise) } }
  let s := if raise then (s.setSticky Reg.nrgStatus 0x20000000).event [0] 0x0090 0 m else s
  let s := s.endGrants
  let s := (List.range 6).foldl (fun (s : State) t => s.setStack t { s.stack t with uncorr := 0 }) s
  s.plan (if stopped then 0 else head)

end Sys2Proof.Machine
end

