-- ==== Sys2Proof/Machine/Peer.lean ====
section
/-! DEFINITION. Receiving a message over a fabric link or Calrin: authentication, duplicates, relaying, and which member of
a pair acts (09_fabric, R348 to R352, R369; R491). -/
namespace Sys2Proof.Machine

/-- Number of a link: its lane group, or 32 for Calrin. -/
def linkNo : Link → Nat
  | .group g => g.val
  | .calrin => 32

/-- The link of a number. -/
def linkOf (n : Nat) : Link := if h : n < 32 then .group ⟨n, h⟩ else .calrin

/-- The clear bytes 0 to 17 of a message (R348). -/
def clearBytes (type : Nat) (fromMate : Bool) (origin dest : Word) (serial : Nat) : List Byte :=
  beBytes 1 type ++ beBytes 1 (b2n fromMate) ++ beBytes 4 origin.toNat ++ beBytes 4 dest.toNat ++ beBytes 8 serial

/-- The nonce value of a message: 8 x the sender's count of the frame, plus the lane (R349). The sender's count is taken
as the full count nearest to this device's own (log 18). -/
def State.nonceOf (s : State) (seq : BitVec 24) (lane : Nat) : Nat := 8 * (extend24 seq s.secClock).toNat + lane

/-- The tag of a received message fits under the link's receive key (R349, R491). -/
def State.tagFits (s : State) (hd : FabHdr) (type : Nat) (body : List Byte) : Bool :=
  match (s.plink hd.link).keys with
  | some k =>
    decide (hd.tag = Config.gcmTag k.rx (s.nonceOf hd.seq (hd.lane % 8))
      (clearBytes type hd.fromMate hd.origin hd.dest hd.serial) body)
  | none => false

/-- A message whose tag fails: AUTH_FAIL, and 16 in one selection period bring the link down (R346, R349). -/
def State.authFail (s : State) (l : Link) : State :=
  let x := s.plink l
  let s := s.setPlink l { x with authFails := x.authFails + 1 }
  match l with
  | .group g =>
    let s := s.setSticky (Reg.fabStatus g.val) 0x08000000
    if 16 ≤ x.authFails + 1 then s.groupLinkDown g.val else s
  | .calrin => if 16 ≤ x.authFails + 1 then s.calLinkDown else s

/-- A message of an origin is recorded, or lies below the bitmap (R352). -/
def Seen.has (x : Seen) (n : Nat) : Bool :=
  x.any && (decide (n = x.high) || (decide (n < x.high) &&
    (decide (x.high - n > 64) || x.map.getLsbD (x.high - 1 - n))))

/-- Record a serial: bit i of the bitmap stands for serial high - 1 - i. -/
def Seen.note (x : Seen) (n : Nat) : Seen :=
  if !x.any then { high := n, any := true }
  else if n > x.high then
    let d := n - x.high
    { high := n, any := true, map := if d > 64 then 0 else (x.map <<< d) ||| (1#64 <<< (d - 1)) }
  else { x with map := x.map ||| (1#64 <<< (x.high - 1 - n)) }

/-- Types that are never relayed: link-local ones, keying, and those between mates (R350, R488, R489; log 15). -/
def linkLocal (type : Nat) : Bool := decide (type < 0x10) || decide (0x40 ≤ type)

/-- A message travels down (R350); an MBX message by where it arrived, in a ring by its origin. -/
def State.isDown (s : State) (hd : FabHdr) (type : Nat) : Bool :=
  if type = 0x24 then
    match hd.link with
    | .group g => decide (s.fabDir g.val = 1) || (decide (s.fabDir g.val = 3) && decide (hd.origin = s.mgrId))
    | .calrin => false
  else decide (type ∈ [0x10, 0x12, 0x20, 0x25])

/-- Relay a message to the other links of its direction (R351). A standby passes an up message for its pair to its active
mate (R369). -/
def State.relayMsg (s : State) (hd : FabHdr) (type : Nat) (body : List Byte) : State :=
  match hd.link with
  | .calrin => s
  | .group g =>
    if linkLocal type then s
    else
      let down := s.isDown hd type
      let s :=
        if s.copies && !down && decide (hd.dest = s.fabId) then
          { s with fab := { s.fab with
              sendQ := s.fab.sendQ ++ [⟨some .calrin, type, hd.origin, hd.dest, hd.serial, body, hd.fromMate⟩] } }
        else s
      if s.fabRole ≠ 2 then s
      else
        let from_ := s.fabDir g.val
        let outs := if down then (if from_ = 1 ∨ from_ = 3 then [2, 3] else [])
          else (if from_ = 2 ∨ from_ = 3 then [1, 3] else [])
        let gs := (List.range 32).filter (fun i => decide (i ≠ g.val) && decide (s.fabDir i ∈ outs)
          && decide ((s.plink (linkOf i)).st = .up))
        let ms := gs.map (fun i => (⟨some (linkOf i), type, hd.origin, hd.dest, hd.serial, body, hd.fromMate⟩ : OutMsg))
        { s with fab := { s.fab with sendQ := s.fab.sendQ ++ ms } }

/-- The device acts on messages addressed to its pair: it is standalone or the active member (R369). -/
def State.actsOn (s : State) : Bool := decide (s.cal.role = .standalone) || decide (s.cal.role = .active)

/-- A lane group's link, on which the serials of every message count; on Calrin those of link-local messages do not
(R352). -/
def countsSerial (hd : FabHdr) (type : Nat) : Bool :=
  match hd.link with | .group _ => true | .calrin => !linkLocal type

/-- The device takes no message of this type from the link now (R346, R490). -/
def State.fabShut (s : State) (hd : FabHdr) (type : Nat) : Bool :=
  let st := (s.plink hd.link).st
  !s.up || ((match hd.link with | .group _ => true | .calrin => false) && decide (s.fabRole = 0))
  || decide (st = .down) || decide (st = .keying) || (decide (st = .measuring) && !(decide (type = 2) || decide (type = 3)))

/-- The message has come before (R352). -/
def State.fabAgain (s : State) (hd : FabHdr) (type : Nat) : Bool :=
  countsSerial hd type && (s.fab.seen.look {} hd.origin.toNat).has hd.serial

/-- Note the serial of a message (R352). -/
def State.fabHeard (s : State) (hd : FabHdr) (type : Nat) : State :=
  let o := hd.origin.toNat
  if countsSerial hd type then
    { s with fab := { s.fab with seen := Tab.put {} s.fab.seen o ((s.fab.seen.look {} o).note hd.serial) } }
  else s

/-- Note the serial and pass the message on (R351, R352). -/
def State.fabNote (s : State) (hd : FabHdr) (type : Nat) (body : List Byte) : State := (s.fabHeard hd type).relayMsg hd type body

/-- The message is for this device, and the device acts on it (R350, R369). -/
def State.fabMine (s : State) (hd : FabHdr) (type : Nat) : Bool :=
  (decide (hd.dest = s.fabId) || (s.isDown hd type && decide (hd.dest = 0xFFFFFFFF))) && (s.actsOn || decide (type = 0x25))

/-- A down message from a device that is not this worker's manager: it is discarded, and passed on to none (09_fabric, after
R368). -/
def State.fabForeign (s : State) (hd : FabHdr) (type : Nat) : Bool :=
  s.isDown hd type && decide (s.fabRole = 2) && decide (hd.origin ≠ s.mgrId)

/-- Only a worker acts on messages that run down, only a manager on those that run up; MBX runs both ways (R350). -/
def State.fabFits (s : State) (hd : FabHdr) (type : Nat) : Bool :=
  decide (type = 0x24) || (if s.isDown hd type then decide (s.fabRole = 2) else decide (s.fabRole = 1))

/-- Receive a fabric message: link state, tag, serial, relay, destination; then `act` (R342, R346, R349 to R352, R369). -/
def State.fabTake (s : State) (hd : FabHdr) (type : Nat) (body : List Byte) (act : State → State) : State :=
  if s.fabShut hd type then s
  else if s.tagFits hd type body = false then s.authFail hd.link
  else if s.fabAgain hd type then s
  else
    if s.fabForeign hd type then
      ((s.fabHeard hd type).setSticky (Reg.fabStatus (linkNo hd.link)) 0x04000000).event [0] 0x0064 (linkNo hd.link) hd.origin.toNat
    else
    let t := s.fabNote hd type body
    if linkLocal type then act t
    else if t.fabMine hd type = false then t
    else if t.fabFits hd type then act t
    else t

/-- The frame that carried a message had a bad header (R355). -/
def State.frameBad (s : State) (hd : FabHdr) : Bool :=
  match hd.link with
  | .group g => match (s.rx (8 * g.val + hd.lane % 8)).frames.getLast? with | some f => f.bad | none => false
  | .calrin => false

end Sys2Proof.Machine
end

