-- ==== Sys2Proof/Machine/Principals.lean ====
section
/-! DEFINITION. PARTITION_SET and RING_BIND (12_secrecy, R450 to R460; 13_commands, R525, R526). -/
namespace Sys2Proof.Machine

/-! ### Blocks in use (R456) -/

/-- A page holds a VALID entry that writes or reads a slot of a block. -/
def Page.usesBlock (p : Page) (b : Nat) : Bool :=
  p.ent.any (fun (x : Nat × Word) => entValid x.2 &&
    (decide (x.1 / 64 = b) || (decide (entKind x.2 ≤ 1) && decide (entSrc x.2 / 64 = b))))

/-- A block is in use. -/
def State.blockInUse (s : State) (b : Nat) : Bool :=
  s.hrp.p0.usesBlock b || s.hrp.p1.usesBlock b
  || s.whl.any (fun (w : Nat × Wheel) => w.2.members.any (fun m => decide (m / 64 = b)))
  || s.rollSlots.any (fun m => decide (m / 64 = b))

/-! ### PARTITION_SET -/

def ptP (e : JEntry) : Nat := e.f 4 1
def ptRemove (e : JEntry) : Bool := decide (e.f 5 1 = 1)

/-- Block entries: block and whether it is taken. -/
def ptBlocks (e : JEntry) : List (Nat × Bool) :=
  (words32 (leAt e.bytes 128 2) (e.bytes.drop 520)).map (fun w => (w % 8192, decide (w / 2 ^ 31 = 1)))

/-- Hand-off entries from `n` records of 8 bytes: block, feeder, holder, revoke. -/
def handList : Nat → List Byte → List (Nat × Nat × Nat × Bool)
  | 0, _ => []
  | n + 1, l => (leAt l 0 2, leAt l 2 1, leAt l 3 1, decide (leAt l 4 1 = 1)) :: handList n (l.drop 8)
def ptHand (e : JEntry) : List (Nat × Nat × Nat × Bool) :=
  handList (leAt e.bytes 130 2) (e.bytes.drop (520 + 4 * leAt e.bytes 128 2))

/-- The grants of a MAINT record (R525). -/
def grantList : Nat → List Byte → List Grant
  | 0, _ => []
  | n + 1, l => ⟨leAt l 0 2, leAt l 2 2, leAt l 8 8, leAt l 16 8⟩ :: grantList n (l.drop 24)

/-- The principal's record after a set. -/
def ptNew (e : JEntry) (old : Part) : Part :=
  let b := e.bytes
  let dig := beNat (b.take 48)
  { old with
    set := true
    digest := if dig = 0 then old.digest else BitVec.ofNat 384 dig
    whFirst := leAt b 48 4
    whCount := leAt b 52 4
    prFirst := leAt b 56 4
    prCount := leAt b 60 4
    skew := leAt b 64 4
    mon := leAt b 68 4
    near := leAt b 72 4
    caveReg := words32 6 (b.drop 80)
    caveBw := words32 6 (b.drop 104)
    grants := grantList (leAt b 132 1) (b.drop 136) }

/-- Two ranges have a number in common. -/
def rangesMeet (f c f' c' : Nat) : Bool := decide (max f f' < min (f + c) (f' + c'))

/-- Every value of a PARTITION_SET lies in its range (R455, R496). The batch length is rounded up to the multiple of 8 that
R431 asks for. -/
def State.ptRange (s : State) (e : JEntry) : Bool :=
  let p := ptP e
  let b := e.bytes
  let nb := leAt b 128 2
  let nh := leAt b 130 2
  let ng := leAt b 132 1
  let len := 520 + 4 * nb + 8 * nh
  let x := ptNew e (s.part p)
  decide (1 ≤ p) && decide (p ≤ 64) && decide (e.f 5 1 ≤ 1)
  && (if ptRemove e then (s.part p).set
      else
        descHasBatch e.d && decide (b.length = (len + 7) / 8 * 8) && decide (leAt b len 4 = 0 ∨ len % 8 = 0)
        && decide (leAt b 76 4 = 0) && decide (leAt b 133 3 = 0)
        && decide (ng ≤ 16) && (decide (ng = 0) || decide (p = 64))
        && x.grants.all (fun g => decide (g.first ≤ g.last) && decide (g.last < 256) && decide (g.fromTn ≤ g.toTn))
        && (List.range ng).all (fun i => decide (leAt b (140 + 24 * i) 4 = 0))
        && (words32 nb (b.drop 520)).all (fun w => decide (w / 8192 % 2 ^ 18 = 0))
        && (ptHand e).all (fun h => decide (h.1 < 8192) && decide (h.2.1 ≤ 64) && decide (h.2.2.1 ≤ 64)
            && decide (h.2.1 ≠ h.2.2.1))
        && (List.range nh).all (fun i => decide (leAt b (524 + 4 * nb + 8 * i) 4 ≤ 1))
        && decide (x.whFirst + x.whCount ≤ 65536) && decide (x.prFirst + x.prCount ≤ 32768)
        && s.parts.all (fun (q : Nat × Part) => decide (q.1 = p)
            || !(rangesMeet q.2.whFirst q.2.whCount x.whFirst x.whCount
                || rangesMeet q.2.prFirst q.2.prCount x.prFirst x.prCount)))

/-- Blocks that the hand-off grants of a principal name. -/
def State.handOf (s : State) (p : Nat) : List Nat :=
  (s.prn.block.filter (fun (x : Nat × Block) => match x.2.hand with
    | some (f, h) => decide (f = p) || decide (h = p) | none => false)).map (fun x => x.1)
/-- Blocks a principal holds as its own or through a grant. -/
def State.blocksOf (s : State) (p : Nat) : List Nat :=
  (s.prn.block.filter (fun (x : Nat × Block) => x.2.hand.isNone && decide (x.2.owner = p))).map (fun x => x.1)
  ++ s.handOf p

/-- The blocks a PARTITION_SET changes, with what each becomes. A hand-off block belongs to its two parties; revoked, it
returns to the owner. -/
def State.ptChanges (s : State) (e : JEntry) : List (Nat × Block) :=
  if ptRemove e then (s.blocksOf (ptP e)).map (fun b => (b, {}))
  else
    (ptBlocks e).map (fun x => (x.1, ({ owner := if x.2 then 0 else ptP e } : Block)))
    ++ (ptHand e).map (fun x => (x.1, if x.2.2.2 then ({} : Block) else { hand := some (x.2.1, x.2.2.1) }))

/-- The principal holds an object: a Wheel, a pair or a pending FLIP_SEQ (R457). -/
def State.holdsObject (s : State) (p : Nat) : Bool :=
  !(s.wheelsOf p).isEmpty || !(s.pairsOf p).isEmpty || s.flp.seqs.any (fun f => decide (f.prin = p))

/-- No block is given, taken or granted against R455, and no range takes in another principal's object. -/
def State.ptState (s : State) (e : JEntry) : Bool :=
  let p := ptP e
  let x := ptNew e (s.part p)
  if ptRemove e then !s.holdsObject p && (s.blocksOf p).all (fun b => !s.blockInUse b)
  else
    (ptBlocks e).all (fun y => (s.block y.1).hand.isNone && decide ((s.block y.1).owner = (if y.2 then p else 0)))
    && (s.ptChanges e).all (fun y => decide (y.2 = s.block y.1) || !s.blockInUse y.1)
    && s.whl.all (fun (w : Nat × Wheel) => !w.2.defined || decide (w.2.owner = p)
        || !(decide (x.whFirst ≤ w.1) && decide (w.1 < x.whFirst + x.whCount)))
    && s.col.pair.all (fun (w : Nat × Pair) => !w.2.defined || decide (w.2.owner = p)
        || !(decide (x.prFirst ≤ w.1) && decide (w.1 < x.prFirst + x.prCount)))

/-- Quotas stay within the device totals and cover what the principal already uses (R455); the Wheel and pair ranges count
among the quotas (R478). -/
def State.ptCap (s : State) (e : JEntry) : Bool :=
  let p := ptP e
  let x := ptNew e (s.part p)
  let total := fun (f : Part → Nat) => ((s.parts.filter (fun (q : Nat × Part) => decide (q.1 ≠ p))).map (fun q => f q.2)).sum + f x
  ptRemove e ||
    (decide (total (fun q => q.skew) ≤ 4194304) && decide (total (fun q => q.mon) ≤ 8192)
    && decide (total (fun q => q.near) ≤ 16777216)
    && (List.range 6).all (fun t => decide (total (fun q => q.caveReg.getD t 0) ≤ 10416666)
        && decide (total (fun q => q.caveBw.getD t 0) ≤ 2625000)
        && decide (s.regionsOf p t ≤ x.caveReg.getD t 0) && decide (s.unitsOf p t ≤ x.caveBw.getD t 0))
    && decide (s.skewOf p ≤ x.skew) && decide (s.monOf p ≤ x.mon) && decide (s.nearOf p ≤ x.near)
    && (s.wheelsOf p).all (fun w => decide (x.whFirst ≤ w.1) && decide (w.1 < x.whFirst + x.whCount))
    && (s.pairsOf p).all (fun w => decide (x.prFirst ≤ w.1) && decide (w.1 < x.prFirst + x.prCount)))

/-- Unbind a ring set: its queue pairs, keys and dump area go (R457, R526). -/
def State.unbindRing (s : State) (r : Nat) : State :=
  let x := s.ring r
  let free := fun (s : State) (q : Nat) =>
    if (s.qp q).bound ∧ (s.qp q).ring = r then s.setQp q {} else s
  ((free (free s x.qpLo) x.qpHi).setRing r {}).setDump r {}

/-- Discard the ring key of a principal (R525). -/
def State.dropRingKey (s : State) (p : Nat) : State :=
  match s.ringOf p with
  | some r => s.setRing r { s.ring r with key := none, oldKey := none }
  | none => s

/-- Principals whose view a change of a block touches. -/
def blockParties (b : Block) : List Nat :=
  match b.hand with | some (f, h) => [f, h] | none => [b.owner]

/-- The tables of principals after a change: blocks, the principal's own entry, and the view change counts of every
partition that the change touches (R454, R456, R459). -/
def State.ptTables (s : State) (p : Nat) (new : Part) (ch : List (Nat × Block)) : State :=
  let touched := (ch.flatMap (fun x => blockParties x.2 ++ blockParties (s.block x.1))
    ++ (if new = s.part p then [] else [p])).eraseDups.filter (· ≠ 0)
  let blocks := ch.foldl (fun (t : Tab Block) x => Tab.put {} t x.1 x.2) s.prn.block
  let t := ({ s with prn := { s.prn with block := blocks } }).setPart p new
  touched.foldl (fun (u : State) q => u.setPart q { u.part q with views := (u.part q).views + 1 }) t

/-- The blocks, ranges, quotas and grants after a PARTITION_SET, with the view change counts of every principal it
changes (R454, R457, R478). -/
def State.ptApply (s : State) (e : JEntry) : State :=
  let p := ptP e
  let old := s.part p
  let new := if ptRemove e then ({ views := old.views } : Part) else ptNew e old
  let t := s.ptTables p new ((s.ptChanges e).filter (fun x => decide (x.2 ≠ s.block x.1)))
  if ptRemove e then
    match t.ringOf p with
    | some r => t.unbindRing r
    | none => t
  else if new.digest ≠ old.digest then t.dropRingKey p
  else t

/-- Refusals of PARTITION_SET; the first row of R455 that applies decides. -/
def chkPartitionSet : Check := fun e s =>
  (firstErr [need (s.ptRange e) eRange, need (s.ptState e) eState, need (s.ptCap e) eCapacity,
    need (s.budgetOk (s.ptApply e)) eBudget], 0)

def effPartitionSet : Effect := fun h e s =>
  let s := s.ptApply e
  s.complete h 0 s.tnNow (s.part (ptP e)).views

/-- PARTITION_SET. -/
def execPartitionSet (h : Nat) (s : State) : Out := .next (s.runCmd 0x70 chkPartitionSet effPartitionSet h)

/-! ### RING_BIND -/

/-- A queue-pair record of a RING_BIND. -/
structure QpRec where
  qp : Nat
  planeB : Bool
  val : Qp
  ok : Bool
deriving DecidableEq, Repr

/-- Read `n` queue-pair records of 64 bytes (R526). -/
def qpRecs (r p : Nat) : Nat → List Byte → List QpRec
  | 0, _ => []
  | n + 1, l =>
    let q : Qp :=
      { bound := true, ring := r, prin := p, port := leAt l 1 1 % 2, mtu := leAt l 2 1, ipver := leAt l 3 1
        remote := leAt l 4 4, psn := leAt l 8 4, rkey := BitVec.ofNat 32 (leAt l 12 4), udp := leAt l 16 2
        hostMac := BitVec.ofNat 48 (leAt l 20 6), hostIp := BitVec.ofNat 128 (leAt l 28 16) }
    let ok := decide (leAt l 0 1 ≤ 15) && decide (leAt l 1 1 ≤ 3) && decide (q.mtu ≤ 1)
      && (decide (q.ipver = 4) || decide (q.ipver = 6)) && decide (q.remote < 2 ^ 24) && decide (q.psn < 2 ^ 24)
      && decide (leAt l 18 2 = 0) && decide (leAt l 26 2 = 0) && decide (leAt l 44 20 = 0)
    ⟨leAt l 0 1, decide (leAt l 1 1 / 2 % 2 = 1), q, ok⟩ :: qpRecs r p n (l.drop 64)

def rbR (e : JEntry) : Nat := e.f 4 1
def rbP (e : JEntry) : Nat := e.f 5 1
def rbUnbind (e : JEntry) : Bool := decide (e.f 6 1 = 1)
def rbQps (e : JEntry) : List QpRec := qpRecs (rbR e) (rbP e) (leAt e.bytes 63 1) (e.bytes.drop 64)

/-- The records for this device: plane A or standalone, or plane B (R526). -/
def State.rbMine (s : State) (e : JEntry) : List QpRec :=
  (rbQps e).filter (fun q => decide (q.planeB = decide (s.plane = 2)))

def rbRange (e : JEntry) : Bool :=
  let b := e.bytes
  let n := leAt b 63 1
  let size := fun (i : Nat) => decide (6 ≤ leAt b (60 + i) 1) && decide (leAt b (60 + i) 1 ≤ 16)
  let planeN : Bool → List QpRec := fun pl => (rbQps e).filter (fun (q : QpRec) => decide (q.planeB = pl))
  decide (rbR e ≤ 15) && decide (rbP e ≤ 64) && decide (e.f 6 1 ≤ 1) && (decide (rbR e ≠ 0) || decide (rbP e = 0))
  && (if rbUnbind e then decide (rbR e ≠ 0)
      else
        descHasBatch e.d && decide (1 ≤ n) && decide (n ≤ 4) && decide (b.length = 64 + 64 * n)
        && decide (leAt b 0 8 % 4096 = 0) && decide (leAt b 8 8 % 4096 = 0) && decide (leAt b 16 8 % 4096 = 0)
        && size 0 && size 1 && size 2 && (rbQps e).all (fun q => q.ok)
        && decide ((planeN false).length ≤ 2) && decide ((planeN true).length ≤ 2)
        && decide (((planeN false).map (fun (q : QpRec) => q.qp)).Nodup) && decide (((planeN true).map (fun (q : QpRec) => q.qp)).Nodup))

def State.rbState (s : State) (h : Nat) (e : JEntry) : Bool :=
  s.mgp.journal.all (fun (x : Nat × JEntry) => decide (x.1 = h) || decide (x.2.ring ≠ rbR e) || decide (x.2.origin ≠ .ring))
  && (rbUnbind e || ((match s.ringOf (rbP e) with | some r => decide (r = rbR e) | none => true)
    && (s.rbMine e).all (fun q => !(s.qp q.qp).bound || decide ((s.qp q.qp).ring = rbR e))))

/-- Refusals of RING_BIND (R526). -/
def chkRingBind : Check := fun e s =>
  let h := s.mgp.journal.find? (fun (x : Nat × JEntry) => decide (x.2.origin = e.origin) && decide (x.2.ring = e.ring)
    && decide (x.2.d = e.d))
  (firstErr [need (rbRange e) eRange, need (s.rbState ((h.map (fun x => x.1)).getD 65536) e) eState], 0)

/-- The new binding of a ring set: every index 0, EXPECT 1, no ring key; ring set 0 keeps the owner's key and EXPECT
(R526). -/
def State.rbNew (s : State) (e : JEntry) : Ring :=
  let b := e.bytes
  let qs := (s.rbMine e).map (fun q => q.qp)
  let lo := qs.foldl min 16
  let old := s.ring (rbR e)
  { st := .open_
    prin := rbP e
    cmdBase := leAt b 0 8
    cmpBase := leAt b 8 8
    evtBase := leAt b 16 8
    dbAddr := leAt b 24 8
    idxAddr := leAt b 32 8
    hkeys := words32 5 (b.drop 40)
    cmdSize := 2 ^ leAt b 60 1
    cmpSize := 2 ^ leAt b 61 1
    evtSize := 2 ^ leAt b 62 1
    qpLo := lo
    qpHi := (qs.filter (· ≠ lo)).foldl min (if (qs.filter (· ≠ lo)).isEmpty then lo else 16)
    expect := if rbR e = 0 then old.expect else 1
    key := if rbR e = 0 then old.key else none
    oldKey := if rbR e = 0 then old.oldKey else none }

/-- Bind or unbind. The completion goes to the binding in force at acceptance: where that is the ring set rebound, its
address, R_Key and PHASE there stay with the command. -/
def effRingBind : Effect := fun h e s =>
  let r := rbR e
  let old := s.ring r
  let s := s.complete h 0 s.tnNow 0
  if rbUnbind e then s.unbindRing r
  else
    let new := s.rbNew e
    let same := decide (e.ring = r) && decide (e.origin = .ring) && !old.boot
    let dump := s.dump r
    let s := if same then
        s.setJob h (fun j => { j with
          dest := some (old.cmpBase + 32 * (old.cmpProd % old.cmpSize), old.hkeys.getD 1 0, phaseBit old.cmpProd old.cmpSize) })
      else s
    let over_ := if same then (s.ring r).overflow else []
    let s := s.unbindRing r
    let s := s.setRing r { new with overflow := over_ }
    let s := (s.rbMine e).foldl (fun (s : State) (q : QpRec) => s.setQp q.qp q.val) s
    if old.prin = new.prin ∧ old.st ≠ .unbound then s.setDump r dump else s

/-- RING_BIND. -/
def execRingBind (h : Nat) (s : State) : Out := .next (s.runCmd 0x71 chkRingBind effRingBind h)

end Sys2Proof.Machine
end

