-- ==== Sys2Proof/Machine/Rind.lean ====
section
/-! DEFINITION. The Rind: identity, quotes, key agreement, firmware images, SEAL (12_secrecy, R466 to R488; 13_commands,
R527 to R534). -/
namespace Sys2Proof.Machine

/-! ### Identity and ephemeral keys (R467, R474 to R476) -/

/-- The bytes of a digest in the order of its computation. -/
def digestBytes (d : Digest) : List Byte := beBytes 48 d.toNat

/-- The owner slot in use: the first fused and not retired (R467). -/
def State.ownerSlot (s : State) : Option Nat :=
  (List.range 4).find? (fun i => (s.rnd.slots.look {} i).used && !(s.rnd.slots.look {} i).retired)
/-- The next free owner slot. -/
def State.freeSlot (s : State) : Option Nat := (List.range 4).find? (fun i => !(s.rnd.slots.look {} i).used)

/-- The owner key digest (R447). -/
def State.ownerDigest (s : State) : Digest :=
  match s.ownerSlot with | some i => (s.rnd.slots.look {} i).digest | none => 0
/-- ENDORSE_REQ of the owner slot in use. -/
def State.endorseReq (s : State) : Bool :=
  match s.ownerSlot with | some i => (s.rnd.slots.look {} i).endorse | none => false

/-- The registered key digest of a principal (R448, R454). -/
def State.keyDigest (s : State) (p : Nat) : Digest := if p = 0 then s.ownerDigest else (s.part p).digest

/-- EPOCH, the number of burned fuses less one. -/
def State.epoch (s : State) : Nat := s.rnd.epochs - 1

/-- Certify a new ephemeral key with the next leaf, burning an epoch fuse where n would pass 2,047; with every fuse burned
none is created (R475, R476). -/
def State.advanceLeaf (s : State) : State :=
  let r := s.rnd
  let next := { r with ephGen := r.ephGen + 1, ephUsed := 0, ephBusyUntil := some (s.clk.tick + 16000000) }
  if r.leaf + 1 < 2048 then { s with rnd := { next with leaf := r.leaf + 1 } }
  else if r.epochs < 512 then { s with rnd := { next with epochs := r.epochs + 1, leaf := 0 } }
  else { s with rnd := { r with exhausted := true } }

/-- Use one leaf of the ephemeral key: its index, and the next key where that was the last of 1,024 (R475). -/
def State.takeLeaf (s : State) : Nat × State :=
  if s.rnd.exhausted then (0, s)
  else
    let q := s.rnd.ephUsed
    let s := { s with rnd := { s.rnd with ephUsed := q + 1 } }
    (q, if q + 1 < 1024 then s else s.advanceLeaf)

/-- A body of 256 bytes with BCERT, EPH LMS signature and IDK_EC signature (R477, R484). -/
def State.signed (s : State) (q : Nat) (body : List Byte) : List Byte :=
  body ++ Config.bcert s.epoch s.rnd.leaf s.rnd.ephGen
  ++ (if s.rnd.exhausted then List.replicate 1452 0 else Config.ephSig s.rnd.ephGen q body) ++ Config.idkSig body

/-! ### Views and quotes (R477, R478) -/

/-- A bitmap of 8,192 blocks: bit b mod 8 of byte floor(b / 8). -/
def blockMap (f : Nat → Bool) : List Byte :=
  (List.range 1024).map (fun i => BitVec.ofNat 8 (((List.range 8).map (fun j => b2n (f (8 * i + j)) * 2 ^ j)).sum))

/-- The view of a principal (R478). -/
def State.view (s : State) (p : Nat) : List Byte :=
  if p = 0 then digestBytes s.ownerDigest
  else
    let x := s.part p
    let feeds := fun (b : Nat) => match (s.block b).hand with | some (f, _) => decide (f = p) | none => false
    let six := fun (l : List Nat) => (List.range 6).flatMap (fun t => leBytes 4 (l.getD t 0))
    leBytes 1 p ++ leBytes 7 0 ++ leBytes 8 x.views ++ digestBytes x.digest
    ++ blockMap (fun b => decide (s.ingressOf (64 * b) = p)) ++ blockMap feeds
    ++ leBytes 4 x.whFirst ++ leBytes 4 x.whCount ++ leBytes 4 x.prFirst ++ leBytes 4 x.prCount
    ++ leBytes 4 x.skew ++ leBytes 4 x.mon ++ leBytes 4 x.near ++ leBytes 4 0 ++ six x.caveReg ++ six x.caveBw
    ++ (if p = 64 then x.grants.flatMap (fun g =>
          leBytes 2 g.first ++ leBytes 2 g.last ++ leBytes 4 0 ++ leBytes 8 g.fromTn ++ leBytes 8 g.toTn) else [])

/-- Number of a lifecycle state (R493). -/
def Lifecycle.num : Lifecycle → Nat
  | .manufacture => 0 | .provisioned => 1 | .owned => 2 | .rma => 3 | .scrapped => 4

/-- The quote body (R477). `prin` is 0x80 in a peer quote, whose view is the owner's (R489). -/
def State.quoteBody (s : State) (prin q : Nat) (nonce : List Byte) : List Byte :=
  let peer := decide (prin = 0x80)
  let m := Config.sha384 (s.view (if peer then 0 else prin))
  let m := if peer then s.ownerDigest else m
  leBytes 4 0x51544531 ++ leBytes 2 1 ++ leBytes 1 s.rnd.lc.num
  ++ leBytes 1 (b2n s.sealed + 2 * b2n s.rnd.exhausted + 4 * b2n peer)
  ++ leBytes 8 s.tnNow ++ nonce ++ leBytes 1 prin ++ leBytes 1 s.rnd.svnRun ++ leBytes 1 s.rnd.svnFused
  ++ leBytes 1 (s.ownerSlot.getD 0xFF) ++ leBytes 2 s.epoch ++ leBytes 2 s.rnd.leaf ++ leBytes 2 q ++ leBytes 6 0
  ++ digestBytes Config.romDigest ++ digestBytes s.rnd.mFw ++ digestBytes s.rnd.mSetup ++ digestBytes m

/-- A quote of 3,800 bytes, with the DCERT where it is asked for. -/
def State.quote (s : State) (prin q : Nat) (nonce : List Byte) (dcert : Bool) : List Byte :=
  s.signed q (s.quoteBody prin q nonce) ++ (if dcert then s.flash.dcert.take 2220 else [])

/-- Answer an ATTEST_QUOTE (R477, R528). -/
def State.giveQuote (s : State) (h : Nat) (e : JEntry) : State :=
  let (q, t) := s.takeLeaf
  let out := s.quote (e.f 4 1) q (leBytes 32 (e.f 32 32)) (decide (e.f 5 1 = 1))
  (t.output h (e.f 8 8) (e.f 16 4) 32 out).complete h 0 s.tnNow (s.epoch * 2 ^ 48 + s.rnd.leaf * 2 ^ 32 + q)

/-! ### Key agreement (R482 to R488) -/

/-- Fields of a request's bytes (R482). -/
def kaMode (b : List Byte) : Nat := leAt b 4 1
def kaPorts (b : List Byte) : Nat := leAt b 7 1
def kaKeyDigest (b : List Byte) : Digest := Config.sha384 ((b.drop 152).take 152)

/-- The request is well formed: MAGIC, MODE, PORTS of a mode-2 request, reserved bytes 0 (R482, R496). -/
def kaRange (b : List Byte) : Bool :=
  decide (b.length = 2256) && decide (leAt b 0 4 = 0x4B415251) && decide (kaMode b ≤ 2)
  && (decide (kaMode b ≠ 2) || decide (kaPorts b % 16 ≤ 3 ∧ kaPorts b / 32 = 0 ∧ kaPorts b / 4 % 4 = 0))
  && decide (leAt b 304 1 ≤ (if kaMode b = 0 then 1 else 0)) && decide (leAt b 305 15 = 0) && decide (leAt b 368 16 = 0)
  && decide (leAt b 2252 4 = 0)

/-- A label as bytes. -/
def label (t : String) : List Byte := t.toList.map (fun c => BitVec.ofNat 8 c.toNat)

/-- The ring key, SAKs and response of a request under nonce and ephemeral key `i` (R484, R485). -/
def kaKeys (b : List Byte) (i : Nat) (lab : String) (n : Nat) : List Byte :=
  Config.hkdf (Config.ecdh i (BitVec.ofNat 768 (beNat ((b.drop 56).take 96))))
    ((b.drop 24).take 32 ++ beBytes 32 (Config.nonce i).toNat)
    (label lab ++ digestBytes (Config.sha384 (b.take 384))) n

def kaBody (b : List Byte) (i : Nat) : List Byte :=
  leBytes 4 0x4B415253 ++ leBytes 1 (kaMode b) ++ leBytes 3 0 ++ leBytes 8 (leAt b 8 8)
  ++ digestBytes (Config.sha384 (b.take 384)) ++ beBytes 32 (Config.nonce i).toNat ++ beBytes 96 (Config.ephPub i).toNat
  ++ List.replicate 64 0

/-- An SA whose successor is in use both ways is deleted: the new one has received 16 frames and carries the transmit
direction (R416). -/
def Port.settle (x : Port) : Port :=
  match x.next with
  | none => x
  | some n => if x.txNew ∧ (x.sa.isNone ∨ 16 ≤ x.rxNew) then { x with sa := some n, next := none, txNew := false, rxNew := 0 } else x

/-- Install an SA on a port; the port is protected from then on (R416, R417). An SA already waiting gives way. -/
def Port.install (x : Port) (key : BitVec 352) (start : Nat) : Port :=
  let cur := if x.txNew then x.next else x.sa
  let an := match x.next, x.sa with
    | some n, _ => n.an + 1
    | none, some a => a.an + 1
    | none, none => 0
  { x with sa := cur, next := some { key := key, an := an }, switchTn := some start, txNew := false, rxNew := 0, mode := 2 }

/-- Install SAKs of 44 bytes each on ports in ascending order. -/
def State.keyPorts (s : State) (ports : List Nat) (okm : List Byte) (start : Nat) : State :=
  ports.zipIdx.foldl (fun (s : State) (z : Nat × Nat) =>
    s.setPort z.1 ((s.port z.1).install (BitVec.ofNat 352 (beNat ((okm.drop (44 * z.2)).take 44))) start)) s

/-- The ports a request keys: the ones it names in mode 2, otherwise every open port, on ring set 0 (R485). -/
def State.kaPortList (s : State) (ring : Nat) (b : List Byte) : List Nat :=
  (List.range 2).filter (fun p =>
    if kaMode b = 2 then decide (kaPorts b / 2 ^ p % 2 = 1)
    else decide (ring = 0) && decide ((s.port p).mode = 1))

/-- Fuse the owner slot of a mode-0 request (R467, R485). -/
def State.takeOwnership (s : State) (b : List Byte) : State :=
  match s.freeSlot with
  | none => s
  | some i =>
    let x : OwnerSlot := { digest := kaKeyDigest b, endorse := decide (leAt b 304 1 = 1), used := true }
    { s with rnd := { s.rnd with slots := Tab.put {} s.rnd.slots i x, lc := .owned } }

/-- Give a ring set its ring key; serials up to the agreement's keep the old one (R487). An ACTIVE device sends the key to
its mate first (R488). -/
def State.keyRing (s : State) (r : Nat) (key : List Byte) (serial : Nat) : State :=
  let x := s.ring r
  let s := s.setRing r { x with key := some (BitVec.ofNat 256 (beNat key)), oldKey := x.key.map (fun k => (k, serial)) }
  if s.cal.role = .active then s.send (some .calrin) 0x50 0 (beBytes 1 r ++ key.take 32) else s

/-- Derive and install what a request asks for (R485). -/
def State.kaInstall (s : State) (ring : Nat) (b : List Byte) (i : Nat) : State :=
  let ports := s.kaPortList ring b
  let s := if kaMode b = 0 then s.takeOwnership b else s
  let s := if kaMode b = 2 then s else s.keyRing ring (kaKeys b i "TZ5K ring" 32) (leAt b 8 8)
  if ports.isEmpty then s else s.keyPorts ports (kaKeys b i "TZ5K port" (44 * ports.length)) (leAt b 16 8)

/-- A mode-2 request for the mate's ports (R488). -/
def kaForMate (b : List Byte) : Bool := decide (kaMode b = 2) && decide (kaPorts b / 16 % 2 = 1)

/-- Answer a KEY_AGREE: derive the keys, write the response, complete. One for the mate's ports is relayed, and its command
waits for the mate's response. -/
def State.giveKeys (s : State) (h : Nat) (e : JEntry) : State :=
  if kaForMate e.bytes then s.send (some .calrin) 0x51 0 (e.bytes.take 2256)
  else
    let (i, s) := s.draw
    let (q, t) := s.takeLeaf
    let out := s.signed q (kaBody e.bytes i)
    ((t.output h (e.f 8 8) (e.f 16 4) 32 out).kaInstall e.ring e.bytes i).complete h 0 s.tnNow 0

/-! ### Peer keying (R489, R490) -/

/-- The bytes of a HELLO: nonce and public key. -/
def helloBytes (n : BitVec 256) (e : BitVec 768) : List Byte := beBytes 32 n.toNat ++ beBytes 96 e.toNat

/-- NONCE of a peer quote: over both HELLOs, the lower DEVICE_ID's first. -/
def peerNonce (own far : List Byte) (ownLower : Bool) : List Byte :=
  (Config.sha384 (if ownLower then own ++ far else far ++ own)).toNat |> beBytes 48 |>.take 32

/-- The parts of an exchange as packets of TYPE 0x40 carry them: PART, PARTS and up to 1,472 bytes. -/
def keyingParts (b : List Byte) : List (List Byte) :=
  let ps := pieces 8 0 b
  ps.zipIdx.map (fun (z : (Nat × List Byte) × Nat) => beBytes 1 z.2 ++ beBytes 1 ps.length ++ z.1.2)

/-- Send this device's quote on a link once the peer's HELLO has come. -/
def State.sendPeerQuote (s : State) (n : Nat) : State :=
  let l := linkOf n
  let x := s.plink l
  match x.nonceOwn, x.helloFar with
  | some i, some (fn, fe) =>
    let (q, t) := s.takeLeaf
    let nonce := peerNonce (helloBytes (Config.nonce i) (Config.ephPub i)) (helloBytes fn fe)
      (decide (Config.deviceId.toNat < (Config.peerId n).toNat))
    let out := s.quote 0x80 q nonce true
    (keyingParts out).foldl (fun (u : State) p => u.send (some l) 0x40 0 p) t
  | _, _ => s

/-- Answer a command that needs an ephemeral key. -/
def State.serveKey (s : State) (h : Nat) : State :=
  match s.job h with
  | none => s
  | some e => if e.d.opcode = 0x75 then s.giveQuote h e else if e.d.opcode = 0x72 then s.giveKeys h e else s

/-- Serve a command now, or keep it while a new ephemeral key is created (R477). -/
def State.whenKey (s : State) (h : Nat) (e : JEntry) : State :=
  if s.rnd.ephBusyUntil.isSome then { s with rnd := { s.rnd with quotes := s.rnd.quotes ++ [⟨h, e.prin⟩] } }
  else s.serveKey h

/-- Serve a waiting quote: a command's, or a peer link's (principal 0x80). -/
def State.serveJob (s : State) (j : QuoteJob) : State :=
  if j.principal = 0x80 then s.sendPeerQuote j.h else s.serveKey j.h

/-- Quote to a peer now, or when a new ephemeral key stands ready (R477, R489). -/
def State.quotePeer (s : State) (n : Nat) : State :=
  if s.rnd.ephBusyUntil.isSome then { s with rnd := { s.rnd with quotes := s.rnd.quotes ++ [⟨n, 0x80⟩] } }
  else s.sendPeerQuote n

/-- Serve waiting commands in order for as long as a key stands ready. -/
def State.serveQuotes : Nat → State → State
  | 0, s => s
  | n + 1, s =>
    match s.rnd.quotes with
    | [] => s
    | j :: t =>
      if s.rnd.ephBusyUntil.isSome then s
      else State.serveQuotes n (({ s with rnd := { s.rnd with quotes := t } }).serveJob j)

/-- Refusals of KEY_AGREE (R483, R527). The DEVICE_ID of a request for the mate's ports is the mate's to check. -/
def chkKeyAgree : Check := fun e s =>
  let b := e.bytes
  let bt := e.batch
  let m := kaMode b
  let auth := decide (m = e.f 4 1)
    && (decide (m = 0) || decide (kaKeyDigest b = s.keyDigest e.prin))
    && (match bt with | some x => x.ecOk && x.lmsOk | none => false)
    && (kaForMate b || decide (BitVec.ofNat 384 (beNat ((b.drop 320).take 48)) = Config.deviceId))
    && decide (leAt b 8 8 = e.d.serial) && decide (leAt b 6 1 = e.ring) && decide (leAt b 5 1 = e.prin)
  let state := decide (s.rnd.lc ≠ .manufacture)
    && (decide (m ≠ 0) || (decide (s.rnd.lc = .provisioned) && (s.ring e.ring).boot && decide (e.ring = 0) && s.freeSlot.isSome))
    && (!kaForMate b || decide ((s.plink .calrin).st = .up))
  (firstErr [need (decide (e.f 4 1 ≤ 2) && decide (e.f 8 8 % 8 = 0) && kaRange b) eRange, need auth eAuth,
    need state eState], 0)

/-- KEY_AGREE. -/
def execKeyAgree (h : Nat) (s : State) : Out := .next (s.runCmd 0x72 chkKeyAgree (fun h e s => s.whenKey h e) h)

/-- MATE_RING_KEY: a ring key of the pair arrives over Calrin (R488). -/
def execMateRingKey (hd : FabHdr) (ring : Fin 16) (key : BitVec 256) (s : State) : Out :=
  .next (if hd.link = .calrin ∧ s.mated then
      s.fabTake hd 0x50 (beBytes 1 ring ++ beBytes 32 key.toNat) (fun s =>
        let x := s.ring ring
        s.setRing ring { x with key := some key, oldKey := x.key.map (fun k => (k, x.expect - 1)) })
    else s)

/-- MATE_KEY_AGREE_REQUEST: the mate keys its own ports from the relayed request and answers with its own certificate and
keys; a request that it refuses it answers empty (R488). -/
def execMateKeyAgreeRequest (hd : FabHdr) (req : List Byte) (ecOk lmsOk : Bool) (s : State) : Out :=
  .next (if hd.link = .calrin ∧ s.mated then
      s.fabTake hd 0x51 req (fun s =>
        let ok := kaRange req && kaForMate req && ecOk && lmsOk && decide (kaKeyDigest req = s.ownerDigest)
          && decide (BitVec.ofNat 384 (beNat ((req.drop 320).take 48)) = Config.deviceId)
        if ok then
          let (i, s) := s.draw
          let (q, t) := s.takeLeaf
          let out := s.signed q (kaBody req i)
          (t.kaInstall 0 req i).send (some .calrin) 0x52 0 (beBytes 8 (leAt req 8 8) ++ out)
        else s.send (some .calrin) 0x52 0 (beBytes 8 (leAt req 8 8)))
    else s)

/-- MATE_KEY_AGREE_RESPONSE: the mate's response goes to the host's buffer and the command completes (R488). -/
def execMateKeyAgreeResponse (hd : FabHdr) (serial : Nat) (resp : List Byte) (s : State) : Out :=
  .next (if hd.link = .calrin ∧ s.mated then
      s.fabTake hd 0x52 (beBytes 8 serial ++ resp) (fun s =>
        match s.mgp.journal.find? (fun (x : Nat × JEntry) => decide (x.2.d.opcode = 0x72) && decide (x.2.d.serial = serial)
          && decide (x.2.prin = 0) && x.2.accepted.isSome && x.2.cmp.isNone && kaForMate x.2.bytes) with
        | none => s
        | some x =>
          if resp.isEmpty then s.complete x.1 eAuth s.tnNow 0
          else (s.output x.1 (x.2.f 8 8) (x.2.f 16 4) 32 resp).complete x.1 0 s.tnNow 0)
    else s)

/-- SA_TX_SWITCH: the first frame at or after the tick that the agreement names goes out on the new SA (R416). Before TN is
valid the tick counts as reached. -/
def execSaTxSwitch (port : Fin 2) (s : State) : Out :=
  let x := s.port port
  .next (match x.next, x.switchTn with
    | some _, some t =>
      if s.up ∧ (s.clk.tnValid = false ∨ t ≤ s.clk.tn) then
        s.setPort port ({ x with txNew := true, switchTn := none }).settle
      else s
    | _, _ => s)

/-! ### ATTEST_QUOTE -/

/-- Refusals of ATTEST_QUOTE (R499, R528); a device without an identity has none to quote (R466). -/
def chkAttestQuote : Check := fun e s =>
  (firstErr [need (decide (e.prin = 0) || decide (e.f 4 1 = e.prin)) eRange,
    need (decide (e.f 4 1 ≤ 64) && decide (e.f 8 8 % 8 = 0)) eRange, need (decide (s.rnd.lc ≠ .manufacture)) eState], 0)

/-- ATTEST_QUOTE. -/
def execAttestQuote (h : Nat) (s : State) : Out := .next (s.runCmd 0x75 chkAttestQuote (fun h e s => s.whenKey h e) h)

/-- EPHEMERAL_KEY_READY: the new key stands and the commands that wait for it are served (R475, R477). -/
def execEphemeralKeyReady (s : State) : Out :=
  whenUp s (if s.rnd.ephBusyUntil.isNone then s
    else
      let s := { s with rnd := { s.rnd with ephBusyUntil := none } }
      s.serveQuotes s.rnd.quotes.length)

/-! ### Firmware images (R479 to R481, R529, R530) -/

def imgEndorsed (b : List Byte) : Bool := decide (leAt b 7 1 % 2 = 1)
def imgSvn (b : List Byte) : Nat := leAt b 6 1
/-- The image body behind the manifest and its signatures. -/
def imgBody (b : List Byte) : List Byte := b.drop (if imgEndorsed b then 4248 else 2380)

/-- The first failed check of R480, 2 to 7; 0 when the image passes. -/
def State.imageCheck (s : State) (x : FwImage) : Nat :=
  let b := x.bytes
  if s.rnd.lc = .scrapped then 1
  else if leAt b 0 4 ≠ 0x545A4657 ∨ leAt b 4 2 ≠ 1 ∨ leAt b 8 4 ≠ 0x5000 then 2
  else if imgSvn b < s.rnd.svnFused then 3
  else if x.sigs.vendorEc = false then 4
  else if x.sigs.vendorLms = false then 5
  else if s.rnd.lc = .owned ∧ s.endorseReq ∧ ¬ (imgEndorsed b ∧ x.sigs.ownerEc ∧ x.sigs.ownerLms) then 6
  else if (imgBody b).length < leAt b 12 4
      ∨ Config.sha384 ((imgBody b).take (leAt b 12 4)) ≠ BitVec.ofNat 384 (beNat ((b.drop 16).take 48)) then 7
  else 0

/-- The slot that is not running. -/
def State.spareSlot (s : State) : Option FwImage := if s.pwr.slotB then s.flash.slotA else s.flash.slotB
def State.setSpare (s : State) (x : Option FwImage) : State :=
  if s.pwr.slotB then { s with flash := { s.flash with slotA := x } } else { s with flash := { s.flash with slotB := x } }

def fsFirst (e : JEntry) : Bool := decide (e.f 4 1 % 2 = 1)
def fsLast (e : JEntry) : Bool := decide (e.f 4 1 / 2 % 2 = 1)
/-- The image as staged up to and with this chunk. -/
def State.fsImage (s : State) (e : JEntry) : FwImage :=
  ⟨(if fsFirst e then [] else s.rnd.stage) ++ e.bytes,
   match e.batch with | some b => b.sigs | none => ⟨false, false, false, false⟩⟩

/-- Refusals of FW_STAGE (R481, R529). -/
def chkFwStage : Check := fun e s =>
  let off := e.f 8 4
  let total := e.f 12 4
  let stop := off + e.bytes.length
  let seq := (if fsFirst e then decide (off = 0)
      else decide (off = s.rnd.stage.length) && decide (total = s.rnd.stageTotal) && decide (off ≠ 0))
    && decide (stop ≤ total) && (!fsLast e || decide (stop = total))
  let c := if fsLast e then s.imageCheck (s.fsImage e) else 0
  (firstErr [need (decide (4096 ≤ total) && decide (total ≤ 16777216)) eRange, need seq eState,
    if c = 0 then 0 else if c = 2 then eRange else if c ≤ 3 then eState else eAuth], 0)

/-- Write the chunk; FIRST erases the slot, LAST stages the image. -/
def effFwStage : Effect := fun h e s =>
  let img := s.fsImage e
  let s := if fsFirst e then s.setSpare none else s
  let s := { s with rnd := { s.rnd with stage := img.bytes, stageTotal := e.f 12 4, staged := fsLast e } }
  if fsLast e then (s.setSpare (some img)).complete h 0 s.tnNow (imgSvn img.bytes) else s.complete h 0 s.tnNow 0

/-- FW_STAGE. -/
def execFwStage (h : Nat) (s : State) : Out := .next (s.runCmd 0x73 chkFwStage effFwStage h)

/-- The directory copy in force: 0 neither, 1 copy 0, 2 copy 1 (R623, R638). -/
def flashDir (f : Flash) : Nat :=
  if f.dir0.valid ∧ (f.dir1.valid = false ∨ f.dir1.gen ≤ f.dir0.gen) then 1 else if f.dir1.valid then 2 else 0
/-- The slot preferred is B. -/
def flashPrefersB (f : Flash) : Bool :=
  if flashDir f = 1 then f.dir0.preferB else if flashDir f = 2 then f.dir1.preferB else false
/-- Write the other directory copy with GEN one higher. -/
def flashPrefer (f : Flash) (b : Bool) : Flash :=
  if flashDir f = 1 then { f with dir1 := ⟨true, b, f.dir0.gen + 1⟩ }
  else { f with dir0 := ⟨true, b, (if flashDir f = 2 then f.dir1.gen else 0) + 1⟩ }

/-- PREFER_STAGED needs a staged image (R530). -/
def chkFwActivate : Check := fun e s => (need (decide (e.f 4 1 % 2 = 0) || s.rnd.staged) eState, 0)
def effFwActivate : Effect := fun h e s =>
  let s := if e.f 4 1 % 2 = 1 then { s with flash := flashPrefer s.flash (!s.pwr.slotB) } else s
  let s := if e.f 4 1 / 2 % 2 = 1 then { s with rnd := { s.rnd with svnFused := max s.rnd.svnFused s.rnd.svnRun } } else s
  s.complete h 0 s.tnNow s.rnd.svnFused

/-- FW_ACTIVATE. -/
def execFwActivate (h : Nat) (s : State) : Out := .next (s.runCmd 0x74 chkFwActivate effFwActivate h)

/-! ### SEAL (R399, R477, R533, R621, R626) -/

/-- M_SETUP: the sealed set-up digest (R477). -/
def State.setupDigest (s : State) : Digest :=
  Config.sha384 (s.rwsVals.flatMap (fun w => leBytes 4 w.toNat) ++ (match s.sds.bt.held with | some t => t.bytes | none => []))

/-- Refusals of SEAL. -/
def chkSeal : Check := fun _ s =>
  (need (decide (s.rnd.lc = .owned) && s.clk.tnValid && s.sds.bt.held.isSome && !s.sealed) eState, 0)

/-- The opcodes that a warm reset aborts (R626). -/
def abortedOpcodes : List Nat := [0x20, 0x21, 0x31, 0x41, 0x52, 0x61, 0x83]

/-- Commands accepted before a warm reset and not ended: the named-tick ones complete with E_ABORTED, the others are
executed from their descriptors before any new command of their ring set (R626). -/
def State.resumeSealed (s : State) : State :=
  s.mgp.journal.foldl (fun (s : State) (x : Nat × JEntry) =>
    let e := x.2
    if e.stale = false then s
    else
      let s := s.setJob x.1 (fun y => { y with stale := false, resume := true })
      if e.d.opcode ∈ abortedOpcodes then
        s.complete x.1 eAborted s.tnNow (if e.d.opcode = 0x21 then 0x8000 * 2 ^ 48 + e.f 16 2 else 0)
      else s) s

/-- Seal the device: the set-up registers are fixed and copied to retention RAM, and a member of a mate pair enters
DETACHED. -/
def effSeal : Effect := fun h _ s =>
  let d := s.setupDigest
  let s := { s with sealed := true, sealImg := some s.rwsImage, rnd := { s.rnd with mSetup := d }
                    sds := { s.sds with bt := { s.sds.bt with sealBuf := s.sds.bt.buf } } }
  let s := s.resumeSealed
  let s := s.complete h 0 s.tnNow (leNat ((digestBytes d).take 8))
  if s.mated then (s.setRole .detached).resolve else s

/-- SEAL. -/
def execSeal (h : Nat) (s : State) : Out := .next (s.runCmd 0x82 chkSeal effSeal h)

/-! ### CONTROL_RESTART and NOP -/

/-- Refusals of CONTROL_RESTART (R47, R498, R534). -/
def chkControlRestart : Check := fun e s =>
  (firstErr [need (decide (e.f 4 1 ≤ 1)) eRange, s.leadCheck (e.f 8 8), need (decide (e.f 4 1 = 0) || s.rnd.staged) eState,
    need (s.restarts.all (fun x => decide (x.n ≠ e.f 8 8))) eConflict], 0)
def effControlRestart : Effect := fun h e s =>
  ({ s with restarts := s.restarts ++ [(⟨h, decide (e.f 4 1 = 1), e.f 8 8⟩ : RestartAct)] }).recEvt 1 h (e.f 8 8) 0

/-- CONTROL_RESTART: scheduled for its tick. -/
def execControlRestart (h : Nat) (s : State) : Out := .next (s.runCmd 0x83 chkControlRestart effControlRestart h)

/-- NOP completes at execution. -/
def execNop (h : Nat) (s : State) : Out := .next (s.runCmd 0x00 (fun _ _ => (0, 0)) (fun h _ s => s.complete h 0 s.tnNow 0) h)

end Sys2Proof.Machine
end

