-- ==== Sys2Proof/Machine/Counters.lean ====
section
/-! DEFINITION. Reading, presetting and dumping counters (15_counters, R573 to R586; 13_commands, R523, R524). -/
namespace Sys2Proof.Machine

/-! ### Who reads what (R573) -/

/-- A principal may read a scope. -/
def scopeReads (p scope : Nat) : Bool :=
  if p = 0 then true
  else if p ≤ 63 then decide (scope ∈ [1, 2, 3])
  else decide (scope ∈ [0, 4, 5])

/-- A principal may read or preset an object of a scope it may use. -/
def State.objectOk (s : State) (p scope o : Nat) : Bool :=
  decide (o < scopeObjs scope) && (decide (p = 0) || match scope with
    | 1 => s.whUse p o
    | 2 => s.prUse p o
    | 3 => decide (s.ringOf p = some o)
    | _ => decide (64 ≤ p))

/-- The counter words of an object from a table. -/
def objWords (t : Tab Counter) (scope o : Nat) : List Byte :=
  (List.range (scopeNc scope)).flatMap (fun j => leBytes 8 (t.look {} (cKey scope o j)).word)
/-- The words of `n` objects. -/
def objsWords (t : Tab Counter) (scope first n : Nat) : List Byte :=
  (List.range n).flatMap (fun i => objWords t scope (first + i))

/-! ### COUNTER_READ -/

/-- Bytes of a result (R576). -/
def crNeed (e : JEntry) : Nat := 32 + 8 * scopeNc (e.f 4 1) * e.f 12 4

/-- Refusals of COUNTER_READ (R523, R524, R573, R576). -/
def chkCounterRead : Check := fun e s =>
  let sc := e.f 4 1
  let f := e.f 8 4
  let n := e.f 12 4
  let seen := (List.range n).all (fun i => s.objectOk e.prin sc (f + i))
  let ok := decide (sc ≤ 7) && decide (1 ≤ n) && decide (n ≤ 4096) && decide (f + n ≤ scopeObjs sc) && seen
    && decide (e.f 16 8 % 8 = 0)
  let c := firstErr [need (decide (7 < sc) || scopeReads e.prin sc) ePerm, need ok eRange]
  if c ≠ 0 then (c, 0) else if e.f 28 4 < crNeed e then (eRange, crNeed e) else (0, 0)

/-- Counters without their WRAP_SEC bits. -/
def clearSec (l : Tab Counter) : Tab Counter :=
  (l.map (fun (x : Nat × Counter) => (x.1, { x.2 with wrapSec := false }))).filter (fun x => decide (x.2 ≠ {}))

/-- Bit j of a MASK. -/
def maskBit (m j : Nat) : Bool := decide (m / 2 ^ j % 2 = 1)

/-- An object has counters: those of an undefined Wheel or pair stay at 0 (R254, R568, R572). -/
def State.counts (s : State) (scope obj : Nat) : Bool :=
  if scope = 1 then (s.wheel obj).defined else if scope = 2 then (s.pair obj).defined else true

/-- The presets that name this tick. -/
def State.presetsDue (s : State) : List Preset := s.cnt.presets.filter (fun p => s.dueAt p.n)

/-- The counters of a preset in a table. -/
def State.presetTab (s : State) (t : Tab Counter) (p : Preset) : Tab Counter :=
  (List.range (scopeNc p.scope)).foldl (fun (t : Tab Counter) j =>
    if maskBit p.mask j ∧ s.counts p.scope p.obj then Tab.put {} t (cKey p.scope p.obj j) { v := p.value } else t) t

/-- Every counter as it stands once cycle 1 of this tick has ended: with its latch and its presets, done or still due, and with no
increment of the tick (R574). -/
def State.snapTab (s : State) : Tab Counter :=
  if s.drops 6 then s.cnt.start
  else s.presetsDue.foldl s.presetTab (if s.atSecond then clearSec s.cnt.start else s.cnt.start)

/-- TN of the latest latch, that of this tick included (R574, R576). -/
def State.lastLatch (s : State) : Nat := if s.atSecond && !s.drops 6 then s.clk.tn else s.cnt.latchTn

/-- The snapshot of the tick goes to the host buffer. -/
def effCounterRead : Effect := fun h e s =>
  let sc := e.f 4 1
  let out := leBytes 1 sc ++ leBytes 1 (scopeNc sc) ++ [0, 0] ++ leBytes 4 (e.f 8 4) ++ leBytes 4 (e.f 12 4) ++ leBytes 4 0
    ++ leBytes 8 s.tnNow ++ leBytes 8 s.lastLatch ++ objsWords s.snapTab sc (e.f 8 4) (e.f 12 4)
  let s := { s with clk := { s.clk with readUsed := s.clk.readUsed + 1 } }
  (s.output h (e.f 16 8) (e.f 24 4) 0 out).complete h 0 s.tnNow out.length

/-- COUNTER_READ: at most one executes per tick (R575). -/
def execCounterRead (h : Nat) (s : State) : Out :=
  .next (if s.clk.readUsed = 0 then s.runCmd 0x60 chkCounterRead effCounterRead h else s)

/-! ### COUNTER_PRESET -/

/-- Refusals of COUNTER_PRESET (R47, R498, R573, R578). -/
def chkCounterPreset : Check := fun e s =>
  let sc := e.f 4 1
  let o := e.f 8 4
  let m := e.f 16 8
  let n := e.f 32 8
  let perm := decide (e.prin = 0) || decide (7 < sc) || (decide (e.prin ≤ 63) && scopeReads e.prin sc)
  let ok := decide (sc ≤ 7) && s.objectOk e.prin sc o && decide (m ≠ 0) && decide (m < 2 ^ scopeNc sc)
    && decide (e.f 24 8 < 2 ^ scopeWidth sc)
  let clash := s.cnt.presets.any (fun p => decide (p.n = n) && decide (p.scope = sc) && decide (p.obj = o)
    && (List.range (scopeNc sc)).any (fun j => maskBit p.mask j && maskBit m j))
  (firstErr [need perm ePerm, need ok eRange, s.leadCheck n, need (!clash) eConflict], 0)

def effCounterPreset : Effect := fun h e s =>
  let p : Preset := ⟨h, e.f 4 1, e.f 8 4, e.f 16 8, e.f 24 8, e.f 32 8⟩
  ({ s with cnt := { s.cnt with presets := s.cnt.presets ++ [p] } }).recEvt 1 h p.n 0

/-- COUNTER_PRESET: scheduled for its tick. -/
def execCounterPreset (h : Nat) (s : State) : Out := .next (s.runCmd 0x61 chkCounterPreset effCounterPreset h)

/-- Set the counters that a preset names; their WRAP and WRAP_SEC bits clear (R577). -/
def State.applyPreset (s : State) (p : Preset) : State :=
  let s := (List.range (scopeNc p.scope)).foldl (fun (s : State) j =>
    if maskBit p.mask j ∧ s.counts p.scope p.obj then s.presetCounter p.scope p.obj j p.value else s) s
  s.complete p.h 0 p.n 0

/-- The presets of this tick, in the order of acceptance: none of them names a counter that another names (R47, R48, R577).
Presets discarded complete with E_ABORTED (R23, log 74). -/
def State.presetsNow (s : State) : State :=
  let due := s.presetsDue
  let gone := s.drops 6
  let s := { s with cnt := { s.cnt with presets := s.cnt.presets.filter (fun p => !s.dueAt p.n) } }
  due.foldl (fun (t : State) p => if gone then t.complete p.h eAborted p.n 0 else t.applyPreset p) s

/-! ### Latch and images (R579 to R586) -/

/-- At the edge of a tick the counts are set apart; where the latch is due in it WRAP_SEC is cleared, for events of that tick
belong to the second that begins (R34, R567, R569, R579). -/
def State.countEdge (s : State) : State :=
  { s with cnt := { s.cnt with
      start := s.cnt.live, cut := s.atSecond, live := if s.atSecond then clearSec s.cnt.live else s.cnt.live } }

/-- Copy every counter, as it stood at the tick's edge, into the latched set (R34, R569, R579). -/
def State.latch (s : State) : State :=
  if s.drops 6 then s
  else { s with cnt := { s.cnt with
      latched := s.cnt.start
      latchTn := s.clk.tn
      cut := true
      live := if s.cnt.cut then s.cnt.live else clearSec s.cnt.live } }

/-- A section of an image: scope, first object, objects, and its counter words. -/
structure Section where
  scope : Nat
  first : Nat
  count : Nat
  words : List Byte
deriving DecidableEq, Repr

def Section.bytes (x : Section) : List Byte :=
  leBytes 1 x.scope ++ leBytes 1 (scopeNc x.scope) ++ [0, 0] ++ leBytes 4 x.first ++ leBytes 4 x.count ++ leBytes 4 0
  ++ x.words

/-- The objects of a scope that a principal may read, as a range. -/
def State.scopeRange (s : State) (p scope : Nat) : Nat × Nat :=
  if p = 0 ∨ 64 ≤ p then (0, scopeObjs scope)
  else match scope with
    | 1 => ((s.part p).whFirst, (s.part p).whCount)
    | 2 => ((s.part p).prFirst, (s.part p).prCount)
    | 3 => match s.ringOf p with | some r => (r, 1) | none => (0, 0)
    | _ => (0, 0)

/-- The scopes of a mask that a principal may read, in ascending order. -/
def dumpScopes (p mask : Nat) : List Nat := (List.range 8).filter (fun c => maskBit mask c && scopeReads p c)

/-- IMG_LEN of a principal's image (R581). -/
def State.imgLen (s : State) (p mask : Nat) : Nat :=
  80 + ((dumpScopes p mask).map (fun c => 16 + 8 * scopeNc c * (s.scopeRange p c).2)).sum

/-- The sections of a principal's image from the latched set. -/
def State.sections (s : State) (p mask : Nat) : List Section :=
  (dumpScopes p mask).map (fun c =>
    let r := s.scopeRange p c
    ⟨c, r.1, r.2, objsWords s.cnt.latched c r.1 r.2⟩)

/-- The sections that fit whole, in order, into `room` bytes (R584). -/
def fitSections : Nat → List Section → List Section
  | _, [] => []
  | room, x :: t => if x.bytes.length ≤ room then x :: fitSections (room - x.bytes.length) t else []

/-- The header of an image (R581). -/
def imgHeader (flags n latch prev skipped : Nat) (dev : Word) (p len seq : Nat) : List Byte :=
  leBytes 4 0x444D5031 ++ leBytes 2 1 ++ leBytes 1 flags ++ leBytes 1 n ++ leBytes 8 latch ++ leBytes 8 prev
  ++ leBytes 4 skipped ++ leBytes 4 dev.toNat ++ leBytes 1 p ++ leBytes 3 0 ++ leBytes 4 len ++ leBytes 8 seq ++ leBytes 16 0

/-- Write an image of source `src` into the next slot of a ring set's dump area (R583, R584). -/
def State.writeImage (s : State) (r src latch flags : Nat) (dev : Word) (secs : List Section) : State :=
  let d := s.dump r
  let len := 80 + (secs.map (fun x => x.bytes.length)).sum
  let fit := fitSections (d.slotSize - 80) secs
  let trunc := decide (d.slotSize < len)
  let seq := d.imgSeq + 1
  let base := d.addr + d.slotSize * ((seq - 1) % d.slots)
  let pv := d.prev.look (0, 0) src
  let bytes := imgHeader (flags + b2n trunc) fit.length latch pv.1 pv.2 dev (s.ring r).prin len seq ++ fit.flatMap Section.bytes
  let s := s.setDump r { d with imgSeq := seq, imgs := d.imgs ++ [⟨src, latch, seq, base + bytes.length, false⟩] }
  let s := if trunc then s.setSticky (Reg.dumpStatus r) 0x40000000 else s
  s.issue r ⟨.dump r seq, base, d.hkey, bytes, bytes.length⟩

/-- Count a skipped second of a source (R585). -/
def Dump.skip (d : Dump) (src : Nat) : Dump :=
  let pv := d.prev.look (0, 0) src
  { d with prev := Tab.put (0, 0) d.prev src (pv.1, pv.2 + 1), skipTotal := d.skipTotal + 1 }

/-- Take the writes of an image off a queue pair. -/
def State.dropDumpOps (s : State) (q r seq : Nat) : State :=
  let keep := (s.qp q).ops.filter (fun (o : RdmaOp) => decide (o.kind ≠ .dump r seq) && decide (o.kind ≠ .trailer r seq))
  s.setQp q { s.qp q with ops := keep }

/-- Abandon an image: its second is skipped, and it gives its sequence back where it was the last one (R585). -/
def State.abandonImg (s : State) (r : Nat) (i : DumpImg) : State :=
  let d := s.dump r
  let d := { d.skip i.src with imgs := d.imgs.filter (fun x => x.seq ≠ i.seq)
                               imgSeq := if d.imgSeq = i.seq then d.imgSeq - 1 else d.imgSeq }
  ((s.setDump r d).dropDumpOps (s.ring r).qpLo r i.seq).dropDumpOps (s.ring r).qpHi r i.seq

/-- Abandon every image of a dump area that is under way, the latest first (R585, R634). -/
def State.abandonDumps (s : State) (r : Nat) : State :=
  let s := (s.dump r).imgs.reverse.foldl (fun (s : State) i => s.abandonImg r i) s
  let d := s.dump r
  let d := d.ins.foldl (fun (d : Dump) i => d.skip i.src) d
  s.setDump r { d with ins := [] }

/-- The message type by which a standby's image travels to its mate in Calrin channel 2 (log 15). -/
def mateDumpType : Nat := 0x53

/-- Pieces of an image for another device: PRINCIPAL, LATCH_TN, OFFSET, data (R350, R363, R586). -/
def imgPieces (p latch : Nat) (bytes : List Byte) : List (List Byte) :=
  (pieces (bytes.length / 1472 + 1) 0 bytes).map (fun x => beBytes 1 p ++ beBytes 8 latch ++ beBytes 4 x.1 ++ x.2)

/-- The whole image of a principal, for sending. -/
def State.imgBytes (s : State) (p mask : Nat) : List Byte :=
  let secs := s.sections p mask
  imgHeader 0 secs.length s.cnt.latchTn 0 0 0 p (s.imgLen p mask) 0 ++ secs.flatMap Section.bytes
  ++ leBytes 8 s.cnt.latchTn ++ leBytes 8 0

/-- A worker's events and dumps go to its manager (R363). -/
def State.viaManager (s : State) : Bool := s.sealed && s.isWorker && !s.localPorts

/-- A principal has an image to start for the present latch (R585). -/
def State.dumpDue (s : State) (p : Nat) : Bool :=
  match s.ringOf p with
  | some r => (s.dump r).en && decide ((s.dump r).started ≠ s.cnt.latchTn)
  | none => false

/-- Start, send or skip the image of a latch. -/
def State.startImage (s : State) (p r : Nat) : State :=
  let d := s.dump r
  let l := s.cnt.latchTn
  let s := s.setDump r { d with started := l }
  if s.copies then
    (imgPieces p l (s.imgBytes p d.scopes)).foldl (fun (s : State) b => s.send (some .calrin) mateDumpType 0 b) s
  else if s.writesHost ∧ (s.workQp r).isSome ∧ d.slots ≠ 0 then s.writeImage r 0 l 0 0 (s.sections p d.scopes)
  else s.setDump r { (s.dump r).skip 0 with started := l }

/-- DUMP_IMAGE_START: from L + 1, principals in ascending ID. A worker without ports of its own sends the image of the owner
and of each principal set up on it to its manager. -/
def execDumpImageStart (principal : Fin 65) (s : State) : Out :=
  let p := principal.val
  whenFw s (
    if s.clk.tnValid = false ∨ s.cnt.latchTn = 0 ∨ s.clk.tn ≤ s.cnt.latchTn then s
    else if s.viaManager then
      if s.clk.tn = s.cnt.latchTn + 1 ∧ (p = 0 ∨ (s.part p).set) then
        (imgPieces p s.cnt.latchTn (s.imgBytes p 255)).foldl (fun (s : State) b => s.send none 0x23 s.mgrId b) s
      else s
    else
      match s.ringOf p with
      | some r => if s.dumpDue p ∧ (List.range p).all (fun q => !s.dumpDue q) then s.startImage p r else s
      | none => s)

/-! ### Images of other devices (R363, R586) -/

/-- Lay pieces out in one run of bytes; none while a piece is missing. -/
def joinParts : Nat → Nat → List (Nat × List Byte) → Option (List Byte)
  | 0, _, _ => none
  | n + 1, off, l =>
    match l.find? (fun x => x.1 = off) with
    | none => none
    | some x =>
      if l.all (fun y => decide (y.1 ≤ off)) then some x.2
      else match joinParts n (off + x.2.length) l with
        | some t => some (x.2 ++ t)
        | none => none

/-- The sections of an image's bytes. -/
def readSections : Nat → List Byte → List Section
  | 0, _ => []
  | n + 1, l =>
    let sc := leAt l 0 1
    let k := leAt l 8 4
    let w := 8 * scopeNc sc * k
    ⟨sc, leAt l 4 4, k, (l.drop 16).take w⟩ :: readSections n (l.drop (16 + w))

/-- Take a piece of another device's image; a whole image goes into the next slot with its flag and device (R586). A piece
of an image older than the present latch's second is too late. -/
def State.takeDump (s : State) (src flags : Nat) (dev : Word) (p latch off : Nat) (data : List Byte) : State :=
  match s.ringOf p with
  | none => s
  | some r =>
    let d := s.dump r
    if d.en = false ∨ s.accepts = false ∨ latch + 8000000 ≤ s.tnNow then s
    else
      let old := match d.ins.find? (fun x => decide (x.src = src) && decide (x.latch = latch)) with
        | some x => x.parts | none => []
      let parts := old ++ [(off, data)]
      let rest := d.ins.filter (fun x => !(decide (x.src = src) && decide (x.latch = latch)))
      let whole := match joinParts parts.length 0 parts with
        | some b => if b.length = leAt b 36 4 then some b else none
        | none => none
      match whole with
      | some b =>
        let s := s.setDump r { d with ins := rest }
        let secs := (readSections (leAt b 7 1) (b.drop 64)).filter (fun x => maskBit d.scopes x.scope)
        if s.writesHost ∧ (s.workQp r).isSome ∧ d.slots ≠ 0 then s.writeImage r src latch flags dev secs
        else s.setDump r ((s.dump r).skip src)
      | none => s.setDump r { d with ins := rest ++ [⟨src, latch, parts⟩] }

/-- MATE_DUMP: a piece of the standby member's image arrives over Calrin (R586). -/
def execMateDump (hd : FabHdr) (principal latchTn offset : Nat) (data : List Byte) (s : State) : Out :=
  whenFw s (if hd.link = .calrin ∧ s.mated then
      s.fabTake hd mateDumpType (beBytes 1 principal ++ beBytes 8 latchTn ++ beBytes 4 offset ++ data)
        (fun s => s.takeDump 1 4 0 principal latchTn offset data)
    else s)

/-! ### DUMP_CONFIG -/

/-- The slot size for a principal and scopes (R582). -/
def State.dumpSize (s : State) (p mask : Nat) : Nat := ceilDiv (s.imgLen p mask) 4096 * 4096

/-- Refusals of DUMP_CONFIG (R524, R573, R580, R582). -/
def chkDumpConfig : Check := fun e s =>
  let m := e.f 4 1
  let sz := s.dumpSize e.prin m
  if ¬ (List.range 8).all (fun c => !maskBit m c || scopeReads e.prin c) then (ePerm, 0)
  else if e.f 20 4 ≠ 0 ∧ e.f 20 4 < sz then (eRange, sz)
  else (0, 0)

/-- It waits for the first second boundary at least 16 ticks after execution. -/
def effDumpConfig : Effect := fun h e s =>
  let c : DumpCfg := ⟨h, e.prin, e.f 4 1, e.f 8 8, e.f 16 4, e.f 20 4, s.clk.tick + 16⟩
  { s with cnt := { s.cnt with dumpCfgs := s.cnt.dumpCfgs ++ [c] } }

/-- DUMP_CONFIG. -/
def execDumpConfig (h : Nat) (s : State) : Out := .next (s.runCmd 0x62 chkDumpConfig effDumpConfig h)

/-- Configure a dump area; LEN 0 stops dumps. -/
def State.setDumpCfg (s : State) (r : Nat) (c : DumpCfg) : State :=
  let sz := s.dumpSize c.prin c.scopes
  if c.len = 0 then s.setDump r {}
  else s.setDump r { en := true, scopes := c.scopes, addr := c.addr, hkey := c.hkey, slotSize := sz
                     slots := min (c.len / sz) 16383
                     started := if s.cnt.latchTn = s.tnNow then 0 else s.cnt.latchTn }

/-- Put one DUMP_CONFIG into effect at its boundary; an area that has become too small is refused then. -/
def State.applyDumpCfg (s : State) (c : DumpCfg) : State :=
  let sz := s.dumpSize c.prin c.scopes
  match s.ringOf c.prin with
  | none => s.complete c.h eRange s.tnNow 0
  | some r =>
    if c.len ≠ 0 ∧ c.len < sz then s.complete c.h eRange s.tnNow sz
    else
      let s := (s.abandonDumps r).setDumpCfg r c
      s.complete c.h 0 s.tnNow (if c.len = 0 then 0 else (s.dump r).slots * 2 ^ 32 + sz)

/-- A DUMP_CONFIG takes effect in this tick: the first second boundary at least 16 ticks after its execution (R524). -/
def State.dumpsDue (s : State) : List DumpCfg :=
  if s.atSecond then s.cnt.dumpCfgs.filter (fun c => decide (c.at_ ≤ s.clk.tick)) else []

/-- The DUMP_CONFIGs of this tick. Where the counters' work of the tick is discarded they wait for the next boundary (R23, log 74). -/
def State.dumpsNow (s : State) : State :=
  if s.dumpsDue.isEmpty ∨ s.drops 6 then s
  else s.dumpsDue.foldl State.applyDumpCfg
    { s with cnt := { s.cnt with dumpCfgs := s.cnt.dumpCfgs.filter (fun c => decide (s.clk.tick < c.at_)) } }

/-- At a latch every image of an earlier latch is abandoned, and a second that never started is skipped (R585). -/
def State.dumpSkip (s : State) (r : Nat) : State :=
  let d := s.dump r
  if d.en = false then s
  else
    let never := decide (s.cnt.latchTn ≠ 0) && decide (d.started ≠ s.cnt.latchTn)
    let s := s.abandonDumps r
    if never then s.setDump r ((s.dump r).skip 0) else s

end Sys2Proof.Machine
end

