-- ==== Sys2Proof/Machine/RegRead.lean ====
section
/-! DEFINITION. What the register window and the table windows read: the fields the device drives (18_register_map and the
tables it names), joined with what software wrote. -/
namespace Sys2Proof.Machine

/-- The index of a register array element at address `a`. -/
def arrIdx (a base stride : Nat) : Nat := (a - base) / stride

/-- A list of fields (low bit, value) as a register. -/
def packW (l : List (Nat × Nat)) : Word := BitVec.ofNat 32 ((l.map (fun p => p.2 * 2 ^ p.1)).sum)

/-- The state that a tick began with. -/
def State.toBegan (s : State) : Began :=
  { tnValid := s.clk.tnValid, pwr := s.pwr, regs := s.regs, sticky := s.sticky, rnd := s.rnd, str := s.str, sds := s.sds, frm := s.frm, whl := s.whl, hrp := s.hrp,
    flp := s.flp, col := s.col, cal := s.cal, fab := s.fab, mgp := s.mgp, prn := s.prn, mbx := s.mbx, mem := s.mem, rck := s.rck, cnt := s.cnt, nrg := s.nrg }

/-- What registers and tables show: the state as this tick began, with the TN of this tick (R9, R32, R206, R643). -/
def State.shown (s : State) : State :=
  match s.clk.began with
  | some v =>
    { s with
      clk := { s.clk with tnValid := v.tnValid }, pwr := v.pwr, regs := v.regs, sticky := v.sticky, rnd := v.rnd, str := v.str, sds := v.sds, frm := v.frm, whl := v.whl,
      hrp := v.hrp, flp := v.flp, col := v.col, cal := v.cal, fab := v.fab, mgp := v.mgp, prn := v.prn, mbx := v.mbx, mem := v.mem, rck := v.rck, cnt := v.cnt, nrg := v.nrg }
  | none => s

/-! ### Register pairs (R32, R641) -/

/-- The present value of the register pair whose _LO lies at an address, as its upper and lower word. -/
def State.pairAt (s : State) (a : Nat) : Option (Word × Word) :=
  let u64 := fun (v : Nat) => some (BitVec.ofNat 32 (v / 2 ^ 32), BitVec.ofNat 32 v)
  let s48 := fun (v : Int) => some (hi48 v, lo48 v)
  if a = 0x8 then u64 s.rnd.serial.toNat
  else if a = Reg.tnLo then u64 s.tnNow
  else if a = 0x300020 then s48 s.str.word
  else if a = 0x300028 then s48 (s.offsetNow.tdiv 1000)
  else if a = 0x300030 then s48 s.str.hoValue
  else if a = 0x600014 then
    match (s.flp.flips.filter (fun x => !x.cancelled)).map (fun x => x.f) with
    | [] => some (0xFFFFFFFF, 0xFFFFFFFF)
    | f :: t => u64 (t.foldl min f)
  else if a = 0xC00010 then u64 s.nrg.energy
  else none

/-- What a _HI register reads before its _LO was read: its reset value. -/
def hiReset (s : State) (a : Nat) : Word :=
  match s.pairAt (a - 4) with
  | some (h, _) => if a = 0x600018 then 0xFFFFFFFF else if a = 0xC then h else 0
  | none => 0

/-! ### Fields the device drives -/

def Align.num : Align → Nat | .hunt => 0 | .inFrame => 1 | .oof => 2
def WAlign.num : WAlign → Nat | .hunt => 0 | .inMf => 1 | .oom => 2
def Pow.num : Pow → Nat | .off => 0 | .sleep => 1 | .active => 2
def Ladder.num : Ladder → Nat
  | .down => 0 | .r0Align => 1 | .negotiate => 2 | .step => 3 | .verify => 4 | .inService => 5 | .fallback => 6
def Hb.num : Hb → Nat | .none => 0 | .active => 1 | .standby => 2
def RingSt.num : RingSt → Nat | .unbound => 0 | .open_ => 1 | .busy => 2 | .halted => 3

/-- Registers of the GLB block (R538, R634, R638). -/
def State.roGlb (s : State) (a : Nat) : Word :=
  let p := s.pwr
  if a = 0 then 0x5000
  else if a = 4 then packW [(8, 0xB0), (0, b2n s.rnd.grade)]
  else if a = 0x10 then packW [(1, b2n p.oscOk), (0, b2n p.coreLock)]
  else if a = 0x60 then packW [(16, p.wdogCore), (0, p.wdogCount % 65536)]
  else if a = 0x80 then packW [(29, p.last), (28, b2n p.slotB), (27, b2n p.fallback), (16, p.restarts % 256), (0, p.warmCount)]
  else if a = 0x84 then packW [(28, p.aFail), (24, p.bFail), (22, p.token), (20, p.dirCopy)]
  else if a = Reg.blkRst then p.blkReq.setWidth 32
  else if a = Reg.grpRst then p.grpReq
  else 0

/-- Registers of the MGP block (R414, R443). -/
def State.roMgp (s : State) (a : Nat) : Word :=
  if inArr a 0x100004 2 0x40 then
    let i := arrIdx a 0x100004 0x40
    let p := s.port i
    let up := (List.range 16).map (fun q => (q, b2n ((s.qp q).bound && decide ((s.qp q).port = i) && !(s.qp q).err)))
    packW ([(31, b2n p.link), (29, p.mode), (28, b2n p.next.isSome),
      (26, (p.sa.map (fun x => x.an.toNat)).getD 0)] ++ up)
  else if inArr a 0x100400 16 0x10 then
    let r := arrIdx a 0x100400 0x10
    let x := s.ring r
    if x.st = .unbound then 0
    else packW [(30, x.st.num), (26, if x.st = .open_ then 0 else x.cause), (20, x.qpLo % 16), (16, x.qpHi % 16),
      (15, b2n (decide (s.workQp r = some x.qpHi) && decide (x.qpHi ≠ x.qpLo))), (0, min (s.journalCount r) 256)]
  else 0

/-- Registers of the RND block (R493). -/
def State.roRnd (s : State) (a : Nat) : Word :=
  if a = 0x200000 then
    packW [(29, s.rnd.lc.num), (27, (s.ownerSlot.getD (s.freeSlot.getD 0)) % 4), (26, b2n s.endorseReq),
      (25, b2n s.rnd.exhausted), (15, s.rnd.epochs % 1024), (4, s.rnd.leaf % 2048)]
  else if a = 0x200004 then packW [(8, s.rnd.svnRun % 128), (0, s.rnd.svnFused % 128)]
  else 0

/-- Registers of the STR block (R341, STR_TN_CTRL, STR_SRC_STATUS, STR_SRC_FREQ). -/
def State.roStr (s : State) (a : Nat) : Word :=
  let x := s.str
  if a = 0x300000 then
    packW [(29, x.st.num), (28, b2n x.trans), (27, b2n x.dispute), (26, b2n (decide (x.st = .locked) && decide (x.bwStep < 4))),
      (25, b2n x.step.isSome), (24, b2n x.followMate), (20, s.qlOut % 16), (16, (x.sel.getD 0) % 16), (15, b2n x.sel.isSome)]
  else if a = Reg.tnCtrl then packW [(31, b2n s.clk.tnValid)]
  else if inArr a (Reg.srcStatus 0) 38 8 then
    let i := arrIdx a (Reg.srcStatus 0) 8
    let y := s.src i
    let sel := match x.sel with | some k => decide (s.entSource k = i) | none => false
    packW [(31, b2n y.active), (30, b2n y.inWindow), (29, b2n (s.qualified i)), (28, b2n sel),
      (24, if s.qualified i then 0 else if y.active && decide (s.srcBar i ≠ 0) then s.srcBar i else y.reason % 16), (20, y.qlRx % 16)]
  else if inArr a 0x300104 38 8 then
    let y := s.src (arrIdx a 0x300104 8)
    if y.active then BitVec.ofInt 32 y.freq else 0
  else 0

/-- Registers of the SDS block. -/
def State.roSds (s : State) (a : Nat) : Word :=
  if inArr a (Reg.laneCfg 0) 256 0x100 then
    let l := s.lane (arrIdx a (Reg.laneCfg 0) 0x100)
    packW [(2, l.txCmd.num), (0, l.rxCmd.num)]
  else if inArr a (Reg.laneStatus 0) 256 0x100 then
    let n := arrIdx a (Reg.laneStatus 0) 0x100
    let l := s.lane n
    packW [(30, l.loop), (29, b2n l.isolated), (28, b2n l.noPeer), (27, b2n l.rxReady), (26, b2n l.preRx),
      (25, b2n l.preTx), (24, b2n (s.sds.scans.any (fun c => c.lane = n)))]
  else if inArr a 0x410000 32 0x100 then
    let g := arrIdx a 0x410000 0x100
    packW [(1, b2n ((groupLanes g).any (fun n => decide ((s.lane n).tx ≠ .off)))), (0, b2n ((s.src g).active && s.clockOn g))]
  else if inArr a (Reg.grpStatus 0) 32 0x40 then
    let g := arrIdx a (Reg.grpStatus 0) 0x40
    let x := s.group g
    packW ([(29, x.st.num), (27, x.rung), (25, x.ceil), (23, x.booked),
        (16, if (groupLanes g).any (fun n => s.takesPart n) then x.farOffer % 16 else 0)]
      ++ (groupLanes g).map (fun n => (n % 8, b2n (s.takesPart n))))
  else if a = Reg.btStatus then
    packW [(29, s.sds.bt.state), (0, (s.sds.bt.held.map (fun t => t.rev % 2 ^ 24)).getD 0)]
  else 0

/-- Registers of the FRM block (R129, R347, R162). -/
def State.roFrm (s : State) (a : Nat) : Word :=
  if a < 0x520000 then
    let g := (a - 0x500000) / 0x1000
    let o := (a - 0x500000) % 0x1000
    let k := s.plink (.group (Fin.ofNat 32 g))
    if o = 0xC then
      packW [(29, k.st.num), (28, b2n (decide ((s.fabricInFrame g).length = 1))), (20, min k.samples.length 16),
        (0, (((s.fabricInFrame g).head?).getD 0) % 8)]
    else if o = 0x10 then BitVec.ofNat 32 k.delayPs
    else if o < 0x800 then 0
    else
      let n := 8 * g + (o - 0x800) / 0x100
      let l := (o - 0x800) % 0x100
      let x := s.rx n
      if l = 4 then
        packW ([(30, x.align.num), (17, b2n x.blockLock), (0, x.laneId % 1024)]
          ++ (List.range 4).map (fun d => (29 - d, b2n (s.laneDef n d).declared))
          ++ (List.range 4).map (fun d => (25 - d, b2n (s.laneDef n d).failed)))
      else if l = 0x18 then BitVec.ofInt 32 x.phase
      else if l = 0x1C then BitVec.ofNat 32 (s.counter 0 n 5).v
      else 0
  else if a = 0x580024 then
    BitVec.ofNat 32 ((s.whl.filter (fun (p : Nat × Wheel) => p.2.defined)).map (fun (p : Nat × Wheel) => p.2.k * p.2.maxSkew)).sum
  else 0

/-- Registers of the HRP block (R190, R198, R246). -/
def State.roHrp (s : State) (a : Nat) : Word :=
  if a = Reg.mapStatus then packW [(0, s.activeNo)]
  else if a = 0x600004 then BitVec.ofNat 32 s.hrp.crcIdx
  else if a = Reg.flipStatus then
    packW [(31, b2n s.windowF.isSome), (30, b2n s.resyncing), (16, s.flp.queue.length), (0, s.flp.seqs.length)]
  else if inArr a 0x600100 32 4 then
    let g := arrIdx a 0x600100 4
    packW [(16, s.bCount g), (0, s.bActive g)]
  else 0

/-- Registers of the CAV block (R277, R291). -/
def State.roCav (s : State) (a : Nat) : Word :=
  if a = 0x700004 then BitVec.ofNat 32 s.nearAll
  else if inArr a (Reg.stackStatus 0) 6 0x10 then
    let t := arrIdx a (Reg.stackStatus 0) 0x10
    let idle := (List.range 32).all (fun c => (s.reqsAt (32 * t + c)).all (fun r => !r.granted))
    packW [(31, b2n (s.oos t)), (30, b2n idle), (28, b2n (s.stack t).testing), (0, s.stackRegions t)]
  else if inArr a 0x700104 6 0x10 then BitVec.ofNat 32 (s.stackUnits (arrIdx a 0x700104 0x10))
  else 0

/-- Registers of the CAL block (R382, R404). SYNC counts the thousandths of the snapshot taken (R401). -/
def State.roCal (s : State) (a : Nat) : Word :=
  if a = Reg.mateStatus then
    let sync := if s.cal.role ≠ .syncing then 0
      else if s.cal.snapDone then 1000
      else match s.cal.t0 with
        | some t => min 1000 (s.cal.snap.length * 1000 / max 1 (Config.snapImage t).length)
        | none => 0
    packW [(29, s.cal.role.num), (27, s.cal.mateHb.num), (26, b2n s.cal.lone), (25, b2n s.thin), (21, s.cal.lanesUp.toNat),
      (8, sync), (0, s.cal.lastYield)]
  else if a = 0x80000C then BitVec.ofNat 32 s.fab.calrin.delayPs
  else 0

/-- An identity of R552 that may end a channel. -/
def masterOk (m : Nat) : Bool := decide (m ≤ 5) || decide (m = 7)
/-- SENDER, RECEIVER, REMOTE, FAR_END, ENABLE and TIMEOUT of MBX_BIND[c] (R553). -/
def State.mbSender (s : State) (c : Nat) : Nat := bits (s.reg (Reg.mbxBind c)) 31 28
def State.mbReceiver (s : State) (c : Nat) : Nat := bits (s.reg (Reg.mbxBind c)) 27 24
def State.mbRemote (s : State) (c : Nat) : Bool := bit (s.reg (Reg.mbxBind c)) 23
def State.mbFarRecv (s : State) (c : Nat) : Bool := bit (s.reg (Reg.mbxBind c)) 22
/-- A channel that names an identity that may not end a channel shows BAD_BIND and acts as disabled (R553). -/
def State.mbBad (s : State) (c : Nat) : Bool :=
  bit (s.reg (Reg.mbxBind c)) 21 && !(masterOk (s.mbSender c) && masterOk (s.mbReceiver c))
def State.mbOn (s : State) (c : Nat) : Bool := bit (s.reg (Reg.mbxBind c)) 21 && !s.mbBad c

/-- Registers of the MBX block (R554, R558). -/
def State.roMbx (s : State) (a : Nat) : Word :=
  let c := (a - 0x900000) / 0x80
  let o := (a - 0x900000) % 0x80
  let m := s.mbox c
  if 64 ≤ c then 0
  else if o < 0x40 then BitVec.ofNat 32 (leAt m.msg o 4)
  else if o = 0x48 then
    packW [(31, b2n m.full), (30, b2n m.ack), (27, b2n m.pbr), (26, b2n m.sr), (25, b2n m.wait), (22, b2n (s.mbBad c)),
      (0, m.postNum % 16)]
  else 0

/-- Registers of the PAN, CNT, NRG and RCK blocks (R544, R551, R586, R610). NRG_COMMITTED is C (R593). -/
def State.roRest (s : State) (a : Nat) : Word :=
  if inArr a (Reg.bankOwner 0) 64 4 then
    let n := arrIdx a (Reg.bankOwner 0) 4
    let w := match (s.whisk 0).held with | some r => decide (r / 256 = n) | none => false
    packW [(8, b2n w), (0, s.mem.owner.look 0 n)]
  else if inArr a (Reg.dumpStatus 0) 16 4 then
    let d := s.dump (arrIdx a (Reg.dumpStatus 0) 4)
    packW [(31, b2n d.en), (16, d.slots % 16384), (0, min d.skipTotal 65535)]
  else if a = 0xC00000 then BitVec.ofNat 32 s.nrg.budget
  else if a = 0xC00004 then BitVec.ofNat 32 (if s.up then s.committed else 0)
  else if a = 0xC00008 then BitVec.ofNat 32 s.nrg.measured
  else if a = 0xC0000C then BitVec.ofNat 32 s.nrg.periodE
  else if a = Reg.nrgStatus then packW [(31, b2n s.nrg.stopped), (30, b2n s.nrg.overrun), (0, s.nrg.headroom)]
  else if inArr a 0xC00020 6 4 then BitVec.ofNat 32 (s.nrg.dom.getD (arrIdx a 0xC00020 4) 0)
  else if a = Reg.rckErr then packW [(30, b2n s.rck.errWrite), (8, s.rck.errMaster), (0, s.rck.errTarget)]
  else if inArr a 0xD00100 9 4 then
    let w := s.whisk (arrIdx a 0xD00100 4)
    packW [(31, b2n w.held.isSome), (0, w.nextRegion)]
  else if inArr a 0xD00180 9 4 then BitVec.ofNat 32 (s.whisk (arrIdx a 0xD00180 4)).passSec
  else 0

/-- What the device drives onto a register. -/
def State.roWord (s : State) (a : Nat) : Word :=
  match s.pairAt a with
  | some (_, lo) => lo
  | none =>
    if (s.pairAt (a - 4)).isSome ∧ 4 ≤ a then s.clk.loCap.look (hiReset s a) a
    else if a < 0x100000 then s.roGlb a
    else if a < 0x200000 then s.roMgp a
    else if a < 0x300000 then s.roRnd a
    else if a < 0x400000 then s.roStr a
    else if a < 0x500000 then s.roSds a
    else if a < 0x600000 then s.roFrm a
    else if a < 0x700000 then s.roHrp a
    else if a < 0x800000 then s.roCav a
    else if a < 0x900000 then s.roCal a
    else if a < 0xA00000 then s.roMbx a
    else s.roRest a

/-- The bits of a register that hold its state and are not sticky: its read-write fields. -/
def RegSpec.held (x : RegSpec) : Word := x.rws ||| x.rw

/-- An address of SDS_BT_BUF. -/
def inBtBuf (a : Nat) : Bool := decide (Reg.btBuf ≤ a) && decide (a < Reg.btBuf + 65536)

/-- The value that a register holds (R640). -/
def State.regNow (s : State) (a : Nat) : Word :=
  if inBtBuf a then s.sds.bt.buf.look 0 ((a - Reg.btBuf) / 4)
  else
    let sp := regSpec a
    (s.reg a &&& sp.held) ||| (s.stick a &&& sp.w1c) ||| s.roWord a

/-- The value that a read of a 4-byte register address returns: what it held at the start of the tick (R9). -/
def State.regRead (s : State) (a : Nat) : Word := s.shown.regNow a

/-- Reading a _LO register captures both halves of its value (R32, R641). -/
def State.capture (s : State) (a : Nat) : State :=
  match s.shown.pairAt a with
  | some (h, _) => { s with clk := { s.clk with loCap := Tab.ins s.clk.loCap (a + 4) h } }
  | none =>
    if a = Reg.tnLoadLo then
      { s with clk := { s.clk with loCap := Tab.ins s.clk.loCap Reg.tnLoadHi (s.shown.reg Reg.tnLoadHi) } }
    else s

/-- A read of one register: its value, and the state after it. STR_TN_LOAD_HI returns the last capture (R641). -/
def State.readReg (s : State) (a : Nat) : Word × State :=
  let v := if a = Reg.tnLoadHi then s.clk.loCap.look 0 a else s.regRead a
  (v, s.capture a)

/-! ### Table windows (R206, R643, R644) -/

/-- A Wheel status entry of eight words. -/
def State.whlStatus (s : State) (w : Nat) : List Word :=
  let x := s.wheel w
  if !x.defined then List.replicate 8 0
  else
    let tr : List Byte := x.accTrace.getD []
    [packW ([(30, x.align.num), (29, 1), (28, b2n (s.retimed w)), (12, x.pt % 16), (0, x.psig % 4096)]
       ++ (List.range 6).map (fun d => (22 + d, b2n (x.dec d)))),
     x.oseq.setWidth 32,
     packW [(31, b2n x.oseqJump), (30, b2n x.skew), (29, b2n x.overflow), (28, b2n x.underflow), (0, min x.rtmDiff 65535)],
     BitVec.ofNat 32 (x.cnt % 2 ^ 24)]
    ++ (List.range 4).map (fun i => BitVec.ofNat 32 (leAt tr (4 * i) 4))

/-- A pair status entry of eight words. -/
def State.pairStatus (s : State) (n : Nat) : List Word :=
  let p := s.pair n
  if !p.defined then List.replicate 8 0
  else
    [packW [(31, 1), (30, b2n p.locked), (28, p.mode), (26, p.tier), (25, b2n (s.prefOf p)), (22, p.reqCode % 8),
       (21, b2n p.lateA), (20, b2n p.lateB), (19, b2n (!p.old.isEmpty))],
     BitVec.ofInt 32 p.delta, BitVec.ofNat 32 p.plag, BitVec.ofNat 32 (p.x0 % 2 ^ 24),
     packW [(16, p.psigA % 4096), (0, p.psigB % 4096)],
     packW [(16, min p.cntDiff 65535), (0, min p.shortDiff 65535)],
     packW [(16, min p.realign 65535), (0, min p.colDiff 65535)], 0]

/-- The ingress table word of internal slot `i` of group `g` on a page. -/
def Page.ingressWord (p : Page) (g i : Nat) : Word :=
  match p.br.find? (fun (x : Nat × Branch) => decide (brIn x.1 = g) && decide (x.2.slot = i)) with
  | some (k, _) => packW [(15, 1), (0, brPos k)]
  | none => 0

/-- The space table byte of internal slot `i` of group `g` on a page. -/
def Page.spaceByte (p : Page) (g i : Nat) : Nat :=
  match p.br.find? (fun (x : Nat × Branch) => decide (brIn x.1 = g) && decide (x.2.slot = i)) with
  | some (k, _) => 128 + brOut k
  | none => 0

/-- The egress table word of an egress slot on a page. -/
def Page.egressWord (p : Page) (slot : Nat) : Word :=
  let o := p.eg.look {} slot
  packW [(16, o.out), (0, if o.out = 0 then (p.br.look {} o.br).slot else 0)]

/-- The word that an address of the table windows holds; 0 in a gap (R643). -/
def State.tableNow (s : State) (a : Nat) : Word :=
  if a < 0x10000000 then 0
  else if a < 0x10200000 then (s.whlStatus ((a - 0x10000000) / 32)).getD ((a % 32) / 4) 0
  else if a < 0x10300000 then (s.pairStatus ((a - 0x10200000) / 32)).getD ((a % 32) / 4) 0
  else if a < 0x11000000 then 0
  else if a < 0x11400000 then (s.page ((a - 0x11000000) / 0x200000)).entry ((a % 0x200000) / 4)
  else if a < 0x11C00000 then
    let o := (a - 0x11400000) % 0x400000
    (s.page ((a - 0x11400000) / 0x400000)).ingressWord (o / 0x20000) (o % 0x20000 / 4)
  else if a < 0x11E00000 then
    let o := (a - 0x11C00000) % 0x100000
    let p := s.page ((a - 0x11C00000) / 0x100000)
    packW ((List.range 4).map (fun b => (8 * b, p.spaceByte (o % 32 + b) (o / 32))))
  else if a < 0x12200000 then
    let o := (a - 0x11E00000) % 0x200000
    (s.page ((a - 0x11E00000) / 0x200000)).egressWord ((o / 0x10000) * 16384 + o % 0x10000 / 4)
  else 0

/-- The word that a read of the table windows returns: the table as it stood at the start of the tick (R206, R643). -/
def State.tableWord (s : State) (a : Nat) : Word := s.shown.tableNow a

/-- The four bytes of a word read through a window (R669). -/
def wordBytes (w : Word) : List Byte := leBytes 4 w.toNat

/-- Read `n` registers from an address, in ascending order, within one tick. -/
def State.readRegs (s : State) : Nat → Nat → List Byte × State
  | 0, _ => ([], s)
  | n + 1, a =>
    let (w, t) := s.readReg a
    let (l, u) := State.readRegs t n (a + 4)
    (wordBytes w ++ l, u)

/-- Read `n` words of the table windows. -/
def State.readTables (s : State) (n a : Nat) : List Byte :=
  (List.range n).flatMap (fun i => wordBytes (s.tableWord (a + 4 * i)))

/-! ### Rights (R445) -/

/-- A register that MAINT may read: GLB, SDS, CAL and NRG registers, and FRM registers of lanes and lane groups. -/
def maintReads (a : Nat) : Bool :=
  decide (a < 0x100000) || (decide (0x400000 ≤ a) && decide (a < 0x520000))
  || (decide (0x800000 ≤ a) && decide (a < 0x900000)) || (decide (0xC00000 ≤ a) && decide (a < 0xD00000))

/-- A principal may read `n` registers from an address. -/
def mayReadRegs (p n a : Nat) : Bool :=
  decide (p = 0) || (decide (p = 64) && (List.range n).all (fun i => maintReads (a + 4 * i)))

/-- LO_REGISTER_READ: a read of a _LO register captures both halves (R32, R641). -/
def execLoRegisterRead (qp : Fin 16) (addr : Nat) (s : State) : Out :=
  whenFw s (
    match s.accessor qp with
    | some p =>
      if (s.pairAt addr).isSome ∨ addr = Reg.tnLoadLo then
        if mayReadRegs p 1 addr then
          let (w, t) := s.readReg addr
          t.answer qp (.data (wordBytes w))
        else s.answer qp .nak
      else s
    | none => s.answer qp .nak)

end Sys2Proof.Machine
end

