-- ==== Sys2Proof/Machine/Mailbox.lean ====
section
/-! DEFINITION. Mailboxes (14_control_plane, Mailboxes and waits). -/
namespace Sys2Proof.Machine

/-- The sender, or the receiver, of a channel is on this device (R553). -/
def State.mbSendHere (s : State) (c : Nat) : Bool := !s.mbRemote c || s.mbFarRecv c
def State.mbRecvHere (s : State) (c : Nat) : Bool := !s.mbRemote c || !s.mbFarRecv c
/-- Master `m` is the bound sender, or receiver, of an enabled channel. -/
def State.mbIsSender (s : State) (m c : Nat) : Bool := s.mbOn c && s.mbSendHere c && decide (s.mbSender c = m)
def State.mbIsReceiver (s : State) (m c : Nat) : Bool := s.mbOn c && s.mbRecvHere c && decide (s.mbReceiver c = m)

/-- Sticky bits of MBX_STATUS. -/
def mbTimeoutBit : Word := 0x20000000
def mbLateBit : Word := 0x10000000
def mbCrossBit : Word := 0x01000000
def mbRefusedBit : Word := 0x00800000

/-- A wake powers up a core that sleeps (R539, R558). -/
def State.wake (s : State) (m : Nat) : State :=
  { s with pwr := { s.pwr with asleep := s.pwr.asleep.filter (fun x => x ≠ m) } }

/-- FLAGS of an MBX message (R559). -/
def mbFlags (ack : Bool) (m : Mbx) : Byte :=
  BitVec.ofNat 8 (b2n ack + 2 * b2n m.wait + 4 * b2n m.sr + 16 * (m.postNum % 16))

/-- Send a post or an ack of a remote channel; only the active member sends (R559). -/
def State.mbSend (s : State) (c : Nat) (ack : Bool) : State :=
  if s.cal.role = .standalone ∨ s.cal.role = .active then
    let m := s.mbox c
    s.send none 0x24 (s.reg (Reg.mbxFab c))
      (leBytes 1 c ++ [mbFlags ack m] ++ (List.range 64).map (fun i => m.msg.getD i 0))
  else s

/-- TIMEOUT of a post in ticks: 0 acts as 1,000,000 us, a larger value as that (R553). -/
def mbTicks (us : Nat) : Nat := 8 * (if us = 0 then 1000000 else min us 1000000)

/-- A post on channel `c` while FULL is 0 (R555). -/
def State.mbPost (s : State) (c us : Nat) (h : Option Nat) : State :=
  let m := s.mbox c
  let m := { m with full := true, ack := false, pbr := false, sr := false, wait := false, postNum := (m.postNum + 1) % 16
                    deadline := some (s.clk.tick + mbTicks us), h := h
                    retryAt := if s.mbRemote c then some (s.clk.tick + s.retry) else none }
  let s := ((s.setMbox c m).clrSticky (Reg.mbxStatus c) (mbTimeoutBit ||| mbLateBit)).count 7 0 8 1
  if s.mbRemote c then s.mbSend c false else s.wake (s.mbReceiver c)

/-- The message of channel `c` has been taken: FULL and WAIT clear, ACK is set, the timer stops (R556); an ACK after a
timeout sets LATE_ACK, and an MBX_POST that waits completes (R531, R557). -/
def State.mbTaken (s : State) (c : Nat) : State :=
  let m := s.mbox c
  let late := s.mbSendHere c && m.deadline.isNone
  let s := s.setMbox c { m with full := false, wait := false, ack := true, deadline := none, retryAt := none, h := none }
  let s := if late then s.setSticky (Reg.mbxStatus c) mbLateBit else s
  match m.h with
  | some h => s.complete h stOk s.tnNow 0
  | none => s

/-- The bound receiver writes ACK (R556); a remote sender is told (R559). -/
def State.mbAck (s : State) (m c : Nat) : State :=
  if s.mbIsReceiver m c ∧ (s.mbox c).full then
    let s := s.mbTaken c
    if s.mbSendHere c then s else s.mbSend c true
  else s

/-- The bound sender posts by MBX_CTRL.POST; the ring engine posts only by MBX_POST (R555). -/
def State.mbCtrlPost (s : State) (m c : Nat) : State :=
  if s.mbIsSender m c ∧ m ≠ 4 then
    if (s.mbox c).full then s.setSticky (Reg.mbxStatus c) mbRefusedBit
    else s.mbPost c (bits (s.reg (Reg.mbxBind c)) 20 0) none
  else s

/-- The sender withdraws an unread message (R557). An MBX_POST that waits for it ends with E_ABORTED (log 16). -/
def State.mbWithdraw (s : State) (m c : Nat) : State :=
  let x := s.mbox c
  if s.mbIsSender m c ∧ x.full then
    let s := s.setMbox c { x with full := false, wait := false, ack := false, deadline := none, retryAt := none, h := none }
    match x.h with
    | some h => s.complete h eAborted s.tnNow 0
    | none => s
  else s

/-! ### Waits (R562 to R564) -/

/-- Rank of a mailbox end: the bridge 4, firmware and the Rind 5, the ring engine, which stands for the host, 6. -/
def mbRank (m : Nat) : Nat := if m = 7 then 4 else if m = 4 then 6 else 5

/-- A chain of local channels in WAIT from one end to another. -/
def State.waitPath (s : State) : Nat → Nat → Nat → Option (List Nat)
  | 0, _, _ => none
  | n + 1, x, y =>
    let out := (List.range 64).filter (fun c => (s.mbox c).wait && s.mbOn c && !s.mbRemote c && decide (s.mbSender c = x))
    match out.find? (fun c => s.mbReceiver c = y) with
    | some c => some [c]
    | none => out.findSome? (fun c => (State.waitPath s n (s.mbReceiver c) y).map (fun l => c :: l))

/-- Set CROSS on a channel and wake its receiver. -/
def State.setCross (s : State) (c : Nat) : State := (s.setSticky (Reg.mbxStatus c) mbCrossBit).wake (s.mbReceiver c)

/-- The channel of a list whose receiver has the lowest identity. -/
def State.lowestReceiver (s : State) : List Nat → Option Nat
  | [] => none
  | c :: t =>
    match State.lowestReceiver s t with
    | some d => some (if s.mbReceiver d < s.mbReceiver c then d else c)
    | none => some c

/-- Raise CROSS where the WAIT of channel `c` closes a circle: a chain among local ends, or two crossed remote channels,
which the device of the lower end finds (R564). -/
def State.crossCheck (s : State) (c : Nat) : State :=
  if !(s.mbox c).wait then s
  else if !s.mbRemote c then
    match s.waitPath 8 (s.mbReceiver c) (s.mbSender c) with
    | some l => match s.lowestReceiver (c :: l) with
      | some d => s.setCross d
      | none => s
    | none => s
  else
    let far := (s.reg (Reg.mbxFab c)).toNat
    let loc := if s.mbFarRecv c then s.mbSender c else s.mbReceiver c
    let rem := if s.mbFarRecv c then s.mbReceiver c else s.mbSender c
    let other := (List.range 64).find? (fun d => s.mbOn d && s.mbRemote d && (s.mbox d).wait
      && decide ((s.reg (Reg.mbxFab d)).toNat = far) && (s.mbFarRecv d != s.mbFarRecv c)
      && decide ((if s.mbFarRecv d then s.mbSender d else s.mbReceiver d) = loc)
      && decide ((if s.mbFarRecv d then s.mbReceiver d else s.mbSender d) = rem))
    match other with
    | some d =>
      if s.fabId.toNat * 16 + loc < far * 16 + rem then s.setCross (if s.mbFarRecv c then d else c) else s
    | none => s

/-- The bound sender writes WAIT while FULL is 1, toward a receiver of its own rank or above (R563). -/
def State.mbWait (s : State) (m c : Nat) : State :=
  if s.mbIsSender m c ∧ (s.mbox c).full ∧ mbRank (s.mbReceiver c) ≤ mbRank m then
    (s.setMbox c { s.mbox c with wait := true }).crossCheck c
  else s

/-- A write to MBX_CTRL[c] by a master (R558). -/
def State.mbCtrl (s : State) (m c : Nat) (v : Word) : State :=
  let s := if bit v 0 then s.mbCtrlPost m c else s
  let s := if bit v 1 then s.mbAck m c else s
  let s := if bit v 2 then s.mbWait m c else s
  if bit v 3 then s.mbWithdraw m c else s

/-- A write of slot word `w` by a master: only the bound sender writes, while FULL is 0 (R554). -/
def State.mbSlot (s : State) (m c w : Nat) (v : Word) : State :=
  let x := s.mbox c
  if s.mbIsSender m c ∧ x.full = false then
    let l := (List.range 64).map (fun i => x.msg.getD i 0)
    let l := l.take (4 * w) ++ wordBytes v ++ l.drop (4 * w + 4)
    s.setMbox c { x with msg := if l.all (fun b => b = 0) then [] else l }
  else s

/-! ### Resets (R560, R561) -/

/-- A reset of some masters: PBR and a wake for each message posted to one and not taken, SR for each posted by one. -/
def State.mbReset (s : State) (ms : List Nat) : State :=
  (List.range 64).foldl (fun (s : State) c =>
    let m := s.mbox c
    if m.full ∧ s.mbOn c then
      let r := s.mbRecvHere c && decide (s.mbReceiver c ∈ ms)
      let t := s.mbSendHere c && decide (s.mbSender c ∈ ms)
      let s := s.setMbox c { m with pbr := m.pbr || r, sr := m.sr || t }
      if r then s.wake (s.mbReceiver c) else s
    else s) s

/-- A block reset of the mailbox block clears every slot and flag and keeps the bindings; an MBX_POST that waits ends
with E_ABORTED (R560, R634; log 16). -/
def State.mbBlockReset (s : State) : State :=
  let hs := (s.mbx.filterMap (fun (p : Nat × Mbx) => p.2.h))
  let s := { s with mbx := [] }
  let s := (List.range 64).foldl (fun (t : State) c => t.clrSticky (Reg.mbxStatus c) 0xFFFFFFFF) s
  hs.foldl (fun (t : State) h => t.complete h eAborted t.tnNow 0) s

/-! ### Messages of remote channels (R559) -/

/-- A post or ack of channel `c` from another device. -/
def State.mbxMsg (s : State) (origin : Word) (c : Nat) (fl : Byte) (msg : List Byte) : State :=
  let m := s.mbox c
  let n := bits fl 7 4
  if !s.mbOn c ∨ !s.mbRemote c ∨ s.reg (Reg.mbxFab c) ≠ origin then s
  else if bit fl 0 then
    if s.mbFarRecv c ∧ m.full ∧ m.postNum = n then s.mbTaken c else s
  else if s.mbFarRecv c then s
  else if m.postNum = n ∧ (m.full ∨ m.ack) then
    if m.ack then s.mbSend c true
    else (s.setMbox c { m with wait := bit fl 1, sr := bit fl 2 }).crossCheck c
  else
    let l := msg.take 64
    let s := s.setMbox c { msg := if l.all (fun b => b = 0) then [] else l, full := true, wait := bit fl 1, sr := bit fl 2
                           postNum := n }
    (s.wake (s.mbReceiver c)).crossCheck c

/-! ### Commands -/

/-- MBX_POST: TIMEOUT in range, and the channel bound to the ring engine as a local sender (R531). -/
def chkMbxPost : Check := fun e s =>
  let c := e.f 4 1
  (need (decide (c < 64) && decide (1 ≤ e.f 8 4) && decide (e.f 8 4 ≤ 1000000) && s.mbIsSender 4 c) eRange, 0)

/-- A full slot refuses the post and sets REFUSED (R531, R555); a post that a reset found waiting goes on waiting. -/
def effMbxPost : Effect := fun h e s =>
  let c := e.f 4 1
  let m := s.mbox c
  if m.h = some h then s
  else if m.full then (s.setSticky (Reg.mbxStatus c) mbRefusedBit).complete h eConflict s.tnNow 0
  else
    let l := e.items 16 64
    (s.setMbox c { m with msg := if l.all (fun b => b = 0) then [] else l }).mbPost c (e.f 8 4) (some h)

/-- MBX_POST (R531). -/
def execMbxPost (h : Nat) (s : State) : Out := .next (s.runCmd 0x80 chkMbxPost effMbxPost h)

/-- MBX_CTRL_POST: the bound sender posts (R555). -/
def execMbxCtrlPost (master : Nat) (c : Fin 64) (s : State) : Out := whenUp s (s.mbCtrlPost master c)

/-- MBX_CTRL_ACK: the bound receiver takes the message (R556). -/
def execMbxCtrlAck (master : Nat) (c : Fin 64) (s : State) : Out := whenUp s (s.mbAck master c)

/-- MBX_CTRL_WAIT: the sender declares that it waits (R563). -/
def execMbxCtrlWait (master : Nat) (c : Fin 64) (s : State) : Out := whenUp s (s.mbWait master c)

/-- MBX_CTRL_WITHDRAW: the sender withdraws an unread message (R557). -/
def execMbxCtrlWithdraw (master : Nat) (c : Fin 64) (s : State) : Out := whenUp s (s.mbWithdraw master c)

/-- MBX_TIMEOUT: the timer of a channel runs out while FULL is 1; TIMEOUT is set, WAIT clears and the sender is signalled
(R557). -/
def execMbxTimeout (c : Fin 64) (s : State) : Out :=
  let m := s.mbox c
  whenUp s (
    match m.deadline with
    | some d =>
      if m.full ∧ d ≤ s.clk.tick then
        let s := (s.setMbox c { m with wait := false, deadline := none, h := none }).setSticky (Reg.mbxStatus c) mbTimeoutBit
        let s := s.wake (s.mbSender c)
        match m.h with
        | some h => s.complete h eState s.tnNow 1
        | none => s
      else s
    | none => s)

/-- MBX_REMOTE_RETRY: a remote post without its ack is sent again every RETRY ticks (R559). -/
def execMbxRemoteRetry (c : Fin 64) (s : State) : Out :=
  let m := s.mbox c
  whenUp s (
    match m.retryAt with
    | some t =>
      if m.full ∧ t ≤ s.clk.tick then (s.setMbox c { m with retryAt := some (s.clk.tick + s.retry) }).mbSend c false
      else s
    | none => s)

end Sys2Proof.Machine
end

