-- ==== Sys2Proof/Machine/Fabric.lean ====
section
/-! DEFINITION. The fabric: keying, delays, TN over links, fabric Flips, remote commands, events, dumps and status
(09_fabric; R489, R490). -/
namespace Sys2Proof.Machine

/-! ### Keying (R489, R490) -/

/-- A keying that failed: the link returns to DOWN and is keyed again after 1 s (R490). -/
def State.keyingFailed (s : State) (l : Link) : State :=
  let s := s.setLinkSt l .down
  s.setPlink l { s.plink l with retryAt := some (s.clk.tick + 8000000) }

/-- A HELLO has come: keep it and answer with this device's quote (R489). -/
def State.takeHello (s : State) (l : Link) (n : BitVec 256) (e : BitVec 768) : State :=
  let s :=
    if (s.plink l).st = .down then (match l with | .group g => s.linkCheck g.val | .calrin => s) else s
  if (s.plink l).st = .keying then
    (s.setPlink l { s.plink l with helloFar := some (n, e) }).quotePeer (linkNo l)
  else s

/-- Keys of one direction of a link, from device X (R489). -/
def peerKey (i : Nat) (far : BitVec 768) (salt : List Byte) (x : Digest) : BitVec 288 :=
  BitVec.ofNat 288 (beNat (Config.hkdf (Config.ecdh i far) salt (label "TZ5K peer" ++ digestBytes x) 36))

/-- The record key of one direction of Calrin, from device X (R491). -/
def recordKey (i : Nat) (far : BitVec 768) (salt : List Byte) (x : Digest) : BitVec 256 :=
  BitVec.ofNat 256 (beNat (Config.hkdf (Config.ecdh i far) salt (label "TZ5K ladle" ++ digestBytes x) 32))

/-- The peer's quote has come: accept it under R490 and derive the keys, or fail. -/
def State.takePeerQuote (s : State) (l : Link) (dcertOk bcertOk quoteOk : Bool) (id : Digest) (lc : Nat)
    (owner fw : Digest) (nonce : BitVec 256) : State :=
  let x := s.plink l
  match x.nonceOwn, x.helloFar with
  | some i, some (fn, fe) =>
    if x.st ≠ .keying then s
    else
      let low := decide (Config.deviceId.toNat < id.toNat)
      let own := Config.nonce i
      let want := peerNonce (helloBytes own (Config.ephPub i)) (helloBytes fn fe) low
      let salt := if low then beBytes 32 own.toNat ++ beBytes 32 fn.toNat else beBytes 32 fn.toNat ++ beBytes 32 own.toNat
      let ok := dcertOk && bcertOk && quoteOk && decide (lc = 2) && decide (owner = s.ownerDigest)
        && (!bit (s.reg Reg.peerCfg) 0 || decide (fw = s.rnd.mFw)) && decide (beBytes 32 nonce.toNat = want)
      if ok then
        let k : PeerKeys := { tx := peerKey i fe salt Config.deviceId, rx := peerKey i fe salt id
                              recTx := recordKey i fe salt Config.deviceId, recRx := recordKey i fe salt id }
        (s.setPlink l { x with keys := some k }).setLinkSt l .measuring
      else s.keyingFailed l
  | _, _ => s

/-- PEER_KEYING_MESSAGE: a HELLO or a quote of the exchange, in clear (R489, R490). -/
def execPeerKeyingMessage (hd : FabHdr) (m : PeerMsg) (s : State) : Out :=
  whenUp s (
    match m with
    | .hello n e => s.takeHello hd.link n e
    | .quote d b q id lc o fw n => s.takePeerQuote hd.link d b q id lc o fw n)

/-- PEER_KEYING_RETRY: 1 s after a failed keying the link may key again (R490). -/
def execPeerKeyingRetry (link : Link) (s : State) : Out :=
  let x := s.plink link
  whenUp s (
    match x.retryAt with
    | some t =>
      if x.st = .down ∧ t ≤ s.clk.tick then
        let s := s.setPlink link { x with retryAt := none }
        match link with
        | .group g => s.linkCheck g.val
        | .calrin => if s.anyPort then s.startKeying .calrin else s
      else s
    | none => s)

/-! ### Delay and TN (R355 to R357, R382, R398) -/

/-- DELAY_REQ: answered at once with the arrival of the request; a request in a frame with a bad header gives no sample (R355). -/
def execDelayReq (hd : FabHdr) (t2Tick t2Ps : Nat) (s : State) : Out :=
  .next (s.fabTake hd 2 [] (fun s =>
    if s.frameBad hd then s
    else s.send (some hd.link) 3 hd.origin (beBytes 4 hd.serial ++ beBytes 8 t2Tick ++ beBytes 4 t2Ps)))

/-- The mean of the samples held, rounded to 1 ps (R356). -/
def meanDelay (l : List Nat) : Nat := (l.sum + l.length / 2) / max 1 l.length

/-- A valid delay sample: the mean of the last 16, and UP once 16 are held and the delay is within its limit (R346, R347,
R356, R382). -/
def State.addSample (s : State) (l : Link) (d : Nat) : State :=
  let x := s.plink l
  let ss := (x.samples ++ [d]).drop (x.samples.length + 1 - 16)
  let m := meanDelay ss
  let s := s.setPlink l { x with samples := ss, delayPs := m, reqSerial := none }
  if ss.length < 16 then s
  else
    match l with
    | .group _ => if x.st = .measuring ∧ m ≤ 4294967295 then s.setLinkSt l .up else s
    | .calrin =>
      if 100000 < m then
        if x.st = .down then s else s.calLinkDown.event [0] 0x0071 0 m
      else if x.st = .measuring then s.setLinkSt l .up else s

/-- ASYM of a link; 0 on Calrin (R345, R382). -/
def State.linkAsym (s : State) : Link → Int
  | .group g => s.fabAsym g.val
  | .calrin => 0

/-- DELAY_RESP: the sample d = ((t4 - t1) - (t3 - t2)) / 2 + ASYM, valid within 80,000 ticks of the request (R355). -/
def execDelayResp (hd : FabHdr) (reqSerial t2Tick t2Ps t3Tick t4Tick t4Ps : Nat) (s : State) : Out :=
  .next (s.fabTake hd 3 (beBytes 4 reqSerial ++ beBytes 8 t2Tick ++ beBytes 4 t2Ps) (fun s =>
    let x := s.plink hd.link
    match x.reqSerial with
    | none => s
    | some q =>
      if q % 2 ^ 32 ≠ reqSerial ∨ x.reqT1 + 80000 < t4Tick ∨ s.frameBad hd then s
      else
        let p := fun (t : Nat) => (t : Int) * 125000
        let a := p t4Tick + t4Ps - p x.reqT1
        let b := p t3Tick - (p t2Tick + t2Ps)
        s.addSample hd.link ((a - b).ediv 2 + s.linkAsym hd.link).toNat))

/-- DELAY_SAMPLE_TIMEOUT: no response within 80,000 ticks of the request: no sample (R355). -/
def execDelaySampleTimeout (link : Link) (s : State) : Out :=
  let x := s.plink link
  whenUp s (if x.reqSerial.isSome ∧ x.reqT1 + 80000 ≤ s.clk.tick then s.setPlink link { x with reqSerial := none } else s)

/-- The present tick receives its first TN. -/
def State.takeTn (s : State) (v : Nat) : State :=
  { s with clk := { s.clk with tnValid := true, tn := v % 2 ^ 64 } }

/-- The Starter's selected entry names a source. -/
def State.follows_ (s : State) (i : Nat) : Bool :=
  match s.str.sel with | some k => decide (s.entSource k = i) | none => false

/-- TN_ANNOUNCE: a worker takes its first TN from the link its Starter follows, a member of a pair from its mate; a later
disagreement is reported and changes nothing (R357, R398). -/
def execTnAnnounce (hd : FabHdr) (tn : Nat) (arrPs : Int) (s : State) : Out :=
  .next (s.fabTake hd 1 (beBytes 8 tn) (fun s =>
    let x := s.plink hd.link
    let v := ((tn : Int) + roundDiv ((x.delayPs : Int) - arrPs) 125000).toNat
    match hd.link with
    | .group g =>
      if s.fabRole = 2 ∧ s.tnSrc = 2 ∧ s.follows_ g.val ∧ x.st = .up ∧ s.str.st = .locked then
        if s.clk.tnValid = false then s.takeTn v
        else if s.clk.tn = v then s
        else (s.setSticky (Reg.fabStatus g.val) 0x02000000).event [0] 0x0061 g.val tn
      else s
    | .calrin =>
      if s.mated ∧ s.clk.tnValid = false ∧ (s.cal.mateHb = .active ∨ s.primary = false) ∧ s.follows ∧ s.str.st = .locked
      then
        let s := s.takeTn v
        { s with clk := { s.clk with tnMate := true } }
      else s))

/-! ### Fabric Flips (R240 to R245, R367) -/

/-- The status a worker gives a proposed Flip; it arms no later than F - 8 (R222, R241). -/
def State.proposeStatus (s : State) (f : Nat) (id : Word) : Nat :=
  firstErr [s.leadArm f, need (!s.flipClash f id) eConflict]

/-- FLIP_PROPOSE: the worker arms the Flip or refuses it, and answers READY (R241, R367). -/
def execFlipPropose (hd : FabHdr) (flipId : Word) (f : Nat) (s : State) : Out :=
  .next (s.fabTake hd 0x10 (beBytes 4 flipId.toNat ++ beBytes 8 f) (fun s =>
    let c := s.proposeStatus f flipId
    let s :=
      if c ≠ 0 ∨ s.flp.flips.any (fun x => decide (x.id = flipId) && decide (x.f = f)) then s
      else
        let x : Flip := { h := 65536 + flipId.toNat, f := f, id := flipId, fabric := true, fromMgr := true }
        ({ s with flp := { s.flp with flips := s.flp.flips ++ [x] } }).recEvt 1 0xFFFF f flipId.toNat
    s.send none 0x11 s.mgrId (beBytes 4 flipId.toNat ++ beBytes 1 c ++ beBytes 1 (if c = 0 then 0 else 4))))

/-- FLIP_READY: a worker is ready, or its refusal cancels the Flip (R243, R367). -/
def execFlipReady (hd : FabHdr) (flipId : Word) (status reason : Nat) (s : State) : Out :=
  .next (s.fabTake hd 0x11 (beBytes 4 flipId.toNat ++ beBytes 1 status ++ beBytes 1 reason) (fun s =>
    match s.flp.fab.find? (fun x => x.id = flipId) with
    | none => s
    | some x =>
      if hd.origin ∉ x.ws then s
      else if status = 0 then
        let m := fun (y : FabFlip) =>
          if y.id = flipId ∧ hd.origin ∉ y.ready then { y with ready := y.ready ++ [hd.origin] } else y
        { s with flp := { s.flp with fab := s.flp.fab.map m } }
      else if s.tnNow < x.f then s.cancelFab x hd.origin 4 else s))

/-- FAB_FLIP_CANCEL: a cancel held before cycle 0 of F - 4 keeps the old page (R242). -/
def execFabFlipCancel (hd : FabHdr) (flipId failId : Word) (s : State) : Out :=
  .next (s.fabTake hd 0x12 (beBytes 4 flipId.toNat ++ beBytes 4 failId.toNat) (fun s =>
    let m := fun (y : Flip) =>
      if y.fromMgr ∧ y.id = flipId ∧ s.tnNow + 4 < y.f then { y with cancelled := true } else y
    ({ s with flp := { s.flp with flips := s.flp.flips.map m } }).recEvt 2 0xFFFF 0 flipId.toNat))

/-- FLIP_RESULT: a device's outcome of a fabric Flip (R367, R368). -/
def execFlipResult (hd : FabHdr) (flipId : Word) (committed : Bool) (s : State) : Out :=
  .next (s.fabTake hd 0x13 (beBytes 4 flipId.toNat ++ beBytes 1 (b2n committed)) (fun s =>
    let m := fun (y : FabFlip) =>
      if y.id = flipId ∧ hd.origin ∈ y.ws ∧ y.results.all (fun r => decide (r.1 ≠ hd.origin)) then
        { y with results := y.results ++ [(hd.origin, committed)] } else y
    ({ s with flp := { s.flp with fab := s.flp.fab.map m } }).finishReady))

/-! ### Remote commands at the worker (R359, R364) -/

/-- Answer a manager serial again with its stored output and RESULT. -/
def State.resendResult (s : State) (w : WorkerCmd) (c : CmpEntry) : State :=
  let t := w.output.foldl (fun (t : State) (o : Nat × List Byte) =>
    t.send none 0x26 s.mgrId (beBytes 8 w.mserial ++ beBytes 4 o.1 ++ o.2)) s
  t.send none 0x21 s.mgrId (beBytes 8 w.mserial ++ cmpBytes c 0)

/-- The worker's record of a manager serial, made on first mention. -/
def State.needWcmd (s : State) (m : Nat) : State :=
  if s.fab.wcmds.any (fun w => decide (w.mserial = m)) then s
  else { s with fab := { s.fab with wcmds := s.fab.wcmds ++ [({ mserial := m, prin := 0 } : WorkerCmd)] } }

/-- Journal a manager command (R359). Its entry of the record names ring 16 and carries the manager's serial in place of a
tag (log 19). -/
def State.journalRemote (s : State) (m prin : Nat) (d : Desc) (b : Option Batch) : State :=
  let h := s.mgp.nextH
  let d := { d with tag := BitVec.ofNat 128 m }
  let e : JEntry := { ring := 0, prin := prin, origin := .manager m, d := d, batch := b, j := s.clk.tick, jtn := s.tnNow
                      recTn := if s.cal.role = .active then some s.tnNow else none }
  let s := { s with mgp := { s.mgp with nextH := (h + 1) % 65536, journal := s.mgp.journal ++ [(h, e)] } }
  let s := s.setWcmd m (fun w => { w with prin := prin, h := some h })
  s.recd (fun c => { c with accs := c.accs ++ [⟨16, prin, h, s.tnNow, d⟩] })

/-- FAB_CMD: a command of the manager is journaled once its batch is whole; a repeated one is answered with its stored RESULT
(R359, R364, R637). -/
def execFabCmd (hd : FabHdr) (mserial principal : Nat) (d : Desc) (sigs : FwSigs) (s : State) : Out :=
  .next (s.fabTake hd 0x20 (beBytes 8 mserial ++ beBytes 1 principal ++ descBytes d) (fun s =>
    if !s.sealed ∨ !s.fw then s
    else
      let s := s.needWcmd mserial
      match s.fab.wcmds.find? (fun w => w.mserial = mserial) with
      | none => s
      | some w =>
        match w.h, w.result with
        | some _, some c => s.resendResult w c
        | some _, none => s
        | none, _ =>
          let len := if descHasBatch d then fld d.body 72 4 else 0
          if w.batch.length < len then s
          else
            let b : Option Batch := if descHasBatch d then some ⟨w.batch.take len, true, true, sigs⟩ else none
            s.journalRemote mserial principal d b))

/-- CMD_DATA: batch bytes of a manager command, in ascending OFFSET, ahead of its CMD (R364). -/
def execCmdData (hd : FabHdr) (mserial offset : Nat) (data : List Byte) (s : State) : Out :=
  .next (s.fabTake hd 0x25 (beBytes 8 mserial ++ beBytes 4 offset ++ data) (fun s =>
    if !s.sealed ∨ !s.fw then s
    else
      (s.needWcmd mserial).setWcmd mserial (fun w =>
        if (w.h.isNone ∨ s.copies) ∧ offset ≤ w.batch.length then { w with batch := w.batch.take offset ++ data } else w)))

/-! ### Remote commands at the manager (R358, R362, R364) -/

/-- OUT_ADDR and OUT_RKEY of a descriptor. -/
def JEntry.outRef (e : JEntry) : Nat × Nat :=
  if e.d.opcode = 0x75 then (e.f 8 8, e.f 16 4) else (e.f 16 8, e.f 24 4)

/-- OUT_DATA: a worker's output goes to the host's buffer (R364). -/
def execOutData (hd : FabHdr) (mserial offset : Nat) (data : List Byte) (s : State) : Out :=
  .next (s.fabTake hd 0x26 (beBytes 8 mserial ++ beBytes 4 offset ++ data) (fun s =>
    match s.job mserial, s.fab.cmds.find? (fun c => decide (c.h = mserial) && decide (c.worker = hd.origin)) with
    | some e, some c =>
      if c.abandoned ∨ e.cmp.isSome then s else s.output mserial e.outRef.1 e.outRef.2 offset data
    | _, _ => s))

/-- What a PARTITION_SET that succeeded on a worker changes in the manager's record of slot blocks (R360). -/
def State.noteHolds (s : State) (w : Word) (e : JEntry) : State :=
  let p := ptP e
  let h := s.fab.holds
  let drop := fun (l : List (Word × Nat × Nat)) (b : Nat) => l.filter (fun x => !(decide (x.1 = w) && decide (x.2.2 = b)))
  let h :=
    if ptRemove e then h.filter (fun x => !(decide (x.1 = w) && decide (x.2.1 = p)))
    else
      let h := (ptBlocks e).foldl (fun l x => if x.2 then drop l x.1 else drop l x.1 ++ [(w, p, x.1)]) h
      (ptHand e).foldl (fun l x => if x.2.2.2 then drop l x.1 else drop l x.1 ++ [(w, x.2.1, x.1), (w, x.2.2.1, x.1)]) h
  { s with fab := { s.fab with holds := h } }

/-- FAB_RESULT: the worker's completion becomes the command's; one for an abandoned command raises FAB_CMD_LATE (R358,
R362). -/
def execFabResult (hd : FabHdr) (mserial : Nat) (c : CmpEntry) (s : State) : Out :=
  .next (s.fabTake hd 0x21 (beBytes 8 mserial ++ cmpBytes c 0) (fun s =>
    match s.fab.cmds.find? (fun x => decide (x.h = mserial) && decide (x.worker = hd.origin)) with
    | none => s
    | some x =>
      let s := { s with fab := { s.fab with cmds := s.fab.cmds.filter (fun y => y.h ≠ mserial) } }
      if x.abandoned then
        s.event [(s.ring c.ring).prin] 0x0065 hd.origin.toNat (c.serial % 2 ^ 56 * 256 + c.status % 256)
      else
        match s.job mserial with
        | none => s
        | some e =>
          let s := if e.d.opcode = 0x70 ∧ c.status = 0 then s.noteHolds hd.origin e else s
          s.completeEntry mserial { c with remote := true, device := hd.origin, ring := e.ring, serial := e.d.serial }))

/-- FAB_EVENT: a worker's event goes into the event ring of its principal (R363). -/
def execFabEvent (hd : FabHdr) (principal : Nat) (e : EvtEntry) (s : State) : Out :=
  .next (s.fabTake hd 0x22 (beBytes 1 principal ++ evtBytes e 0 0) (fun s =>
    s.emit [principal] { e with remote := true, device := hd.origin }))

/-- FAB_DUMP: a worker's latched counters for a principal's dump area (R363, R586). -/
def execFabDump (hd : FabHdr) (principal latchTn offset : Nat) (data : List Byte) (s : State) : Out :=
  .next (s.fabTake hd 0x23 (beBytes 1 principal ++ beBytes 8 latchTn ++ beBytes 4 offset ++ data) (fun s =>
    if s.fw then s.takeDump (2 + hd.origin.toNat) 2 hd.origin principal latchTn offset data else s))

/-- FAB_MBX: a post or ack of a remote mailbox channel (R559). -/
def execFabMbx (hd : FabHdr) (channel : Fin 64) (flags : Byte) (msg : List Byte) (s : State) : Out :=
  .next (s.fabTake hd 0x24 (leBytes 1 channel ++ [flags] ++ msg) (fun s => s.mbxMsg hd.origin channel flags msg))

/-! ### Workers (R361, R362, R365) -/

/-- Hop sum of the first hop of a path: the link's delay in whole ticks and 4 (R43, R370). -/
def State.hopSum (s : State) (l : Link) : Nat := 4 + ceilDiv (s.plink l).delayPs 125000

/-- FAB_STATUS: a worker lives, is restored if it was lost, and is reached by the path of lowest hop sum (R361, R365). -/
def execFabStatus (hd : FabHdr) (tn st : Nat) (defects : BitVec 56) (s : State) : Out :=
  .next (s.fabTake hd 0x30 (beBytes 8 tn ++ beBytes 1 st ++ beBytes 7 defects.toNat) (fun s =>
    let g := match hd.link with | .group g => some g.val | .calrin => none
    let sum := s.hopSum hd.link + Config.farHops hd.origin
    let r3 := (match g with | some i => decide ((s.group i).rung = 3) | none => true) && Config.farRung3 hd.origin
    let new : Worker := { id := hd.origin, link := g, pathSum := sum, rung3 := r3 }
    let w := match s.worker hd.origin with
      | none => new
      | some o =>
        let keep := decide (o.link ≠ g) && decide (o.pathSum ≤ sum)
          && (match o.link with | some i => decide ((s.plink (linkOf i)).st = .up) | none => decide (s.fab.calrin.st = .up))
        if keep then { o with silent := 0, lost := false } else new
    { s with fab := { s.fab with workers := s.fab.workers.filter (fun o => o.id ≠ hd.origin) ++ [w] } }))

/-- FAB_CMD_RETRY: no RESULT within RETRY ticks, so the CMD goes out again (R358, R362). -/
def execFabCmdRetry (h : Nat) (s : State) : Out :=
  whenFw s (
    match s.fab.cmds.find? (fun c => c.h = h), s.job h with
    | some c, some e =>
      if c.abandoned = false ∧ e.cmp.isNone ∧ c.sentTick + s.retry ≤ s.clk.tick then
        let m := fun (x : RemoteCmd) => if x.h = h then { x with sentTick := s.clk.tick } else x
        ({ s with fab := { s.fab with cmds := s.fab.cmds.map m } }).sendCmd h e c.worker
      else s
    | _, _ => s)

/-- FAB_WORKER_LOST: no STATUS for three selection periods (R361). -/
def execFabWorkerLost (worker : Word) (s : State) : Out :=
  whenUp s (
    match s.worker worker with
    | some w =>
      if s.fabRole = 1 ∧ 3 ≤ w.silent ∧ w.lost = false then
        let m := fun (x : Worker) => if x.id = worker then { x with lost := true, lostTick := s.clk.tick } else x
        ({ s with fab := { s.fab with workers := s.fab.workers.map m } }).event [0] 0x0062 worker.toNat 0
      else s
    | none => s)

/-- FAB_CMD_ABANDON: the worker has been lost for 8,000 selection periods, so the command ends with its outcome unknown
(R362). -/
def execFabCmdAbandon (h : Nat) (s : State) : Out :=
  whenFw s (
    match s.fab.cmds.find? (fun c => c.h = h), s.job h with
    | some c, some e =>
      match s.worker c.worker with
      | some w =>
        if c.abandoned = false ∧ w.lost ∧ w.lostTick + 64000000 ≤ s.clk.tick then
          let m := fun (x : RemoteCmd) => if x.h = h then { x with abandoned := true } else x
          ({ s with fab := { s.fab with cmds := s.fab.cmds.map m } }).completeEntry h
            ⟨e.d.serial, e.d.opcode, eAborted, true, e.d.ring, c.worker, s.tnNow, 0xFFFFFFFFFFFFFFFF⟩
        else s
      | none => s
    | _, _ => s)

end Sys2Proof.Machine
end

