-- ==== Sys2Proof/Machine/Periods.lean ====
section
/-! DEFINITION. The work of a second boundary and of a selection-period boundary (R33, R35, R129, R316, R329, R355, R357, R361,
R402, R579, R585, R596 to R607). -/
namespace Sys2Proof.Machine

/-- The fabric links in a state. -/
def State.groupsIn (s : State) (st : LinkSt) : List Link :=
  ((List.range 32).map (fun g => Link.group (Fin.ofNat 32 g))).filter (fun l => decide ((s.plink l).st = st))

/-- Calrin's link in a state. -/
def State.calIn (s : State) (st : LinkSt) : List Link := if s.fab.calrin.st = st then [Link.calrin] else []

/-- Send a link-local message on links. -/
def State.sendOn (s : State) (ls : List Link) (type : Nat) : State :=
  ls.foldl (fun (t : State) l => t.send (some l) type 0 []) s

/-! ### SECOND_BOUNDARY -/

/-- TN_ANNOUNCE goes out on every fabric link of a manager and of a worker, and on Calrin (R357, R398). -/
def State.announceTn (s : State) : State :=
  let s := if s.fabRole ≠ 0 then s.sendOn (s.groupsIn .up) 1 else s
  if s.mated then s.sendOn (s.calIn .up) 1 else s

/-- The work of a second boundary: PPS_OUT rises, dumps not ended are skipped, the counters are latched, the holdover sample
is taken, TN is announced and delays are measured. -/
def State.second (s : State) : State :=
  let s := { s with clk := { s.clk with ppsHighUntil := s.clk.tick + 800000, secDone := true } }
  let s := (List.range 16).foldl State.dumpSkip s
  let s := s.latch.holdSample.announceTn
  s.sendOn (s.groupsIn .up ++ s.calIn .up) 2

/-- The second boundary of this tick, where it is due and has not been done (R18, R33). -/
def State.secondNow (s : State) : State := if s.atSecond ∧ s.clk.secDone = false then s.second else s

/-! ### SELECTION_PERIOD_BOUNDARY -/

/-- NRG_CFG.NO_SLEEP (R604). -/
def State.noSleep (s : State) : Bool := bit (s.reg Reg.nrgCfg) 31

/-- A message waits for a core (R539, R558). -/
def State.coreBusy (s : State) (m : Nat) : Bool :=
  (List.range 64).any (fun c => (s.mbox c).full && s.mbIsReceiver m c)

/-- CC1 to CC3 sleep without work (R539, R604). -/
def State.sleepCores (s : State) : State :=
  let l := if s.noSleep then [] else [1, 2, 3].filter (fun m => !s.coreBusy m)
  { s with pwr := { s.pwr with asleep := l } }

/-- Delay requests of links in MEASURING, failures of the period forgotten, and a worker's STATUS (R346, R355, R361). -/
def State.fabPeriod (s : State) : State :=
  let s := s.sendOn (s.groupsIn .measuring ++ s.calIn .measuring) 2
  let s := { s with fab := { s.fab with
      link := (s.fab.link.map (fun (p : Nat × PeerLink) => (p.1, { p.2 with authFails := 0 }))).filter (fun p => decide (p.2 ≠ {}))
      calrin := { s.fab.calrin with authFails := 0 }
      workers := s.fab.workers.map (fun w => { w with silent := w.silent + 1 }) } }
  if s.fabRole = 2 then
    let d := s.draw
    d.2.send none 0x30 s.mgrId (beBytes 8 s.tnNow ++ beBytes 1 s.str.st.num ++ beBytes 7 (Config.defectSummary d.1).toNat)
  else s

/-- A whole period without a difference between the members (R402). -/
def State.diffPeriod (s : State) : State :=
  { s with cal := { s.cal with diffPeriods := if s.cal.diffSeen then 0 else s.cal.diffPeriods + 1, diffSeen := false } }

/-- The work of a selection-period boundary. -/
def State.period (s : State) (m : PeriodIn) : State :=
  let s := { s with clk := { s.clk with perDone := true } }
  let s := if s.drops 7 then s else (s.starterPeriod m).reportPhases
  let s := s.ledgerPeriod m.dom
  s.fabPeriod.diffPeriod.sleepCores

end Sys2Proof.Machine
end

