-- ==== Sys2Proof/Machine/Slots.lean ====
section
/-! DEFINITION. SLOT_PROCESSING: the words that enter the Harp, the words of the egress slots, and the frames that the device
starts (R17, R19, R36, R53, R95 to R107, R124, R126, R165, R177, R179, R195, R248, R670 to R672). -/
namespace Sys2Proof.Machine

/-! ### Words that enter the Harp -/

/-- The group of a lane carries traffic (R67, R211, R516). -/
def State.laneServes (s : State) (n : Nat) : Bool := decide ((s.group (n / 8)).st = .inService)

/-- The frame that gives a lane's words in this tick, and which of its ticks. -/
def State.frameNow (s : State) (n : Nat) : Option (FrameIn × Nat) :=
  let now := s.secClock
  ((s.rx n).frames.find? (fun f => decide (s.entryTick n f ≤ now) && decide (now < s.entryTick n f + f.n))).map
    (fun f => (f, now - s.entryTick n f))

/-- The word that a lane delivers for a global slot in this tick: lane AIS where the column does not exist, the lane carries
lane AIS, or its group does not serve (R53, R101, R124, R211). -/
def State.rxWord (s : State) (slot : Nat) : SlotWord :=
  let n := slot / 2048
  let c := slot % 2048
  if slotsAt (s.rungOf n) ≤ c ∨ s.laneAis n ∨ s.laneServes n = false then aisWord
  else match s.frameNow n with
    | some (f, t) => f.f.cells.getD (c * f.n + t) aisWord
    | none => aisWord

/-- The Wheel of which a slot is a member, and the member's number. -/
def State.memberOf (s : State) (slot : Nat) : Option (Nat × Nat) :=
  s.whl.findSome? (fun (p : Nat × Wheel) =>
    if p.2.defined then (p.2.members.findIdx? (fun m => decide (m = slot))).map (fun i => (p.1, i)) else none)

/-- This tick is a Wheel tick 0 of a Wheel in IN_MF. -/
def State.wheelTick0 (s : State) (w : Wheel) : Bool :=
  decide (w.align = .inMf) && decide (w.t0 ≤ s.secClock) && decide ((s.secClock - w.t0) % 64 = 0)

/-- The word of a received position: what the lane delivers after the Retimer, AIS-W and RDI-W (R165, R177, R179, R181,
R249). -/
def State.ingressWord (s : State) (slot : Nat) : SlotWord :=
  let m := s.memberOf slot
  if s.foreign (slot / 16384) then
    match m with
    | some (w, i) => if s.retimed w then (s.wheel w).ret.wordAt s.secClock i else aisWord
    | none => aisWord
  else match m with
    | some (w, i) =>
      let x := s.wheel w
      if x.aisOut then aisWord
      else if i = 0 ∧ s.rdiSet w ∧ s.wheelTick0 x then s.rxWord slot ||| 0x010
      else s.rxWord slot
    | none => s.rxWord slot

/-- Word `i` of a pair's output in the tick that is `t` after the start of its output multiframe, or before that start, in the one
it cut off. -/
def Pair.outWord (p : Pair) (now i : Nat) : SlotWord :=
  if p.outT0 ≤ now then (if now < p.outT0 + 64 then p.out.getD ((now - p.outT0) * p.k + i) aisWord else aisWord)
  else if p.prevT0 ≤ now ∧ now < p.prevT0 + 64 then p.prev.getD ((now - p.prevT0) * p.k + i) aisWord
  else aisWord

/-- The Colander's output word at a global slot that is a member of a pair's copy A; it enters the Harp two ticks after it leaves
the Colander (R195, R248, R269). -/
def State.colanderWord (s : State) (slot : Nat) : SlotWord :=
  match s.memberOf slot with
  | none => aisWord
  | some (w, i) =>
    match s.pairOf w with
    | none => aisWord
    | some n =>
      let p := s.pair n
      if p.wa ≠ w ∨ s.secClock < 2 then aisWord
      else if s.pairForeign p then p.ret.wordAt s.secClock i
      else p.outWord (s.secClock - 2) i

/-! ### Egress words (R195) -/

/-- The word of an egress slot by the active page. -/
def State.egressWord (s : State) (slot : Nat) : SlotWord :=
  let o := s.activePage.eg.look {} slot
  if o.out = 0 then
    let src := brSlot o.br
    if brPos o.br < 16384 then s.ingressWord src else s.colanderWord src
  else if o.out = 1 then o.word
  else if o.out = 2 then aisWord
  else BitVec.ofNat 12 (bits (s.reg Reg.idleCfg) 11 0)

/-- The words that a lane sends for this tick, one for each column of its rung; 0xFFF while the group does not serve (R516). -/
def State.laneWords (s : State) (n : Nat) : List SlotWord :=
  let k := slotsAt (s.txRungOf n)
  if s.laneServes n then (List.range k).map (fun c => s.egressWord (n * 2048 + c)) else List.replicate k aisWord

/-! ### Frames sent -/

/-- The device sends lane AIS on every lane: it is a member that is not in sync (R391). -/
def State.outOfSync (s : State) : Bool := decide (s.cal.role = .syncing) || decide (s.cal.role = .detached)

/-- The header of the frame that a lane starts in this tick (R36, R98 to R100, R124, R126). -/
def State.txHeader (s : State) (n : Nat) (ais : Bool) : BitVec 128 :=
  let rdi := s.declared n 0 || s.declared n 1
  let h := alignWord.toNat * 2 ^ 80 + n % 1024 * 2 ^ 70 + s.secClock % 2 ^ 24 * 2 ^ 46 + s.txRungOf n * 2 ^ 42 + s.plane * 2 ^ 40
    + b2n ais * 2 ^ 39 + b2n rdi * 2 ^ 38 + s.qlOut % 16 * 2 ^ 34 + b2n (s.capSent n) * 2 ^ 33
  BitVec.ofNat 128 (h + (crc16 ((msbBits (BitVec.ofNat 128 h)).take 112)).toNat)

/-- The 2,048 cells of a frame from the words of its ticks, the first tick's first: cell s x n + t (R101). -/
def frameCells (ticks : List (List SlotWord)) (k : Nat) : List SlotWord :=
  (List.range k).flatMap (fun c => ticks.map (fun l => l.getD c aisWord))

/-- The received data that a far-end loop sends in place of the lane's own frames, in frame or not (R85). -/
def State.loopedFrame (s : State) (n : Nat) : Option TxFrame := (s.rx n).lastRx

/-- A lane starts a frame (R95, R102, R103, R107). -/
def State.startFrame (s : State) (n : Nat) : State :=
  let k := slotsAt (s.txRungOf n)
  let t := frameTicks (s.txRungOf n)
  let x := s.tx n
  let ais := s.forceAis n || s.outOfSync
  let ticks := (x.acc.filter (fun l => decide (l.length = k)))
  let ticks := List.replicate (t - ticks.length) (List.replicate k aisWord) ++ ticks.drop (ticks.length - t)
  let cells := if ais then List.replicate 2048 aisWord else frameCells ticks k
  let bip := match x.last with | some f => frameBip f.ovh f.cells | none => Config.firstBip n s.secClock
  let cap := if s.capSent n then (s.capWord n).toNat else 0
  let l := Link.group (Fin.ofNat 32 (n / 8))
  let z := s.linkFragment l (if s.isFabricLink (n / 8) then s.fabricInFrame (n / 8) else []) n n (n % 8) 0 cap
  let own : TxFrame := ⟨s.txHeader n ais, z.2, cells, bip⟩
  let f := if (s.lane n).loop = 3 then (s.loopedFrame n).getD own else own
  z.1.setTx n (s.putOnLine n { z.1.tx n with last := some f, lastTick := s.secClock, acc := [] } f)

/-- One tick of a lane's transmitter: the tick's words, and a frame in each tick divisible by the frame's length; a direction
that is not ACTIVE sends nothing (R83, R102). -/
def State.txTick (s : State) (n : Nat) : State :=
  if (s.lane n).tx ≠ .active then s
  else
    let x := s.tx n
    let t := frameTicks (s.txRungOf n)
    let s := s.setTx n { x with acc := (x.acc ++ [s.laneWords n]).drop (x.acc.length + 1 - t) }
    if s.secClock % t = 0 then s.startFrame n else s

/-- A near-end loop returns the frame that the lane started one frame period ago, since the activation (R85, R670, R671). -/
def State.loopTick (s : State) (n : Nat) : State :=
  if s.nearLoop n = false ∨ (s.lane n).rx ≠ .active ∨ (s.lane n).rxReady = false then s
  else match (s.tx n).last with
    | some f =>
      if (s.lane n).loopAt ≤ (s.tx n).lastTick ∧ (s.tx n).lastTick + frameTicks (s.rungOf n) = s.secClock then
        let s := s.takeFrame n { pos := 0, hdr := f.hdr, ovh := f.ovh, cells := f.cells, bip := f.bip, corr := 0, uncorr := 0,
                                 sync := List.replicate 400 true, arr := 0 }
        s.noteSkew n
      else s
    | none => s

/-! ### Wheels in each tick -/

/-- Follow a Wheel's raw conditions: the run of 0xFFF in its lead, its periods while there is no alignment, the selection period
whose marks are final, and AIS-W at the start of a multiframe period (R174, R175, R570). -/
def State.wheelTick (s : State) (w : Nat) : State :=
  let x := s.wheel w
  if !x.defined then s
  else
    let ais := match x.members with | m :: _ => decide (s.rxWord m = aisWord) | [] => false
    let y := { x with leadRun := if ais then min 64 (x.leadRun + 1) else 0 }
    let y := if y.align = .hunt ∧ y.perTick + 64 ≤ s.clk.tick then { y with per := y.per + 1, perTick := s.clk.tick } else y
    let fault := s.laneFault y
    let y := y.judge s.secClock s.excThr (y.dec 0 || y.dec 1 || fault)
    let s := s.setWheel w (y.note fault)
    s.count 1 w 1 (b2n (x.dec 0 && decide (s.secClock % 64 = x.t0 % 64)))

/-- Wheels that pass the Retimer and pairs built as the Retimer builds send their words of this tick. -/
def State.retimeAll (s : State) : State :=
  let s := if s.drops 1 then s
    else (s.whl.map (fun (p : Nat × Wheel) => p.1)).foldl (fun (t : State) w => if t.retimed w then t.retimeTick w else t) s
  if s.drops 2 then s else
  (s.col.pair.map (fun (p : Nat × Pair) => p.1)).foldl (fun (t : State) n =>
    if (t.pair n).defined ∧ t.pairForeign (t.pair n) then t.pairTick n else t) s

/-- The lanes that are not in their reset state. -/
def State.liveLanes (s : State) : List Nat := s.sds.lane.map (fun (p : Nat × Lane) => p.1)

/-- The slot processing of a tick. -/
def State.slots (s : State) : State :=
  let s := { s with clk := { s.clk with slotsDone := true } }
  let s := s.liveLanes.foldl State.loopTick s
  let s := (s.whl.map (fun (p : Nat × Wheel) => p.1)).foldl State.wheelTick s
  let s := s.retimeAll.routeMsgs
  s.liveLanes.foldl State.txTick s

/-- The slot processing of this tick, once: the Colander's output multiframes that start in it, then every slot; a Harp whose
work of the tick is discarded does no more of it (R16, R22, R23). -/
def State.slotsNow (s : State) : State :=
  if s.clk.slotsDone then s
  else if s.drops 0 then { s with clk := { s.clk with slotsDone := true } }
  else s.playouts.slots

end Sys2Proof.Machine
end

