-- ==== Sys2Proof/Machine/Boundary.lean ====
section
/-! DEFINITION. The order of a tick's work: the boundary actions of cycles 0 to 3, slot processing and map writes, the seal
(R16 to R20, R42, R45, R46, R48). A command of a later cycle first carries out what earlier cycles of its tick have left. -/
namespace Sys2Proof.Machine

/-- Cycle 0: the traffic-changing actions of this tick in the order of R46. -/
def State.cycle0 (s : State) : State := s.flipsNow.firesNow.pairsNow.loopsNow

/-- Cycles 0 and 1: then the latch, the presets of this tick, and the dump areas that change at a second boundary. -/
def State.cycle1 (s : State) : State := s.cycle0.secondNow.presetsNow.dumpsNow

/-- Every boundary action of this tick that is due. A phase step that names a selection-period boundary waits for the
selection outcome, which needs that boundary's own command. -/
def State.boundary (s : State) : State :=
  let s := s.cycle1.refsNow
  if s.atPeriod ∧ s.clk.perDone = false then s else s.stepNow

/-- LANE_LOOP_APPLY: at the named tick a loop is activated or released, the last of cycle 0 (R46, R86, R87). -/
def execLaneLoopApply (lane : Fin 256) (s : State) : Out :=
  whenUp s (if (s.loopDue lane).isSome then s.flipsNow.firesNow.pairsNow.loopNow lane else s)

/-- SECOND_BOUNDARY: in a tick whose TN is divisible by 8,000,000, once TN is valid; cycle 1. -/
def execSecondBoundary (s : State) : Out :=
  whenUp s (if s.atSecond ∧ s.clk.secDone = false then s.cycle0.secondNow else s)

/-- COUNTER_PRESET_APPLY: cycle 1 of the named tick, after the latch (R18, R45, R577). -/
def execCounterPresetApply (s : State) : Out :=
  whenUp s (if s.presetsDue.isEmpty then s else s.cycle0.secondNow.presetsNow)

/-- DUMP_CONFIG_APPLY: at the second boundary that the command waits for (R524). -/
def execDumpConfigApply (s : State) : Out := whenUp s (if s.dumpsDue.isEmpty then s else s.cycle1)

/-- REF_CONFIG_APPLY: cycle 2 of the boundary that the command waits for (R18, R314). -/
def execRefConfigApply (s : State) : Out := whenUp s (if s.cfgDue.isSome then s.cycle1.cfgNow else s)

/-- REF_FORCE_APPLY: the same for a REF_FORCE (R319). -/
def execRefForceApply (s : State) : Out := whenUp s (if s.forceDue.isSome then s.cycle1.forceNow else s)

/-- SELECTION_PERIOD_BOUNDARY: in a tick whose TN is divisible by 8,000, or at the Starter's own boundaries before TN is
valid; cycle 2. -/
def execSelectionPeriodBoundary (m : PeriodIn) (s : State) : Out :=
  whenUp s (if s.atPeriod ∧ s.clk.perDone = false then s.cycle1.refsNow.period m else s)

/-- PHASE_STEP_APPLY: cycle 3 of the named tick, after the selection outcome of a period boundary (R18, R45). -/
def execPhaseStepApply (s : State) : Out :=
  whenUp s (if s.stepDue.isSome then s.boundary else s)

/-- SLOT_PROCESSING: once in every tick, on the state that the boundary actions leave behind (R19). -/
def execSlotProcessing (s : State) : Out := whenUp s (if s.clk.slotsDone then s else s.boundary.slotsNow)

/-- MAP_WRITE_EXECUTE: the queued map writes of this tick, after its boundary actions (R17, R203). -/
def execMapWriteExecute (s : State) : Out := .next (if s.executes then s.boundary.mapNow else s)

/-- LADLE_RECORD_SEAL: cycles 244 to 251 of every tick of a sealed member of a mate pair; the record holds what the tick has
done before (R17, R20). -/
def execLadleRecordSeal (s : State) : Out :=
  whenUp s (if s.sealDue then s.boundary.slotsNow.sealNow else s)

/-- The end of a tick: no unit carries work of it into the next one (R16, R22). -/
def State.finish (s : State) : State := s.cycle1.refsNow.stepNow.slotsNow.copySlice

end Sys2Proof.Machine
end

