-- ==== Sys2Proof/Machine/LaneCmds.lean ====
section
/-! DEFINITION. LANE_STATE, LANE_LOOP and EYE_SCAN (R77 to R94, R460, R516 to R519). -/
namespace Sys2Proof.Machine

/-! ### LANE_STATE -/

/-- The state that a two-bit field commands; 3 leaves the present one. -/
def powOf (v : Nat) (was : Pow) : Pow :=
  if v = 0 then .off else if v = 1 then .sleep else if v = 2 then .active else was

/-- The field of lane `n` in the TX (offset 8) or RX (offset 10) word. -/
def lsField (e : JEntry) (off n : Nat) : Nat := e.f off 2 / 4 ^ (n % 8) % 4

/-- The commanded states of lane `n` after a LANE_STATE. -/
def State.lsTx (s : State) (e : JEntry) (n : Nat) : Pow := powOf (lsField e 8 n) (s.lane n).txCmd
def State.lsRx (s : State) (e : JEntry) (n : Nat) : Pow := powOf (lsField e 10 n) (s.lane n).rxCmd

/-- A LANE_STATE leaves every lane of its group OFF. -/
def State.lsAllOff (s : State) (e : JEntry) (g : Nat) : Bool :=
  (groupLanes g).all (fun n => decide (s.lsTx e n = .off) && decide (s.lsRx e n = .off))

/-- The ceiling that a LANE_STATE gives: 0xF keeps the present one, or 3 for a group in DOWN. -/
def State.lsCeil (s : State) (e : JEntry) (g : Nat) : Nat :=
  if e.f 5 1 = 15 then (if (s.group g).st = .down then 3 else (s.group g).ceil) else e.f 5 1

/-- A page holds a valid entry that uses a slot of lane `n` in a direction (R82). -/
def Page.usesLane (p : Page) (n : Nat) (rx : Bool) : Bool :=
  p.ent.any (fun (x : Nat × Word) => entValid x.2 &&
    (if rx then decide (entKind x.2 < 2) && decide (entSrc x.2 / 2048 = n) else decide (x.1 / 2048 = n)))

/-- A direction of a lane is in use (R82). -/
def State.dirInUse (s : State) (n : Nat) (rx : Bool) : Bool :=
  s.hrp.p0.usesLane n rx || s.hrp.p1.usesLane n rx || (rx && s.whl.any (fun x => x.2.defined && x.2.onLane n))

/-- The commanded states and the booked rung of a group after a LANE_STATE. -/
def State.lsBook (s : State) (e : JEntry) (g : Nat) : State :=
  let s := s.setGroup g { s.group g with booked := s.lsCeil e g }
  (groupLanes g).foldl (fun (t : State) n =>
    t.setLane n { t.lane n with txCmd := s.lsTx e n, rxCmd := s.lsRx e n }) s

/-- Refusals of LANE_STATE (R65, R79, R82, R517). -/
def chkLaneState : Check := fun e s =>
  let g := e.f 4 1
  let st := (s.group g).st
  let range := decide (g < 32) && (decide (e.f 5 1 ≤ 3) || decide (e.f 5 1 = 15))
  let climbing := decide (st ≠ .down) && decide (st ≠ .inService)
  let keep := (groupLanes g).all (fun n =>
    let l := s.lane n
    (decide (l.txCmd ≠ .active) || decide (s.lsTx e n = .active) || !s.dirInUse n false)
    && (decide (l.rxCmd ≠ .active) || decide (s.lsRx e n = .active) || !s.dirInUse n true))
  (firstErr [need range eRange, need (!climbing || s.lsAllOff e g) eState, need keep eState,
    need s.sds.bt.held.isSome eState, need (s.budgetOk (s.lsBook e g)) eBudget], 0)

/-- Start the transitions of one lane, whose state before the command was `was` (R81): a direction left as it is, or commanded
again to the state that it is on its way to, goes on counting; a lane without a rung-0 record stays OFF (R64). A lane set
ACTIVE in both directions loses ISOLATED and NO_PEER, and one whose receiver is ready already is checked from this tick (R84,
R516). -/
def State.moveLane (s : State) (was : Lane) (e : JEntry) (n : Nat) : State :=
  let l := s.lane n
  let now := s.clk.tick
  let due := fun (rx : Bool) (field : Nat) (old : Option Nat) (cmd0 is cmd : Pow) =>
    if field = 3 ∨ (cmd0 = cmd ∧ old.isSome) then old
    else if is = .off ∧ !s.hasBase n then none
    else (powTime rx is cmd).map (fun t => now + t)
  let both := decide (lsField e 8 n = 2) && decide (lsField e 10 n = 2)
  let back := both && (l.isolated || l.noPeer)
  let l := { l with
    txDue := due false (lsField e 8 n) was.txDue was.txCmd l.tx l.txCmd
    rxDue := due true (lsField e 10 n) was.rxDue was.rxCmd l.rx l.rxCmd
    isolated := l.isolated && !both
    noPeer := l.noPeer && !both }
  let s := s.setLane n l
  if back ∧ l.rx = .active ∧ l.rxReady ∧ (s.group (n / 8)).st = .inService then s.startWake n else s

/-- The direction states are commanded; the ladder follows R516. -/
def effLaneState : Effect := fun h e s =>
  let g := e.f 4 1
  let c := s.lsCeil e g
  let st := (s.group g).st
  let off := s.lsAllOff e g
  let s := (groupLanes g).foldl (fun (t : State) n => t.moveLane (s.lane n) e n) (s.lsBook e g)
  let x := s.group g
  let s :=
    if off then
      (s.setGroup g { x with st := .down, rung := 0, txRung := 0, ceil := c, cleared := 0, sendAct := 0 }).groupLinkDown g
    else if st = .down then (s.setGroup g { x with ceil := c, cleared := 0 }).tryAlign g
    else if e.f 5 1 = 15 ∨ c = x.rung then s.setGroup g { x with ceil := c }
    else
      let s := (s.setGroup g { x with cleared := 0 }).fallback g []
      s.setGroup g { s.group g with ceil := c }
  s.complete h 0 s.tnNow (s.groupMw g)

/-- LANE_STATE. -/
def execLaneState (h : Nat) (s : State) : Out := .next (s.runCmd 0x40 chkLaneState effLaneState h)

/-! ### LANE_LOOP -/

/-- A lane carries partition slots (R450, R451, R460). -/
def State.lanePartition (s : State) (n : Nat) : Bool :=
  (List.range 32).any (fun i =>
    let b := s.block (32 * n + i)
    let part := fun (p : Nat) => decide (1 ≤ p) && decide (p ≤ 63)
    part b.owner || (match b.hand with | some (f, h) => part f || part h | none => false))

/-- The loop mode of a lane at tick `t`, as the accepted commands before it leave it. -/
def State.loopAt (s : State) (n t : Nat) : Nat :=
  let acts := sortBy (fun (a b : LoopAct) => decide (a.n ≤ b.n)) (s.sds.loops.filter (fun a => decide (a.lane = n) && decide (a.n < t)))
  acts.foldl (fun _ (a : LoopAct) => a.mode) (s.lane n).loop

/-- Refusals of LANE_LOOP (R47, R86, R460, R518). -/
def chkLaneLoop : Check := fun e s =>
  let n := e.f 4 2
  let m := e.f 6 1
  let t := e.f 8 8
  let perm := decide (e.prin ≠ 64) || !s.lanePartition n || s.granted n t
  let clash := s.sds.loops.any (fun a => decide (a.lane = n) && decide (a.n = t))
  (firstErr [need perm ePerm, need (decide (n < 256) && decide (m ≤ 3)) eRange, s.leadCheck t,
    need (if m = 0 then decide (s.loopAt n t ≠ 0) else s.loopOk n m) eState, need (!clash) eConflict], 0)

/-- The activation or release is scheduled. -/
def effLaneLoop : Effect := fun h e s =>
  let n := e.f 4 2
  let a : LoopAct := ⟨h, n, e.f 6 1, e.f 8 8, decide (e.prin = 64) && s.lanePartition n⟩
  ({ s with sds := { s.sds with loops := s.sds.loops ++ [a] } }).recEvt 1 h (e.f 8 8) 0

/-- LANE_LOOP. -/
def execLaneLoop (h : Nat) (s : State) : Out := .next (s.runCmd 0x41 chkLaneLoop effLaneLoop h)

/-! ### EYE_SCAN -/

/-- Refusals of EYE_SCAN (R90, R93, R499). -/
def chkEyeScan : Check := fun e s =>
  let n := e.f 4 2
  let eye := e.f 6 1
  let range := decide (n < 256) && decide (eye ≤ 2) && (decide (2 ≤ s.rungOf n) || decide (eye = 1))
    && decide (e.f 16 8 % 8 = 0)
  (firstErr [need range eRange, need (!s.sds.scans.any (fun c => decide (c.lane = n))) eConflict,
    need (decide (s.sds.scans.length < 32)) eCapacity, need (decide ((s.lane n).rx = .active)) eState], 0)

/-- The scan waits for a grant of the Ledger (R94, R602). -/
def effEyeScan : Effect := fun h e s =>
  let c : Scan := { h := h, lane := e.f 4 2, eye := e.f 6 1, dwell := if e.f 8 2 = 0 then 80 else e.f 8 2,
                    out := e.f 16 8, hkey := e.f 24 4 }
  { s with sds := { s.sds with scans := s.sds.scans ++ [c] } }

/-- EYE_SCAN. -/
def execEyeScan (h : Nat) (s : State) : Out := .next (s.runCmd 0x42 chkEyeScan effEyeScan h)

end Sys2Proof.Machine
end

