-- ==== Sys2Proof/Machine/PairCmds.lean ====
section
/-! DEFINITION. PAIR_SET and PAIR_CMD (R250 to R254, R513 to R515). -/
namespace Sys2Proof.Machine

/-- The fields of a PAIR_SET. -/
def psMode (e : JEntry) : Nat := e.f 10 1
def psTier (e : JEntry) : Nat := if psMode e = 3 then 0 else e.f 11 1
def psStacks (e : JEntry) : BitVec 6 := BitVec.ofNat 6 (e.f 17 1)

/-- The parameters of a definition or change lie in their ranges (R250). -/
def psRange (e : JEntry) : Bool :=
  decide (psMode e ≤ 3) && decide (psTier e ≤ 2) && decide (1 ≤ e.f 12 4) && decide (e.f 12 4 ≤ 8000000)
  && (decide (psTier e ≠ 1) || decide (e.f 12 4 ≤ 64)) && decide (e.f 16 1 ≤ 1)
  && decide (1 ≤ e.f 17 1) && decide (e.f 17 1 ≤ 63) && decide (e.f 18 2 ≤ 3600) && decide (e.f 20 1 ≤ 1)
  && decide (1 ≤ e.f 22 2)

/-- The fields that PAIR_SET may not change on an existing pair are those in force (R251). -/
def psSame (e : JEntry) (p : Pair) : Bool :=
  decide (e.f 6 2 = p.wa) && decide (e.f 8 2 = p.wb) && decide (psMode e = p.mode) && decide (psTier e = p.tierReq)
  && decide (e.f 12 4 = p.diff) && decide (decide (e.f 16 1 = 1) = p.lag) && decide (e.f 22 2 = p.alignWait)

/-- The store a new pair takes: 0 none, 1 near store, 2 Cave (R278). -/
def State.tierFor (s : State) (e : JEntry) (k : Nat) : Nat :=
  if psMode e = 3 then 0
  else if psTier e ≠ 0 then psTier e
  else if e.f 12 4 ≤ 64 ∧ s.nearFits e.prin (nearBook 1 (psMode e) k (e.f 12 4)) then 1
  else 2

/-- The first chunk that no copy has begun to send: the next of a copy in IN_MF, and one after those held (R289). -/
def State.moveFrom (s : State) (p : Pair) : Nat :=
  let next := ([p.wa, p.wb].filter (fun w => decide ((s.wheel w).align = .inMf))).map
    (fun w => (s.nextMf (s.wheel w) s.secClock).1)
  (next ++ (p.ca ++ p.cb).map (fun (c : Chunk) => c.x + 1)).foldl max p.nextX

/-- An existing pair with the STACKS, WTR and REVERT of a PAIR_SET. A move that meets one still under way keeps each old stripe,
with its own booking, until the chunks on it have left. -/
def State.changedPair (s : State) (e : JEntry) (p : Pair) : Pair :=
  let q := { p with wtr := e.f 18 2, revert := e.f 20 1 = 1 }
  if psStacks e = p.stk then q
  else if p.tier ≠ 2 then { q with stk := psStacks e }
  else { q with stk := psStacks e, old := p.old ++ [(p.stk, s.moveFrom p)] }

/-- A newly defined pair. -/
def State.newPair (s : State) (e : JEntry) : Pair :=
  let old := s.pair (e.f 4 2)
  let k := (s.wheel (e.f 6 2)).k
  { defined := true, owner := e.prin, wa := e.f 6 2, wb := e.f 8 2, k := k, mode := psMode e, tierReq := psTier e,
    tier := s.tierFor e k, diff := e.f 12 4, lag := e.f 16 1 = 1, stk := psStacks e, wtr := e.f 18 2,
    revert := e.f 20 1 = 1, alignWait := e.f 22 2, gen := old.gen + 1, defTick := s.secClock, cave := old.cave }

/-- The pair that a PAIR_SET leaves behind. -/
def State.pairAfter (s : State) (e : JEntry) : Pair :=
  let old := s.pair (e.f 4 2)
  if old.defined then s.changedPair e old else s.newPair e

/-- Bookings fit (R253, R277, R283): the new pair's, or the new stripe's. -/
def State.pairFits (s : State) (e : JEntry) : Bool :=
  let old := s.pair (e.f 4 2)
  let p := s.pairAfter e
  if old.defined then
    decide (p.tier ≠ 2) || decide (p.stk = old.stk) || s.caveFits p.owner p.k p.diff p.stk
  else s.nearFits p.owner p.near && (decide (p.tier ≠ 2) || s.caveFits p.owner p.k p.diff p.stk)

/-- Refusals of PAIR_SET in the order of R252. -/
def chkPairSet : Check := fun e s =>
  let n := e.f 4 2
  let old := s.pair n
  if psMode e = 0 then
    (need (decide (n < 32768) && (decide (e.prin = 0) || s.prUse e.prin n) && old.defined) eRange, 0)
  else
    let a := e.f 6 2
    let b := e.f 8 2
    let range := decide (n < 32768) && s.prUse e.prin n && s.whUse e.prin a && s.whUse e.prin b
      && (s.wheel a).defined && (s.wheel b).defined && decide (a ≠ b)
      && decide ((s.wheel a).k = (s.wheel b).k) && psRange e
    let free := fun w => match s.pairOf w with | some m => decide (m = n) | none => true
    let state := free a && free b && (!old.defined || psSame e old)
    (firstErr [need range eRange, need state eState, need (s.pairFits e) eCapacity,
      need (s.budgetOk (s.setPair n (s.pairAfter e))) eBudget], 0)

/-- RESULT of PAIR_SET (R514). -/
def Pair.result (p : Pair) : Nat :=
  p.tier * 2 ^ 56 + p.near * 2 ^ 32 + (if p.tier = 2 then caveQ p.k p.diff else 0)

/-- Take a pair's requests off every pseudo-channel. -/
def State.dropReqs (s : State) (n : Nat) : State :=
  { s with col := { s.col with reqs := mapTab [] s.col.reqs (fun l => l.filter (fun r => decide (1 < r.who) || decide (r.pair ≠ n))) } }

/-- Wheels start in the Retimer afresh. -/
def State.freshRetimers (s : State) (ws : List Nat) : State :=
  ws.foldl (fun (t : State) w => t.setWheel w { t.wheel w with ret := {} }) s

/-- Remove a pair: its commands and requests end, its counters return to 0, its Wheels start in the Retimer afresh; its stored
chunks stay where they are, behind the pair's tag (R254, R293, R294). -/
def State.removePair (s : State) (n : Nat) : State :=
  let p := s.pair n
  let mine := s.col.acts.filter (fun a => a.pair = n)
  let s := { s with col := { s.col with acts := s.col.acts.filter (fun a => a.pair ≠ n) } }
  let s := mine.foldl (fun (t : State) (a : PairAct) => t.complete a.h eAborted a.n 0) s
  (((s.dropReqs n).setPair n { gen := p.gen, ca := p.ca, cb := p.cb, cave := p.cave }).clearCounters 2 n).freshRetimers
    [p.wa, p.wb]

def effPairSet : Effect := fun h e s =>
  let n := e.f 4 2
  if psMode e = 0 then (s.removePair n).complete h 0 s.tnNow 0
  else
    let p := s.pairAfter e
    let fresh := !(s.pair n).defined
    let s := s.setPair n p
    let s := if fresh then (s.clearCounters 2 n).freshRetimers [p.wa, p.wb] else s
    let s := s.setPair n { p with reqCode := if fresh then s.reqOf p else p.reqCode }
    s.complete h 0 s.tnNow p.result

/-- PAIR_SET. -/
def execPairSet (h : Nat) (s : State) : Out := .next (s.runCmd 0x30 chkPairSet effPairSet h)

/-- Refusals of PAIR_CMD (R47, R263, R272, R515). -/
def chkPairCmd : Check := fun e s =>
  let n := e.f 4 2
  let c := e.f 6 1
  let p := s.pair n
  let mode := if p.mode = 3 then decide (c ≠ 5) else decide (c ≠ 2) && decide (c ≠ 3)
  let clash := s.col.acts.any (fun a => decide (a.pair = n) && decide (a.n = e.f 8 8))
  (firstErr [need (decide (n < 32768) && (decide (e.prin = 0) || s.prUse e.prin n) && p.defined && decide (c ≤ 5)) eRange,
    need mode eState, s.leadCheck (e.f 8 8), need (!clash) eConflict], 0)

/-- The command is scheduled for its tick. -/
def effPairCmd : Effect := fun h e s =>
  let a : PairAct := ⟨h, e.f 4 2, e.f 6 1, e.f 8 8⟩
  ({ s with col := { s.col with acts := s.col.acts ++ [a] } }).recEvt 1 h (e.f 8 8) 0

/-- PAIR_CMD. -/
def execPairCmd (h : Nat) (s : State) : Out := .next (s.runCmd 0x31 chkPairCmd effPairCmd h)

end Sys2Proof.Machine
end

