-- ==== Sys2Proof/Machine/Power.lean ====
section
/-! DEFINITION. Power-up, resets, boot, control restart, board pins (17_reset_boot, 19_electrical; R466 to R476, R492,
R538). -/
namespace Sys2Proof.Machine

/-! ### What a warm reset keeps (R620) -/

/-- What a warm reset keeps of a lane and of a group: the commanded states and the booked ceiling (R625). -/
def keepLane (l : Lane) : Lane := { txCmd := l.txCmd, rxCmd := l.rxCmd }
def keepGroup (g : Group) : Group := { ceil := g.booked, booked := g.booked }

/-- What is kept of a port: the SAs and the mode; transmit packet numbers go on 2^16 higher (R418). -/
def keepPort (p : Port) : Port :=
  let adv := fun (a : Sa) => { a with txPn := a.txPn + 65536 }
  { p with link := false, sa := p.sa.map adv, next := p.next.map adv }

/-- What is kept of a queue pair: its configuration and, where the journal stays, the writes that were not acknowledged, which
are issued again; reads are asked for afresh. A queue pair in error waits for a RING_BIND (R420, R421, R627). -/
def keepQp (mated : Bool) (q : Qp) : Qp :=
  { q with retries := 0, ops := if mated then [] else q.ops.filter (fun o => !o.kind.isRead) }

/-- What is kept of a ring set: its binding, keys and indices. -/
def keepRing (x : Ring) : Ring :=
  { x with
    st := if x.st = .busy then .open_ else x.st
    fetch := []
    fetchIdx := x.takeIdx
    batch := none
    batchWait := false
    dbRead := false
    kickAgain := false
    kicked := false
    fetching := 0 }

/-- The journal after a warm reset: accepted commands that had not ended wait for SEAL (R626). A manager's command whose
batch lay in firmware SRAM is forgotten and comes again (R364); a member of a mate pair keeps nothing (R627). -/
def State.keepJournal (s : State) : List (Nat × JEntry) :=
  if s.mated then []
  else
    (s.mgp.journal.filter (fun (p : Nat × JEntry) =>
      !(decide (p.2.origin ≠ .ring) && p.2.batch.isSome && p.2.cmp.isNone))).map (fun (p : Nat × JEntry) =>
        if p.2.accepted.isSome ∧ p.2.cmp.isNone then (p.1, { p.2 with stale := true, resume := false }) else p)

/-- Manager serials that a worker has journaled (R359); outputs lay in firmware SRAM. -/
def State.keepWcmds (s : State) : List WorkerCmd :=
  let js := s.keepJournal
  (s.fab.wcmds.filter (fun w => match w.h with
    | some h => w.result.isSome || js.any (fun p => decide (p.1 = h))
    | none => false)).map (fun w => { w with batch := [], output := [] })

/-- Set-up registers after a warm reset: the sealed image, and the mailbox bindings as they stand (R620, R621). -/
def State.keepRegs (s : State) : Tab Word :=
  let img := s.sealImg.getD []
  (s.regs.filter (fun (p : Nat × Word) => inArr p.1 (Reg.mbxBind 0) 64 0x80 || inArr p.1 (Reg.mbxFab 0) 64 0x80)).foldl
    (fun (t : Tab Word) (p : Nat × Word) => Tab.put (regSpec p.1).rst t p.1 p.2) img

/-- WARM_RESET_QUIESCE: everything outside the always-on domain returns to its reset value (R616, R619, R620). -/
def State.warmReset (s : State) (last : Nat) : State :=
  let p := s.pwr
  let t := s.mbReset (List.range 9)
  { ({} : State) with
    pending := s.pending
    clk := { tick := s.clk.tick }
    pwr := { p with
      phase := .held
      cold := false
      last := last
      restarts := 0
      warmCount := min 65535 (p.warmCount + 1)
      causes := p.causes &&& 0x67
      wdogCount := 0
      wdogCore := 0
      wdogTicks := []
      wdogDue := false
      restart := none
      codeLocked := false
      gpioFail := none
      asleep := []
      blkReq := 0
      grpReq := 0 }
    regs := s.keepRegs
    sealImg := s.sealImg
    flash := s.flash
    rnd := { s.rnd with quotes := [], mSetup := 0, stage := [], stageTotal := 0, staged := false, ephBusyUntil := none }
    sds := {
      lane := mapTab {} s.sds.lane keepLane
      group := mapTab {} s.sds.group keepGroup
      bt := { state := if s.sds.bt.held.isSome then 2 else 0, held := s.sds.bt.held, buf := s.sds.bt.sealBuf, sealBuf := s.sds.bt.sealBuf } }
    fab := { serial := s.fab.serial, wcmds := s.keepWcmds }
    mgp := {
      port := mapTab {} s.mgp.port keepPort
      qp := mapTab {} s.mgp.qp (keepQp s.mated)
      ring := mapTab {} s.mgp.ring keepRing
      journal := s.keepJournal
      nextH := s.mgp.nextH }
    prn := s.prn
    mbx := t.mbx
    mem := { ret := s.mem.ret, cave := s.mem.cave, zeroed := s.mem.zeroed, caveWr := s.mem.caveWr, raw := s.mem.raw
             rawVol := s.fresh }
    nrg := { budget := s.nrg.budget }
    fresh := s.fresh + 1 }

/-- COLD_POWER_UP: everything but fuses and flash is lost (R615, R620); a rail out of order shows at the next start
(R614). -/
def execColdPowerUp (orderErr : Bool) (s : State) : Out :=
  let r := s.rnd
  .next { ({} : State) with
    pending := s.pending
    pwr := { seqErr := orderErr, tDie := s.pwr.tDie, tHbm := s.pwr.tHbm, railsOut := s.pwr.railsOut, causes := s.pwr.causes &&& 0x63 }
    flash := s.flash
    rnd := { lc := r.lc, slots := r.slots, svnFused := r.svnFused, epochs := r.epochs, secretBurned := r.secretBurned
             grade := r.grade, serial := r.serial, ephGen := r.ephGen }
    mem := { raw := s.fresh, rawVol := s.fresh + 1 }
    fresh := s.fresh + 2 }

/-! ### Lifecycle tokens (R467 to R470) -/

/-- The lifecycle move that a token of flash authorises from the present state. -/
def State.tokenMove (s : State) (t : LcToken) : Option Lifecycle :=
  let slot := s.ownerSlot.getD 0xFF
  if t.magic ≠ 0x4C43544B ∨ t.deviceId ≠ Config.deviceId ∨ t.slot ≠ slot then none
  else match s.rnd.lc, t.target with
    | .owned, 1 => if t.ownerSig then some .provisioned else none
    | .owned, 3 => if t.ownerSig && t.vendorSig then some .rma else none
    | .provisioned, 3 => if t.vendorSig then some .rma else none
    | .rma, 1 => if t.vendorSig then some .provisioned else none
    | .owned, 4 => if t.ownerSig then some .scrapped else none
    | .provisioned, 4 => if t.vendorSig then some .scrapped else none
    | .rma, 4 => if t.vendorSig then some .scrapped else none
    | _, _ => none

/-- The owner slot in use is retired. -/
def Rnd.retire (r : Rnd) (slot : Option Nat) : Rnd :=
  match slot with
  | some i => { r with slots := Tab.put {} r.slots i { r.slots.look {} i with retired := true } }
  | none => r

/-- An instruction that the TAP offers in a lifecycle state (R492). -/
def tapOffers (lc : Lifecycle) (inReset : Bool) (i : TapInstr) : Bool :=
  match lc, i with
  | _, .bypass => true
  | _, .idcode => true
  | .manufacture, _ => true
  | .rma, _ => true
  | .scrapped, _ => false
  | _, .samplePreload => inReset
  | _, .extest => inReset
  | _, .extestPulse => inReset
  | _, .extestTrain => inReset
  | _, _ => false

/-- An instruction that the TAP offers no more gives way to BYPASS (R5, R492; log 79). -/
def State.checkTap (s : State) : State :=
  if tapOffers s.rnd.lc (!s.pwr.resetN) s.pwr.tap then s else { s with pwr := { s.pwr with tap := .bypass } }

/-- Apply a lifecycle move: entering PROVISIONED retires the owner slot, entering RMA erases the memories, entering SCRAPPED
burns the device secret (R467, R469, R470). -/
def State.applyMove (s : State) (lc : Lifecycle) : State :=
  let r := { s.rnd with lc := lc }
  match lc with
  | .provisioned => { s with rnd := r.retire s.ownerSlot }
  | .rma => { s with rnd := r, mem := { zeroed := true, volZero := true, raw := s.mem.raw, rawVol := s.mem.rawVol } }
  | .scrapped => { s with rnd := { r with secretBurned := true } }
  | _ => { s with rnd := r }

/-- Step 1 of the boot: the token takes effect at a cold power-up only (R467, R624). TOKEN: 0 none, 1 applied, 2 ignored. -/
def State.bootToken (s : State) : State :=
  match s.flash.token with
  | none => { s with pwr := { s.pwr with token := 0 } }
  | some t =>
    match (if s.pwr.cold then s.tokenMove t else none) with
    | some lc => let u := (s.applyMove lc).checkTap; { u with pwr := { u.pwr with token := 1 } }
    | none => { s with pwr := { s.pwr with token := 2 } }

/-! ### Network record (R422) -/

/-- The network record is present and passes its CRC. -/
def netOk (b : List Byte) : Bool :=
  decide (132 ≤ b.length) && decide (leAt b 0 4 = 0x4E575243) && decide (leAt b 4 2 = 1)
  && decide (BitVec.ofNat 32 (leAt b 128 4) = crc32 (b.take 128))

/-- Address bytes as they stand, first byte most significant. -/
def addrAt (b : List Byte) (off n : Nat) : Nat := beNat ((b.drop off).take n)

/-- Queue pair 0 from the record. -/
def netQp (b : List Byte) : Qp :=
  { bound := true, ring := 0, prin := 0, port := leAt b 7 1 % 2, mtu := leAt b 75 1, ipver := leAt b 6 1
    remote := leAt b 76 4 % 2 ^ 24, psn := leAt b 80 4 % 2 ^ 24, rkey := BitVec.ofNat 32 (leAt b 84 4)
    hostMac := BitVec.ofNat 48 (addrAt b 68 6), hostIp := BitVec.ofNat 128 (addrAt b 52 16) }

/-- The bootstrap ring set 0: a block of 4,096 bytes at RING0_BASE (R436). -/
def netRing (b : List Byte) : Ring :=
  let base := leAt b 88 8
  let k := leAt b 96 4
  { st := .open_, prin := 0, boot := true, cmdBase := base, dbAddr := base + 2048, idxAddr := base + 2112
    hkeys := [k, 0, 0, k, k], cmdSize := 16, qpLo := 0, qpHi := 0 }

/-- Firmware sets up the ports, queue pair 0 and ring set 0; what a warm reset kept stands (R417, R418, R422). -/
def State.bootNet (s : State) : State :=
  let b := s.flash.netRecord
  if netOk b = false then
    let s := { s with pwr := { s.pwr with causes := s.pwr.causes ||| 0x10 } }
    [0, 1].foldl (fun (t : State) p => t.setPort p { t.port p with mode := 0 }) s
  else
    let s := [0, 1].foldl (fun (t : State) p =>
      let x := t.port p
      t.setPort p { x with
        mac := BitVec.ofNat 48 (addrAt b (8 + 6 * p) 6)
        ip := BitVec.ofNat 128 (addrAt b (20 + 16 * p) 16)
        mode := if x.sa.isSome ∨ x.next.isSome then 2 else 1 }) s
    let s := if (s.qp 0).bound then s else s.setQp 0 (netQp b)
    let s := if (s.ring 0).st = .unbound then s.setRing 0 (netRing b) else s
    if s.sealImg.isSome then s
    else [0, 1].foldl (fun (t : State) p => t.setReg (Reg.portCfg p) (BitVec.ofNat 32 (leAt b 74 1 % 64))) s

/-! ### Boot (R624) -/

/-- GLB_BOOT_STATUS code of a slot: the first failed check of R480, 8 when it cannot be read. -/
def State.slotCheck (s : State) (x : Option FwImage) : Nat :=
  match x with
  | none => 8
  | some i => s.imageCheck i

/-- The running image: its version and measurement, and its code in firmware SRAM (R477, R624). -/
def State.runImage (s : State) (x : Option FwImage) : State :=
  match x with
  | some i =>
    { s with
      rnd := { s.rnd with svnRun := imgSvn i.bytes, mFw := Config.sha384 (i.bytes.take 512) }
      mem := { s.mem with sram := [], code := (imgBody i.bytes).take (leAt i.bytes 12 4) } }
  | none => s

/-- Keys of the boot: a cold power-up burns the next epoch fuse, a warm reset takes the next leaf, or the next
epoch where the leaf counter is spent by its CRC (R475, R476; log 81). -/
def State.bootKeys (s : State) : State :=
  if s.rnd.lc = .manufacture then s
  else if s.pwr.cold then
    let r := s.rnd
    if r.epochs < 512 then
      { s with rnd := { r with epochs := r.epochs + 1, leaf := 0, ephGen := r.ephGen + 1, ephUsed := 0
                               ephBusyUntil := some (s.clk.tick + 16000000) } }
    else ({ s with rnd := { r with exhausted := true } }).event [0] 0x0092 0 0
  else if s.rnd.exhausted then s
  else if Config.leafOk s.fresh then s.advanceLeaf
  else ({ s with rnd := { s.rnd with leaf := 2047 } }).advanceLeaf

/-- Lane directions return to their commanded states (R625). -/
def State.bootLanes (s : State) : State :=
  { s with sds := { s.sds with lane := s.sds.lane.map (fun (p : Nat × Lane) =>
      let due := fun (rx : Bool) (c : Pow) => (powTime rx .off c).map (fun t => s.clk.tick + t)
      (p.1, { p.2 with txDue := due false p.2.txCmd, rxDue := due true p.2.rxCmd })) } }

/-- Firmware has started: bank 63 is the bridge's, and completions journaled before a warm reset are posted (R544, R626). -/
def State.bootFw (s : State) : State :=
  let s := { s with mem := { s.mem with owner := Tab.put 0 s.mem.owner 63 7 } }
  let s := s.bootNet.bootLanes
  (List.range 16).foldl (fun (t : State) r => if (t.ring r).st = .unbound ∨ (t.ring r).boot then t else t.refillOverflow r) s

/-- What the ROM does before anything else: a rail out of order is recorded, the clocks run, the flash directory is read
(R614, R623, R624). -/
def State.bootRom (s : State) : State :=
  let s := if s.pwr.seqErr then
      ({ s with pwr := { s.pwr with seqErr := false } }).setSticky Reg.rstStatus 0x02000000 else s
  { s with pwr := { s.pwr with oscOk := true, coreLock := true, dirCopy := flashDir s.flash } }

/-- The image that runs: the preferred slot, else the other; without a good one the boot fails (R480, R482, R624). -/
def State.bootImage (s : State) : State :=
  let preferB := flashPrefersB s.flash
  let a := s.slotCheck s.flash.slotA
  let b := s.slotCheck s.flash.slotB
  let first := if preferB then b else a
  let second := if preferB then a else b
  let runB := if first = 0 then preferB else !preferB
  let aCode := if first = 0 ∧ preferB then 0 else a
  let bCode := if first = 0 ∧ !preferB then 0 else b
  if first ≠ 0 ∧ second ≠ 0 then
    { s with pwr := { s.pwr with phase := .bootFail, aFail := a, bFail := b, gpioFail := some (a, b)
                                 causes := s.pwr.causes ||| 0x08 } }
  else
    let s := { s with pwr := { s.pwr with phase := .running, slotB := runB, fallback := decide (first ≠ 0)
                                          aFail := aCode, bFail := bCode, codeLocked := true } }
    ((s.runImage (if runB then s.flash.slotB else s.flash.slotA)).bootKeys).bootFw

/-- The boot ROM and firmware run (R624): token, image slots, epoch fuse, image, ports. -/
def State.boot (s : State) : State :=
  let s := s.bootRom.bootToken
  if s.rnd.lc = .scrapped then { s with pwr := { s.pwr with phase := .scrapped, causes := s.pwr.causes ||| 0x20 } }
  else s.bootImage

/-- Provisioning in Nymori's test: the device secret, serial number and grade are fused (R467, R473). -/
def State.provision (s : State) (fused : Option (BitVec 64 × Bool)) : State :=
  match fused with
  | some (n, g) =>
    if s.rnd.lc = .manufacture then { s with rnd := { s.rnd with lc := .provisioned, serial := n, grade := g } } else s
  | none => s

/-- RESET_N_RISE: the device leaves reset (R612, R624). What was written to the flash and fused while it was held comes with
the command; I2C_A0 is sampled (R666). -/
def execResetNRise (flash : Option Flash) (pwrGood a0 : Bool) (fused : Option (BitVec 64 × Bool)) (s : State) : Out :=
  .next (
    if s.pwr.resetN then s
    else
      let s := { s with flash := flash.getD s.flash, pwr := { s.pwr with resetN := true, pwrGood := pwrGood, i2cA0 := a0 } }
      let s := (s.provision fused).checkTap
      if pwrGood ∧ s.pwr.phase = .held then s.boot else s)

/-- RESET_N_FALL: RESET_N held low for at least 1 us triggers a warm reset, which lasts until it rises (R616, R619). -/
def execResetNFall (ns : Nat) (s : State) : Out :=
  .next (
    if ns < 1000 ∨ s.pwr.resetN = false then s
    else let t := s.warmReset 1; { t with pwr := { t.pwr with resetN := false } })

/-- PWR_GOOD_FALL triggers a warm reset, which lasts until PWR_GOOD rises (R616, R619). -/
def execPwrGoodFall (s : State) : Out :=
  .next (
    if s.pwr.pwrGood = false then s
    else
      let t := if s.pwr.resetN then s.warmReset 2 else s
      { t with pwr := { t.pwr with pwrGood := false } })

/-- PWR_GOOD_RISE ends the trigger, and the boot proceeds (R616, R619). -/
def execPwrGoodRise (s : State) : Out :=
  .next (
    let t := { s with pwr := { s.pwr with pwrGood := true } }
    if s.pwr.pwrGood = false ∧ s.pwr.resetN ∧ s.pwr.phase = .held then t.boot else t)

/-- A trigger that ends by itself: the warm reset and the boot that follows. -/
def State.warmBoot (s : State) (last : Nat) : State := (s.warmReset last).boot

/-- GLB_RST_CTRL_WARM: the owner writes GLB_RST_CTRL.WARM (R616). -/
def execGlbRstCtrlWarm (qp : Fin 16) (s : State) : Out := whenFw s (s.ownerWrite qp (fun t => t.warmBoot 3))

/-! ### Control restart (R617, R629 to R633) -/

/-- The ring engine stops: reads in flight and fetched descriptors are dropped, to be fetched again (R421, R629). -/
def State.stopEngine (s : State) : State :=
  let rings := mapTab {} s.mgp.ring keepRing
  let qps := mapTab {} s.mgp.qp (fun q => { q with ops := q.ops.filter (fun o => !o.kind.isRead), timer := s.clk.tick })
  { s with mgp := { s.mgp with ring := rings, qp := qps } }

/-- The control cores stop: the data region is cleared and their banks return to CC0 (R544, R629). -/
def State.stopCores (s : State) : State :=
  let own := s.mem.owner.filter (fun (p : Nat × Nat) => decide (4 < p.2))
  let p := s.pwr
  let p := { p with restarts := p.restarts + 1, wdogDue := false, asleep := [] }
  { s with mem := { s.mem with sram := [], sramClr := true, owner := own }, pwr := p }

/-- RST_FALLBACK of GLB_RST_STATUS (R632). -/
def rstFallbackBit : Word := 0x04000000

/-- The staged image replaces the running one if it passes its checks (R629, R632). -/
def State.takeStaged (s : State) : State :=
  if s.rnd.staged && decide (s.slotCheck s.spareSlot = 0) then
    let r := { s.rnd with staged := false, stage := [], stageTotal := 0 }
    ({ s with pwr := { s.pwr with slotB := !s.pwr.slotB }, rnd := r }).runImage s.spareSlot
  else s.setSticky Reg.rstStatus rstFallbackBit

/-- Cores and ring engine restart; for IMAGE 1 the staged image is checked and loaded, and where it fails the running one
(R629, R632). -/
def State.beginRestart (s : State) (staged : Bool) : State :=
  let s := (s.stopEngine).stopCores
  let s := { s with pwr := { s.pwr with restart := some ⟨staged, s.clk.tick⟩ } }
  let s := s.mbReset [0, 1, 2, 3, 4]
  if staged then s.takeStaged else s

/-- CONTROL_RESTART_START: a CONTROL_RESTART reaches its tick; its completion is journaled first (R534, R629). -/
def execControlRestartStart (s : State) : Out :=
  whenUp s (
    match s.restarts.find? (fun x => s.clk.tnValid && decide (x.n ≤ s.clk.tn)) with
    | none => s
    | some x =>
      let s := { s with restarts := s.restarts.filter (fun y => y.h ≠ x.h) }
      (s.complete x.h 0 x.n 0).beginRestart x.staged)

/-- CONTROL_RESTART_END: firmware resumes the journal, publishes the indices and writes the events it held; a format tag it
cannot use causes a warm reset (R629, R633). -/
def execControlRestartEnd (formatOk : Bool) (s : State) : Out :=
  whenUp s (
    if s.pwr.restart.isNone then s
    else if formatOk = false then s.warmBoot 5
    else
      let s := { s with pwr := { s.pwr with restart := none } }
      let mark := fun (p : Nat × Ring) => (p.1, if p.2.st = RingSt.unbound then p.2 else { p.2 with dirty := true })
      let s := { s with mgp := { s.mgp with ring := s.mgp.ring.map mark } }
      s.flushHeld)

/-- WATCHDOG_EXPIRY: an ACTIVE member yields with cause 5 and the cores restart into the running image from the next tick; the
third expiry within 1 s causes a warm reset (R538, R616). -/
def execWatchdogExpiry (core : Fin 4) (s : State) : Out :=
  whenUp s (
    let ts := s.pwr.wdogTicks.filter (fun t => decide (s.clk.tick < t + 8000000)) ++ [s.clk.tick]
    let s := if s.cal.role = .active then s.yield 5 else s
    let s := { s with pwr := { s.pwr with wdogCount := (s.pwr.wdogCount + 1) % 65536, wdogCore := core.val, wdogTicks := ts
                                          wdogDue := true } }
    if 3 ≤ ts.length then s.warmBoot 4 else s)

/-- TICK_FAULT: a unit with unfinished work at cycle 252: what it has left of this tick is discarded (R23). -/
def execTickFault (unit : Fin 8) (s : State) : Out :=
  whenUp s (
    let s := { s with clk := { s.clk with dropped := s.clk.dropped ++ [unit.val] } }
    let s := (s.setSticky Reg.tickFault (BitVec.ofNat 32 (2 ^ unit.val))).event [0] 0x0001 unit.val 0
    if s.cal.role = .active then s.yield 4 else s)

/-! ### Block resets (R634) -/

/-- Note a block reset, which takes effect at the next tick boundary. -/
def State.askBlock (s : State) (i : Nat) : State :=
  { s with pwr := { s.pwr with blkReq := s.pwr.blkReq ||| BitVec.ofNat 6 (2 ^ i) } }
def State.askGroup (s : State) (g : Nat) : State :=
  { s with pwr := { s.pwr with grpReq := s.pwr.grpReq ||| BitVec.ofNat 32 (2 ^ g) } }

/-- A management port's MAC and PCS: the link drops, and operations go to the other queue pair (R441). -/
def State.resetPort (s : State) (p : Nat) : State :=
  let s := s.setPort p { s.port p with link := false }
  (List.range 16).foldl (fun (t : State) q => if (t.qp q).bound ∧ (t.qp q).port = p then t.moveOps q else t) s

/-- The dump engine: images in progress are abandoned and their seconds skipped. -/
def State.resetDumps (s : State) : State := (List.range 16).foldl State.abandonDumps s

/-- Whisk on one memory: its held region is restored and its pass begins again. -/
def State.restartWhisk (s : State) (m : Nat) : State :=
  let t := if (s.whisk m).held.isSome then s.restoreRegion m else s
  t.setWhisk m { t.whisk m with nextRegion := 0, passFault := false }

/-- Whisk: held regions are restored and every pass begins again. -/
def State.resetWhisk (s : State) : State := (List.range 9).foldl State.restartWhisk s

/-- The Calrin block: both ports retrain and the link is keyed again. -/
def State.resetCalrin (s : State) : State :=
  let s := { s with cal := { s.cal with lanesUp := 0, rxs := [], shares := [] } }
  s.calLinkDown

/-- The Retimers of the Wheels with a member on a lane begin anew. -/
def State.clearRetimers (s : State) (n : Nat) : State :=
  { s with whl := s.whl.map (fun (p : Nat × Wheel) => if p.2.onLane n then (p.1, { p.2 with ret := {} }) else p) }

/-- Lane group `g`: back to R0_ALIGN with its booked ceiling and its lane states; its Wheels enter HUNT. A lane that is ISOLATED
stays so (R75). -/
def State.resetGroup (s : State) (g : Nat) : State :=
  let s := s.groupLinkDown g
  let s := (groupLanes g).foldl (fun (t : State) n =>
    let t := (t.huntWheels n).clearRetimers n
    t.setLane n { t.lane n with wakeDue := none, dropSince := none }) s
  let s := (groupLanes g).foldl (fun (t : State) n => t.setTx n {}) s
  let x := s.group g
  let s := s.setGroup g { x with ceil := x.booked, cleared := 0 }
  if x.st = .down then s else s.enterAlign g

/-- The block of bit `i` of GLB_BLK_RST is reset (R634). -/
def State.resetBlock (s : State) (i : Nat) : State :=
  match i with
  | 0 => s.mbBlockReset
  | 1 => s.resetPort 0
  | 2 => s.resetPort 1
  | 3 => s.resetDumps
  | 4 => s.resetWhisk
  | _ => s.resetCalrin

/-- Carry out the block resets asked for (R634). -/
def State.blockResets (s : State) : State :=
  let b := s.pwr.blkReq
  let g := s.pwr.grpReq
  let s := { s with pwr := { s.pwr with blkReq := 0, grpReq := 0 } }
  let s := (List.range 6).foldl (fun (t : State) i => if bit b i then t.resetBlock i else t) s
  (List.range 32).foldl (fun (t : State) i => if bit g i then t.resetGroup i else t) s

/-- MAILBOX_BLOCK_RESET: GLB_BLK_RST bit 0 (R560, R634). -/
def execMailboxBlockReset (qp : Fin 16) (s : State) : Out := whenFw s (s.ownerWrite qp (fun t => t.askBlock 0))
/-- MGMT_PORT_BLOCK_RESET: GLB_BLK_RST bit 1 or 2 (R634). -/
def execMgmtPortBlockReset (qp : Fin 16) (port : Fin 2) (s : State) : Out :=
  whenFw s (s.ownerWrite qp (fun t => t.askBlock (1 + port.val)))
/-- DUMP_ENGINE_RESET: GLB_BLK_RST bit 3 (R634). -/
def execDumpEngineReset (qp : Fin 16) (s : State) : Out := whenFw s (s.ownerWrite qp (fun t => t.askBlock 3))
/-- WHISK_BLOCK_RESET: GLB_BLK_RST bit 4 (R634). -/
def execWhiskBlockReset (qp : Fin 16) (s : State) : Out := whenFw s (s.ownerWrite qp (fun t => t.askBlock 4))
/-- CALRIN_BLOCK_RESET: GLB_BLK_RST bit 5 (R634). -/
def execCalrinBlockReset (qp : Fin 16) (s : State) : Out := whenFw s (s.ownerWrite qp (fun t => t.askBlock 5))
/-- LANE_GROUP_RESET: GLB_GRP_RST bit g (R634). -/
def execLaneGroupReset (qp : Fin 16) (g : Fin 32) (s : State) : Out := whenFw s (s.ownerWrite qp (fun t => t.askGroup g))

/-! ### Board pins (R492, R665, R666) -/

/-- Byte 0x02 of the I2C target: the causes; OSC_LOST while OSC_OK is 0 (R665). -/
def Pwr.causeByte (p : Pwr) : Byte := (p.causes &&& 0x7B).setWidth 8 ||| (if p.oscOk then 0 else 4)

/-- ALERT_N is driven low (R665). -/
def Pwr.alert (p : Pwr) : Bool := decide (p.causeByte &&& 0x3F ≠ 0)

/-- ALERT_CAUSE_CHANGE: a cause that holds for as long as its condition lasts begins or ends (R659, R665). -/
def execAlertCauseChange (cause : AlertCause) (on : Bool) (rails tDie tHbm : Byte) (s : State) : Out :=
  let b : BitVec 7 := match cause with | .overTemp => 1 | .supply => 2 | .oscLost => 4 | .hbmHot => 0x40
  let p := s.pwr
  .next { s with pwr := { p with
    causes := if on then p.causes ||| b else p.causes &&& ~~~b
    railsOut := rails
    tDie := tDie
    tHbm := tHbm
    oscOk := match cause with | .oscLost => !on | _ => p.oscOk } }

/-- A byte of the I2C target (R666). -/
def State.i2cByte (s : State) (i : Nat) : Byte :=
  if i = 0 then 0x50 else if i = 1 then 0xB0 else if i = 2 then s.pwr.causeByte else if i = 3 then s.pwr.tDie
  else if i = 4 then s.pwr.tHbm else if i = 5 then s.pwr.railsOut else 0

/-- I2C_ACCESS: a write sets the byte pointer, reads go on from it (R666). The target answers once VDD_IO is in regulation. -/
def execI2cAccess (addr : BitVec 7) (wr : List Byte) (rd : Nat) (s : State) : Out :=
  let mine := decide (addr = (if s.pwr.i2cA0 then 0x4D else 0x4C)) && !s.pwr.railsOut.getLsbD 7
  .next (
    if mine then
      let p := match wr with | b :: _ => b.toNat | [] => s.pwr.i2cPtr.toNat
      let d := (List.range rd).map (fun i => s.i2cByte ((p + i) % 256))
      { s with pwr := { s.pwr with i2cPtr := BitVec.ofNat 8 (p + rd), i2cData := d } }
    else { s with pwr := { s.pwr with i2cData := [] } })

/-- JTAG_INSTRUCTION: the TAP takes an instruction the lifecycle offers; any other selects BYPASS (R492; log 21). -/
def execJtagInstruction (instr : TapInstr) (s : State) : Out :=
  .next { s with pwr := { s.pwr with tap := if tapOffers s.rnd.lc (!s.pwr.resetN) instr then instr else .bypass } }

end Sys2Proof.Machine
end

