-- ==== Sys2Proof/Machine/Mate.lean ====
section
/-! DEFINITION. The standby member of a mate pair: what a Ladle record does to it, section by section, and silence
takeover (R171, R239, R270, R324, R388 to R394, R535, R609). -/
namespace Sys2Proof.Machine

/-- Do something as it was done by the active device in the tick of a record (R388): the clock stands there meanwhile. -/
def State.asOf (s : State) (tn : Nat) (f : State → State) : State :=
  let t := f { s with clk := { s.clk with tick := s.clk.tick - (s.clk.tn - tn), tn := tn } }
  { t with clk := { t.clk with tick := s.clk.tick, tn := s.clk.tn } }

/-- A 32-bit free-running index of a record, as the full count nearest to the one held here (R425). -/
def idxNear (base v : Nat) : Nat :=
  let d := (v + 2 ^ 32 - base % 2 ^ 32) % 2 ^ 32
  if d < 2 ^ 31 then base + d else base - (2 ^ 32 - d)

/-! ### Starter section (R324) -/

/-- The QL that the active device sends: its state and entry with this device's own table (R306). -/
def State.mateQlOf (s : State) (x : LStr) : Nat :=
  if x.st = 2 then s.effQl x.sel
  else if x.st = 3 then bits (s.reg Reg.qlCfg) 7 4
  else if x.st = 1 then s.str.mateQl
  else bits (s.reg Reg.qlCfg) 3 0

/-- The holdover value and QL of the active device, which is the received QL of source 36 (R297). -/
def State.mateStr (s : State) (x : LStr) : State :=
  let q := s.mateQlOf x
  (s.onStr (fun y => { y with hoValue := x.hoValue, mateQl := q })).setSrc 36 { s.src 36 with qlRx := q }

/-! ### Ring indices and accepted commands -/

/-- The next `n` commands of a ring set in the journal count as accepted. -/
def acceptFirst (r now : Nat) : Nat → List (Nat × JEntry) → List (Nat × JEntry)
  | 0, l => l
  | _, [] => []
  | n + 1, (h, e) :: t =>
    if e.ring = r ∧ e.origin = .ring ∧ e.accepted.isNone then (h, { e with accepted := some now }) :: acceptFirst r now n t
    else (h, e) :: acceptFirst r now (n + 1) t

/-- The consumer index of a ring set moves forward (R406). -/
def State.mateCons (s : State) (r idx : Nat) : State :=
  let x := s.ring r
  let n := idxNear x.cmdCons idx - x.cmdCons
  let s := s.setRing r { x with cmdCons := x.cmdCons + n }
  { s with mgp := { s.mgp with journal := acceptFirst r s.clk.tick n s.mgp.journal } }

/-- The producer index of a completion ring: what lies before it has been posted; what its slots no longer hold leaves the
journal. -/
def State.mateProd (s : State) (r idx : Nat) : State :=
  let x := s.ring r
  let k := max x.cmpProd (idxNear x.cmpProd idx)
  let s := s.setRing r { x with cmpProd := k }
  let mine := fun (e : JEntry) => decide (e.ring = r) && decide (e.origin = .ring)
  let post := fun (e : JEntry) => match e.slot with | some i => mine e && decide (i < k) | none => false
  let gone := fun (e : JEntry) => match e.slot with | some i => mine e && decide (i + x.cmpSize < k) | none => false
  let j := s.mgp.journal.map (fun p => (p.1, if post p.2 then { p.2 with posted := true } else p.2))
  { s with mgp := { s.mgp with journal := j.filter (fun p => !gone p.2) } }

/-- An index of the record (R385). -/
def State.mateRing (s : State) (x : LRing) : State :=
  if x.kind = 0 then s.mateCons x.ring x.index
  else if x.kind = 1 then s.mateProd x.ring x.index
  else
    let y := s.ring x.ring
    let k := max y.evtProd (idxNear y.evtProd x.index)
    s.setRing x.ring { y with evtProd := k, eseq := y.eseq + (k - y.evtProd) }

/-- A command that the active device has journaled goes into the journal here; its batch is read (R388, R405). Ring 16
stands for a command of the manager, with its serial in place of a tag (log 19). -/
def State.mateAcc (s : State) (a : LAcc) : State :=
  let s := s.dropJob a.h
  let remote := decide (a.ring = 16)
  let m := a.d.tag.toNat
  let e : JEntry := { ring := if remote then 0 else a.ring, prin := a.prin, origin := if remote then .manager m else .ring
                      d := a.d, j := s.clk.tick, jtn := s.tnNow, acked := true
                      accepted := if remote then some s.clk.tick else none }
  let s := { s with mgp := { s.mgp with nextH := (a.h + 1) % 65536, journal := s.mgp.journal ++ [(a.h, e)] } }
  if remote then
    let w : WorkerCmd := (s.fab.wcmds.find? (fun w => w.mserial = m)).getD { mserial := m, prin := a.prin }
    let ws := s.fab.wcmds.filter (fun w => w.mserial ≠ m) ++ [{ w with prin := a.prin, h := some a.h }]
    { s with fab := { s.fab with wcmds := ws } }
  else
    let x := s.ring a.ring
    let s := s.setRing a.ring { x with expect := a.d.serial + 1, fetchIdx := x.takeIdx + 1, fetch := [] }
    if e.lacksBatch then
      s.issue a.ring ⟨.batch a.ring, fld a.d.body 64 8, fld a.d.body 76 4, [], fld a.d.body 72 4⟩
    else s

/-! ### Effects from the descriptor (R388, R535) -/

/-- The effect of a DUMP_CONFIG that the active device completed. -/
def mateDumpConfig : Effect := fun h e s =>
  match s.ringOf e.prin with
  | some r => (s.abandonDumps r).setDumpCfg r ⟨h, e.prin, e.f 4 1, e.f 8 8, e.f 16 4, e.f 20 4, s.clk.tick⟩
  | none => s

/-- The effect of an MBX_POST that the active device completed, on a slot that is free here. -/
def mateMbxPost : Effect := fun h e s => if (chkMbxPost e s).1 = 0 ∧ (s.mbox (e.f 4 1)).full = false then effMbxPost h e s else s

/-- Opcodes that take effect at execution and change control state. -/
def effectAt (opc : Nat) : Option Effect :=
  match opc with
  | 0x12 => some effWheelDefine
  | 0x13 => some effWheelDelete
  | 0x30 => some effPairSet
  | 0x40 => some effLaneState
  | 0x62 => some mateDumpConfig
  | 0x70 => some effPartitionSet
  | 0x71 => some effRingBind
  | 0x73 => some effFwStage
  | 0x74 => some effFwActivate
  | 0x80 => some mateMbxPost
  | 0x81 => some effBudgetSet
  | _ => none

/-- Opcodes whose action waits for its tick. -/
def scheduleOf (opc : Nat) : Option Effect :=
  match opc with
  | 0x20 => some effFlipAt
  | 0x21 => some effFlipSeq
  | 0x31 => some effPairCmd
  | 0x41 => some effLaneLoop
  | 0x50 => some effRefConfig
  | 0x51 => some effRefForce
  | 0x52 => some effPhaseStep
  | 0x61 => some effCounterPreset
  | 0x83 => some effControlRestart
  | _ => none

/-- A manager's command takes its batch from what the manager has sent (R364). -/
def State.mateBatch (s : State) (h : Nat) (e : JEntry) : State :=
  match e.origin with
  | .ring => s
  | .manager m =>
    let len := fld e.d.body 72 4
    match s.fab.wcmds.find? (fun w => w.mserial = m) with
    | some w =>
      if e.lacksBatch ∧ len ≤ w.batch.length then
        let b := w.batch.take len
        let v := Config.sigVerdict b
        s.setJob h (fun e => { e with batch := some ⟨b, true, true, ⟨v 0, v 1, v 2, v 3⟩⟩ })
      else s
    | none => s

/-- Let one command take effect; a command for a worker takes none here (R388). -/
def State.mateEffect (s : State) (o : Owed) : State :=
  match s.job o.h with
  | none => s
  | some e =>
    if e.origin = .ring ∧ e.target ≠ 0 ∧ ¬(o.sched ∧ e.d.opcode = 0x20) then s
    else match (if o.sched then scheduleOf e.d.opcode else effectAt e.d.opcode) with
    | none => s
    | some f => s.asOf o.tn (f o.h e)

/-- The batch of the next owed command, if its read has come. -/
def State.owedBatch (s : State) (h : Nat) : State :=
  match s.job h with
  | some e => s.mateBatch h e
  | none => s

/-- Carry out the owed commands in order, as far as their batches are here. A batch that fails its BTAG counts as a lost
record (R535). -/
def payOwed : Nat → State → State
  | 0, s => s
  | n + 1, s =>
    match s.cal.owed with
    | [] => s
    | o :: rest =>
      let s := s.owedBatch o.h
      match s.job o.h with
      | none => payOwed n { s with cal := { s.cal with owed := rest } }
      | some e =>
        if e.lacksBatch then s
        else if e.batchOk = false then s.recordGap
        else payOwed n (({ s with cal := { s.cal with owed := rest } }).mateEffect o)

/-- A command takes effect now, or in its order behind those that wait. -/
def State.owe (s : State) (o : Owed) : State :=
  let s := { s with cal := { s.cal with owed := s.cal.owed ++ [o] } }
  payOwed s.cal.owed.length s

/-- A completion of the record: the command takes effect with the completion's status, which is kept with its slot. A
command for a worker has its result (R358, R360). -/
def State.mateCmp (s : State) (tn : Nat) (c : LCmp) : State :=
  match s.job c.h with
  | none => s
  | some e =>
    let s := if c.c.status = 0 ∧ (effectAt e.d.opcode).isSome then s.owe ⟨c.h, tn, false⟩ else s
    let s := if c.c.status = 0 ∧ c.c.remote ∧ e.origin = .ring ∧ e.d.opcode = 0x70 then s.noteHolds c.c.device e else s
    let jobs := s.flp.jobs.filter (fun j => j.h ≠ c.h)
    let s := { s with flp := { s.flp with jobs := jobs }, fab := { s.fab with cmds := s.fab.cmds.filter (fun y => y.h ≠ c.h) } }
    match e.origin with
    | .manager _ => s.completeEntry c.h c.c
    | .ring =>
      let k := idxNear (s.ring c.ring).cmpProd c.slot
      s.setJob c.h (fun e => { e with cmp := some c.c, slot := some k
                                      accepted := some (e.accepted.getD s.clk.tick) })

/-! ### Map writes (R202, R216, R388) -/

/-- The Flip for which the active device held an entry in the tick of the record (R216). -/
def State.mateMissed (s : State) (tn : Nat) (j : MapJob) : Option Nat :=
  match (s.flp.flips.map (fun x => x.f) ++ s.flp.lastF.toList).find? (fun f => inWindow tn f) with
  | some f => some f
  | none => match s.flp.lastF with
    | some f => if j.acc + 4 < f ∧ f ≤ tn then some f else none
    | none => none

/-- The MAP_WRITE of a handle joins the jobs here with its first entry. -/
def State.mateJob (s : State) (h : Nat) : State :=
  if s.flp.jobs.any (fun j => decide (j.h = h)) then s
  else match s.job h with
    | some e =>
      let acc := s.tnNow - (s.clk.tick - e.accepted.getD s.clk.tick)
      let j : MapJob := { h := h, ring := e.ring, prin := e.prin, noMove := e.f 4 1 % 2 = 1, acc := acc
                          rest := mapEntries (e.f 8 4) (e.items 16 48) }
      { s with flp := { s.flp with jobs := s.flp.jobs ++ [j] } }
    | none => s

/-- A map-write entry of the record. -/
def State.mateMap (s : State) (tn : Nat) (m : LMap) : State :=
  let s := s.mateJob m.h
  match s.flp.jobs.find? (fun j => j.h = m.h) with
  | none => if m.outcome = 0 then ((s.checkRead m.slot).mapPut 0 m.h m.slot m.bits false).s else s
  | some j =>
    if m.outcome = 1 then
      let f := s.mateMissed tn j
      let q : QWrite := ⟨j.ring, j.h, j.idx, m.slot, m.bits, f⟩
      let s := { s with flp := { s.flp with queue := s.flp.queue ++ [q] } }
      s.setJobs (fun j => ({ j with rest := j.rest.drop 1, idx := j.idx + 1, open_ := j.open_ + 1 }).hold f) j.h
    else
      let queued := !s.flp.queue.isEmpty
      let q := s.flp.queue.head?
      let before := match q with | some x => x.held | none => none
      let now := if before.isSome then none else s.mateMissed tn j
      let held := if before.isSome then before else now
      let idx := match q with | some x => x.idx | none => j.idx
      let s := if queued then { s with flp := { s.flp with queue := s.flp.queue.drop 1 } } else s
      let s := s.setJobs (fun y => y.hold now) j.h
      let why := if m.outcome = 0 then 0 else
        let c := s.entryCheck j.prin m.slot m.bits
        if c = 0 then eCapacity else c
      let r : Put := if m.outcome = 0 then (s.checkRead m.slot).mapPut j.prin j.h m.slot m.bits false
        else { s := s, status := why }
      let t := if m.outcome = 0 then r.s.carry j.prin else r.s
      let t := (t.count 7 0 0 (b2n (decide (m.outcome = 0)))).count 7 0 2 r.moves
      t.setJobs (fun y =>
        { y with
          rest := if queued then y.rest else y.rest.drop 1
          idx := if queued then y.idx else y.idx + 1
          open_ := y.open_ + b2n r.deferred - b2n queued
          written := y.written + (if m.outcome = 0 ∧ held.isNone then 1 else 0)
          moved := y.moved + r.moves
          firstRef := if m.outcome = 0 ∨ y.firstRef.isSome then y.firstRef else some (idx, why) }) j.h

/-! ### Events (R386) -/

/-- A Flip of the manager that the active worker armed; its READY goes out from here too (R369). -/
def State.mateArm (s : State) (f : Nat) (id : Word) : State :=
  let x : Flip := { h := 65536 + id.toNat, f := f, id := id, fabric := true, fromMgr := true }
  let s := if s.flp.flips.any (fun y => decide (y.id = id) && decide (y.f = f)) then s
    else { s with flp := { s.flp with flips := s.flp.flips ++ [x] } }
  s.send none 0x11 s.mgrId (beBytes 4 id.toNat ++ beBytes 1 0 ++ beBytes 1 0)

/-- A named-tick action leaves the schedule (kind 2). -/
def State.mateCancel (s : State) (h : Nat) : State :=
  let s := match s.flp.fab.find? (fun y => y.h = h) with | some y => s.cancelFab y s.fabId 1 | none => s
  match s.flp.seqs.find? (fun f => f.h = h) with
  | some f => s.endSeq f eAborted 1 none false
  | none => { s with flp := { s.flp with flips := s.flp.flips.filter (fun x => x.fabric || decide (x.h ≠ h)) } }

/-- Count a difference of a pair (R270). -/
def State.pairDiff (s : State) (n : Nat) (differs : Bool) : State :=
  if differs then
    let p := s.pair n
    (s.setPair n { p with colDiff := satInc 65535 p.colDiff }).noteDiff
  else s

/-- The lock values P0 and x0 of the active device stand in place of this one's (R270). -/
def State.mateLock (s : State) (n p0 x0 : Nat) : State :=
  let s := if (s.pair n).locked then s else s.lockNow n
  let p := s.pair n
  let x := (extend24 (BitVec.ofNat 24 x0) (s.secClock / 64)).toNat
  let first := if s.pairForeign p ∨ p.mode = 3 then (if p.locked then p.nextX else x) else x - (p0 - s.secClock - 1) / 64
  if p.locked ∧ p.p0 = p0 ∧ p.x0 % 2 ^ 24 = x0 then s
  else (s.setPair n { p with locked := true, p0 := p0, x0 := x, nextX := first }).pairDiff n true

/-- The lag of the active device. -/
def State.mateLag (s : State) (n l : Nat) : State :=
  let p := s.pair n
  if p.plag = l then s else (s.setPair n { p with plag := l }).pairDiff n true

/-- The preferred copy of the active device from its effective tick. -/
def State.matePref (s : State) (n tick : Nat) (b : Bool) : State :=
  let p := s.pair n
  let eff := s.clk.tick + tick - s.tnNow
  let made := p.ownChg.any (fun c => decide (c.1 ≤ tick) && decide (tick ≤ c.1 + 1) && decide (c.2 = b))
  let p := { p with ownPref := b, ownChg := p.ownChg.filter (fun c => decide (tick < c.1)) }
  let q := if eff ≤ s.clk.tick then { p with pref := b, prefNew := none }
    else { p with prefNew := if p.pref = b then none else some (eff, b) }
  (s.setPair n q).pairDiff n (!made)

/-- The changes of preferred copy that this device would have made up to tick `tn` and the active device did not make are
differences; the active device's choice stands (R270). -/
def State.mateQuiet (s : State) (tn : Nat) : State :=
  (s.col.pair.map (fun (p : Nat × Pair) => p.1)).foldl (fun (t : State) n =>
    let p := t.pair n
    if p.ownChg.any (fun c => decide (c.1 ≤ tn)) then
      let now := match p.prefNew with | some (_, v) => v | none => p.pref
      (t.setPair n { p with ownPref := now, ownChg := p.ownChg.filter (fun c => decide (tn < c.1)) }).pairDiff n true
    else t) s

/-- An event of the record. REALIGN comes from this device's own schedule, and kind 8 concerns the active device alone. -/
def State.mateEvt (s : State) (tn : Nat) (e : LEvt) : State :=
  match e.kind with
  | 1 => if e.value ≠ 0 then s.mateArm e.tick (BitVec.ofNat 32 e.value)
    else match s.job e.object with
      | some j =>
        if j.lacksBatch then s.owe ⟨e.object, tn, true⟩
        else if j.batchOk = false then s.recordGap
        else s.mateEffect ⟨e.object, tn, true⟩
      | none => s
  | 2 =>
    if e.value ≠ 0 then
      let m := fun (y : Flip) => if y.fromMgr ∧ y.id = BitVec.ofNat 32 e.value then { y with cancelled := true } else y
      { s with flp := { s.flp with flips := s.flp.flips.map m } }
    else s.mateCancel e.object
  | 3 =>
    let r := (s.flp.fires.find? (fun x => x.h = e.object)).getD { h := e.object }
    { s with flp := { s.flp with fires := s.flp.fires.filter (fun x => x.h ≠ e.object) ++ [{ r with mate := some e.tick }] } }
  | 4 => s.mateLock e.object e.tick e.value
  | 5 => s.mateLag e.object e.value
  | 6 => s.matePref e.object e.tick (decide (e.value = 1))
  | _ => s

/-! ### Counts (R171, R172, R270) -/

/-- A count of the active device stands in place of this one's. -/
def State.mateCount (s : State) (x : (Bool × Nat) × Nat) : State :=
  let k := x.1
  let r := s.retOf k
  if r.mate.isSome then s
  else
    let r := { r with mate := some x.2 }
    let differs := match r.own with | some o => decide (o ≠ x.2) | none => false
    if k.1 then (s.setPair k.2 { s.pair k.2 with ret := r }).pairDiff k.2 differs
    else
      let w := { s.wheel k.2 with ret := r }
      if differs then (s.setWheel k.2 { w with rtmDiff := satInc 65535 w.rtmDiff }).noteDiff else s.setWheel k.2 w

/-! ### Records (R388, R393) -/

/-- What a standby manager sends besides its active mate: the commands for workers that this record accepted (R369). -/
def State.mateRemote (s : State) (old : List Nat) : State :=
  (s.mgp.journal.filter (fun (p : Nat × JEntry) => p.2.accepted.isSome && p.2.cmp.isNone && decide (p.2.origin = .ring)
    && decide (p.2.target ≠ 0) && decide (p.1 ∉ old) && !(s.fab.cmds.any (fun c => decide (c.h = p.1))))).foldl
    (fun (t : State) p => if t.commonCheck p.2 = 0 then t.remote p.1 p.2 else t) s

/-- Apply a record, section by section; a YIELD makes this device ACTIVE. -/
def State.applyRec (s : State) (r : LRec) : State :=
  let old := (s.mgp.journal.filter (fun p => p.2.accepted.isSome)).map (fun p => p.1)
  let s := s.mateStr r.str
  let s := r.accs.foldl (fun (t : State) a => t.asOf r.tn (fun u => u.mateAcc a)) s
  let s := r.rings.foldl (fun (t : State) x => t.asOf r.tn (fun u => u.mateRing x)) s
  let s := r.cmps.foldl (fun (t : State) c => t.mateCmp r.tn c) s
  let s := r.maps.foldl (fun (t : State) m => t.asOf r.tn (fun u => u.mateMap r.tn m)) s
  let s := r.evts.foldl (fun (t : State) e => t.mateEvt r.tn e) s
  let s := s.mateQuiet r.tn
  let s := ((s.countKeys r.tn).zip r.cnts).foldl State.mateCount s
  let s := s.mateRemote old
  if r.yield_ ∧ s.cal.role = .standby then s.becomeActive else s

/-- A map page of a snapshot, its entries in canonical form. -/
def Page.tidy (p : Page) : Page := { p with ent := Tab.tidy entryReset p.ent }

/-- Control state of a snapshot takes the place of this device's own; where the map check stands is its own (R197, R401). -/
def State.takeControl (s : State) (c : Control) : State :=
  { s with
    hrp := { c.hrp with p0 := c.hrp.p0.tidy, p1 := c.hrp.p1.tidy, checkPos := s.hrp.checkPos, crcIdx := s.hrp.crcIdx }
    flp := c.flp
    whl := c.whl
    col := { s.col with pair := c.pair.map (fun p => (p.1, { p.2 with cave := (s.pair p.1).cave })), acts := c.acts }
    sds := { s.sds with loops := c.loops }
    str := { s.str with cfgs := c.cfgs, forces := c.forces, steps := c.steps }
    cnt := { s.cnt with presets := c.presets }
    prn := { c.prn with block := Tab.tidy {} c.prn.block, part := Tab.tidy {} c.prn.part }
    mbx := c.mbx
    mgp := { s.mgp with journal := c.journal } }

/-- The snapshot is applied once it is whole, ahead of the records from T0 on (R401). -/
def State.applySnap (s : State) : State :=
  if s.cal.snapDone = false ∨ s.cal.snap.isEmpty then s
  else
    let t := match Config.snapControl s.cal.snap with | some c => s.takeControl c | none => s
    { t with cal := { t.cal with snap := [] } }

/-- Apply the stored records that are due: four ticks after their own (R388); a device that synchronises begins once it
holds the whole snapshot (R401). -/
def applyDue : Nat → State → State
  | 0, s => s
  | n + 1, s =>
    match s.cal.store with
    | [] => s
    | r :: rest =>
      if s.copies ∧ r.tn + 4 ≤ s.tnNow ∧ (s.cal.role = .standby ∨ s.cal.snapDone) then
        applyDue n (({ s with cal := { s.cal with store := rest } }).applyRec r)
      else s

/-- LADLE_RECORD_APPLY: a whole snapshot, the commands that waited for a batch, and the records that are due in this tick. -/
def execLadleRecordApply (s : State) : Out :=
  whenUp s (
    let s := payOwed s.cal.owed.length s.applySnap
    applyDue s.cal.store.length s)

/-- SILENCE_TAKEOVER: a standby without a good record in 8 ticks becomes ACTIVE in the next (R394, R407). -/
def execSilenceTakeover (s : State) : Out :=
  whenUp s (
    if s.cal.role = .standby ∧ s.cal.recTick + 9 ≤ s.clk.tick then
      let s := applyDue s.cal.store.length s
      if s.cal.role = .standby then s.becomeActive else s
    else s)

end Sys2Proof.Machine
end

