-- ==== Sys2Proof/Machine/Window.lean ====
section
/-! DEFINITION. The management ports and the windows they serve: frames, register and table accesses (R9 to R12, R206, R414
to R419, R423, R445, R446). -/
namespace Sys2Proof.Machine

/-! ### Register writes -/

/-- A group that no longer meets R345 leaves its link DOWN. -/
def State.linkBroken (s : State) (g : Nat) : State := if s.isFabricLink g then s else s.groupLinkDown g

/-- The plain fields of a register: read-write ones, RWS ones before SEAL, and sticky bits cleared by 1 (R9, R10). -/
def State.writeFields (s : State) (a : Nat) (v : Word) : State :=
  let sp := regSpec a
  let m := sp.rw ||| (if s.sealed then 0 else sp.rws)
  let w := (s.reg a &&& ~~~m) ||| (v &&& m)
  let k := arrIdx a (Reg.refPrio 0) 4
  let s :=
    if m = 0 then s
    else if inArr a (Reg.refPrio 0) 16 4 then (if s.prioFits k w then s.setReg a (prioWord w) else s)
    else s.setReg a w
  if sp.w1c = 0 then s else s.clrSticky a (v &&& sp.w1c)

/-- Every bit of GLB_BLK_RST or GLB_GRP_RST written 1 (R634). -/
def State.askBlocks (s : State) (v : Word) : State :=
  (List.range 6).foldl (fun (t : State) i => if bit v i then t.askBlock i else t) s
def State.askGroups (s : State) (v : Word) : State :=
  (List.range 32).foldl (fun (t : State) g => if bit v g then t.askGroup g else t) s

/-- Write one register of the register window as the owner (R9 to R11, R640). -/
def State.writeWord (s : State) (a : Nat) (v : Word) : State :=
  if inBtBuf a then
    if s.sealed ∨ s.sds.bt.state = 1 then s
    else { s with sds := { s.sds with bt := { s.sds.bt with buf := Tab.put 0 s.sds.bt.buf ((a - Reg.btBuf) / 4) v } } }
  else if a = Reg.tnCtrl then
    let s := s.writeFields a v
    if bit v 30 then s.askLoad else s
  else if a = Reg.btCtrl then (if bit v 0 then s.btLoad else s)
  else if inArr a (Reg.frmGrp 0) 32 0x1000 then s.setTiming (arrIdx a (Reg.frmGrp 0) 0x1000) (bit v 0)
  else if inArr a (Reg.fabGrp 0) 32 0x1000 then (s.writeFields a v).linkBroken (arrIdx a (Reg.fabGrp 0) 0x1000)
  else if decide (Reg.frmLane 0 ≤ a) && decide (a < Reg.frmLane 256) && (List.range 8).any (fun i => decide ((a - Reg.frmLane 0) % 0x1000 = 0x100 * i)) then
    (s.writeFields a v).linkBroken ((a - Reg.frmLane 0) / 0x1000)
  else if a = Reg.arbFreeze then s.writeFreeze v
  else if a = Reg.mateCtrl then (if bit v 0 then s.swap else s)
  else if a = Reg.blkRst then s.askBlocks v
  else if a = Reg.grpRst then s.askGroups v
  else if Reg.mbxBase 0 ≤ a ∧ a < Reg.mbxBase 64 then
    let c := (a - Reg.mbxBase 0) / 0x80
    let o := (a - Reg.mbxBase 0) % 0x80
    if o < 0x40 then s.mbSlot 4 c (o / 4) v
    else if o = 0x4C then s.mbCtrl 4 c v
    else s.writeFields a v
  else s.writeFields a v

/-- Write consecutive registers in ascending address (R446). GLB_RST_CTRL.WARM acts when the rest has been written. -/
def State.writeWords (s : State) : Nat → Nat → List Byte → State
  | 0, _, _ => s
  | n + 1, a, l =>
    let v : Word := BitVec.ofNat 32 (leAt l 0 4)
    if a = Reg.rstCtrl ∧ bit v 0 then (State.writeWords s n (a + 4) (l.drop 4)).warmBoot 3
    else State.writeWords (s.writeWord a v) n (a + 4) (l.drop 4)

/-! ### Accesses of hosts in pieces (R446) -/

/-- Bytes of the table windows from a byte address. -/
def State.tableBytes (s : State) (a n : Nat) : List Byte :=
  ((s.readTables ((a % 4 + n + 3) / 4) (a - a % 4)).drop (a % 4)).take n

/-- Serve the next 64 bytes of a write in this tick: the state, and what is left of it. -/
def State.writePiece (s : State) (x : Access) : State × Option Access :=
  let n := min 64 x.left
  let s := s.writeWords (n / 4) x.addr (x.data.take n)
  if x.left ≤ 64 then (s.answer x.qp .ack, none)
  else (s, some { x with addr := x.addr + n, left := x.left - n, data := x.data.drop n })

/-- Serve the next 64 bytes of a read. -/
def State.readPiece (s : State) (x : Access) : State × Option Access :=
  let n := min 64 x.left
  let r := if x.addr < 0x10000000 then s.readRegs (n / 4) x.addr else (s.tableBytes x.addr n, s)
  let d := x.data ++ r.1
  if x.left ≤ 64 then (r.2.answer x.qp (.data d), none)
  else (r.2, some { x with addr := x.addr + n, left := x.left - n, data := d })

/-- What is left of an access waits for the next tick. -/
def keepPiece (r : State × Option Access) : State :=
  match r.2 with
  | none => r.1
  | some y => { r.1 with mgp := { r.1.mgp with more := r.1.mgp.more ++ [y] } }

/-- Serve an access: its first piece in this tick, the others in the ticks that follow. -/
def State.serveAccess (s : State) (x : Access) : State :=
  keepPiece (if x.write then s.writePiece x else s.readPiece x)

/-- The next pieces of the accesses under way. -/
def State.morePieces (s : State) : State :=
  s.mgp.more.foldl State.serveAccess { s with mgp := { s.mgp with more := [] } }

/-- The access reaches a bound queue pair in working order, on a port that is not down. -/
def State.reaches (s : State) (q : Nat) : Bool :=
  (s.qp q).bound && !(s.qp q).err && decide ((s.port (s.qp q).port).mode ≠ 0)

/-- An RDMA WRITE of a host (R12, R423, R445). -/
def State.hostWrite (s : State) (q : Nat) (rkey : Word) (addr : Nat) (data : List Byte) : State :=
  let n := data.length
  if s.reaches q = false then s
  else if 0x20000000 ≤ addr ∧ addr < 0x20000080 then s.doorbell q rkey addr n
  else if (s.qp q).rkey ≠ rkey ∨ s.accessor q ≠ some 0 ∨ addr % 4 ≠ 0 ∨ n % 4 ≠ 0 ∨ 0x10000000 < addr + n then
    s.answer q .nak
  else s.serveAccess ⟨q, true, addr, n, data⟩

/-- A principal may read `n` bytes from an address of a window (R12, R206, R445). -/
def mayRead (p addr n : Nat) : Bool :=
  if addr < 0x10000000 then
    decide (addr + n ≤ 0x10000000) && decide (addr % 4 = 0) && decide (n % 4 = 0) && mayReadRegs p (n / 4) addr
  else decide (p = 0) && decide (addr + n ≤ 0x20000000)

/-- An RDMA READ of a host (R419, R423). -/
def State.hostRead (s : State) (q : Nat) (rkey : Word) (addr n : Nat) : State :=
  if s.reaches q = false then s
  else match s.accessor q with
    | some p =>
      if (s.qp q).rkey ≠ rkey ∨ mayRead p addr n = false then s.answer q .nak
      else keepPiece (s.readPiece ⟨q, false, addr, n, []⟩)
    | none => s.answer q .nak

/-- RDMA_READ_REQUEST. -/
def execRdmaReadRequest (qp : Fin 16) (rkey : Word) (addr len : Nat) (s : State) : Out :=
  whenFw s (s.hostRead qp rkey addr len)

/-- REGISTER_WRITE. -/
def execRegisterWrite (qp : Fin 16) (rkey : Word) (addr : Nat) (data : List Byte) (s : State) : Out :=
  whenFw s (s.hostWrite qp rkey addr data)

/-! ### Frames (R414 to R417) -/

/-- The operation of an accepted frame. A frame for a queue pair of the other port, or outside R419, is discarded. -/
def State.rocv (s : State) (p : Nat) (o : Roce) : State :=
  let mine := fun (q : Nat) => decide ((s.qp q).port = p) && s.reaches q
  match o with
  | .write q k a d => if mine q then s.hostWrite q k a d else s.count 6 p 6 1
  | .read q k a n => if mine q then s.hostRead q k a n else s.count 6 p 6 1
  | .ack q => if mine q then s.writeAcked q else s.count 6 p 6 1
  | .unsupported => s.count 6 p 6 1

/-- A protected frame passes MACsec: its SA is installed, its ICV fits, its packet number is not below the replay window of
64 (R415, R416). Otherwise the counter it counts in. -/
def Port.secure (x : Port) (t : SecTag) : Nat ⊕ Port :=
  let isNew := match x.next with | some n => decide (n.an = t.an) | none => false
  match (if isNew then x.next else x.sa.filter (fun a => a.an = t.an)) with
  | none => .inl 6
  | some a =>
    if t.icvOk = false then .inl 4
    else if t.pn + 64 ≤ a.rxHigh then .inl 5
    else
      let a := { a with rxHigh := max a.rxHigh t.pn }
      .inr (if isNew then ({ x with next := some a, rxNew := x.rxNew + 1 }).settle else { x with sa := some a })

/-- MGMT_FRAME_RECEIVED: a frame is discarded and counted, or passed to RoCEv2 (R413 to R417, R570). -/
def execMgmtFrameReceived (port : Fin 2) (f : EthFrame) (s : State) : Out :=
  let p := port.val
  let x := s.port p
  whenFw s (
    if x.link = false ∨ x.mode = 0 then s
    else if f.fcsOk = false then s.count 6 p 2 1
    else if f.len < 64 ∨ 4256 < f.len ∨ f.vlan ∨ f.pause ∨ f.dst ≠ x.mac then s.count 6 p 6 1
    else if x.mode = 1 then
      if f.sec.isSome then s.count 6 p 6 1 else (s.count 6 p 0 1).rocv p f.op
    else match f.sec with
      | none => s.count 6 p 3 1
      | some t =>
        match x.secure t with
        | .inl c => s.count 6 p c 1
        | .inr y => ((s.setPort p y).count 6 p 0 1).rocv p f.op)

/-- MGMT_LINK_CHANGE: the link of a port comes or goes; operations move to a queue pair that works (R413, R441). -/
def execMgmtLinkChange (port : Fin 2) (up : Bool) (s : State) : Out :=
  let p := port.val
  let x := s.port p
  whenUp s (
    let s := s.setPort p { x with link := up && decide (x.mode ≠ 0) }
    (List.range 16).foldl (fun (t : State) q => if (t.qp q).bound then t.moveOps q else t) s)

end Sys2Proof.Machine
end

