-- ==== Sys2Proof/Machine/Rack.lean ====
section
/-! DEFINITION. The Rack, the Pantry and Whisk (R295, R540 to R551). -/
namespace Sys2Proof.Machine

/-! ### Rack errors (R540) -/

/-- VALID of RCK_ERR_STATUS. -/
def rckValid : Word := 0x80000000

/-- Answer an access with an error: it is counted, and recorded while VALID is clear. -/
def State.rackError (s : State) (master target : Nat) (write : Bool) : State :=
  let s := s.count 7 0 7 1
  let s := { s with mem := { s.mem with lastErr := true, lastOut := [] } }
  if bit (s.stick Reg.rckErr) 31 then s
  else
    let s := s.setSticky Reg.rckErr rckValid
    { s with rck := { s.rck with errMaster := master, errTarget := target, errWrite := write } }

/-- Answer an access without error, with the bytes read. -/
def State.rackOk (s : State) (d : List Byte) : State :=
  { s with mem := { s.mem with lastErr := false, lastOut := d } }

/-! ### Paths (R540) -/

/-- How a master reaches a target: not at all, reading only, or both. -/
inductive Reach where
  | none | read | both
deriving DecidableEq, Repr

/-- The path table. Register blocks: RND 0x0020_0000, FRM 0x0050_0000, CNT 0x00B0_0000. -/
def rackPath (locked code : Bool) (m t a : Nat) : Reach :=
  let block := a / 0x100000
  if m ≤ 3 then
    if t = 0 ∨ t = 1 ∨ t = 2 ∨ t = 5 ∨ t = 6 then .both
    else if t = 3 then (if code then .read else .both)
    else if t = 4 then .read else .none
  else if m = 4 then
    if t = 0 ∨ t = 1 ∨ t = 2 ∨ t = 6 then .both else if t = 4 then .read else .none
  else if m = 5 then
    if t = 0 then (if block = 2 then .both else .none)
    else if t = 1 ∨ t = 2 ∨ t = 6 then .both
    else if t = 3 then (if locked then .none else .both) else .none
  else if m = 6 then
    if t = 0 then (if block = 0xB then .read else .none) else if t = 1 then .both else .none
  else if m = 7 then
    if t = 0 then (if block = 5 then .read else .none) else if t = 1 ∨ t = 6 then .both else .none
  else if m = 8 then (if t = 1 ∨ t = 2 then .both else .none)
  else .none

/-- Bytes of a target (R537, R542, R547). -/
def rackSize (t : Nat) : Nat :=
  if t = 1 then 4194304 else if t = 2 then 1048576 else if t = 3 then 8388608 else if t = 5 then 288000000000
  else if t = 4 then 0x20000000 else 0x10000000

/-! ### Accesses (R540 to R543, R548) -/

/-- An access of a memory that Whisk's own master makes touches the cells themselves, in a region it holds; any other
access is served from the save copy there (R548). -/
def State.memAccess (s : State) (q : RackReq) : State :=
  let w := q.addr / 16
  let o := q.addr % 16
  let k := q.target
  let raw := (s.mem.tabOf k).look (s.memDflt k w) w
  let v := if q.master = 8 then raw else s.memRead k w
  let n := min q.data.length (16 - o)
  if q.write then
    let v := overlay v o (q.data.take n)
    if q.master = 8 then
      if s.heldAt k w then
        ({ s with mem := s.mem.setTabOf k (Tab.put (s.memDflt k w) (s.mem.tabOf k) w v) }).rackOk []
      else s.rackError q.master k true
    else if k = 1 ∧ s.mem.owner.look 0 (q.addr / 65536) ≠ q.master then s.rackError q.master k true
    else (s.memWrite k w v).rackOk []
  else s.rackOk (((leBytes 16 v.toNat).drop o).take n)

/-- Registers whose writes are the owner's alone: a master's write there has no effect (R288, R616, R634). -/
def ownerOnly (a : Nat) : Bool :=
  decide (a = Reg.rstCtrl) || decide (a = Reg.blkRst) || decide (a = Reg.grpRst) || decide (a = Reg.arbFreeze)

/-- One register as a master writes it: the ring engine writes for the owner. -/
def State.masterWrite (s : State) (m a : Nat) (v : Word) : State :=
  if Reg.mbxBase 0 ≤ a ∧ a < Reg.mbxBase 64 then
    let c := (a - Reg.mbxBase 0) / 0x80
    let o := (a - Reg.mbxBase 0) % 0x80
    if o < 0x40 then s.mbSlot m c (o / 4) v else if o = 0x4C then s.mbCtrl m c v else s.writeFields a v
  else if m ≠ 4 ∧ ownerOnly a then s
  else s.writeWord a v

/-- Write consecutive registers as a master. -/
def State.masterWrites (s : State) (m : Nat) : Nat → Nat → List Byte → State
  | 0, _, _ => s
  | n + 1, a, l => State.masterWrites (s.masterWrite m a (BitVec.ofNat 32 (leAt l 0 4))) m n (a + 4) (l.drop 4)

/-- An access of the register file or the mailbox block: whole aligned registers (R12). -/
def State.regAccess (s : State) (q : RackReq) : State :=
  let n := q.data.length / 4
  if q.addr % 4 ≠ 0 ∨ q.data.length % 4 ≠ 0 ∨ 16 < q.data.length then s.rackOk []
  else if q.write then
    if q.master = 4 then (s.writeWords n q.addr q.data).rackOk []
    else (s.masterWrites q.master n q.addr q.data).rackOk []
  else
    let r := s.readRegs n q.addr
    r.2.rackOk r.1

/-- An access of the Cave diagnostic window: stored data in RMA; otherwise test patterns in stacks out of service, of
which only error counts come back (R295). Its bursts go through the deadline arbiter (R284, R285). -/
def State.diagAccess (s : State) (q : RackReq) : State :=
  let t := q.addr / 48000000000
  let w := q.addr / 16
  let pc := 32 * t + (Config.channelOf 65535 w).val
  let r : CavReq := { who := 3, deadline := s.secClock + 65535, bursts := 1, pair := 0, x := w }
  let ok := decide (s.rnd.lc = .rma) || s.oos t
  if ok = false then s.rackError q.master 5 q.write
  else
    let s := s.setReqs pc (s.reqsAt pc ++ [r])
    if q.write ∨ s.rnd.lc = .rma then s.memAccess q
    else
      let d := s.draw
      d.2.rackOk (leBytes 8 (Config.diagCount d.1).toNat)

/-- RACK_ACCESS: an access of a Rack master (R540 to R543, R548). A core or the ring engine makes none during a control
restart (R629). -/
def execRackAccess (a : RackReq) (s : State) : Out :=
  whenUp s (
    if a.master ≤ 4 ∧ s.fw = false then s
    else
      let s := if a.target = 1 then (s.count 7 0 5 a.stall).count 7 0 6 a.whisk else s
      match rackPath s.pwr.codeLocked (Config.isCode (a.addr / 16)) a.master a.target a.addr with
      | .none => s.rackError a.master a.target a.write
      | p =>
        if (a.write ∧ p = .read) ∨ rackSize a.target ≤ a.addr ∨ 6 < a.target then s.rackError a.master a.target a.write
        else if a.target = 0 then s.regAccess a
        else if a.target = 6 then
          if Reg.mbxBase 0 ≤ a.addr ∧ a.addr < Reg.mbxBase 64 then s.regAccess a
          else s.rackError a.master a.target a.write
        else if a.target = 4 then s.rackOk (s.tableBytes a.addr (min a.data.length 16))
        else if a.target = 5 then s.diagAccess a
        else s.memAccess a)

/-! ### Pantry control port and atomics (R544, R545) -/

/-- PANTRY_OWNER_WRITE: the present owner, or CC0, passes a bank to another master (R544, R552). -/
def execPantryOwnerWrite (master : Nat) (bank : Fin 64) (newOwner : Nat) (s : State) : Out :=
  whenUp s (
    if (master = 0 ∨ s.mem.owner.look 0 bank = master) ∧ newOwner ≤ 8 then
      ({ s with mem := { s.mem with owner := Tab.put 0 s.mem.owner bank.val newOwner } }).rackOk []
    else s.rackError master 1 true)

/-- PANTRY_ATOMIC: ADD or SWAP on an aligned 64-bit word; every master with a Pantry path may use it, and it returns the
word's previous value (R543, R545). -/
def execPantryAtomic (master : Nat) (bank : Fin 64) (off : Nat) (swap : Bool) (v : Word64) (stall whisk : Nat) (s : State) : Out :=
  whenUp s (
    let s := (s.count 7 0 5 stall).count 7 0 6 whisk
    if 8 < master ∨ off % 8 ≠ 0 ∨ 65536 ≤ off then s.rackError master 1 true
    else
      let w := bank.val * 4096 + off / 16
      let o := off % 16
      let x := s.memRead 1 w
      let old : Word64 := BitVec.ofNat 64 (leAt (leBytes 16 x.toNat) o 8)
      let new := if swap then v else old + v
      (s.memWrite 1 w (overlay x o (leBytes 8 new.toNat))).rackOk (leBytes 8 old.toNat))

/-! ### Whisk (R547 to R551) -/

/-- Regions of a memory (R547). -/
def whiskRegions (m : Nat) : Nat := if m = 0 ∨ m = 2 then 16384 else if m = 1 then 4096 else 11718750

/-- Bytes of a region. -/
def whiskSize (m : Nat) : Nat := if m < 3 then 256 else 4096

/-- WHISK_REGION_START: with a start granted and the memory enabled, Whisk takes the next region into its save copy; it skips
a stack out of service but for the return pass (R547 to R549). -/
def execWhiskRegionStart (m : Fin 9) (s : State) : Out :=
  let w := s.whisk m
  let t := m.val - 3
  whenUp s (
    if s.whiskOn m = false ∨ w.starts = 0 ∨ w.held.isSome ∨ (3 ≤ m.val ∧ s.oos t ∧ (s.stack t).testing = false) then s
    else
      let r := w.nextRegion
      let s := s.setWhisk m { w with held := some r, starts := w.starts - 1, nextRegion := (r + 1) % whiskRegions m
                                     save := s.saveRegion m r }
      if 3 ≤ m.val then
        let pc := 32 * t + (Config.channelOf (65536 + m.val) r).val
        s.setReqs pc (s.reqsAt pc ++ [({ who := 2, deadline := s.secClock + 8000 + Config.whiskSlack t r, bursts := 768, pair := 0, x := r } : CavReq)])
      else s)

/-- The end of a full pass of memory `m`: the second it ended in, and the end of a return pass (R291, R551). -/
def State.passEnd (s : State) (m : Nat) : State :=
  let w := s.whisk m
  let t := m - 3
  let s := s.setWhisk m { w with passSec := s.tnNow / 8000000, passFault := false }
  if 3 ≤ m ∧ (s.stack t).testing then s.setStack t { s.stack t with testing := false, unproven := w.passFault }
  else s

/-- A failed test: event, counters, the mark of a return pass, and an uncorrectable burst of a Cave stack (R292, R550). -/
def State.whiskFault (s : State) (m r : Nat) : State :=
  let t := m - 3
  let v := if m < 3 then r * 256 else t * 2 ^ 48 + r * 4096
  let s := (s.count 5 0 (2 * m + 1) 1).event [0, 64] 0x0091 (min m 3) v
  let s := s.setWhisk m { s.whisk m with passFault := true }
  if 3 ≤ m then s.setStack t { s.stack t with uncorr := (s.stack t).uncorr + 1 } else s

/-- Bursts of Whisk still raised on a stack. -/
def State.whiskBusy (s : State) (t : Nat) : Bool :=
  (List.range 32).any (fun i => (s.reqsAt (32 * t + i)).any (fun r => decide (r.who = 2)))

/-- WHISK_REGION_END: the region is restored and counted, a failure reported, and the pass goes on (R548, R550, R551). In the
Cave the region's bursts have been served or abandoned before. -/
def execWhiskRegionEnd (m : Fin 9) (failed : Bool) (s : State) : Out :=
  whenUp s (
    match (s.whisk m).held with
    | none => s
    | some r =>
      if 3 ≤ m.val ∧ s.whiskBusy (m.val - 3) then s
      else
        let s := (s.restoreRegion m).count 5 0 (2 * m.val) 1
        let s := if failed then s.whiskFault m r else s
        if r + 1 = whiskRegions m then s.passEnd m else s)

end Sys2Proof.Machine
end

