-- ==== Sys2Proof/Machine/Dispatch.lean ====
section
/-! DEFINITION. One arm per command: each calls its meaning. -/
namespace Sys2Proof.Machine

def exec (i : Instr) (s : State) : Host.Outcome State Fault Refusal :=
  match i with
  | .coldPowerUp orderErr => Sys2Proof.Machine.execColdPowerUp orderErr s
  | .resetNRise flash pwrGood a0 fused => Sys2Proof.Machine.execResetNRise flash pwrGood a0 fused s
  | .resetNFall ns => Sys2Proof.Machine.execResetNFall ns s
  | .pwrGoodFall => Sys2Proof.Machine.execPwrGoodFall s
  | .glbRstCtrlWarm qp => Sys2Proof.Machine.execGlbRstCtrlWarm qp s
  | .alertCauseChange cause on rails tDie tHbm => Sys2Proof.Machine.execAlertCauseChange cause on rails tDie tHbm s
  | .i2cAccess addr wr rd => Sys2Proof.Machine.execI2cAccess addr wr rd s
  | .jtagInstruction instr => Sys2Proof.Machine.execJtagInstruction instr s
  | .mailboxBlockReset qp => Sys2Proof.Machine.execMailboxBlockReset qp s
  | .mgmtPortBlockReset qp port => Sys2Proof.Machine.execMgmtPortBlockReset qp port s
  | .dumpEngineReset qp => Sys2Proof.Machine.execDumpEngineReset qp s
  | .whiskBlockReset qp => Sys2Proof.Machine.execWhiskBlockReset qp s
  | .calrinBlockReset qp => Sys2Proof.Machine.execCalrinBlockReset qp s
  | .laneGroupReset qp g => Sys2Proof.Machine.execLaneGroupReset qp g s
  | .watchdogExpiry core => Sys2Proof.Machine.execWatchdogExpiry core s
  | .controlRestartStart => Sys2Proof.Machine.execControlRestartStart s
  | .controlRestartEnd formatOk => Sys2Proof.Machine.execControlRestartEnd formatOk s
  | .tickFault unit => Sys2Proof.Machine.execTickFault unit s
  | .tnLoad qp => Sys2Proof.Machine.execTnLoad qp s
  | .loRegisterRead qp addr => Sys2Proof.Machine.execLoRegisterRead qp addr s
  | .ppsInEdge => Sys2Proof.Machine.execPpsInEdge s
  | .todMessage bytes => Sys2Proof.Machine.execTodMessage bytes s
  | .todOutSend => Sys2Proof.Machine.execTodOutSend s
  | .secondBoundary => Sys2Proof.Machine.execSecondBoundary s
  | .selectionPeriodBoundary m => Sys2Proof.Machine.execSelectionPeriodBoundary m s
  | .sourceActivityLoss last => Sys2Proof.Machine.execSourceActivityLoss last s
  | .sourceQualified src => Sys2Proof.Machine.execSourceQualified src s
  | .referenceWtrExpiry entry => Sys2Proof.Machine.execReferenceWtrExpiry entry s
  | .starterLock => Sys2Proof.Machine.execStarterLock s
  | .acqTmoExpiry => Sys2Proof.Machine.execAcqTmoExpiry s
  | .loopBandwidthStep => Sys2Proof.Machine.execLoopBandwidthStep s
  | .transitionEnd => Sys2Proof.Machine.execTransitionEnd s
  | .holdoverLimitExpiry => Sys2Proof.Machine.execHoldoverLimitExpiry s
  | .phaseStepApply => Sys2Proof.Machine.execPhaseStepApply s
  | .phaseStepEnd => Sys2Proof.Machine.execPhaseStepEnd s
  | .refConfigApply => Sys2Proof.Machine.execRefConfigApply s
  | .refForceApply => Sys2Proof.Machine.execRefForceApply s
  | .boardTableLoad qp => Sys2Proof.Machine.execBoardTableLoad qp s
  | .boardTableVerifyDone ecOk lmsOk => Sys2Proof.Machine.execBoardTableVerifyDone ecOk lmsOk s
  | .laneDirectionSettled lane rx => Sys2Proof.Machine.execLaneDirectionSettled lane rx s
  | .frameReceived lane f => Sys2Proof.Machine.execFrameReceived lane f s
  | .overheadPacket lane => Sys2Proof.Machine.execOverheadPacket lane s
  | .capabilityWord lane w => Sys2Proof.Machine.execCapabilityWord lane w s
  | .ladderTAlignExpiry g => Sys2Proof.Machine.execLadderTAlignExpiry g s
  | .ladderTNegExpiry g => Sys2Proof.Machine.execLadderTNegExpiry g s
  | .stepSwitch g far => Sys2Proof.Machine.execStepSwitch g far s
  | .ladderTVerifyExpiry g => Sys2Proof.Machine.execLadderTVerifyExpiry g s
  | .laneDrop lane => Sys2Proof.Machine.execLaneDrop lane s
  | .laneWakeVerifyExpiry lane => Sys2Proof.Machine.execLaneWakeVerifyExpiry lane s
  | .laneLoopApply lane => Sys2Proof.Machine.execLaneLoopApply lane s
  | .loopGrantRelease lane => Sys2Proof.Machine.execLoopGrantRelease lane s
  | .eyeScanEnd lane points vstep => Sys2Proof.Machine.execEyeScanEnd lane points vstep s
  | .laneDefectDeclare lane d held => Sys2Proof.Machine.execLaneDefectDeclare lane d held s
  | .laneDefectClear lane d held => Sys2Proof.Machine.execLaneDefectClear lane d held s
  | .laneFail lane d => Sys2Proof.Machine.execLaneFail lane d s
  | .laneClear lane d => Sys2Proof.Machine.execLaneClear lane d s
  | .groupTimingWrite qp g foreign => Sys2Proof.Machine.execGroupTimingWrite qp g foreign s
  | .wheelOverhead w mf => Sys2Proof.Machine.execWheelOverhead w mf s
  | .wheelDefectDeclare w d => Sys2Proof.Machine.execWheelDefectDeclare w d s
  | .wheelDefectClear w d => Sys2Proof.Machine.execWheelDefectClear w d s
  | .retimerDecide w => Sys2Proof.Machine.execRetimerDecide w s
  | .retimerCountDeadline w => Sys2Proof.Machine.execRetimerCountDeadline w s
  | .mapWriteExecute => Sys2Proof.Machine.execMapWriteExecute s
  | .deferredEntryPlace slot => Sys2Proof.Machine.execDeferredEntryPlace slot s
  | .mapCheck => Sys2Proof.Machine.execMapCheck s
  | .flipFreeze => Sys2Proof.Machine.execFlipFreeze s
  | .flipCommit => Sys2Proof.Machine.execFlipCommit s
  | .resyncEnd => Sys2Proof.Machine.execResyncEnd s
  | .flipSeqFire h => Sys2Proof.Machine.execFlipSeqFire h s
  | .flipSeqExpire h => Sys2Proof.Machine.execFlipSeqExpire h s
  | .flipSeqDiff h => Sys2Proof.Machine.execFlipSeqDiff h s
  | .fabricFlipReadyTimeout h worker => Sys2Proof.Machine.execFabricFlipReadyTimeout h worker s
  | .fabricFlipResultTimeout h => Sys2Proof.Machine.execFabricFlipResultTimeout h s
  | .pairLock p => Sys2Proof.Machine.execPairLock p s
  | .colanderPlayout p => Sys2Proof.Machine.execColanderPlayout p s
  | .selectorEvaluate p => Sys2Proof.Machine.execSelectorEvaluate p s
  | .pairCmdApply p => Sys2Proof.Machine.execPairCmdApply p s
  | .pairWtrExpiry p => Sys2Proof.Machine.execPairWtrExpiry p s
  | .caveBurstComplete pc uncorr => Sys2Proof.Machine.execCaveBurstComplete pc uncorr s
  | .caveRequestAbandon pc => Sys2Proof.Machine.execCaveRequestAbandon pc s
  | .cavArbFreezeWrite qp v => Sys2Proof.Machine.execCavArbFreezeWrite qp v s
  | .stackMoveEnd p => Sys2Proof.Machine.execStackMoveEnd p s
  | .caveStackFault st training => Sys2Proof.Machine.execCaveStackFault st training s
  | .calrinFrame lane f => Sys2Proof.Machine.execCalrinFrame lane f s
  | .ladleRecordApply => Sys2Proof.Machine.execLadleRecordApply s
  | .silenceTakeover => Sys2Proof.Machine.execSilenceTakeover s
  | .ackStall => Sys2Proof.Machine.execAckStall s
  | .heartbeatChange changes => Sys2Proof.Machine.execHeartbeatChange changes s
  | .heartbeatSilence => Sys2Proof.Machine.execHeartbeatSilence s
  | .settleDetachedExpiry => Sys2Proof.Machine.execSettleDetachedExpiry s
  | .reclaimSettleExpiry => Sys2Proof.Machine.execReclaimSettleExpiry s
  | .yieldComplete => Sys2Proof.Machine.execYieldComplete s
  | .calMateCtrlSwap qp => Sys2Proof.Machine.execCalMateCtrlSwap qp s
  | .syncComplete => Sys2Proof.Machine.execSyncComplete s
  | .takeoverHoldEnd => Sys2Proof.Machine.execTakeoverHoldEnd s
  | .tnAnnounce hd tn arrPs => Sys2Proof.Machine.execTnAnnounce hd tn arrPs s
  | .delayReq hd t2Tick t2Ps => Sys2Proof.Machine.execDelayReq hd t2Tick t2Ps s
  | .delayResp hd reqSerial t2Tick t2Ps t3Tick t4Tick t4Ps => Sys2Proof.Machine.execDelayResp hd reqSerial t2Tick t2Ps t3Tick t4Tick t4Ps s
  | .delaySampleTimeout link => Sys2Proof.Machine.execDelaySampleTimeout link s
  | .flipPropose hd flipId f => Sys2Proof.Machine.execFlipPropose hd flipId f s
  | .flipReady hd flipId status reason => Sys2Proof.Machine.execFlipReady hd flipId status reason s
  | .fabFlipCancel hd flipId failId => Sys2Proof.Machine.execFabFlipCancel hd flipId failId s
  | .flipResult hd flipId committed => Sys2Proof.Machine.execFlipResult hd flipId committed s
  | .fabCmd hd mserial principal d sigs => Sys2Proof.Machine.execFabCmd hd mserial principal d sigs s
  | .fabResult hd mserial c => Sys2Proof.Machine.execFabResult hd mserial c s
  | .fabEvent hd principal e => Sys2Proof.Machine.execFabEvent hd principal e s
  | .fabDump hd principal latchTn offset data => Sys2Proof.Machine.execFabDump hd principal latchTn offset data s
  | .fabMbx hd channel flags msg => Sys2Proof.Machine.execFabMbx hd channel flags msg s
  | .cmdData hd mserial offset data => Sys2Proof.Machine.execCmdData hd mserial offset data s
  | .outData hd mserial offset data => Sys2Proof.Machine.execOutData hd mserial offset data s
  | .fabStatus hd tn st defects => Sys2Proof.Machine.execFabStatus hd tn st defects s
  | .peerKeyingMessage hd m => Sys2Proof.Machine.execPeerKeyingMessage hd m s
  | .peerKeyingRetry link => Sys2Proof.Machine.execPeerKeyingRetry link s
  | .fabCmdRetry h => Sys2Proof.Machine.execFabCmdRetry h s
  | .fabWorkerLost worker => Sys2Proof.Machine.execFabWorkerLost worker s
  | .fabCmdAbandon h => Sys2Proof.Machine.execFabCmdAbandon h s
  | .mgmtFrameReceived port f => Sys2Proof.Machine.execMgmtFrameReceived port f s
  | .mgmtLinkChange port up => Sys2Proof.Machine.execMgmtLinkChange port up s
  | .saTxSwitch port => Sys2Proof.Machine.execSaTxSwitch port s
  | .kick qp rkey addr len => Sys2Proof.Machine.execKick qp rkey addr len s
  | .doorbellPoll r => Sys2Proof.Machine.execDoorbellPoll r s
  | .doorbellReadDone r cmdProd cmpCons evtCons => Sys2Proof.Machine.execDoorbellReadDone r cmdProd cmpCons evtCons s
  | .descriptorFetchDone r ds => Sys2Proof.Machine.execDescriptorFetchDone r ds s
  | .batchReadDone r b => Sys2Proof.Machine.execBatchReadDone r b s
  | .descriptorTake => Sys2Proof.Machine.execDescriptorTake s
  | .completionPost r => Sys2Proof.Machine.execCompletionPost r s
  | .rdmaWriteAck qp => Sys2Proof.Machine.execRdmaWriteAck qp s
  | .qpAckTimeout qp => Sys2Proof.Machine.execQpAckTimeout qp s
  | .rdmaReadRequest qp rkey addr len => Sys2Proof.Machine.execRdmaReadRequest qp rkey addr len s
  | .registerWrite qp rkey addr data => Sys2Proof.Machine.execRegisterWrite qp rkey addr data s
  | .nop h => Sys2Proof.Machine.execNop h s
  | .mapWrite h => Sys2Proof.Machine.execMapWrite h s
  | .mapRead h => Sys2Proof.Machine.execMapRead h s
  | .wheelDefine h => Sys2Proof.Machine.execWheelDefine h s
  | .wheelDelete h => Sys2Proof.Machine.execWheelDelete h s
  | .flipAt h => Sys2Proof.Machine.execFlipAt h s
  | .flipSeq h => Sys2Proof.Machine.execFlipSeq h s
  | .flipCancel h => Sys2Proof.Machine.execFlipCancel h s
  | .pairSet h => Sys2Proof.Machine.execPairSet h s
  | .pairCmd h => Sys2Proof.Machine.execPairCmd h s
  | .laneState h => Sys2Proof.Machine.execLaneState h s
  | .laneLoop h => Sys2Proof.Machine.execLaneLoop h s
  | .eyeScan h => Sys2Proof.Machine.execEyeScan h s
  | .refConfig h => Sys2Proof.Machine.execRefConfig h s
  | .refForce h => Sys2Proof.Machine.execRefForce h s
  | .phaseStep h => Sys2Proof.Machine.execPhaseStep h s
  | .counterRead h => Sys2Proof.Machine.execCounterRead h s
  | .counterPreset h => Sys2Proof.Machine.execCounterPreset h s
  | .counterPresetApply => Sys2Proof.Machine.execCounterPresetApply s
  | .dumpConfig h => Sys2Proof.Machine.execDumpConfig h s
  | .dumpConfigApply => Sys2Proof.Machine.execDumpConfigApply s
  | .dumpImageStart principal => Sys2Proof.Machine.execDumpImageStart principal s
  | .partitionSet h => Sys2Proof.Machine.execPartitionSet h s
  | .ringBind h => Sys2Proof.Machine.execRingBind h s
  | .keyAgree h => Sys2Proof.Machine.execKeyAgree h s
  | .fwStage h => Sys2Proof.Machine.execFwStage h s
  | .fwActivate h => Sys2Proof.Machine.execFwActivate h s
  | .attestQuote h => Sys2Proof.Machine.execAttestQuote h s
  | .ephemeralKeyReady => Sys2Proof.Machine.execEphemeralKeyReady s
  | .mbxPost h => Sys2Proof.Machine.execMbxPost h s
  | .budgetSet h => Sys2Proof.Machine.execBudgetSet h s
  | .sealSetup h => Sys2Proof.Machine.execSeal h s
  | .controlRestart h => Sys2Proof.Machine.execControlRestart h s
  | .pantryOwnerWrite master bank newOwner => Sys2Proof.Machine.execPantryOwnerWrite master bank newOwner s
  | .pantryAtomic master bank off swap v stall whisk => Sys2Proof.Machine.execPantryAtomic master bank off swap v stall whisk s
  | .rackAccess a => Sys2Proof.Machine.execRackAccess a s
  | .whiskRegionStart m => Sys2Proof.Machine.execWhiskRegionStart m s
  | .whiskRegionEnd m failed => Sys2Proof.Machine.execWhiskRegionEnd m failed s
  | .mbxCtrlPost master c => Sys2Proof.Machine.execMbxCtrlPost master c s
  | .mbxCtrlAck master c => Sys2Proof.Machine.execMbxCtrlAck master c s
  | .mbxCtrlWait master c => Sys2Proof.Machine.execMbxCtrlWait master c s
  | .mbxCtrlWithdraw master c => Sys2Proof.Machine.execMbxCtrlWithdraw master c s
  | .mbxTimeout c => Sys2Proof.Machine.execMbxTimeout c s
  | .mbxRemoteRetry c => Sys2Proof.Machine.execMbxRemoteRetry c s
  | .slotProcessing => Sys2Proof.Machine.execSlotProcessing s
  | .ladleRecordSeal => Sys2Proof.Machine.execLadleRecordSeal s
  | .pwrGoodRise => Sys2Proof.Machine.execPwrGoodRise s
  | .completionRingReadDone r slots => Sys2Proof.Machine.execCompletionRingReadDone r slots s
  | .mateRingKey hd ring key => Sys2Proof.Machine.execMateRingKey hd ring key s
  | .mateKeyAgreeRequest hd req ecOk lmsOk => Sys2Proof.Machine.execMateKeyAgreeRequest hd req ecOk lmsOk s
  | .mateKeyAgreeResponse hd serial resp => Sys2Proof.Machine.execMateKeyAgreeResponse hd serial resp s
  | .mateDump hd principal latchTn offset data => Sys2Proof.Machine.execMateDump hd principal latchTn offset data s

end Sys2Proof.Machine
end

