-- ==== Sys2Proof/Machine/Tick.lean ====
section
/-! DEFINITION. The tick: what an empty queue advances (log 1). -/
namespace Sys2Proof.Machine

/-- The local count and TN advance by one, a LOAD of STR_TN_LOAD takes effect, what registers and tables show is set apart, and
what a tick may do once, or a limited number of times, begins anew (R9, R15, R24, R26, R203, R219, R439, R575). -/
def State.advance (s : State) : State :=
  let load := s.clk.loadReq && !s.clk.tnValid
  let tn :=
    if s.clk.tnValid then (s.clk.tn + 1) % 2 ^ 64
    else if load then (s.reg Reg.tnLoadHi).toNat * 2 ^ 32 + (s.reg Reg.tnLoadLo).toNat
    else s.clk.tn
  { s with clk := { s.clk with
      tick := s.clk.tick + 1,
      tnValid := s.clk.tnValid || load,
      tn := tn,
      loadReq := false,
      began := some s.toBegan,
      wrUsed := 0,
      wrStop := false,
      joinUsed := 0,
      checked := false,
      slotsDone := false,
      secDone := false,
      perDone := false,
      sealDone := false,
      takeUsed := 0,
      readUsed := 0,
      dropped := [] } }

/-- The index record of a ring set that has changed is written, once in a tick (R428, R429). -/
def State.publish (s : State) (r : Nat) : State :=
  let x := s.ring r
  if x.dirty ∧ x.st ≠ .unbound ∧ s.writesHost then
    (s.setRing r { x with dirty := false }).issue r ⟨.index r, x.idxAddr, x.hkeys.getD 4 0, x.indexBytes, 32⟩
  else s

/-- The doorbell record of a ring set kicked in the tick before is read (R438). -/
def State.answerKick (s : State) (r : Nat) : State :=
  if (s.ring r).kicked ∧ s.ringFetches r then s.readDoorbell r else s

/-- The heartbeat output GPIO6 at a tick edge (R392). -/
def State.heartbeat (s : State) : State :=
  let beats := match s.cal.role with
    | .active | .suspended => true
    | .standby => decide (s.tnNow % 4 = 0)
    | _ => false
  let still := decide (s.cal.role = .standby) && !beats
  let out := if !s.mated then false else if beats then !s.cal.hbOut else if still then s.cal.hbOut else false
  { s with cal := { s.cal with hbOut := out } }

/-- A restart of the control cores that a watchdog has asked for begins (R538). -/
def State.wdogRestart (s : State) : State := if s.pwr.wdogDue then s.beginRestart false else s

/-- The next tick: the work of the last one is finished, its index records go out, time advances, and what waited for the tick
edge happens: the counts are set apart for the latch, restarts and block resets, held events, doorbell reads, the next pieces
of accesses (R16, R34, R392, R429, R438, R446, R538, R629, R634). -/
def State.tick (s : State) : State :=
  if s.up then
    let s := ((List.range 16).foldl State.publish s.finish).advance.countEdge
    let s := s.heartbeat.wdogRestart.blockResets.flushHeld
    ((List.range 16).foldl State.answerKick s).morePieces
  else s.advance

end Sys2Proof.Machine
end

