-- ==== Sys2Proof/Safety.lean ====
section
/-! DEFINITION. What counts as a safe state, and which commands may change which part of the device. -/
namespace Sys2Proof

namespace Machine

/-- The state is canonical: every sparse table that the invariant speaks of has its indices strictly rising and lists
nothing that an unlisted index reads as, so that equal contents are equal data. The tables are the five of the
memories, the set-up registers and their sealed image, the entries of both map pages, the blocks and principals of the
partition table and the owner slots. -/
abbrev State.canonical (s : State) : Prop :=
  s.mem.wf ∧ Tab.wfOn (fun a => (regSpec a).rst) s.regs ∧ Tab.wfOn (fun a => (regSpec a).rst) (s.sealImg.getD [])
  ∧ Tab.wf entryReset s.hrp.p0.ent ∧ Tab.wf entryReset s.hrp.p1.ent
  ∧ Tab.wf {} s.prn.block ∧ Tab.wf {} s.prn.part ∧ Tab.wf {} s.rnd.slots

/-- The device acts on a message of its links (R342, R346, R349 to R352, R369): the link is open for it, its tag fits, its
serial is new, and it is link-local or addressed to a device that acts on such messages of that origin. -/
def State.receives (s : State) (hd : FabHdr) (type : Nat) (body : List Byte) : Bool :=
  let t := s.fabNote hd type body
  !s.fabShut hd type && s.tagFits hd type body && !s.fabAgain hd type && !s.fabForeign hd type
  && (linkLocal type || (t.fabMine hd type && t.fabFits hd type))

/-- The journaled command of handle `h` is of the opcode and may be accepted now (R406, R410), and no check refuses it, neither
one common to all opcodes nor the opcode's own; it acts on this device. -/
abbrev State.carries (s : State) (opc : Nat) (chk : Check) (h : Nat) (e : JEntry) : Prop :=
  s.job h = some e ∧ e.d.opcode = opc ∧ s.acceptable h e = true ∧ (s.accept h e).commonCheck e = 0 ∧
  ¬(e.origin = .ring ∧ e.target ≠ 0) ∧ (chk e (s.accept h e)).1 = 0

/-- The areas of State: one for each of its parts. -/
inductive Area where
  | pending | clk | pwr | regs | sticky | sealed | sealImg | flash | rnd | str | sds | frm | whl | hrp | flp | col | cal | fab
  | mgp | prn | mbx | mem | rck | cnt | nrg | restarts | fresh
deriving DecidableEq, Repr

/-- Two states hold the same in an area. -/
def State.keeps (s t : State) : Area → Prop
  | .pending => t.pending = s.pending
  | .clk => t.clk = s.clk
  | .pwr => t.pwr = s.pwr
  | .regs => t.regs = s.regs
  | .sticky => t.sticky = s.sticky
  | .sealed => t.sealed = s.sealed
  | .sealImg => t.sealImg = s.sealImg
  | .flash => t.flash = s.flash
  | .rnd => t.rnd = s.rnd
  | .str => t.str = s.str
  | .sds => t.sds = s.sds
  | .frm => t.frm = s.frm
  | .whl => t.whl = s.whl
  | .hrp => t.hrp = s.hrp
  | .flp => t.flp = s.flp
  | .col => t.col = s.col
  | .cal => t.cal = s.cal
  | .fab => t.fab = s.fab
  | .mgp => t.mgp = s.mgp
  | .prn => t.prn = s.prn
  | .mbx => t.mbx = s.mbx
  | .mem => t.mem = s.mem
  | .rck => t.rck = s.rck
  | .cnt => t.cnt = s.cnt
  | .nrg => t.nrg = s.nrg
  | .restarts => t.restarts = s.restarts
  | .fresh => t.fresh = s.fresh

end Machine

/-- Commands that may change any part of the device: resets, boots and restarts of firmware, an access of a register
window or of the Rack, a received management frame (which may carry one), and the standby device's records and takeover. -/
def Instr.broad : Instr → Bool
  | .coldPowerUp _ | .resetNRise _ _ _ _ | .resetNFall _ | .pwrGoodFall | .pwrGoodRise | .glbRstCtrlWarm _
  | .controlRestartStart | .controlRestartEnd _ | .watchdogExpiry _ | .ladleRecordApply | .silenceTakeover
  | .registerWrite _ _ _ _ | .mgmtFrameReceived _ _ | .rackAccess _ => true
  | _ => false

/-- Commands that may change what a memory behind the Rack holds. -/
def Instr.writesMemory (c : Instr) : Bool :=
  c.broad || match c with
    | .caveBurstComplete _ _ | .pantryAtomic _ _ _ _ _ _ _ | .pantryOwnerWrite _ _ _ | .whiskRegionEnd _ _ => true
    | _ => false

/-- Commands that may change a set-up register. -/
def Instr.writesRegs (c : Instr) : Bool :=
  c.broad || match c with
    | .cavArbFreezeWrite _ _ | .caveStackFault _ _ | .groupTimingWrite _ _ _ | .refConfigApply
    | .selectionPeriodBoundary _ | .phaseStepApply | .slotProcessing | .mapWriteExecute | .ladleRecordSeal => true
    | _ => false

/-- Commands that may change the sealed image of the set-up registers. -/
def Instr.writesSeal (c : Instr) : Bool :=
  c.broad || match c with
    | .sealSetup _ => true
    | _ => false

/-- Commands that may change a fuse or the flash. -/
def Instr.writesFuses (c : Instr) : Bool :=
  c.broad || match c with
    | .attestQuote _ | .ephemeralKeyReady | .fwActivate _ | .fwStage _ | .keyAgree _ | .mateKeyAgreeRequest _ _ _ _ => true
    | _ => false

/-- Commands that may change the partition tables. -/
def Instr.writesPartitions (c : Instr) : Bool :=
  c.broad || match c with
    | .partitionSet _ => true
    | _ => false

/-- Commands that may change a map entry or which page is active. -/
def Instr.writesMap (c : Instr) : Bool :=
  c.broad || match c with
    | .mapWriteExecute | .flipCommit | .flipSeqFire _ | .laneLoopApply _ | .pairCmdApply _ | .secondBoundary
    | .counterPresetApply | .dumpConfigApply | .refConfigApply | .refForceApply | .selectionPeriodBoundary _
    | .phaseStepApply | .slotProcessing | .ladleRecordSeal => true
    | _ => false

/-- Commands that may change the latched counters or their time. -/
def Instr.latchesCounters (c : Instr) : Bool :=
  c.broad || match c with
    | .secondBoundary | .counterPresetApply | .dumpConfigApply | .refConfigApply | .refForceApply
    | .selectionPeriodBoundary _ | .phaseStepApply | .slotProcessing | .mapWriteExecute | .ladleRecordSeal => true
    | _ => false

/-- The areas that a command may change. Most report through the areas `cal` (the record for the mate), `fab` (messages),
`mgp` (events, completions, RDMA operations) and `cnt` (counters). A broad command may change every area. -/
def Instr.areas : Instr → List Machine.Area
  | .todMessage _ => [.clk]
  | .alertCauseChange _ _ _ _ _ | .i2cAccess _ _ _ | .jtagInstruction _ => [.pwr]
  | .sourceActivityLoss _ | .sourceQualified _ | .referenceWtrExpiry _ | .acqTmoExpiry | .loopBandwidthStep
  | .transitionEnd | .phaseStepEnd => [.str]
  | .boardTableVerifyDone _ _ => [.sds]
  | .overheadPacket _ | .laneDefectClear _ _ _ => [.frm]
  | .flipFreeze | .resyncEnd => [.flp]
  | .reclaimSettleExpiry => [.cal]
  | .delaySampleTimeout _ | .fabCmdRetry _ => [.fab]
  | .mgmtLinkChange _ _ | .saTxSwitch _ => [.mgp]
  | .todOutSend => [.clk, .fresh]
  | .retimerDecide _ => [.whl, .col]
  | .whiskRegionStart _ => [.col, .rck]
  | .colanderPlayout _ | .caveRequestAbandon _ => [.col, .cnt]
  | .mbxRemoteRetry _ => [.fab, .mbx]
  | .kick _ _ _ _ | .doorbellPoll _ | .descriptorFetchDone _ _ | .rdmaWriteAck _ | .completionRingReadDone _ _ =>
    [.mgp, .cnt]
  | .tnLoad _ | .loRegisterRead _ _ | .rdmaReadRequest _ _ _ _ => [.clk, .mgp, .cnt]
  | .mbxCtrlWait _ _ => [.pwr, .sticky, .mbx]
  | .mailboxBlockReset _ | .mgmtPortBlockReset _ _ | .dumpEngineReset _ | .whiskBlockReset _
  | .calrinBlockReset _ | .laneGroupReset _ _ => [.pwr, .mgp, .cnt]
  | .groupTimingWrite _ _ _ => [.regs, .mgp, .cnt]
  | .ladderTAlignExpiry _ => [.sticky, .sds, .fresh]
  | .boardTableLoad _ => [.sds, .mgp, .cnt]
  | .retimerCountDeadline _ => [.whl, .col, .cal]
  | .fabricFlipReadyTimeout _ _ => [.flp, .cal, .fab]
  | .caveBurstComplete _ _ => [.col, .mem, .cnt]
  | .calMateCtrlSwap _ | .takeoverHoldEnd | .batchReadDone _ _ => [.cal, .mgp, .cnt]
  | .dumpImageStart _ => [.sticky, .fab, .mgp, .cnt]
  | .pantryOwnerWrite _ _ _ | .pantryAtomic _ _ _ _ _ _ _ => [.sticky, .mem, .rck, .cnt]
  | .ackStall | .heartbeatChange _ | .yieldComplete | .syncComplete | .fabWorkerLost _ | .fabCmdAbandon _
  | .doorbellReadDone _ _ _ _ | .completionPost _ | .qpAckTimeout _ | .nop _ | .mapRead _ | .counterPreset _
  | .dumpConfig _ | .ringBind _ => [.cal, .fab, .mgp, .cnt]
  | .descriptorTake | .counterRead _ => [.clk, .cal, .fab, .mgp, .cnt]
  | .mbxCtrlPost _ _ => [.pwr, .sticky, .fab, .mbx, .cnt]
  | .cavArbFreezeWrite _ _ => [.regs, .col, .mgp, .rck, .cnt]
  | .starterLock | .holdoverLimitExpiry | .refConfig _ | .refForce _ | .phaseStep _ => [.str, .cal, .fab, .mgp, .cnt]
  | .eyeScanEnd _ _ _ | .laneLoop _ | .eyeScan _ => [.sds, .cal, .fab, .mgp, .cnt]
  | .laneFail _ _ | .laneClear _ _ => [.frm, .cal, .fab, .mgp, .cnt]
  | .wheelDefectDeclare _ _ | .wheelDefectClear _ _ | .wheelDefine _ | .wheelDelete _ =>
    [.whl, .cal, .fab, .mgp, .cnt]
  | .flipSeqExpire _ | .fabricFlipResultTimeout _ | .heartbeatSilence | .settleDetachedExpiry | .mapWrite _
  | .flipAt _ | .flipCancel _ => [.flp, .cal, .fab, .mgp, .cnt]
  | .pairLock _ | .selectorEvaluate _ | .pairWtrExpiry _ | .stackMoveEnd _ | .pairCmd _ =>
    [.col, .cal, .fab, .mgp, .cnt]
  | .partitionSet _ => [.cal, .fab, .mgp, .prn, .cnt]
  | .mbxCtrlWithdraw _ _ => [.cal, .fab, .mgp, .mbx, .cnt]
  | .budgetSet _ => [.cal, .fab, .mgp, .cnt, .nrg]
  | .controlRestart _ => [.cal, .fab, .mgp, .cnt, .restarts]
  | .tickFault _ => [.clk, .sticky, .cal, .fab, .mgp, .cnt]
  | .flipSeqDiff _ | .delayReq _ _ _ | .delayResp _ _ _ _ _ _ _ | .flipPropose _ _ _ | .flipReady _ _ _ _
  | .fabFlipCancel _ _ _ | .flipResult _ _ _ | .fabCmd _ _ _ _ _ | .fabResult _ _ _ | .fabEvent _ _ _
  | .fabDump _ _ _ _ _ | .cmdData _ _ _ _ | .outData _ _ _ _ | .fabStatus _ _ _ _ | .mateRingKey _ _ _
  | .mateKeyAgreeResponse _ _ _ | .mateDump _ _ _ _ _ => [.sticky, .flp, .cal, .fab, .mgp, .cnt]
  | .mbxCtrlAck _ _ => [.sticky, .cal, .fab, .mgp, .mbx, .cnt]
  | .fwStage _ | .fwActivate _ => [.flash, .rnd, .cal, .fab, .mgp, .cnt]
  | .keyAgree _ | .attestQuote _ | .ephemeralKeyReady => [.rnd, .cal, .fab, .mgp, .cnt, .fresh]
  | .laneWakeVerifyExpiry _ => [.str, .sds, .cal, .fab, .mgp, .cnt]
  | .laneDefectDeclare _ _ _ => [.frm, .flp, .cal, .fab, .mgp, .cnt]
  | .pairSet _ => [.whl, .col, .cal, .fab, .mgp, .cnt]
  | .flipCommit | .flipSeqFire _ => [.hrp, .flp, .cal, .fab, .mgp, .cnt]
  | .ppsInEdge => [.clk, .sticky, .str, .cal, .fab, .mgp, .cnt]
  | .tnAnnounce _ _ _ => [.clk, .sticky, .flp, .cal, .fab, .mgp, .cnt]
  | .mbxPost _ | .mbxTimeout _ => [.pwr, .sticky, .cal, .fab, .mgp, .mbx, .cnt]
  | .caveStackFault _ _ => [.regs, .sticky, .col, .cal, .fab, .mgp, .cnt]
  | .flipSeq _ => [.sticky, .hrp, .flp, .cal, .fab, .mgp, .cnt]
  | .peerKeyingRetry _ => [.str, .sds, .cal, .fab, .mgp, .cnt, .fresh]
  | .wheelOverhead _ _ => [.whl, .flp, .col, .cal, .fab, .mgp, .cnt]
  | .pairCmdApply _ => [.hrp, .flp, .col, .cal, .fab, .mgp, .cnt]
  | .whiskRegionEnd _ _ => [.col, .cal, .fab, .mgp, .mem, .rck, .cnt]
  | .deferredEntryPlace _ | .mapCheck => [.clk, .sticky, .hrp, .flp, .cal, .fab, .mgp, .cnt]
  | .fabMbx _ _ _ _ => [.pwr, .sticky, .flp, .cal, .fab, .mgp, .mbx, .cnt]
  | .mateKeyAgreeRequest _ _ _ _ => [.sticky, .rnd, .flp, .cal, .fab, .mgp, .cnt, .fresh]
  | .calrinFrame _ _ => [.sticky, .flp, .col, .cal, .fab, .mgp, .cnt, .fresh]
  | .sealSetup _ => [.sealed, .sealImg, .rnd, .sds, .cal, .fab, .mgp, .cnt]
  | .peerKeyingMessage _ _ => [.rnd, .str, .sds, .cal, .fab, .mgp, .cnt, .fresh]
  | .ladderTVerifyExpiry _ => [.str, .sds, .flp, .cal, .fab, .mgp, .cnt, .fresh]
  | .capabilityWord _ _ => [.sticky, .str, .sds, .flp, .cal, .fab, .mgp, .cnt, .fresh]
  | .stepSwitch _ _ | .loopGrantRelease _ => [.sds, .frm, .whl, .col, .cal, .fab, .mgp, .cnt, .fresh]
  | .ladderTNegExpiry _ => [.sticky, .sds, .frm, .whl, .col, .cal, .fab, .mgp, .cnt, .fresh]
  | .laneDirectionSettled _ _ => [.str, .sds, .frm, .whl, .col, .cal, .fab, .mgp, .cnt, .fresh]
  | .frameReceived _ _ => [.sticky, .str, .sds, .frm, .whl, .col, .cal, .fab, .mgp, .cnt, .fresh]
  | .laneDrop _ | .laneState _ => [.str, .sds, .frm, .whl, .flp, .col, .cal, .fab, .mgp, .cnt, .fresh]
  | .laneLoopApply _ => [.sds, .frm, .whl, .hrp, .flp, .col, .cal, .fab, .mgp, .cnt, .fresh]
  | .secondBoundary | .refForceApply | .counterPresetApply | .dumpConfigApply =>
    [.clk, .str, .sds, .frm, .whl, .hrp, .flp, .col, .cal, .fab, .mgp, .cnt, .fresh]
  | .phaseStepApply | .refConfigApply =>
    [.clk, .regs, .str, .sds, .frm, .whl, .hrp, .flp, .col, .cal, .fab, .mgp, .cnt, .fresh]
  | .mapWriteExecute | .slotProcessing | .ladleRecordSeal =>
    [.clk, .regs, .sticky, .str, .sds, .frm, .whl, .hrp, .flp, .col, .cal, .fab, .mgp, .cnt, .fresh]
  | .selectionPeriodBoundary _ =>
    [.clk, .pwr, .regs, .sticky, .str, .sds, .frm, .whl, .hrp, .flp, .col, .cal, .fab, .mgp, .rck, .cnt, .nrg, .fresh]
  | _ =>
    [.pending, .clk, .pwr, .regs, .sticky, .sealed, .sealImg, .flash, .rnd, .str, .sds, .frm, .whl, .hrp, .flp, .col,
      .cal, .fab, .mgp, .prn, .mbx, .mem, .rck, .cnt, .nrg, .restarts, .fresh]

end Sys2Proof
end

