-- ==== Sys2Proof/Certificates/Slice0/Obligations.lean ====
section
/-! DEFINITION. The statements about the model, each with the rules of the manual it rests on in OBLIGATIONS.json. -/
open Sys2Proof Sys2Proof.Machine

/-- The step of a state with command `c` in front is the command's effect on the state with the queue's rest. -/
def Obligations.StepRunsFrontCommand : Prop :=
  ∀ (c : Instr) (l : List Instr) (s : State), step { s with pending := c :: l } = exec c { s with pending := l }

/-- On an empty queue the next tick begins (log 1). -/
def Obligations.IdleStepIsNextTick : Prop :=
  ∀ s : State, s.pending = [] → ∃ t, step s = .next t ∧ t.pending = [] ∧
    ((s.up = false ∨ (s.finish.mgp.more = [] ∧ s.pwr.wdogDue = false ∧ s.pwr.blkReq = 0 ∧ s.pwr.grpReq = 0)) →
      t.clk.tick = s.clk.tick + 1 ∧
      (s.clk.tnValid = true → t.clk.tnValid = true ∧ t.clk.tn = (s.clk.tn + 1) % 2 ^ 64) ∧
      (s.clk.tnValid = false → s.clk.loadReq = true → t.clk.tnValid = true ∧
        t.clk.tn = (s.reg Reg.tnLoadHi).toNat * 2 ^ 32 + (s.reg Reg.tnLoadLo).toNat) ∧
      (s.clk.tnValid = false → s.clk.loadReq = false → t.clk.tnValid = false))

/-- The state right after a cold power-up with RESET_N low. -/
def Obligations.ResetLeaves : Prop :=
  State.reset.pwr.phase = .held ∧ State.reset.pwr.resetN = false ∧ State.reset.sealed = false ∧
  State.reset.clk.tnValid = false ∧ State.reset.hrp.active = false ∧
  (∀ i e, (State.reset.page i).ent.look entryReset e = entryReset) ∧
  (∀ sc o j, (State.reset.counter sc o j).v = 0) ∧ State.reset.nrg.budget = 700000 ∧
  State.reset.cal.role = .standalone ∧ (∀ r, (State.reset.ring r).st = .unbound) ∧ (∀ q, (State.reset.qp q).bound = false) ∧
  State.reset.pending = [] ∧ (∀ a, State.reset.reg a = (regSpec a).rst)

/-- The reset state is canonical. -/
def Obligations.ResetIsCanonical : Prop := State.reset.canonical

/-- Every step keeps the canonical form of the memories, the set-up registers, the map pages, the partition tables and the
owner slots. -/
def Obligations.StepKeepsCanonical : Prop := ∀ s t : State, s.canonical → step s = .next t → t.canonical

/-- No command changes the queue of waiting commands. -/
def Obligations.CommandsKeepQueue : Prop := ∀ (c : Instr) (s t : State), exec c s = .next t → t.pending = s.pending

/-- The memories behind the Rack change only under the commands of `Instr.writesMemory`. -/
def Obligations.MemoryWriters : Prop :=
  ∀ (c : Instr) (s t : State), c.writesMemory = false → exec c s = .next t →
    t.mem = { s.mem with lastOut := t.mem.lastOut, lastErr := t.mem.lastErr }

/-- Set-up registers and their sealed image change only under the commands named. -/
def Obligations.SetupRegisterWriters : Prop :=
  ∀ (c : Instr) (s t : State), exec c s = .next t →
    (c.writesRegs = false → t.regs = s.regs) ∧ (c.writesSeal = false → t.sealImg = s.sealImg)

/-- Fuses and flash change only under the commands of `Instr.writesFuses`. -/
def Obligations.FuseWriters : Prop :=
  ∀ (c : Instr) (s t : State), c.writesFuses = false → exec c s = .next t →
    t.flash = s.flash ∧ t.rnd.lc = s.rnd.lc ∧ t.rnd.slots = s.rnd.slots ∧ t.rnd.svnFused = s.rnd.svnFused ∧
    t.rnd.secretBurned = s.rnd.secretBurned ∧ t.rnd.grade = s.rnd.grade ∧ t.rnd.serial = s.rnd.serial

/-- The partition tables change only under the commands of `Instr.writesPartitions`. -/
def Obligations.PartitionWriters : Prop :=
  ∀ (c : Instr) (s t : State), c.writesPartitions = false → exec c s = .next t → t.prn = s.prn

/-- Map entries and the active page change only under the commands of `Instr.writesMap`. -/
def Obligations.MapWriters : Prop :=
  ∀ (c : Instr) (s t : State), c.writesMap = false → exec c s = .next t →
    t.hrp.active = s.hrp.active ∧ t.hrp.p0.ent = s.hrp.p0.ent ∧ t.hrp.p1.ent = s.hrp.p1.ent

/-- Latched counters change only under the commands of `Instr.latchesCounters`. -/
def Obligations.LatchWriters : Prop :=
  ∀ (c : Instr) (s t : State), c.latchesCounters = false → exec c s = .next t →
    t.cnt.latched = s.cnt.latched ∧ t.cnt.latchTn = s.cnt.latchTn

/-- Every command leaves every area outside its own as it was. -/
def Obligations.Footprints : Prop :=
  ∀ (c : Instr) (s t : State) (a : Area), a ∉ c.areas → exec c s = .next t → s.keeps t a

/-- COLD_POWER_UP keeps fuses and flash and loses the rest. -/
def Obligations.ColdPowerUpLoses : Prop :=
  ∀ (orderErr : Bool) (s : State), ∃ t, exec (.coldPowerUp orderErr) s = .next t ∧
    t = { State.reset with pending := s.pending, pwr := t.pwr, flash := s.flash, rnd := t.rnd, mem := t.mem, fresh := t.fresh } ∧
    t.rnd.lc = s.rnd.lc ∧ t.rnd.slots = s.rnd.slots ∧ t.rnd.svnFused = s.rnd.svnFused ∧ t.rnd.epochs = s.rnd.epochs ∧
    t.rnd.secretBurned = s.rnd.secretBurned ∧ t.rnd.grade = s.rnd.grade ∧ t.rnd.serial = s.rnd.serial ∧
    t.mem.pantry = [] ∧ t.mem.ret = [] ∧ t.mem.sram = [] ∧ t.mem.owner = [] ∧
    t.pwr.phase = .held ∧ t.pwr.resetN = false ∧ t.pwr.seqErr = orderErr ∧ t.pwr.railsOut = s.pwr.railsOut

/-- RESET_N_FALL and PWR_GOOD_FALL. -/
def Obligations.WarmResetPins : Prop :=
  (∀ (ns : Nat) (s : State), ns < 1000 → exec (.resetNFall ns) s = .next s) ∧
  (∀ (ns : Nat) (s : State), 1000 ≤ ns → s.pwr.resetN = true → ∃ t, exec (.resetNFall ns) s = .next t ∧
    t = { s.warmReset 1 with pwr := t.pwr } ∧ t.pwr.resetN = false ∧ t.pwr.phase = .held ∧ t.pwr.last = 1 ∧
    t.pwr.warmCount = min 65535 (s.pwr.warmCount + 1) ∧ t.clk.tnValid = false ∧ t.clk.tick = s.clk.tick ∧ t.sealed = false ∧
    t.regs = s.keepRegs ∧ t.sealImg = s.sealImg ∧ t.flash = s.flash ∧ t.rnd.lc = s.rnd.lc ∧ t.prn = s.prn ∧
    t.mem.ret = s.mem.ret ∧ t.nrg.budget = s.nrg.budget) ∧
  (∀ s : State, s.pwr.pwrGood = true → s.pwr.resetN = true → ∃ t, exec .pwrGoodFall s = .next t ∧
    t = { s.warmReset 2 with pwr := t.pwr } ∧ t.pwr.pwrGood = false ∧ t.pwr.phase = .held ∧ t.pwr.last = 2 ∧
    t.pwr.warmCount = min 65535 (s.pwr.warmCount + 1) ∧ t.clk.tnValid = false ∧ t.clk.tick = s.clk.tick ∧ t.sealed = false ∧
    t.regs = s.keepRegs ∧ t.sealImg = s.sealImg ∧ t.flash = s.flash ∧ t.rnd.lc = s.rnd.lc ∧ t.prn = s.prn ∧
    t.mem.ret = s.mem.ret ∧ t.nrg.budget = s.nrg.budget)

/-- RESET_N_RISE and PWR_GOOD_RISE. -/
def Obligations.LeavingResetBoots : Prop :=
  (∀ (fl : Option Flash) (a0 : Bool) (fz : Option (BitVec 64 × Bool)) (s : State), s.pwr.resetN = false →
    ∃ t, exec (.resetNRise fl false a0 fz) s = .next t ∧ t.pwr.resetN = true ∧ t.pwr.i2cA0 = a0 ∧ t.pwr.phase = s.pwr.phase ∧
      t.flash = fl.getD s.flash) ∧
  (∀ (fl : Option Flash) (a0 : Bool) (fz : Option (BitVec 64 × Bool)) (s : State), s.pwr.resetN = false → s.pwr.phase = .held →
    exec (.resetNRise fl true a0 fz) s = .next (State.boot (State.checkTap (State.provision { s with
      flash := fl.getD s.flash, pwr := { s.pwr with resetN := true, pwrGood := true, i2cA0 := a0 } } fz)))) ∧
  (∀ s : State, s.pwr.resetN = true → s.pwr.pwrGood = false → s.pwr.phase = .held →
    exec .pwrGoodRise s = .next (State.boot { s with pwr := { s.pwr with pwrGood := true } })) ∧
  (∀ s : State, s.bootRom.bootToken.rnd.lc = .scrapped → s.boot.pwr.phase = .scrapped ∧
    s.boot.pwr.causes.getLsbD 5 = true) ∧
  (∀ s : State, let u := s.bootRom.bootToken
    u.rnd.lc ≠ .scrapped → u.slotCheck u.flash.slotA ≠ 0 → u.slotCheck u.flash.slotB ≠ 0 →
    s.boot.pwr.phase = .bootFail ∧ s.boot.pwr.causes.getLsbD 3 = true ∧
    s.boot.pwr.gpioFail = some (u.slotCheck u.flash.slotA, u.slotCheck u.flash.slotB)) ∧
  (∀ s : State, let u := s.bootRom.bootToken
    u.rnd.lc ≠ .scrapped → (u.slotCheck u.flash.slotA = 0 ∨ u.slotCheck u.flash.slotB = 0) →
    s.boot.pwr.phase = .running ∧ s.boot.pwr.codeLocked = true)

/-- CONTROL_RESTART_START, CONTROL_RESTART_END and WATCHDOG_EXPIRY. -/
def Obligations.ControlRestart : Prop :=
  (∀ (s : State) (x : RestartAct), s.up = true →
    s.restarts.find? (fun x => s.clk.tnValid && decide (x.n ≤ s.clk.tn)) = some x → ∃ t, exec .controlRestartStart s = .next t ∧
    t = (State.complete { s with restarts := s.restarts.filter (fun y => y.h ≠ x.h) } x.h 0 x.n 0).beginRestart x.staged ∧
    t.pwr.restart.isSome = true ∧ t.pwr.restarts = s.pwr.restarts + 1 ∧ t.fw = false) ∧
  (∀ s : State, s.up = true → s.pwr.restart.isSome = true → s.pwr.phase = .running → ∃ t, exec (.controlRestartEnd true) s = .next t ∧
    t.pwr.restart = none ∧ t.fw = true) ∧
  (∀ s : State, s.up = true → s.pwr.restart.isSome = true → exec (.controlRestartEnd false) s = .next (s.warmBoot 5)) ∧
  (∀ (core : Fin 4) (s : State), s.up = true → (s.pwr.wdogTicks.filter (fun t => decide (s.clk.tick < t + 8000000))).length < 2 →
    ∃ t, exec (.watchdogExpiry core) s = .next t ∧ t.pwr.wdogCount = (s.pwr.wdogCount + 1) % 65536 ∧ t.pwr.wdogCore = core.val ∧
      t.pwr.wdogDue = true ∧ (s.cal.role = .active → s.cal.yieldAt = none → t.cal.lastYield = 5)) ∧
  (∀ (core : Fin 4) (s : State), s.up = true → 2 ≤ (s.pwr.wdogTicks.filter (fun t => decide (s.clk.tick < t + 8000000))).length →
    ∃ u, exec (.watchdogExpiry core) s = .next (State.warmBoot u 4) ∧ u.pwr.wdogCount = (s.pwr.wdogCount + 1) % 65536)

/-- TICK_FAULT. -/
def Obligations.TickFaultRecorded : Prop :=
  (∀ (unit : Fin 8) (s : State), s.up = true → ∃ t, exec (.tickFault unit) s = .next t ∧
    let v := { s with clk := { s.clk with dropped := s.clk.dropped ++ [unit.val] } }
    t.sticky = (s.setSticky Reg.tickFault (BitVec.ofNat 32 (2 ^ unit.val))).sticky ∧ t.clk = v.clk ∧ t.drops unit.val = true ∧
    (s.cal.role ≠ .active → t = (v.setSticky Reg.tickFault (BitVec.ofNat 32 (2 ^ unit.val))).event [0] 0x0001 unit.val 0) ∧
    (s.cal.role = .active → s.cal.yieldAt = none → t.cal.yieldAt = some (s.clk.tick + 4) ∧ t.cal.lastYield = 4) ∧
    t.regs = s.regs ∧ t.mem = s.mem ∧ t.hrp = s.hrp ∧ t.sds = s.sds ∧ t.str = s.str ∧ t.col = s.col) ∧
  (∀ u : State,
    (u.drops 0 = true → u.clk.slotsDone = false → u.slotsNow = { u with clk := { u.clk with slotsDone := true } }) ∧
    (u.drops 3 = true → u.mapNow = u) ∧ (u.drops 6 = true → u.latch = u) ∧
    (u.drops 7 = true → u.cfgNow = u ∧ u.forceNow = u))

/-- The six block-reset commands, of the owner and of anyone else. -/
def Obligations.BlockResetsAsked : Prop :=
  ∀ (qp : Fin 16) (s : State), s.fw = true →
    (s.accessor qp = some 0 →
      (∀ c i, (c, i) ∈ [(Instr.mailboxBlockReset qp, 0), (.mgmtPortBlockReset qp 0, 1), (.mgmtPortBlockReset qp 1, 2),
        (.dumpEngineReset qp, 3), (.whiskBlockReset qp, 4), (.calrinBlockReset qp, 5)] → ∃ t, exec c s = .next t ∧
        t.pwr = { s.pwr with blkReq := s.pwr.blkReq ||| BitVec.ofNat 6 (2 ^ i) } ∧ t.mgp.resp = some .ack ∧
        t = { s with pwr := t.pwr, mgp := t.mgp, cnt := t.cnt }) ∧
      (∀ g : Fin 32, ∃ t, exec (.laneGroupReset qp g) s = .next t ∧
        t.pwr = { s.pwr with grpReq := s.pwr.grpReq ||| BitVec.ofNat 32 (2 ^ g.val) } ∧ t.mgp.resp = some .ack ∧
        t = { s with pwr := t.pwr, mgp := t.mgp, cnt := t.cnt })) ∧
    (s.accessor qp ≠ some 0 → ∀ c ∈ [Instr.mailboxBlockReset qp, .mgmtPortBlockReset qp 0, .mgmtPortBlockReset qp 1,
        .dumpEngineReset qp, .whiskBlockReset qp, .calrinBlockReset qp] ++ (List.finRange 32).map (Instr.laneGroupReset qp),
      ∃ t, exec c s = .next t ∧ t.mgp.resp = some .nak ∧ t = { s with mgp := t.mgp, cnt := t.cnt })

/-- ALERT_CAUSE_CHANGE, I2C_ACCESS and JTAG_INSTRUCTION. -/
def Obligations.PinsI2cTap : Prop :=
  (∀ (c : AlertCause) (on : Bool) (r d h : Byte) (s : State), ∃ t, exec (.alertCauseChange c on r d h) s = .next t ∧
    t = { s with pwr := t.pwr } ∧ t.pwr.railsOut = r ∧ t.pwr.tDie = d ∧ t.pwr.tHbm = h ∧
    t.pwr.causeByte.getLsbD (match c with | .overTemp => 0 | .supply => 1 | .oscLost => 2 | .hbmHot => 6) = on) ∧
  (∀ (a : BitVec 7) (wr : List Byte) (rd : Nat) (s : State), a = (if s.pwr.i2cA0 then 0x4D else 0x4C) →
    s.pwr.railsOut.getLsbD 7 = false → ∃ t, exec (.i2cAccess a wr rd) s = .next t ∧ t = { s with pwr := t.pwr } ∧
    let p := match wr with | b :: _ => b.toNat | [] => s.pwr.i2cPtr.toNat
    t.pwr = { s.pwr with i2cPtr := BitVec.ofNat 8 (p + rd), i2cData := (List.range rd).map (fun i => s.i2cByte ((p + i) % 256)) }) ∧
  (∀ (a : BitVec 7) (wr : List Byte) (rd : Nat) (s : State), a ≠ (if s.pwr.i2cA0 then 0x4D else 0x4C) →
    exec (.i2cAccess a wr rd) s = .next { s with pwr := { s.pwr with i2cData := [] } }) ∧
  (∀ (i : TapInstr) (s : State), exec (.jtagInstruction i) s =
    .next { s with pwr := { s.pwr with tap := if tapOffers s.rnd.lc (!s.pwr.resetN) i then i else .bypass } }) ∧
  (∀ r i, tapOffers .scrapped r i = true ↔ (i = .bypass ∨ i = .idcode)) ∧
  (∀ r, tapOffers .owned r .scan = false ∧ tapOffers .owned r .coreDebug = false ∧ tapOffers .owned r .caveDiag = false)

/-- SOURCE_ACTIVITY_LOSS, SOURCE_QUALIFIED and REFERENCE_WTR_EXPIRY. -/
def Obligations.SourceStates : Prop :=
  (∀ (i : Fin 38) (e : Nat) (s : State), s.up = true → (s.src i).active = true → s.edgeFree i (max e (s.src i).edgeAt) = true →
    ∃ t, exec (.sourceActivityLoss ⟨i, e⟩) s = .next t ∧
    t.src i = { s.src i with active := false, inWindow := false, freq := 0, qualified := false, reason := 1, since := none,
                             hist := [], lostAt := some (max e (s.src i).edgeAt) } ∧
    ((s.src i).qualified = true → s.selects i = true → t.str.held = true) ∧ t.str.word = s.str.word ∧ t.str.st = s.str.st ∧
    (∀ j, j ≠ i.val → t.src j = s.src j) ∧ t = { s with str := t.str }) ∧
  (∀ (i : Fin 38) (s : State) (n : Nat), s.up = true → (s.src i).since = some n → (s.src i).active = true → (s.src i).inWindow = true →
    (s.src i).qualified = false → s.srcBar i = 0 → n + s.qualTime ≤ s.clk.tick → ∃ t, exec (.sourceQualified i) s = .next t ∧
    t.src i = { s.src i with qualified := true, reason := 0, outlier := false } ∧
    (∀ j, j ≠ i.val → t.src j = s.src j) ∧ t = { s with str := { s.str with srcs := t.str.srcs } }) ∧
  (∀ (k : Fin 16) (s : State) (n : Nat), s.up = true → s.str.selSince.look 0 k = n + 1 → n + s.selWtr ≤ s.clk.tick →
    ∃ t, exec (.referenceWtrExpiry k) s = .next t ∧ t.str.wtrDone.look false k = true ∧
    (∀ j, j ≠ k.val → t.str.wtrDone.look false j = s.str.wtrDone.look false j) ∧ t = { s with str := { s.str with wtrDone := t.str.wtrDone } })

/-- STARTER_LOCK, HOLDOVER_LIMIT_EXPIRY, ACQ_TMO_EXPIRY, LOOP_BANDWIDTH_STEP and TRANSITION_END. -/
def Obligations.StarterTransitions : Prop :=
  (∀ (s : State) (n : Nat), s.up = true → s.str.goodSince = some n → s.atPeriod = true → s.str.st = .acquiring →
    n + 8000000 ≤ s.clk.tick → ∃ u, exec .starterLock s = .next (State.event u [0] 0x0050 2 (s.str.sel.getD 0)) ∧
      u = { s with str := u.str } ∧ u.str.st = .locked ∧ u.str.enterTick = s.clk.tick ∧ u.str.bwStep = 0 ∧ u.str.lockedOnce = true ∧
      u.str.word = s.str.word ∧ u.str.sel = s.str.sel) ∧
  (∀ s : State, s.up = true → s.atPeriod = true → s.str.st = .holdover → s.str.enterTick + s.hoLimit ≤ s.clk.tick →
    ∃ t, exec .holdoverLimitExpiry s = .next t ∧ t.str.st = .lost ∧ t.str.enterTick = s.clk.tick ∧ t.str.word = s.str.word ∧
      (s.cal.role ≠ .active → s.cal.role ≠ .suspended → ∃ u : State, t = u.event [0] 0x0050 4 (s.str.sel.getD 0) ∧ u = { s with str := t.str }) ∧
      (s.cal.role = .active → s.cal.yieldAt = none → t.cal.yieldAt = some (s.clk.tick + 4) ∧ t.cal.lastYield = 2)) ∧
  (∀ (s : State) (k : Nat), s.up = true → s.str.sel = some k → s.atPeriod = true → s.str.st = .acquiring →
    s.str.selTick + s.acqTmo ≤ s.clk.tick → ∃ t, exec .acqTmoExpiry s = .next t ∧
      (t.src (s.entSource k)).qualified = false ∧ (t.src (s.entSource k)).reason = 5 ∧ (t.src (s.entSource k)).since = none ∧
      t.str.st = .acquiring ∧ t.str.word = s.str.word ∧ t = { s with str := t.str }) ∧
  (∀ s : State, s.up = true → s.atPeriod = true → s.str.st = .locked → s.str.bwStep < 4 →
    s.str.enterTick + 15 * 8000000 * (s.str.bwStep + 1) ≤ s.clk.tick →
    exec .loopBandwidthStep s = .next { s with str := { s.str with bwStep := s.str.bwStep + 1 } }) ∧
  (∀ s : State, s.up = true → s.str.trans = true → s.offsetNow = 0 →
    exec .transitionEnd s = .next { s with str := { s.str with trans := false, offset := 0, offTick := s.clk.tick } })

/-- REF_CONFIG_APPLY, REF_FORCE_APPLY, PHASE_STEP_APPLY and PHASE_STEP_END. -/
def Obligations.StarterCommandsApply : Prop :=
  (∀ (s : State) (c : RefCfg), s.up = true → s.cfgDue = some c → s.drops 7 = false →
    ∃ u, exec .refConfigApply s = .next (State.complete u c.h 0 c.at_ 0) ∧ u = { s.cycle1 with str := u.str, regs := u.regs } ∧
      (∀ k, k < 25 → c.mask / 2 ^ k % 2 = 1 → u.reg (rcReg k) = if k < 16 then prioWord (c.words.getD k 0) else c.words.getD k 0) ∧
      (∀ a, (∀ k, k < 25 → c.mask / 2 ^ k % 2 = 1 → a ≠ rcReg k) → u.reg a = s.reg a) ∧
      u.str.cfgs = s.str.cfgs.filter (fun y => y.h ≠ c.h) ∧ u.str.offset = s.offsetNow ∧ u.str.offTick = s.clk.tick ∧
      u.str.st = s.str.st ∧ u.str.word = s.str.word) ∧
  (∀ (s : State) (c : RefForce), s.up = true → s.forceDue = some c → s.drops 7 = false →
    ∃ u, exec .refForceApply s = .next (State.complete u c.h 0 c.at_ 0) ∧ u = { s.cycle1 with str := u.str } ∧
      u.str.forces = s.str.forces.filter (fun y => y.h ≠ c.h) ∧ u.str.st = s.str.st ∧
      (c.action = 0 → u.str.forced = some c.entry ∧ u.str.lockout = s.str.lockout ∧ u.str.hoForced = s.str.hoForced) ∧
      (c.action = 1 → c.entry ∈ u.str.lockout ∧ u.str.forced = s.str.forced ∧ u.str.hoForced = s.str.hoForced) ∧
      (c.action = 2 → c.entry ∉ u.str.lockout ∧ u.str.forced ≠ some c.entry ∧ u.str.hoForced = s.str.hoForced ∧
        ∀ j, j ≠ c.entry → (j ∈ u.str.lockout ↔ j ∈ s.str.lockout)) ∧
      (c.action = 3 → u.str.forced = none ∧ u.str.lockout = [] ∧ u.str.hoForced = false) ∧
      (c.action = 4 → u.str.hoForced = true ∧ u.str.forced = s.str.forced ∧ u.str.lockout = s.str.lockout)) ∧
  (∀ (s : State) (x : Machine.Step), s.up = true → s.stepDue = some x → s.drops 7 = false →
    (s.atPeriod = false ∨ s.clk.perDone = true) → ∃ u, exec .phaseStepApply s = .next (State.complete u x.h 0 x.n 0) ∧
      u = { s.cycle1.refsNow with str := { s.cycle1.refsNow.str with steps := u.str.steps, step := u.str.step, phase := u.str.phase } } ∧
      u.str.steps = s.str.steps.filter (fun z => z.h ≠ x.h) ∧ u.str.step = some x ∧
      u.str.phase = s.str.phase + (match s.str.step with | some o => o.s | none => 0)) ∧
  (∀ (s : State) (x : Machine.Step), s.up = true → s.str.step = some x → x.n + x.m ≤ s.tnNow + 1 →
    exec .phaseStepEnd s = .next { s with str := { s.str with step := none, phase := s.str.phase + x.s } })

/-- TN_LOAD, TOD_MESSAGE, PPS_IN_EDGE, TOD_OUT_SEND and LO_REGISTER_READ. -/
def Obligations.TickNumberSources : Prop :=
  (∀ (q : Fin 16) (s : State), s.up = true → s.accessor q = some 0 → ∃ t, exec (.tnLoad q) s = .next t ∧ t.mgp.resp = some .ack ∧
    t.clk.loadReq = (s.clk.loadReq || (decide (s.tnSrc = 3) && !s.clk.tnValid && !s.sealed)) ∧ t.clk.tnValid = s.clk.tnValid ∧ t.clk.tn = s.clk.tn) ∧
  (∀ (q : Fin 16) (s : State), s.up = true → s.accessor q ≠ some 0 → ∃ t, exec (.tnLoad q) s = .next t ∧ t.mgp.resp = some .nak ∧ t.clk = s.clk) ∧
  (∀ (b : List Byte) (s : State), s.up = true → exec (.todMessage b) s = .next
    (match todOk b with | some m => { s with clk := { s.clk with todMsg := some (m.1, m.2, s.clk.tick) } } | none => s)) ∧
  (∀ (s : State) (sec ql n : Nat), s.up = true → s.clk.todMsg = some (sec, ql, n) → n + 80000 ≤ s.clk.tick → s.clk.tick ≤ n + 7920000 →
    ∃ t, exec .ppsInEdge s = .next t ∧ t.clk.todMsg = none ∧ t.clk.todMiss = 0 ∧
    (t.src 37).qlRx = (if qlValid ql then ql else 15) ∧
    (s.tnSrc ≠ 1 → t.clk.tnValid = s.clk.tnValid ∧ t.clk.tn = s.clk.tn) ∧
    (s.tnSrc = 1 → s.clk.tnValid = false → t.clk.tnValid = true ∧ t.clk.tn = 8000000 * sec) ∧
    (s.tnSrc = 1 → s.clk.tnValid = true → t.clk.tnValid = true ∧ t.clk.tn = s.clk.tn) ∧
    (s.tnSrc = 1 → s.clk.tnValid = true → (s.clk.tn + 4000000) / 8000000 ≠ sec → ∃ u : State,
      t = (u.setSticky Reg.tnStatus 1).event [0] 0x0002 0 (8000000 * sec))) ∧
  (∀ s : State, s.up = true → s.clk.todMsg = none → ∃ t, exec .ppsInEdge s = .next t ∧ t.clk.todMiss = s.clk.todMiss + 1 ∧
    t.clk.tn = s.clk.tn ∧ t.clk.tnValid = s.clk.tnValid ∧
    (s.clk.todMiss = 3 → (t.src 37).qualified = false ∧ (t.src 37).reason = 7) ∧
    (s.clk.todMiss ≠ 3 → t.src 37 = { s.src 37 with active := true, edgeAt := s.clk.tick, lostAt := none } ∧
      t = { s with clk := t.clk, str := { s.str with srcs := t.str.srcs } })) ∧
  (∀ s : State, s.up = true → s.secClock % 8000000 = 4000000 → ∃ t, exec .todOutSend s = .next t ∧
    t.clk.todOut = some (s.todBytes (s.secClock / 8000000 + 1)) ∧ t = { s with clk := t.clk, fresh := s.fresh + 2 }) ∧
  (∀ (q : Fin 16) (s : State) (a : Nat) (hi lo : Word), s.fw = true → s.accessor q = some 0 → (s.pairAt a).isSome = true → s.shown.pairAt a = some (hi, lo) →
    ∃ t, exec (.loRegisterRead q a) s = .next t ∧ t.mgp.resp = some (.data (wordBytes (s.readReg a).1)) ∧
    t.clk.loCap.look 0 (a + 4) = hi ∧ t.regs = s.regs)

/-- SECOND_BOUNDARY. -/
def Obligations.SecondBoundaryLatches : Prop :=
  ∀ s : State, s.up = true → s.atSecond = true → s.clk.secDone = false → s.drops 6 = false →
    ∃ t, exec .secondBoundary s = .next t ∧ let v := s.cycle0
    t.clk = { s.clk with secDone := true, ppsHighUntil := s.clk.tick + 800000 } ∧ t.cnt.latched = v.cnt.start ∧ t.cnt.latchTn = s.clk.tn ∧
    t.cnt.live = (if v.cnt.cut then v.cnt.live
      else (v.cnt.live.map (fun (x : Nat × Counter) => (x.1, { x.2 with wrapSec := false }))).filter (fun x => decide (x.2 ≠ {}))) ∧
    t.str = s.holdSample.str ∧
    (1 ≤ s.clk.tn → t.str.hoRing.look 0 (s.clk.tn / 8000000 - 1) = if s.str.secCnt = 0 then s.str.word else roundDiv s.str.secSum s.str.secCnt) ∧
    (s.fabRole ≠ 0 → ∀ l ∈ v.groupsIn .up, ∃ m ∈ t.fab.sendQ, m.link = some l ∧ m.type = 1)

/-- SELECTION_PERIOD_BOUNDARY. -/
def Obligations.SelectionPeriodRuns : Prop :=
  ∀ (m : PeriodIn) (s : State), s.up = true → s.atPeriod = true → s.clk.perDone = false → ∃ t, exec (.selectionPeriodBoundary m) s = .next t ∧
    let v := s.cycle1.refsNow
    t.clk = { v.clk with perDone := true } ∧ v.clk.tick = s.clk.tick ∧ v.clk.tn = s.clk.tn ∧ v.clk.tnValid = s.clk.tnValid ∧
    (s.drops 7 = false → t.str = (({ v with clk := { v.clk with perDone := true } } : State).starterPeriod m).str) ∧
    (s.drops 7 = true → t.str = v.str) ∧
    (let p := (m.dom.take 6).sum
     t.nrg.measured = p ∧ t.nrg.dom = m.dom.take 6 ∧ t.nrg.periodE = (p + 500) / 1000 ∧
     t.nrg.energy = (s.nrg.energy + (p + 500) / 1000) % 2 ^ 64 ∧ t.nrg.headroom = s.nrg.budget - max v.committed p - v.reserve ∧
     t.nrg.overrun = decide (s.nrg.budget < p) ∧ t.nrg.budget = s.nrg.budget ∧ (s.nrg.budget < p → t.nrg.stopped = true)) ∧
    t.regs = v.regs ∧ (v.noSleep = true → t.pwr.asleep = []) ∧
    (∀ c, c ∈ t.pwr.asleep → c ∈ [1, 2, 3])

/-- The choice of State.choose. -/
def Obligations.SelectionIsBest : Prop :=
  (∀ (s : State) (k : Nat), s.str.forced = none → (∀ j, s.str.sel = some j → s.selectable j = false) →
    s.choose = some k → k < 16 ∧ s.selectable k = true ∧
      ∀ j, j < 16 → s.selectable j = true → s.entRank k < s.entRank j ∨ (s.entRank k = s.entRank j ∧ k ≤ j)) ∧
  (∀ s : State, s.str.forced = none → (∀ j, s.str.sel = some j → s.selectable j = false) →
    (s.choose = none ↔ ∀ j, j < 16 → s.selectable j = false)) ∧
  (∀ (s : State) (k : Nat), s.str.forced = some k → s.entUsed k = true → s.qualified (s.entSource k) = true → s.choose = some k) ∧
  (∀ (s : State) (j : Nat), s.str.forced = none → s.str.sel = some j → s.selectable j = true → s.selRevert = false → s.choose = some j)

/-- CAPABILITY_WORD, LADDER_T_ALIGN_EXPIRY and LADDER_T_NEG_EXPIRY. -/
def Obligations.LadderNegotiates : Prop :=
  (∀ (n : Fin 256) (w : BitVec 64) (s : State), s.up = true → (s.lane n).cap = some w → capOk w = true → capAct w = 1 →
    (s.group (n.val / 8)).st = .negotiate → s.seqFits n (capSeqOf w) = true →
    ∃ t, exec (.capabilityWord n w) s = .next t ∧ (t.group (n.val / 8)).exch = capExch w ∧
      ((s.partLanes (n.val / 8)).all (fun m => s.offers m (capTarget w)) = true → (t.group (n.val / 8)).target = capTarget w ∧
        (t.group (n.val / 8)).sendAct = 2 ∧ (t.group (n.val / 8)).ownDone = false ∧ (t.group (n.val / 8)).ownSeq.isSome = true ∧
        (capTarget w ≠ 0 → (t.group (n.val / 8)).st = .step ∧ (t.group (n.val / 8)).farSeq = some (capSeqOf w) ∧
          (t.group (n.val / 8)).farDone = false) ∧
        (capTarget w = 0 → (t.group (n.val / 8)).st = .inService)) ∧
      ((s.partLanes (n.val / 8)).all (fun m => s.offers m (capTarget w)) = false → (t.group (n.val / 8)).st = .negotiate ∧
        (t.group (n.val / 8)).sendAct = 3)) ∧
  (∀ (n : Fin 256) (w : BitVec 64) (s : State), s.up = true → (s.lane n).cap = some w → capOk w = true → capAct w = 2 →
    capExch w = (s.group (n.val / 8)).exch → (s.group (n.val / 8)).sendAct = 1 →
    (s.group (n.val / 8)).st = .negotiate → s.seqFits n (capSeqOf w) = true → capTarget w = (s.group (n.val / 8)).target →
    ∃ t, exec (.capabilityWord n w) s = .next t ∧ (t.group (n.val / 8)).rung = (s.group (n.val / 8)).rung ∧
      (capTarget w ≠ 0 → (t.group (n.val / 8)).st = .step ∧ (t.group (n.val / 8)).farSeq = some (capSeqOf w) ∧ (t.group (n.val / 8)).farDone = false) ∧
      (capTarget w = 0 → (t.group (n.val / 8)).st = .inService)) ∧
  (∀ (n : Fin 256) (w : BitVec 64) (s : State), s.up = true → (s.lane n).cap = some w → capOk w = true → capAct w = 3 →
    capExch w = (s.group (n.val / 8)).exch → (s.group (n.val / 8)).st = .negotiate → (s.group (n.val / 8)).sendAct = 1 →
    ∃ u, exec (.capabilityWord n w) s = .next (State.propose u (n.val / 8)) ∧
      u = { s with sds := u.sds } ∧
      (u.group (n.val / 8)).cleared = (s.group (n.val / 8)).cleared ||| BitVec.ofNat 4 (2 ^ (s.group (n.val / 8)).target) ∧ u.sds.lane = s.sds.lane) ∧
  (∀ (n : Fin 256) (w : BitVec 64) (s : State), s.up = true → (s.lane n).cap = some w → capOk w = true → capAct w = 2 ∨ capAct w = 3 →
    capExch w ≠ (s.group (n.val / 8)).exch → (s.group (n.val / 8)).st = .negotiate → ∃ t, exec (.capabilityWord n w) s = .next t ∧
      t = { s with sds := t.sds } ∧ ∀ g, t.group g = { s.group g with farOffer := (t.group g).farOffer }) ∧
  (∀ (g : Fin 32) (s : State), s.up = true → (s.group g).st = .r0Align → (s.group g).since + s.tAlign g ≤ s.clk.tick →
    ∃ u, exec (.ladderTAlignExpiry g) s = .next (State.tryNegotiate u g) ∧ u = { s with sds := u.sds } ∧ u.sds.group = s.sds.group ∧
      (∀ n, u.lane n = if n ∈ s.partLanes g ∧ s.bothInFrame n = false then { s.lane n with noPeer := true } else s.lane n)) ∧
  (∀ (g : Fin 32) (s : State), s.up = true → (s.group g).st = .negotiate → (s.group g).since + s.tNeg g ≤ s.clk.tick →
    ∃ t, exec (.ladderTNegExpiry g) s = .next t ∧ (t.group g).st = .r0Align ∧ (t.group g).rung = 0 ∧ (t.group g).txRung = 0 ∧
      (t.group g).since = s.clk.tick ∧ (∀ h, h ≠ g.val → t.group h = s.group h) ∧
      t.sticky = (if s.grpLead g ∨ (s.partLanes g).any (fun n => match (s.lane n).cap with | some w => capLead w | none => false)
        then s.sticky else (s.setSticky (Reg.grpStatus g) 0x00200000).sticky))

/-- STEP_SWITCH, LADDER_T_VERIFY_EXPIRY and LANE_DROP. -/
def Obligations.LadderSwitchesAndFalls : Prop :=
  (∀ (g : Fin 32) (far : Bool) (q : BitVec 24) (s : State), s.up = true → (s.group g).st = .step →
    (if far then (s.group g).farSeq else (s.group g).ownSeq) = some q → (if far then (s.group g).farDone else (s.group g).ownDone) = false →
    s.seqReached q = true → ∃ t, exec (.stepSwitch g far) s = .next t ∧
      (t.group g).rung = (if far then (s.group g).target else (s.group g).rung) ∧
      (t.group g).txRung = (if far then (s.group g).txRung else (s.group g).target) ∧
      (if far then (t.group g).farDone else (t.group g).ownDone) = true ∧
      ((if far then (s.group g).ownDone else (s.group g).farDone) = false → (t.group g).st = .step) ∧
      ((if far then (s.group g).ownDone else (s.group g).farDone) = true → (t.group g).st = .verify ∧ (t.group g).since = s.clk.tick)) ∧
  (∀ (g : Fin 32) (s : State), s.up = true → (s.group g).st = .verify → (s.group g).since + s.tVerify g ≤ s.clk.tick →
    (∀ n ∈ s.partLanes g, s.verified n (s.group g).since (s.tVerify g) = true ∧ ∃ w, (s.lane n).cap = some w ∧ capReady w = true ∧ capAct w ≠ 1) →
    ∃ u, exec (.ladderTVerifyExpiry g) s = .next (State.event u [0] 0x0010 g (s.group g).rung) ∧ (u.group g).st = .inService ∧
      (u.group g).rung = (s.group g).rung ∧
      u = { s with sds := u.sds, str := (s.setSrc g { s.src g with qualified := false, since := none }).str }) ∧
  (∀ (g : Fin 32) (s : State) (n : Nat), s.up = true → (s.group g).st = .verify → (s.group g).since + s.tVerify g ≤ s.clk.tick →
    n ∈ s.partLanes g → s.verified n (s.group g).since (s.tVerify g) = false → s.grpIsolate g = false →
    ∃ t, exec (.ladderTVerifyExpiry g) s = .next t ∧ (t.group g).st = .fallback ∧ (t.group g).ceil = (s.group g).rung - 1 ∧
      (t.group g).target = 0 ∧ (t.group g).sendAct = 1) ∧
  (∀ (n : Fin 256) (s : State) (d : Nat), s.up = true → (s.lane n).dropSince = some d → (s.group (n.val / 8)).st = .inService →
    s.takesPart n = true → d + s.dropTime (n.val / 8) ≤ s.clk.tick → ∃ t, exec (.laneDrop n) s = .next t ∧
      ((s.group (n.val / 8)).rung = 0 → (t.group (n.val / 8)).st = .r0Align) ∧
      ((s.group (n.val / 8)).rung ≠ 0 → s.grpIsolate (n.val / 8) = false → (t.group (n.val / 8)).st = .fallback ∧
        (t.group (n.val / 8)).ceil = (s.group (n.val / 8)).rung - 1 ∧ (t.group (n.val / 8)).sendAct = 1) ∧
      ((s.group (n.val / 8)).rung ≠ 0 → s.grpIsolate (n.val / 8) = true → (s.partLanes (n.val / 8)).length ≠ 1 →
        t = s.setLane n { s.lane n with isolated := true }))

/-- LANE_DIRECTION_SETTLED, LANE_WAKE_VERIFY_EXPIRY, LANE_LOOP_APPLY, LOOP_GRANT_RELEASE and EYE_SCAN_END. -/
def Obligations.LaneDirections : Prop :=
  (∀ (n : Fin 256) (s : State) (d : Nat), s.up = true → (s.lane n).txDue = some d → d ≤ s.clk.tick →
    ∃ t, exec (.laneDirectionSettled n false) s = .next t ∧ (t.lane n).tx = (s.lane n).txCmd ∧ (t.lane n).txDue = none ∧
      (t.lane n).rx = (s.lane n).rx ∧ (t.lane n).txCmd = (s.lane n).txCmd) ∧
  (∀ (n : Fin 256) (s : State) (d : Nat), s.up = true → (s.lane n).rxDue = some d → d ≤ s.clk.tick →
    ∃ t, exec (.laneDirectionSettled n true) s = .next t ∧ (t.lane n).rx = (s.lane n).rxCmd ∧ (t.lane n).rxDue = none ∧
      ((t.lane n).rxReady = true ↔ (s.lane n).rxCmd = .active) ∧ ((s.lane n).rxCmd = .active → (t.rx n).align = .hunt) ∧
      ((s.lane n).rxCmd ≠ .active → (s.lane n).rx = .active → (t.rx n).align = .hunt)) ∧
  (∀ (n : Fin 256) (s : State) (d : Nat), s.up = true → (s.lane n).wakeDue = some d → d ≤ s.clk.tick →
    (s.group (n.val / 8)).st = .inService → exec (.laneWakeVerifyExpiry n) s = .next (s.setLane n { s.lane n with
      wakeDue := none, isolated := (s.lane n).isolated || !s.verified n (d - s.tVerify (n.val / 8)) (s.tVerify (n.val / 8)) })) ∧
  (∀ (n : Fin 256) (s : State) (a : LoopAct), s.up = true →
    s.loopDue n = some a →
    ∃ u, exec (.laneLoopApply n) s = .next (State.complete u a.h (if a.mode = 0 ∨ s.loopOk n a.mode = true then 0 else eState) a.n 0) ∧
      (u.lane n).loop = (if s.loopOk n a.mode then a.mode else 0) ∧ (∀ b ∈ u.sds.loops, b.h ≠ a.h)) ∧
  (∀ (n : Fin 256) (s : State), s.up = true → (s.lane n).loop ≠ 0 → (s.lane n).loopMaint = true → s.granted n s.tnNow = false →
    ∃ t, exec (.loopGrantRelease n) s = .next t ∧ (t.lane n).loop = 0 ∧ (t.lane n).loopMaint = false) ∧
  (∀ (n : Fin 256) (pts : List Nat) (v : BitVec 16) (s : State) (c : Scan) (b : Nat), s.up = true →
    s.sds.scans.find? (fun c => decide (c.lane = n.val) && c.start.isSome) = some c → c.start = some b → b + 4096 * (c.dwell + 2) ≤ s.clk.tick →
    ∃ u, exec (.eyeScanEnd n pts v) s = .next (State.complete u c.h 0 (s.tnNow - (s.clk.tick - b)) 4096) ∧
      u.sds.scans = s.sds.scans.filter (fun x => x.h ≠ c.h) ∧ u.sds.lane = s.sds.lane)

/-- LANE_DEFECT_DECLARE, LANE_DEFECT_CLEAR, LANE_FAIL and LANE_CLEAR. -/
def Obligations.LaneDefectsAndFailures : Prop :=
  (∀ (n : Fin 256) (d : Fin 4) (m : Nat) (s : State), s.up = true → (s.lane n).rx = .active → s.declared n d = false →
    s.heldFor n d m (s.laneSet n d) true = true → ∃ t, exec (.laneDefectDeclare n d m) s = .next t ∧ t.declared n d = true ∧
      (t.laneDef n d).decSince = s.clk.tick ∧ (t.laneDef n d).failed = (s.laneDef n d).failed ∧ (∀ k, k ≠ n.val → t.rx k = s.rx k)) ∧
  (∀ (n : Fin 256) (d : Fin 4) (m : Nat) (s : State), s.up = true → s.declared n d = true →
    s.heldFor n d m (s.laneClr n d) false = true → ∃ t, exec (.laneDefectClear n d m) s = .next t ∧ t.declared n d = false ∧
      (t.laneDef n d).decSince = s.clk.tick ∧ (t.laneDef n d).failed = (s.laneDef n d).failed ∧ (∀ k, k ≠ n.val → t.rx k = s.rx k)) ∧
  (∀ (n : Fin 256) (d : Fin 4) (s : State), s.up = true → s.atPeriod = true → s.declared n d = true → (s.laneDef n d).failed = false →
    (s.laneDef n d).decSince + s.failSet (n.val / 8) ≤ s.clk.tick → ∃ u : State, exec (.laneFail n d) s = .next (u.emit [0, 64]
      ⟨0x0012, decide ((s.lane n).loop ≠ 0), false, n, s.tnNow, BitVec.ofNat 64 d, 0⟩) ∧ u = { s with frm := u.frm } ∧
      u.laneDef n d = { s.laneDef n d with failed := true } ∧ (∀ k, k ≠ n.val → u.rx k = s.rx k)) ∧
  (∀ (n : Fin 256) (d : Fin 4) (s : State), s.up = true → s.atPeriod = true → s.declared n d = false → (s.laneDef n d).failed = true →
    (s.laneDef n d).decSince + s.failClr (n.val / 8) ≤ s.clk.tick → ∃ u : State, exec (.laneClear n d) s = .next (u.emit [0, 64]
      ⟨0x0013, decide ((s.lane n).loop ≠ 0), false, n, s.tnNow, BitVec.ofNat 64 d, 0⟩) ∧ u = { s with frm := u.frm } ∧
      u.laneDef n d = { s.laneDef n d with failed := false } ∧ (∀ k, k ≠ n.val → u.rx k = s.rx k))

/-- GROUP_TIMING_WRITE, BOARD_TABLE_LOAD, BOARD_TABLE_VERIFY_DONE and OVERHEAD_PACKET. -/
def Obligations.SetupAndBridge : Prop :=
  (∀ (q : Fin 16) (g : Fin 32) (f : Bool) (s : State), s.up = true → s.accessor q = some 0 → ∃ t, exec (.groupTimingWrite q g f) s = .next t ∧
    t.mgp.resp = some .ack ∧
    (s.sealed = false → (s.group g).st = .down → t.foreign g = f ∧ (∀ i, 1 ≤ i → i < 32 → (t.reg (Reg.frmGrp g)).getLsbD i = (s.reg (Reg.frmGrp g)).getLsbD i) ∧
      (∀ a, a ≠ Reg.frmGrp g → t.reg a = s.reg a)) ∧
    (s.sealed = true ∨ (s.group g).st ≠ .down → t.regs = s.regs)) ∧
  (∀ (q : Fin 16) (g : Fin 32) (f : Bool) (s : State), s.up = true → s.accessor q ≠ some 0 → ∃ t, exec (.groupTimingWrite q g f) s = .next t ∧
    t.mgp.resp = some .nak ∧ t.regs = s.regs) ∧
  (∀ (q : Fin 16) (s : State), s.up = true → s.accessor q = some 0 → ∃ t, exec (.boardTableLoad q) s = .next t ∧ t.mgp.resp = some .ack ∧
    t.sds = (if s.sealed then s.sds else { s.sds with bt := { s.sds.bt with state := 1 } })) ∧
  (∀ (ec lms : Bool) (s : State), s.up = true → s.sds.bt.state = 1 → ∃ t, exec (.boardTableVerifyDone ec lms) s = .next t ∧
    (let n := leAt (s.btBytes 64) 6 2
     let b := (s.btBytes (64 + 32 * n + 1868)).take (64 + 32 * n + 1868)
     t.sds.bt.state = btCheck b (ec && lms) ∧ (btCheck b (ec && lms) ≠ 2 → t.sds.bt.held = s.sds.bt.held) ∧
     (btCheck b (ec && lms) = 2 → s.sealed = true → t.sds.bt.held = s.sds.bt.held) ∧
     (btCheck b (ec && lms) = 2 → s.sealed = false → ∃ x, t.sds.bt.held = some x ∧ x.bytes = b ∧ x.rev = leAt b 20 4 ∧ x.recs.length = n)) ∧
    ((ec && lms) = false → t.sds.bt.held = s.sds.bt.held) ∧ t = { s with sds := { s.sds with bt := t.sds.bt } }) ∧
  (∀ (n : Fin 256) (s : State) (p : List Byte) (ps : List (List Byte)), s.up = true → (s.rx n).done2 = p :: ps →
    ∃ t, exec (.overheadPacket n) s = .next t ∧ t.frm.bridge = s.frm.bridge ++ [(n.val, p)] ∧ (t.rx n).done2 = ps ∧
      (∀ k, k ≠ n.val → t.rx k = s.rx k) ∧ t = { s with frm := t.frm })

/-- FRAME_RECEIVED: the alignment. -/
def Obligations.FrameAlignment : Prop :=
  (∀ (n : Fin 256) (f : RxFrame) (s : State), (s.lane n).rx ≠ .active ∨ s.nearLoop n = true → exec (.frameReceived n f) s = .next s) ∧
  ∀ (n : Fin 256) (f0 : RxFrame) (s : State), s.up = true → (s.lane n).rx = .active → (s.lane n).rxReady = true → s.nearLoop n = false →
    let f := s.readLine n f0
    let lock := (f.sync.foldl RxLane.sync (s.rx n)).blockLock
    ∃ t, exec (.frameReceived n f0) s = .next t ∧
    (s.rungOf n < 2 → (s.rx n).blockLock = true → lock = false → (t.rx n).align = .hunt) ∧
    (s.rungOf n < 2 → (s.rx n).blockLock = false → (t.rx n).align = (s.rx n).align ∧ (t.rx n).pos = (s.rx n).pos) ∧
    (2 ≤ s.rungOf n ∨ ((s.rx n).blockLock = true ∧ lock = true) → f.pos < positions (s.rungOf n) →
      ((s.rx n).align = .hunt → s.confirmed n f = false → (t.rx n).align = .hunt ∧
        (t.rx n).cands.look none f.pos =
          if s.passes n f then some (hdrLaneId f.hdr, hdrSeq f.hdr + BitVec.ofNat 24 (frameTicks (s.rungOf n))) else none) ∧
      ((s.rx n).align = .hunt → s.confirmed n f = true → (t.rx n).align = .inFrame ∧ (t.rx n).pos = f.pos) ∧
      ((s.rx n).align = .inFrame → f.pos = (s.rx n).pos → s.passes n f = false → (t.rx n).align = .oof ∧ (t.rx n).bad = 1) ∧
      ((s.rx n).align = .oof → f.pos = (s.rx n).pos → s.passes n f = false → (s.rx n).bad + 1 < 8 →
        (t.rx n).align = .oof ∧ (t.rx n).bad = (s.rx n).bad + 1) ∧
      ((s.rx n).align = .oof → f.pos = (s.rx n).pos → s.passes n f = false → 8 ≤ (s.rx n).bad + 1 → (t.rx n).align = .hunt) ∧
      ((s.rx n).align ≠ .hunt → f.pos = (s.rx n).pos → s.passes n f = true → (t.rx n).align = .inFrame ∧ (t.rx n).pos = f.pos) ∧
      ((s.rx n).align = .oof → f.pos ≠ (s.rx n).pos → s.fastFits n f = true → (t.rx n).align = .inFrame ∧ (t.rx n).pos = f.pos) ∧
      (∀ a, (s.rx n).align = .inFrame → f.pos ≠ (s.rx n).pos → (s.rx n).acc = some a → s.clk.tick < a.tick + frameTicks (s.rungOf n) →
        (a.align = .oof ∧ f.pos ≠ a.pos ∧ s.fastFits n f = true ∨ a.align = .hunt ∧ s.confirmed n f = true) →
        (t.rx n).align = a.align ∧ (t.rx n).pos = a.pos ∧ (t.stick (Reg.frmStatus n)).getLsbD 19 = true))

/-- WHEEL_OVERHEAD and FRAME_RECEIVED: the alignment of the Wheel. -/
def Obligations.WheelAlignment : Prop :=
  (∀ (n : Fin 65536) (mf : RxMf) (s : State), s.up = true → (s.wheel n).defined = true → (s.wheel n).k ≠ 0 →
    mf.words.length = 64 * (s.wheel n).k → ∃ t, exec (.wheelOverhead n mf) s = .next t ∧
    let x := s.wheel n
    let y := t.wheel n
    let h := mfOh x.k (s.mfOf x mf).words
    let good := ohGood h (areaOf x.k)
    (x.align = .hunt → good = false → y.align = .hunt ∧ y.cand = x.cand) ∧
    (x.align = .hunt → good = true → (mf.t0 - 64, ohOseq h - 1) ∉ x.cand → y.align = .hunt ∧ (mf.t0, ohOseq h) ∈ y.cand) ∧
    (x.align = .hunt → good = true → (mf.t0 - 64, ohOseq h - 1) ∈ x.cand → 64 ≤ mf.t0 → s.huntOk x = true →
      y.align = .inMf ∧ y.t0 = mf.t0 ∧ y.oseq = ohOseq h ∧ y.cnt = ohCnt h ∧ y.pt = ohPt h ∧ y.psig = ohPsig h ∧ y.aisw = ohAis h ∧ y.rdiw = ohRdi h ∧
        y.nextC = some (ohCnt h) ∧ y.presC = none) ∧
    (x.align ≠ .hunt → mf.t0 ≠ x.t0 + 64 → y.align = x.align ∧ y.bad = x.bad ∧ y.t0 = x.t0) ∧
    (x.align ≠ .hunt → mf.t0 = x.t0 + 64 →
      (good = true → y.align = .inMf ∧ y.bad = 0 ∧ y.oseq = ohOseq h ∧ y.cnt = ohCnt h ∧ y.t0 = mf.t0 ∧ y.presC = x.nextC ∧ y.nextC = some (ohCnt h) ∧
        y.oseqJump = (x.oseqJump || decide (ohOseq h ≠ x.oref + 1))) ∧
      (good = false → x.bad + 1 < 4 → y.align = .oom ∧ y.bad = x.bad + 1 ∧ y.oref = x.oref + 1 ∧ y.oseq = x.oseq ∧ y.presC = x.nextC ∧ y.nextC = x.nextC) ∧
      (good = false → 4 ≤ x.bad + 1 → y.align = .hunt))) ∧
  ∀ (n : Fin 256) (f : RxFrame) (s : State), s.up = true → (s.lane n).rx = .active → (s.lane n).rxReady = true → s.nearLoop n = false →
    ∃ t, exec (.frameReceived n f) s = .next t ∧
    let u := s.takeFrame n f
    ∀ w fi, (u.rx n).frames.getLast? = some fi →
      let l := u.readyTicks (u.wheel w) (hdrSeq fi.f.hdr)
      let apart := (u.wheel w).defined = true ∧ (u.wheel w).onLane n = true ∧ u.whlForeign (u.wheel w) = true ∧
        (u.wheel w).maxSkew + l.foldl min (l.headD 0) < l.foldl max 0
      (apart → (t.wheel w).align = .hunt ∧ (t.wheel w).skew = true) ∧ (¬apart → t.wheel w = u.wheel w)

/-- WHEEL_DEFECT_DECLARE and WHEEL_DEFECT_CLEAR. -/
def Obligations.WheelDefects : Prop :=
  ∀ (w : Fin 65536) (d : Fin 6) (s : State), s.up = true →
    let x := (s.wheel w).note (s.laneFault (s.wheel w))
    let up_ := if d.val = 5 then s.whlSet 5 ≤ x.excRun else (x.def_ d).raw = true ∧ s.whlSet d ≤ x.periodsOf (x.def_ d)
    let dn := if d.val = 5 then s.whlClr 5 ≤ x.excOk else (x.def_ d).raw = false ∧ s.whlClr d ≤ x.periodsOf (x.def_ d)
    ((s.wheel w).defined = true → (s.wheel w).dec d = false → up_ → ∃ u : State, exec (.wheelDefectDeclare w d) s = .next (u.event [(s.wheel w).owner] 0x0020 w (d + 256)) ∧
      u = { s with whl := u.whl } ∧ (u.wheel w).dec d = true ∧ ((u.wheel w).def_ d).decSince = s.clk.tick ∧ (∀ e : Fin 6, e ≠ d → (u.wheel w).dec e = (s.wheel w).dec e) ∧
      ∀ m, m ≠ w.val → u.wheel m = s.wheel m) ∧
    ((s.wheel w).defined = true → (s.wheel w).dec d = true → dn → ∃ u : State, exec (.wheelDefectClear w d) s = .next (u.event [(s.wheel w).owner] 0x0020 w d) ∧
      u = { s with whl := u.whl } ∧ (u.wheel w).dec d = false ∧ ((u.wheel w).def_ d).decSince = s.clk.tick ∧ (∀ e : Fin 6, e ≠ d → (u.wheel w).dec e = (s.wheel w).dec e) ∧
      ∀ m, m ≠ w.val → u.wheel m = s.wheel m) ∧
    ((s.wheel w).dec 0 = true ∨ s.laneFault (s.wheel w) = true → 1 ≤ d.val → d.val ≤ 4 → ∃ t : State, exec (.wheelDefectDeclare w d) s = .next t ∧ t = { s with whl := t.whl } ∧ (t.wheel w).dec d = (s.wheel w).dec d) ∧
    ((s.wheel w).defined = false ∨ ¬up_ → ∃ t : State, exec (.wheelDefectDeclare w d) s = .next t ∧ t = { s with whl := t.whl } ∧ ∀ e : Fin 6, (t.wheel w).dec e = (s.wheel w).dec e) ∧
    ((s.wheel w).defined = false ∨ ¬dn → ∃ t : State, exec (.wheelDefectClear w d) s = .next t ∧ t = { s with whl := t.whl } ∧ ∀ e : Fin 6, (t.wheel w).dec e = (s.wheel w).dec e)

/-- RETIMER_DECIDE and RETIMER_COUNT_DEADLINE. -/
def Obligations.RetimerCounts : Prop :=
  (∀ (r : Retimer) (a l held t : Nat), let q : Int := (l : Int) + ((held : Int) - (t : Int)) / 256
    let y := r.decide_ a l held t
    (r.started = false → held < t → y.own = some 0 ∧ y.started = false ∧ y.adoOwn = false) ∧
    (r.started = true ∨ t ≤ held → y.started = true ∧ ∃ c, y.own = some c ∧ c ≤ a ∧
      (q < 0 → c = 0 ∧ y.adoOwn = false) ∧ (0 ≤ q → q ≤ a → (c : Int) = q ∧ y.adoOwn = false) ∧ ((a : Int) < q → c = a ∧ y.adoOwn = true)) ∧
    y = { r with started := y.started, own := y.own, adoOwn := y.adoOwn }) ∧
  ∀ (w : Fin 65536) (s : State), s.up = true →
    let x := s.wheel w
    (s.drops 1 = true → exec (.retimerDecide w) s = .next s) ∧
    (s.retimed w = true → (s.drops 1 = false ∧ s.secClock % 64 = w.val % 64 ∧ x.ret.own = none →
        ∃ t : State, exec (.retimerDecide w) s = .next t ∧ t = { s with whl := t.whl } ∧ (∀ m, m ≠ w.val → t.wheel m = s.wheel m) ∧
          t.wheel w = { x with ret := x.ret.decide_ (768 * x.k - 96) x.ret.last (x.ret.held s.secClock) (x.ret.last / 32 + 192) }) ∧
      (¬(s.secClock % 64 = w.val % 64 ∧ x.ret.own = none) → exec (.retimerDecide w) s = .next s) ∧
      (s.copies = true ∧ s.secClock % 64 = (w.val + 32) % 64 ∧ x.ret.own.isSome = true ∧ x.ret.mate = none →
        ∃ t : State, exec (.retimerCountDeadline w) s = .next t ∧ t = { s with whl := t.whl, cal := { s.cal with diffSeen := true } } ∧ (∀ m, m ≠ w.val → t.wheel m = s.wheel m) ∧
          t.wheel w = { x with ret := { x.ret with mate := x.ret.own }, rtmDiff := min 65535 (x.rtmDiff + 1) }) ∧
      (¬(s.copies = true ∧ s.secClock % 64 = (w.val + 32) % 64 ∧ x.ret.own.isSome = true ∧ x.ret.mate = none) → exec (.retimerCountDeadline w) s = .next s)) ∧
    (∀ n, s.retimed w = false → s.retPair w = some n →
      let p := s.pair n
      let l := (s.wheel p.refWheel).cnt
      (s.drops 1 = false ∧ s.secClock % 64 = n % 64 ∧ p.locked = true ∧ p.ret.own = none →
        ∃ t : State, exec (.retimerDecide w) s = .next t ∧ t = { s with col := t.col } ∧ (∀ m, m ≠ n → t.pair m = s.pair m) ∧
          t.pair n = { p with ret := p.ret.decide_ (768 * p.k - 96) l (p.held s.secClock) (l / 32 + 192 + l * p.minLag / 64) }) ∧
      (¬(s.secClock % 64 = n % 64 ∧ p.locked = true ∧ p.ret.own = none) → exec (.retimerDecide w) s = .next s) ∧
      (s.copies = true ∧ s.secClock % 64 = (n + 32) % 64 ∧ p.ret.own.isSome = true ∧ p.ret.mate = none →
        ∃ t : State, exec (.retimerCountDeadline w) s = .next t ∧ t = { s with col := t.col, cal := { s.cal with diffSeen := true } } ∧ (∀ m, m ≠ n → t.pair m = s.pair m) ∧
          t.pair n = { p with ret := { p.ret with mate := p.ret.own }, colDiff := min 65535 (p.colDiff + 1) }) ∧
      (¬(s.copies = true ∧ s.secClock % 64 = (n + 32) % 64 ∧ p.ret.own.isSome = true ∧ p.ret.mate = none) → exec (.retimerCountDeadline w) s = .next s)) ∧
    (s.retimed w = false → s.retPair w = none → exec (.retimerDecide w) s = .next s ∧ exec (.retimerCountDeadline w) s = .next s)

/-- The allocator of the Harp. -/
def Obligations.BranchPlacement : Prop :=
  (∀ (p : Page) (k : Nat) (keep : List Nat) (i : Nat), i < 32768 → i ∉ p.usedIn (brIn k) → i ∉ p.usedOut (brOut k) →
    (∀ j < i, j ∈ p.usedIn (brIn k) ∨ j ∈ p.usedOut (brOut k)) → p.place k keep = .at_ p i 0) ∧
  (∀ (p q : Page) (k i m : Nat) (keep : List Nat), p.place k keep = .at_ q i m →
    i < 32768 ∧ i ∉ p.usedIn (brIn k) ∧ q = { p with br := q.br } ∧
    q.br.map (fun x => (x.1, x.2.refs)) = p.br.map (fun x => (x.1, x.2.refs)) ∧
    (∃ ks : List Nat, ks.length = m ∧ (∀ x ∈ ks, x ∉ keep) ∧
      (∀ (x : Nat × Branch), x ∈ p.br → x.1 ∉ ks → x ∈ q.br) ∧
      ∃ b, ∀ (x : Nat × Branch), x ∈ q.br → x.1 ∈ ks → x.2.slot = i ∨ x.2.slot = b)) ∧
  (∀ (p : Page) (slot : Nat), (p.eg.look {} slot).out = 0 → let k := (p.eg.look {} slot).br
    let b := p.br.look {} k
    ((p.free slot).eg.look {} slot = ({} : EgOut)) ∧ (∀ j, j ≠ slot → (p.free slot).eg.look {} j = p.eg.look {} j) ∧
    ((p.free slot).br.look {} k).refs = b.refs - 1 ∧ (1 < b.refs → ((p.free slot).br.look {} k).slot = b.slot) ∧
    (∀ j, j ≠ k → (p.free slot).br.look {} j = p.br.look {} j) ∧ (p.free slot).ent = p.ent)

/-- MAP_WRITE_EXECUTE and DEFERRED_ENTRY_PLACE. -/
def Obligations.MapWritesOfTick : Prop :=
  ∀ s : State,
    (s.executes = false → exec .mapWriteExecute s = .next s) ∧
    (s.executes = true → let v := s.boundary
      (∃ t, exec .mapWriteExecute s = .next t ∧ t.activeNo = v.activeNo ∧ t.activePage = v.activePage ∧ t.clk.wrUsed ≤ max 32 v.clk.wrUsed) ∧
      (v.clk.sealDone = true ∨ v.drops 3 = true → exec .mapWriteExecute s = .next v) ∧
      (v.windowF.isSome = true ∨ v.resyncing = true → ∃ t, exec .mapWriteExecute s = .next t ∧ t.hrp = v.hrp) ∧
      (∀ (j : MapJob) (slot e : Nat), v.executes = true → v.clk.sealDone = false → v.drops 3 = false → v.windowF = none → v.resyncing = false → v.flp.queue = [] → v.hrp.deferred = [] →
        v.clk.wrUsed = 0 → v.clk.joinUsed = 0 → v.clk.wrStop = false → entryOk (v.standby.entry slot) = true →
        j = { h := j.h, ring := j.ring, prin := j.prin, noMove := j.noMove, acc := j.acc, rest := [(slot, e)] } → v.flp.jobs = [j] → v.missed j = none →
        (v.entryCheck j.prin slot e = 0 →
          (entryBranch (mkEntry e) slot = none ∨ ∃ k, entryBranch (mkEntry e) slot = some k ∧ (v.standby.br.look {} k).refs ≠ 0) →
          ∃ u : State, exec .mapWriteExecute s = .next (u.complete j.h 0 v.tnNow (2 ^ 46 + 0x3FFFF * 2 ^ 10)) ∧
            u.standbyNo = v.standbyNo ∧ u.standby.entry slot = mkEntry e ∧ (∀ i, i ≠ slot → u.standby.entry i = v.standby.entry i) ∧
            u.standby.eg.look {} slot = entryOut (mkEntry e) slot ∧ u.flp.jobs = [] ∧ u.flp.carried = v.flp.carried + 1 ∧ u.clk.wrUsed = 1) ∧
        (v.entryCheck j.prin slot e ≠ 0 → ∃ u : State, exec .mapWriteExecute s = .next (u.complete j.h (v.entryCheck j.prin slot e) v.tnNow 0) ∧
            u.hrp = v.hrp ∧ u.flp.jobs = [] ∧ u.flp.carried = v.flp.carried))) ∧
    (∀ (slot : Fin 524288),
      (¬(s.executes = true ∨ s.cal.role = .standby) ∨ 32 < s.clk.wrUsed + 8 ∨ s.clk.wrStop = true ∨ (∀ d ∈ s.hrp.deferred, d.slot ≠ slot.val) →
        exec (.deferredEntryPlace slot) s = .next s) ∧
      (s.executes = true → s.clk.wrStop = false → s.clk.wrUsed + 8 ≤ 32 → (∃ d ∈ s.hrp.deferred, d.slot = slot.val) → entryOk (s.standby.entry slot) = true →
        ∀ k, s.standby.branchAt slot = some k →
        ((s.standby.br.look {} k).refs ≠ 0 ∨ ∃ q i, s.standby.place k s.keepBranches = .at_ q i 0) →
        ∃ t, exec (.deferredEntryPlace slot) s = .next t ∧ t.standbyNo = s.standbyNo ∧ t.standby.ent = s.standby.ent ∧ t.activePage = s.activePage ∧
          t.standby.eg.look {} slot = { out := 0, br := k } ∧ (∀ d ∈ t.hrp.deferred, d.slot ≠ slot.val) ∧ t.clk.wrUsed = s.clk.wrUsed + 8))

/-- MAP_CHECK. -/
def Obligations.MapCheckPass : Prop :=
  ∀ s : State, s.up = true →
    let n := min 132 (1048576 - s.hrp.checkPos)
    (s.clk.checked = true → exec .mapCheck s = .next s) ∧
    (s.clk.checked = false → ∃ t, exec .mapCheck s = .next t ∧ t.clk = { s.clk with checked := true } ∧
      t.hrp.checkPos = (if s.hrp.checkPos + n < 1048576 then s.hrp.checkPos + n else 0) ∧
      t.activeNo = s.activeNo ∧ t.activePage = s.activePage ∧ t.standby.ent = s.standby.ent ∧
      ((∀ i < n, entryOk ((s.page ((s.hrp.checkPos + i) / 524288)).entry ((s.hrp.checkPos + i) % 524288)) = true) →
        t.hrp = { s.hrp with checkPos := t.hrp.checkPos } ∧ t.sticky = s.sticky ∧ t.mgp = s.mgp) ∧
      (∀ i < n, let pg := (s.hrp.checkPos + i) / 524288
        let e := (s.hrp.checkPos + i) % 524288
        pg ≤ 1 → entryOk ((s.page pg).entry e) = false →
          (pg = s.activeNo → bit (t.stick Reg.mapStatus) 31 = true) ∧
          (pg ≠ s.activeNo → bit (t.stick Reg.mapStatus) 30 = true ∧ (s.uncopied e = false → t.standby.eg.look {} e = { out := 2 }))))

/-- FLIP_FREEZE, FLIP_COMMIT, RESYNC_END, FABRIC_FLIP_READY_TIMEOUT and FABRIC_FLIP_RESULT_TIMEOUT. -/
def Obligations.TickKeyedFlips : Prop :=
  ∀ s : State, s.up = true →
    (∀ l x r, s.flp.flips = l ++ x :: r → s.clk.tnValid = true → x.f ≤ s.tnNow + 4 → s.tnNow < x.f → (∀ y ∈ l, ¬(y.f ≤ s.tnNow + 4 ∧ s.tnNow < y.f)) →
      exec .flipFreeze s = .next { s with flp := { s.flp with frozen := some x.f } }) ∧
    ((∀ y ∈ s.flp.flips, ¬(s.clk.tnValid = true ∧ y.f ≤ s.tnNow + 4 ∧ s.tnNow < y.f)) → exec .flipFreeze s = .next s) ∧
    ((∀ y ∈ s.flp.flips, ¬(s.clk.tnValid = true ∧ y.f = s.tnNow)) → s.flp.fab = [] → exec .flipCommit s = .next s) ∧
    (s.clk.tnValid = true → (∃ y ∈ s.flp.flips, y.f = s.tnNow ∧ y.cancelled = false) →
      ∃ t, exec .flipCommit s = .next t ∧ t.activeNo = 1 - s.activeNo ∧ t.activePage = s.standby ∧ t.standby = { s.standby with ent := s.activePage.ent } ∧
        t.flp.flips = s.flp.flips.filter (fun x => decide (x.f ≠ s.tnNow)) ∧ t.flp.frozen = none ∧ t.flp.carried = 0 ∧ t.flp.parts = [] ∧
        t.flp.resync = some s.tnNow ∧ t.flp.jobs = s.flp.jobs ∧ t.flp.queue = s.flp.queue ∧ t.flp.seqs = s.flp.seqs) ∧
    (∀ y, s.clk.tnValid = true → s.flp.flips = [y] → y.f = s.tnNow → y.cancelled = false → y.fromMgr = false → y.fabric = false → s.flp.fab = [] →
      ∃ u : State, exec .flipCommit s = .next (((u.completeNext y.h 0 y.f ((y.f + 127) % 2 ^ 32 * 2 ^ 32 + (1 - s.activeNo) * 2 ^ 31 + s.flp.carried % 2 ^ 21)).count 7 0 3 1).event (0 :: s.flp.parts) 0x0032 (1 - s.activeNo) y.f) ∧
        u = { s with hrp := u.hrp, flp := u.flp }) ∧
    (s.clk.tnValid = true → (∃ y ∈ s.flp.flips, y.f = s.tnNow) → (∀ y ∈ s.flp.flips, y.f = s.tnNow → y.cancelled = true) →
      ∃ t, exec .flipCommit s = .next t ∧ t.hrp = s.hrp ∧ t.flp.resync = s.flp.resync ∧ t.flp.flips = s.flp.flips.filter (fun x => decide (x.f ≠ s.tnNow)) ∧ t.flp.frozen = none) ∧
    (∀ f i, s.flp.resync = some f → f ≤ s.tnNow → s.tnNow < f + 128 → s.drops 4 = false →
      s.copySlice.standby.entry i = (if 4096 * (s.tnNow - f) ≤ i ∧ i < 4096 * (s.tnNow - f) + 4096 then s.activePage.entry i else s.standby.entry i)) ∧
    (∀ f, s.flp.resync = some f → f + 128 ≤ s.tnNow → exec .resyncEnd s = .next { s with flp := { s.flp with resync := none } }) ∧
    ((∀ f, s.flp.resync = some f → s.tnNow < f + 128) → exec .resyncEnd s = .next s) ∧
    (∀ h x, s.flp.fab.find? (fun x => x.h = h) = some x →
      (∀ worker w, s.worker worker = some w → s.fw = true → worker ∈ x.ws → worker ∉ x.ready → x.a + 2 * w.pathSum + 8 ≤ s.tnNow → s.tnNow < x.f → x.cancelled = false →
        ∃ t, exec (.fabricFlipReadyTimeout h worker) s = .next t ∧ (∀ y ∈ t.flp.fab, y.id = x.id → y.cancelled = true ∧ y.reason = 5 ∧ y.failId = worker) ∧
          (∀ z ∈ t.flp.flips, z.fabric = true → z.id = x.id → z.cancelled = true) ∧ t.hrp = s.hrp) ∧
      (∀ worker w, s.worker worker = some w → ¬(s.fw = true ∧ worker ∈ x.ws ∧ worker ∉ x.ready ∧ x.a + 2 * w.pathSum + 8 ≤ s.tnNow ∧ s.tnNow < x.f) →
        exec (.fabricFlipReadyTimeout h worker) s = .next s) ∧
      (s.fw = true → x.f + 65536 ≤ s.tnNow → ∃ t, exec (.fabricFlipResultTimeout h) s = .next t ∧ t.flp = { s.flp with fab := s.flp.fab.filter (fun y => y.h ≠ h) } ∧ t.hrp = s.hrp) ∧
      (s.fw = true → x.f + 65536 ≤ s.tnNow → x.results.find? (fun r => r.1 = s.fabId) = none →
        ∃ u r, exec (.fabricFlipResultTimeout h) s = .next (((s.fabId :: x.ws).foldl (fun (t : State) id => t.tellOutcome ((x.results.find? (fun r => r.1 = id)).map (fun r => r.2)) id)
          (State.complete u h eAborted x.f r))) ∧ u = { s with flp := u.flp } ∧ (x.cancelled = false → r = (((s.fabId :: x.ws).filter (fun id => (x.results.find? (fun r => r.1 = id)).map (fun r => r.2) = some true)).length % 2 ^ 24) * 2 ^ 40 + 6 * 2 ^ 32)) ∧
      (s.tnNow < x.f + 65536 → exec (.fabricFlipResultTimeout h) s = .next s))

/-- FLIP_SEQ's watch, FLIP_SEQ_FIRE, FLIP_SEQ_EXPIRE and FLIP_SEQ_DIFF. -/
def Obligations.SequenceKeyedFlips : Prop :=
  (∀ (s : State) (x : BitVec 24) (t0 : Nat) (f : SeqFlip),
    let armed := { s with flp := { s.flp with seqs := s.flp.seqs.map (fun (y : SeqFlip) => if y.h = f.h then { y with armed := some (t0 + 64, x + 1), offset := f.reference.map (fun _ => 0) } else y) } }
    (2 ^ 23 ≤ (x - (f.s - 1)).toNat → s.watchOne x t0 f = s) ∧
    ((x - (f.s - 1)).toNat < 2 ^ 23 → f.armed = none → f.reference = none → s.watchOne x t0 f = armed) ∧
    (∀ r, (x - (f.s - 1)).toNat < 2 ^ 23 → f.armed = none → f.reference = some r → (s.wheel r).goodAny = true → s.secClock < (s.wheel r).lastGoodT0 + 128 →
      ((s.wheel r).lastGoodT0 : Int) + 64 * (x + 1 - (s.wheel r).oseq).toInt = (t0 : Int) + 64 → s.watchOne x t0 f = armed) ∧
    (∀ r, (x - (f.s - 1)).toNat < 2 ^ 23 → f.armed = none → f.reference = some r → (s.wheel r).goodAny = false →
      ∃ u : State, s.watchOne x t0 f = u.completeNext f.h eState s.tnNow (0x8000 * 2 ^ 48 + 2 * 2 ^ 16 + f.roll.length % 2 ^ 16) ∧ u = { s with flp := u.flp } ∧ u.flp.seqs = s.flp.seqs.filter (fun y => y.h ≠ f.h))) ∧
  ∀ (h : Nat) (f : SeqFlip) (s : State), s.up = true → s.flp.seqs.find? (fun f => f.h = h) = some f →
    (∀ g t o, let v := s.flipsNow
      (s.fireDue h).isSome = true → v.fireDue h = some (g, t, o) → ∃ u : State,
      exec (.flipSeqFire h) s = .next (u.completeNext h 0 t (offset16 g.offset * 2 ^ 48 + o.toNat * 2 ^ 24 + g.roll.length % 2 ^ 16)) ∧ t = v.secClock ∧ g.armed = some (t, o) ∧
      u.flp.seqs = v.flp.seqs.filter (fun y => y.h ≠ h) ∧ u.activeNo = v.activeNo ∧ u.standby = v.standby ∧
      (∀ x, x ∈ g.roll → u.activePage.entry x = v.standby.entry x) ∧ (∀ x, x ∉ g.roll → u.activePage.entry x = v.activePage.entry x)) ∧
    ((∀ t o, f.armed = some (t, o) → t ≠ s.secClock) → exec (.flipSeqFire h) s = .next s) ∧
    (f.expiry ≤ s.clk.tick → (∀ t o, f.armed = some (t, o) → s.secClock < t) → ∃ u : State,
      exec (.flipSeqExpire h) s = .next (u.complete h eState s.tnNow (offset16 f.offset * 2 ^ 48 + 3 * 2 ^ 16 + f.roll.length % 2 ^ 16)) ∧
      u = { s with flp := u.flp } ∧ u.flp.seqs = s.flp.seqs.filter (fun y => y.h ≠ h)) ∧
    (s.clk.tick < f.expiry → exec (.flipSeqExpire h) s = .next s) ∧
    (∀ r m o, s.flp.fires.find? (fun r => r.h = h) = some r → r.mate = some m → r.own = some o →
      (o = some m → exec (.flipSeqDiff h) s = .next { s with flp := { s.flp with fires := s.flp.fires.filter (fun x => x.h ≠ h) } }) ∧
      (o ≠ some m → exec (.flipSeqDiff h) s = .next ((State.setSticky { s with flp := { s.flp with fires := s.flp.fires.filter (fun x => x.h ≠ h) } } Reg.flipStatus 0x20000000).event [0] 0x0033 h (o.getD (2 ^ 64 - 1)))))

/-- PAIR_LOCK, COLANDER_PLAYOUT, SELECTOR_EVALUATE, PAIR_WTR_EXPIRY and PAIR_CMD_APPLY. -/
def Obligations.PairSelection : Prop :=
  (∀ (a b : Nat) (leadB : Bool), let ld := if leadB then b else a
    let lg := if leadB then a else b
    (ld = 3 → selectCopy 1 a b leadB = some leadB) ∧ (ld ≠ 3 → 2 ≤ lg → selectCopy 1 a b leadB = some (!leadB)) ∧
    (ld = 2 → lg < 2 → selectCopy 1 a b leadB = some leadB) ∧ (ld < 2 → lg < 2 → selectCopy 1 a b leadB = none ∧ selectCopy 2 a b leadB = none) ∧
    (2 ≤ ld → selectCopy 2 a b leadB = some leadB) ∧ (ld < 2 → 2 ≤ lg → selectCopy 2 a b leadB = some (!leadB))) ∧
  ∀ (n : Fin 32768) (s : State), s.up = true →
    let p := s.pair n
    let a := s.wheel p.wa
    let b := s.wheel p.wb
    let ready := (a.align = .inMf ∧ b.align = .inMf) ∨ (p.alignWait ≤ s.secClock / 8000 - p.defTick / 8000 ∧ (a.align = .inMf ∨ b.align = .inMf))
    (p.defined = true → p.locked = false → ready → ∃ u : State, exec (.pairLock n) s = .next (u.pairEvent n 0 0) ∧ (u.pair n).locked = true ∧
      (a.align = .inMf → b.align = .inMf → let δ : Int := (b.t0 : Int) - a.t0 + 64 * (a.oref - b.oref).toInt
        let d := if p.lag = false then min δ.natAbs p.diff else p.diff
        (u.pair n).refB = decide (δ < 0) ∧ (u.pair n).minLag = (if p.mode = 3 then 2 else if p.mode = 1 then max (d + p.g) 72 else d + p.g)) ∧
      (¬(a.align = .inMf ∧ b.align = .inMf) → (u.pair n).refB = decide (b.align = .inMf) ∧ (u.pair n).minLag = (if p.mode = 3 then 2 else if p.mode = 1 then max (p.diff + p.g) 72 else p.diff + p.g)) ∧
      ∀ m, m ≠ n.val → u.pair m = s.pair m) ∧
    (¬(p.defined = true ∧ p.locked = false ∧ ready) → exec (.pairLock n) s = .next s) ∧
    (p.defined = true → s.pairForeign p = false → p.locked = true → p.mode ≠ 3 → p.at_ p.nextX = s.secClock → ¬(p.outT0 = s.secClock ∧ p.out ≠ []) →
      (s.drops 2 = true → exec (.colanderPlayout n) s = .next (s.setPair n (p.spent p.nextX)) ∧ (p.spent p.nextX).nextX = p.nextX + 1 ∧ (p.spent p.nextX).out = p.out) ∧
      (s.drops 2 = false → (∀ g, g ≠ 0 → (p.nextX, g) ∉ p.missed ∧ (p.nextX, g) ∉ p.holes) →
        ∃ t : State, exec (.colanderPlayout n) s = .next t ∧ (t.pair n).nextX = p.nextX + 1 ∧ (t.pair n).outT0 = p.at_ p.nextX ∧
        (∀ z c, s.takenAt n p.nextX (p.at_ p.nextX) = some (z, c) → (t.pair n).takenB = some z ∧
          ∃ oh, (t.pair n).out = mfWords p.k oh (64 * p.k) 0 (fillArea (768 * p.k - 96) (c.c.getD 0) (768 * p.k - 96) 0 (c.data.map (fun z => z.2)))) ∧
        (s.takenAt n p.nextX (p.at_ p.nextX) = none → (t.pair n).takenB = p.takenB ∧ ∃ oh, (t.pair n).out = mfWords p.k oh (64 * p.k) 0 (List.replicate (768 * p.k - 96) true)) ∧
        t.whl = s.whl ∧ ∀ m, m ≠ n.val → t.pair m = s.pair m)) ∧
    (p.defined = true → p.locked = true → p.mode ≠ 3 → p.at_ p.nextX ≠ s.secClock → exec (.colanderPlayout n) s = .next s) ∧
    (p.defined = true → s.pairForeign p = false → p.locked = false → s.secClock % 64 = n.val % 64 → s.drops 2 = false → ¬(p.outT0 = s.secClock ∧ p.out ≠ []) →
      ∃ t : State, exec (.colanderPlayout n) s = .next t ∧ (t.pair n).outT0 = s.secClock ∧ t.whl = s.whl ∧ (∀ m, m ≠ n.val → t.pair m = s.pair m) ∧
        ∃ rdi pt, (t.pair n).out = mfWords p.k (mkOh true rdi (BitVec.ofNat 24 (s.secClock / 64)) 0 p.outBip (s.outTrace p (s.secClock / 64)) pt (s.psigOut p (p.takenB.getD false)))
          (64 * p.k) 0 (List.replicate (768 * p.k - 96) true)) ∧
    (p.defined = true → s.secClock % 64 = n.val % 64 → s.drops 2 = false → s.copies = true → ∃ t : State, exec (.selectorEvaluate n) s = .next t ∧
      (t.pair n).prefAt (s.clk.tick + 1) = p.prefAt (s.clk.tick + 1) ∧ t.whl = s.whl ∧ ∀ m, m ≠ n.val → t.pair m = s.pair m) ∧
    (p.defined = true → p.mode = 3 → s.secClock % 64 = n.val % 64 → s.drops 2 = false → s.copies = false → ∃ t : State, exec (.selectorEvaluate n) s = .next t ∧
      (p.lockout = true → (t.pair n).prefAt (s.clk.tick + 1) = false) ∧
      (p.lockout = false → b.sf = true → (t.pair n).prefAt (s.clk.tick + 1) = false) ∧
      (p.lockout = false → b.sf = false → p.forced = true → (t.pair n).prefAt (s.clk.tick + 1) = true) ∧
      (p.lockout = false → b.sf = false → p.forced = false → a.sf = true → (t.pair n).prefAt (s.clk.tick + 1) = true) ∧
      (p.lockout = false → b.sf = false → p.forced = false → a.sf = false → a.sd = true → b.sd = false → (t.pair n).prefAt (s.clk.tick + 1) = true) ∧
      (p.lockout = false → b.sf = false → p.forced = false → a.sf = false → a.sd = false → b.sd = true → (t.pair n).prefAt (s.clk.tick + 1) = false) ∧
      (∀ m, p.lockout = false → b.sf = false → p.forced = false → a.sf = false → a.sd = b.sd → p.manual = some m → (t.pair n).prefAt (s.clk.tick + 1) = m) ∧
      t.whl = s.whl ∧ ∀ m, m ≠ n.val → t.pair m = s.pair m) ∧
    (¬(p.defined = true ∧ s.secClock % 64 = n.val % 64 ∧ s.drops 2 = false) → exec (.selectorEvaluate n) s = .next s) ∧
    (∀ w, p.wtrEnd = some w → w ≤ s.clk.tick → a.sf = false → a.sd = false → ∃ t : State, exec (.pairWtrExpiry n) s = .next t ∧ (t.pair n).wtrEnd = none ∧ (t.pair n).autoB = false ∧ ∀ m, m ≠ n.val → t.pair m = s.pair m) ∧
    ((∀ w, p.wtrEnd = some w → s.clk.tick < w) → exec (.pairWtrExpiry n) s = .next s) ∧
    (∀ act, let v := s.flipsNow.firesNow
      (s.pairDue n).isSome = true → v.pairDue n = some act → act.pair = n.val ∧ v.dueAt act.n = true ∧
      (act.cmd ≠ 5 → ∃ u : State, exec (.pairCmdApply n) s = .next (u.complete act.h 0 act.n 0) ∧ u.col.acts = v.col.acts.filter (fun b => b.h ≠ act.h) ∧
        (u.pair n).lockout = (if act.cmd = 0 then true else if act.cmd = 4 then false else (v.pair n).lockout) ∧
        (u.pair n).forced = (if act.cmd = 1 then true else if act.cmd = 4 then false else (v.pair n).forced) ∧
        (u.pair n).manual = (if act.cmd = 2 then some false else if act.cmd = 3 then some true else if act.cmd = 4 then none else (v.pair n).manual)) ∧
      (act.cmd = 5 → ∃ u : State, exec (.pairCmdApply n) s = .next (u.completeNext act.h 0 act.n (u.pair n).plag) ∧ u.col.acts = v.col.acts.filter (fun b => b.h ≠ act.h) ∧
        (u.pair n).realign = min 65535 ((v.pair n).realign + 1) ∧ (u.pair n).lateA = false ∧ (u.pair n).lateB = false)) ∧
    (s.pairDue n = none → exec (.pairCmdApply n) s = .next s)

/-- CAVE_BURST_COMPLETE, CAVE_REQUEST_ABANDON, CAV_ARB_FREEZE_WRITE, CAVE_STACK_FAULT and STACK_MOVE_END. -/
def Obligations.CaveRequests : Prop :=
  (∀ l r, winner l = some r → r ∈ l ∧ ∀ x ∈ l, r.deadline ≤ x.deadline ∧ (x.deadline = r.deadline → r.who ≤ x.who)) ∧
  (∀ l, l.find? (fun r => r.granted) = none → served l = winner l) ∧
  (∀ l g w, l.find? (fun r => r.granted) = some g → winner l = some w → served l = some (if w.deadline < g.deadline then w else g)) ∧
  ∀ s : State, s.up = true →
    (∀ (pc : Fin 192) (unc : Bool), s.frozen (pc.val / 32) = false → ∀ r, served (s.reqsAt pc) = some r →
      ∃ t : State, exec (.caveBurstComplete pc unc) s = .next t ∧ (∀ m, m ≠ pc.val → t.reqsAt m = s.reqsAt m) ∧ t.col.pair = s.col.pair ∧
        ∃ l₁ l₂, s.reqsAt pc = l₁ ++ r :: l₂ ∧
          (r.bursts ≤ 1 → t.reqsAt pc = (l₁ ++ l₂).map (fun x => { x with granted := false })) ∧
          (1 < r.bursts → { r with bursts := r.bursts - 1, granted := true } ∈ t.reqsAt pc ∧ (t.reqsAt pc).length = (s.reqsAt pc).length ∧
            ∀ x ∈ t.reqsAt pc, x.granted = true → x = { r with bursts := r.bursts - 1, granted := true })) ∧
    (∀ (pc : Fin 192) (unc : Bool), s.frozen (pc.val / 32) = true → (∀ r ∈ s.reqsAt pc, r.granted = false) → exec (.caveBurstComplete pc unc) s = .next s) ∧
    (∀ (pc : Fin 192) (unc : Bool), s.reqsAt pc = [] → exec (.caveBurstComplete pc unc) s = .next s) ∧
    (∀ (pc : Fin 192) r, (s.reqsAt pc).find? (fun r => decide (r.deadline < s.secClock)) = some r → ∃ t : State, exec (.caveRequestAbandon pc) s = .next t ∧
      (∃ l₁ l₂, s.reqsAt pc = l₁ ++ r :: l₂ ∧ t.reqsAt pc = l₁ ++ l₂) ∧ (∀ m, m ≠ pc.val → t.reqsAt m = s.reqsAt m) ∧
      (r.who = 0 → (r.x, r.grp) ∈ (t.pair r.pair).holes) ∧ (r.who = 1 → (r.x, r.grp) ∈ (t.pair r.pair).missed) ∧
      (1 < r.who → t.col.pair = s.col.pair) ∧ ∀ m, m ≠ r.pair → t.pair m = s.pair m) ∧
    (∀ pc : Fin 192, (∀ r ∈ s.reqsAt pc, s.secClock ≤ r.deadline) → exec (.caveRequestAbandon pc) s = .next s) ∧
    (∀ (qp : Fin 16) (v : Word), s.accessor qp = some 0 → ∃ t : State, exec (.cavArbFreezeWrite qp v) s = .next t ∧ t.mgp.resp = some .ack ∧
      ∀ k, k < 6 → t.frozen k = bit v k ∧
        (bit v k = false → s.oos k = true → (t.stack k).testing = true ∧ (t.stack k).unproven = true ∧ t.admits k = false) ∧
        (s.frozen k = bit v k → t.stack k = s.stack k) ∧ t.stackRegions k = s.stackRegions k) ∧
    (∀ (qp : Fin 16) (v : Word), s.accessor qp ≠ some 0 → ∃ t : State, exec (.cavArbFreezeWrite qp v) s = .next t ∧ t.mgp.resp = some .nak ∧ t.regs = s.regs ∧ t.col = s.col) ∧
    (∀ (k : Fin 6) (training : Bool), training = true ∨ (s.reg Reg.faultThr).toNat % 65536 < (s.stack k).uncorr →
      ∃ u : State, exec (.caveStackFault k training) s = .next (if s.stackRegions k = 0 then u else u.yield 3) ∧
        u.frozen k = true ∧ (u.stack k).failed = true ∧ (u.stack k).uncorr = 0 ∧ (u.stick (Reg.stackStatus k)).getLsbD 29 = true ∧
        ∀ j, j < 6 → j ≠ k.val → u.frozen j = s.frozen j ∧ u.stack j = s.stack j) ∧
    (∀ k : Fin 6, (s.stack k).uncorr ≤ (s.reg Reg.faultThr).toNat % 65536 → exec (.caveStackFault k false) s = .next s) ∧
    (∀ (n : Fin 32768) z l, (s.pair n).old = z :: l → (s.pair n).locked = false ∨ (s.pair n).at_ z.2 ≤ s.secClock →
      exec (.stackMoveEnd n) s = .next ((s.setPair n { s.pair n with old := l }).pairEvent n 5 0)) ∧
    (∀ n : Fin 32768, (s.pair n).old = [] ∨ (∃ z l, (s.pair n).old = z :: l ∧ (s.pair n).locked = true ∧ s.secClock < (s.pair n).at_ z.2) → exec (.stackMoveEnd n) s = .next s)

/-- ACK_STALL, HEARTBEAT_CHANGE, HEARTBEAT_SILENCE, SETTLE_DETACHED_EXPIRY, RECLAIM_SETTLE_EXPIRY, YIELD_COMPLETE,
CAL_MATE_CTRL_SWAP, SYNC_COMPLETE, TAKEOVER_HOLD_END and SILENCE_TAKEOVER. -/
def Obligations.MateRoles : Prop :=
  ∀ s : State, s.up = true →
    (s.cal.role = .active → s.cal.lone = false → s.cal.yieldAt = none → s.pwr.restart = none → s.cal.ackTick + 8 ≤ s.clk.tick →
      ∃ t : State, exec .ackStall s = .next t ∧ t.cal.role = (if s.cal.mateHb = .active then .detached else .suspended) ∧
        (s.cal.mateHb = .standby → s.anyPort = true → t.cal.yieldAt = some (s.clk.tick + 4) ∧ t.cal.lastYield = 8)) ∧
    (¬(s.cal.role = .active ∧ s.cal.lone = false ∧ s.cal.yieldAt.isNone = true ∧ s.pwr.restart.isNone = true ∧ s.cal.ackTick + 8 ≤ s.clk.tick) → exec .ackStall s = .next s) ∧
    (∀ ch : BitVec 8, s.mated = true → ∃ t : State, exec (.heartbeatChange ch) s = .next t ∧
      let hb := if popCount ch = 8 then Hb.active else if popCount ch = 2 then Hb.standby else Hb.none
      t.cal.mateHb = hb ∧ t.cal.hbNoneSince = (if hb = .none then (if s.cal.mateHb = .none then s.cal.hbNoneSince else some s.clk.tick) else none) ∧
      t.cal.lone = ((decide (hb = .none) && decide (t.cal.hbNoneSince.getD 0 + 16 ≤ s.clk.tick + 1)) || decide (s.cal.mateRole = 3) || decide (s.cal.mateRole = 4)) ∧
      t.cal.role = (if hb = .active ∧ s.cal.role = .suspended then .detached else if hb = .active ∧ s.cal.role = .detached ∧ s.anyPort = true then .syncing else s.cal.role)) ∧
    (s.mated = true → s.hbSilent 16 = true → ∃ t : State, exec .heartbeatSilence s = .next t ∧ t.cal.lone = true ∧
      t.cal.role = (if s.cal.role = .suspended then .active else if s.cal.role = .syncing then .detached
        else if s.cal.role = .detached ∧ s.primary = true ∧ s.cal.fromSync = false then .active else s.cal.role) ∧
      (s.cal.role = .syncing → t.cal.fromSync = true)) ∧
    (s.mated = false ∨ s.hbSilent 16 = false → exec .heartbeatSilence s = .next s) ∧
    (s.cal.role = .detached → s.cal.fromSync = false → s.hbSilent s.settle = true → ∃ t : State, exec .settleDetachedExpiry s = .next t ∧
      t.cal.role = .active ∧ t.cal.holdUntil = some (s.clk.tick + 8000) ∧ t.cal.yieldAt = none) ∧
    (¬(s.cal.role = .detached ∧ s.cal.fromSync = false ∧ s.hbSilent s.settle = true) → exec .settleDetachedExpiry s = .next s) ∧
    (s.cal.role = .standby → s.primary = true → s.mateRevert = true → s.cal.roleSince + s.settle ≤ s.clk.tick →
      exec .reclaimSettleExpiry s = .next { s with cal := { s.cal with reclaimOut := true } }) ∧
    (¬(s.cal.role = .standby ∧ s.primary = true ∧ s.mateRevert = true ∧ s.cal.roleSince + s.settle ≤ s.clk.tick) → exec .reclaimSettleExpiry s = .next s) ∧
    (∀ w, s.cal.yieldAt = some w → w ≤ s.clk.tick → ∃ t : State, exec .yieldComplete s = .next t ∧ t.cal.role = .syncing ∧ t.cal.yieldAt = none ∧ t.cal.store = [] ∧ t.cal.snapDone = false) ∧
    ((∀ w, s.cal.yieldAt = some w → s.clk.tick < w) → exec .yieldComplete s = .next s) ∧
    (∀ qp : Fin 16, s.accessor qp = some 0 → ∃ t : State, exec (.calMateCtrlSwap qp) s = .next t ∧ t.mgp.resp = some .ack ∧ t.cal.role = s.cal.role ∧
      (s.cal.role = .active → s.cal.mateHb = .standby → s.cal.yieldAt = none → t.cal.yieldAt = some (s.clk.tick + 4) ∧ t.cal.lastYield = 6) ∧
      (s.cal.role ≠ .active ∨ s.cal.mateHb ≠ .standby → t.cal = s.cal)) ∧
    (∀ qp : Fin 16, s.accessor qp ≠ some 0 → ∃ t : State, exec (.calMateCtrlSwap qp) s = .next t ∧ t.mgp.resp = some .nak ∧ t.cal = s.cal) ∧
    (s.cal.role = .syncing → s.syncReady = true → s.cal.snapDone = true ∧ s.cal.snap = [] ∧ s.cal.store = [] ∧ s.cal.owed = [] ∧ s.cal.passOk = true ∧ s.str.st = .locked ∧ s.str.followMate = true ∧
      1 ≤ s.cal.diffPeriods ∧ ∃ t : State, exec .syncComplete s = .next t ∧ t.cal.role = .standby ∧ t.cal.recTick = s.clk.tick) ∧
    (¬(s.cal.role = .syncing ∧ s.syncReady = true) → exec .syncComplete s = .next s) ∧
    (∀ w, s.cal.holdUntil = some w → w ≤ s.clk.tick → ∃ t : State, exec .takeoverHoldEnd s = .next t ∧ t.cal = { s.cal with holdUntil := none } ∧
      ∀ r, r < 16 → t.ring r = (if (s.ring r).st = .unbound ∨ (s.ring r).boot = true then s.ring r else { s.ring r with dirty := true })) ∧
    ((∀ w, s.cal.holdUntil = some w → s.clk.tick < w) → exec .takeoverHoldEnd s = .next s) ∧
    (s.cal.role = .standby → s.cal.recTick + 9 ≤ s.clk.tick → ∃ t : State, exec .silenceTakeover s = .next t ∧ t.cal.role ≠ .standby ∧
      (s.cal.store = [] → t.cal.role = .active ∧ t.cal.holdUntil = some (s.clk.tick + 8000))) ∧
    (s.cal.role ≠ .standby ∨ s.clk.tick < s.cal.recTick + 9 → exec .silenceTakeover s = .next s)

/-- Restoring a short form (R38). -/
def Obligations.ShortFormRestored : Prop :=
  (∀ (v : BitVec 24) (loc : Nat), extend24 v loc % 2 ^ 24 = v.toNat ∧ (loc : Int) - 2 ^ 23 ≤ extend24 v loc ∧ extend24 v loc < (loc : Int) + 2 ^ 23 ∧
    ∀ y : Int, y % 2 ^ 24 = v.toNat → (loc : Int) - 2 ^ 23 ≤ y → y < (loc : Int) + 2 ^ 23 → y = extend24 v loc) ∧
  (∀ full loc : Nat, full < loc + 2 ^ 23 → loc < full + 2 ^ 23 → extend24 (BitVec.ofNat 24 full) loc = full) ∧
  (∀ (s : State) (o : BitVec 24), s.fullX o = (extend24 o (s.secClock / 64)).toNat) ∧
  (∀ (s : State) (seq : BitVec 24) (lane : Nat), s.nonceOf seq lane = 8 * (extend24 seq s.secClock).toNat + lane) ∧
  extend24 0xFFFFF8 0x10 = 0x10 - 24

/-- HCRC (R100). -/
def Obligations.HeaderCheck : Prop :=
  (∀ l : List Bool, crc16 l = l.foldl (fun (c : BitVec 16) fbit => let c' := c <<< 1; if (c.getLsbD 15 != fbit) = true then c' ^^^ 0x8BB7#16 else c') 0#16) ∧
  (∀ h : BitVec 128, hcrcFits h = true ↔ BitVec.ofNat 16 h.toNat = crc16 ((msbBits h).take 112)) ∧
  (∀ (s : State) (n : Nat) (ais : Bool), hcrcFits (s.txHeader n ais) = true ∧
    BitVec.ofNat 16 (s.txHeader n ais).toNat = crc16 ((msbBits (s.txHeader n ais)).take 112)) ∧
  hcrcFits 0xF6F628A5D30C134E97040D080000F9E1 = true ∧ crc16 ((msbBits (0xF6F628A5D30C134E97040D080000F9E1 : BitVec 128)).take 112) = 0xF9E1#16

/-- LADLE_RECORD_SEAL, CALRIN_FRAME and LADLE_RECORD_APPLY. -/
def Obligations.LadleRecords : Prop :=
  ∀ s : State, s.up = true →
    (s.mated = true → s.sealed = true → s.clk.tnValid = true → s.clk.sealDone = false →
      let v := s.boundary.slotsNow
      ∃ t : State, exec .ladleRecordSeal s = .next t ∧
      (v.drops 5 = true → t = { v with clk := { v.clk with sealDone := true }, cal := { v.cal with sealed_ := none, out := [] } }) ∧
      (v.drops 5 = false →
      t.clk = { v.clk with sealDone := true } ∧ t.cal.role = v.cal.role ∧
      t.cal.out.map (fun o => o.lane) = [0, 1, 2, 3] ∧ (∀ o ∈ t.cal.out, crc16 (msbBits o.hdr) = 0) ∧
      (v.cal.role ≠ .active → v.cal.role ≠ .suspended → t.cal.sealed_ = none ∧ t.cal.cur = v.cal.cur) ∧
      (v.cal.role = .active ∨ v.cal.role = .suspended → ∃ r, t.cal.sealed_ = some r ∧ r.tn = v.tnNow ∧ r.yield_ = v.cal.cur.yield_ ∧ r.thin = v.thin ∧
        r.accs = v.cal.cur.accs.take 4 ∧ r.cmps = v.cal.cur.cmps.take 12 ∧ r.maps = v.cal.cur.maps.take 32 ∧ r.evts = (evtOrder v.cal.cur.evts).take 8 ∧
        r.rings = (lastIdx v.cal.cur.rings).take 8 ∧ (v.thin = true → r.cnts = []) ∧ r.cnts.length ≤ 1536 ∧
        t.cal.cur.accs = v.cal.cur.accs.drop 4 ∧ t.cal.cur.cmps = v.cal.cur.cmps.drop 12 ∧ t.cal.cur.maps = v.cal.cur.maps.drop 32 ∧
        t.cal.cur.evts = (evtOrder v.cal.cur.evts).drop 8 ∧ t.cal.cur.rings = (lastIdx v.cal.cur.rings).drop 8 ∧ t.cal.cur.yield_ = false))) ∧
    (¬(s.mated = true ∧ s.sealed = true ∧ s.clk.tnValid = true ∧ s.clk.sealDone = false) → exec .ladleRecordSeal s = .next s) ∧
    (∀ (l : Fin 4) (f : CalFrame), s.mated = false ∨ s.sds.bt.held.isNone = true ∨ 6800 ≤ f.pos → exec (.calrinFrame l f) s = .next s) ∧
    (∀ (l : Fin 4) (f : CalFrame), s.mated = true → s.sds.bt.held.isSome = true → f.pos < 6800 →
      (f.line = [] → s.readCal l f = f) ∧
      let g := s.readCal l f
      let rx := (s.cal.rxs.look {} l.val).take s.clk.tick g.pos (calGood l g.hdr) (calSeq g.hdr)
      (calGood l g.hdr = true → calPlane g.hdr = s.plane → exec (.calrinFrame l f) s = .next (s.setSticky Reg.mateStatus 0x00100000)) ∧
      (¬(calGood l g.hdr = true ∧ calPlane g.hdr = s.plane) → ∃ t : State, exec (.calrinFrame l f) s = .next t ∧
        t.cal.lanesUp.getLsbD l = decide (rx.1.align = .inFrame) ∧
        (calGood l g.hdr = true → rx.2 = true → t.cal.mateRole = calRole g.hdr ∧ t.cal.matePlane = calPlane g.hdr ∧ t.cal.matePrimary = some (bit g.hdr 37)) ∧
        (calGood l g.hdr = false ∨ rx.2 = false → t.cal.mateRole = s.cal.mateRole ∧ t.cal.matePlane = s.cal.matePlane ∧ t.cal.matePrimary = s.cal.matePrimary) ∧
        (calGood l g.hdr = true → rx.2 = true → s.cal.role = .standby → calRole g.hdr = 1 ∨ calRole g.hdr = 5 → g.crcOk = false →
          t.cal.role = .syncing ∧ (t.stick Reg.mateStatus).getLsbD 19 = true))) ∧
    (s.cal.owed = [] → s.cal.snap = [] → (∀ r ∈ s.cal.store.head?, s.tnNow < r.tn + 4) → exec .ladleRecordApply s = .next s) ∧
    (∀ r, s.cal.owed = [] → s.cal.snap = [] → s.cal.store = [r] → s.cal.role = .standby → r.tn + 4 ≤ s.tnNow →
      exec .ladleRecordApply s = .next (({ s with cal := { s.cal with store := [] } }).applyRec r)) ∧
    (∀ r : LRec, s.cal.owed = [] → s.cal.snap = [] → s.cal.store = [r] → s.cal.role = .standby → r.tn + 4 ≤ s.tnNow → r.rings = [] → r.accs = [] → r.cmps = [] → r.maps = [] → r.evts = [] → r.cnts = [] →
      (∀ p ∈ s.col.pair, ∀ c ∈ p.2.ownChg, r.tn < c.1) →
      ∃ t : State, exec .ladleRecordApply s = .next t ∧
        t.str = { s.str with hoValue := r.str.hoValue, mateQl := s.mateQlOf r.str, srcs := Tab.put {} s.str.srcs 36 { s.src 36 with qlRx := s.mateQlOf r.str } } ∧
        (r.yield_ = true → t.cal.role = .active ∧ t.cal.holdUntil = some (s.clk.tick + 8000)) ∧
        (r.yield_ = false → t = { s with cal := { s.cal with store := [] }, str := t.str }))

/-- TN_ANNOUNCE, DELAY_REQ, DELAY_RESP, FLIP_PROPOSE, FLIP_READY, FLIP_CANCEL, FLIP_RESULT, STATUS and the mate's ring key. -/
def Obligations.FabricLinkMessages : Prop :=
  (∀ (hd : FabHdr) (n₁ n₂ n₃ n₄ n₅ n₆ : Nat) (i : Int) (w : Word) (b : Bool) (d : Desc) (sg : FwSigs) (ce : CmpEntry) (ee : EvtEntry) (data : List Byte) (ch : Fin 64) (fl : Byte) (df : BitVec 56) (s : State),
    ∀ m ∈ [(Instr.tnAnnounce hd n₁ i, 1, beBytes 8 n₁), (.delayReq hd n₁ n₂, 2, []), (.delayResp hd n₁ n₂ n₃ n₄ n₅ n₆, 3, beBytes 4 n₁ ++ beBytes 8 n₂ ++ beBytes 4 n₃),
        (.flipPropose hd w n₁, 0x10, beBytes 4 w.toNat ++ beBytes 8 n₁), (.flipReady hd w n₁ n₂, 0x11, beBytes 4 w.toNat ++ beBytes 1 n₁ ++ beBytes 1 n₂),
        (.flipResult hd w b, 0x13, beBytes 4 w.toNat ++ beBytes 1 (b2n b)), (.fabCmd hd n₁ n₂ d sg, 0x20, beBytes 8 n₁ ++ beBytes 1 n₂ ++ descBytes d),
        (.fabResult hd n₁ ce, 0x21, beBytes 8 n₁ ++ cmpBytes ce 0), (.fabEvent hd n₁ ee, 0x22, beBytes 1 n₁ ++ evtBytes ee 0 0),
        (.fabDump hd n₁ n₂ n₃ data, 0x23, beBytes 1 n₁ ++ beBytes 8 n₂ ++ beBytes 4 n₃ ++ data), (.fabMbx hd ch fl data, 0x24, leBytes 1 ch ++ [fl] ++ data),
        (.cmdData hd n₁ n₂ data, 0x25, beBytes 8 n₁ ++ beBytes 4 n₂ ++ data), (.outData hd n₁ n₂ data, 0x26, beBytes 8 n₁ ++ beBytes 4 n₂ ++ data),
        (.fabStatus hd n₁ n₂ df, 0x30, beBytes 8 n₁ ++ beBytes 1 n₂ ++ beBytes 7 df.toNat)],
      (s.fabShut hd m.2.1 = true → exec m.1 s = .next s) ∧
      (s.fabShut hd m.2.1 = false → s.tagFits hd m.2.1 m.2.2 = false → exec m.1 s = .next (s.authFail hd.link)) ∧
      (s.fabShut hd m.2.1 = false → s.tagFits hd m.2.1 m.2.2 = true → s.fabAgain hd m.2.1 = true → exec m.1 s = .next s) ∧
      (s.fabShut hd m.2.1 = false → s.tagFits hd m.2.1 m.2.2 = true → s.fabAgain hd m.2.1 = false → s.fabForeign hd m.2.1 = true →
        exec m.1 s = .next (((s.fabHeard hd m.2.1).setSticky (Reg.fabStatus (linkNo hd.link)) 0x04000000).event [0] 0x0064 (linkNo hd.link) hd.origin.toNat)) ∧
      (s.fabShut hd m.2.1 = false → s.tagFits hd m.2.1 m.2.2 = true → s.fabAgain hd m.2.1 = false → s.fabForeign hd m.2.1 = false → linkLocal m.2.1 = false →
        (s.fabNote hd m.2.1 m.2.2).fabMine hd m.2.1 = false → exec m.1 s = .next (s.fabNote hd m.2.1 m.2.2))) ∧
  (∀ (hd : FabHdr) (type : Nat) (body : List Byte) (s : State), s.fabNote hd type body = { s with fab := (s.fabNote hd type body).fab } ∧
    (countsSerial hd type = true → ((s.fabNote hd type body).fab.seen.look {} hd.origin.toNat).has hd.serial = true)) ∧
  (∀ (l : Link) (d : Nat) (u : State), let x := u.plink l
    let ss := (x.samples ++ [d]).drop (x.samples.length + 1 - 16)
    let y := (u.addSample l d).plink l
    (ss.length < 16 → y = { x with samples := ss, delayPs := (ss.sum + ss.length / 2) / max 1 ss.length, reqSerial := none }) ∧
    (16 ≤ ss.length → x.st = .measuring → l ≠ .calrin → (ss.sum + ss.length / 2) / max 1 ss.length ≤ 4294967295 → y.st = .up ∧ y.samples = ss ∧ y.delayPs = (ss.sum + ss.length / 2) / max 1 ss.length) ∧
    (16 ≤ ss.length → x.st ≠ .down → l = .calrin → 100000 < (ss.sum + ss.length / 2) / max 1 ss.length → y.st = .down ∧ y.keys = none)) ∧
  ∀ (hd : FabHdr) (s : State),
    (∀ t2 p2 : Nat, s.receives hd 2 [] = true → s.frameBad hd = true → exec (.delayReq hd t2 p2) s = .next (s.fabNote hd 2 [])) ∧
    (∀ t2 p2 : Nat, s.receives hd 2 [] = true → s.frameBad hd = false → ∃ t : State, exec (.delayReq hd t2 p2) s = .next t ∧ t = { s with fab := t.fab } ∧
      t.fab.sendQ = s.fab.sendQ ++ [⟨some hd.link, 3, s.fabId, hd.origin, s.fab.serial + 1, beBytes 4 hd.serial ++ beBytes 8 t2 ++ beBytes 4 p2, false⟩]) ∧
    (∀ rs t2 p2 t3 t4 p4 : Nat, let B := beBytes 4 rs ++ beBytes 8 t2 ++ beBytes 4 p2
      s.receives hd 3 B = true → let t := s.fabNote hd 3 B
      let x := t.plink hd.link
      (∀ q, x.reqSerial = some q → q % 2 ^ 32 = rs → t4 ≤ x.reqT1 + 80000 → s.frameBad hd = false → exec (.delayResp hd rs t2 p2 t3 t4 p4) s = .next (t.addSample hd.link
        (((((t4 : Int) * 125000 + p4) - (x.reqT1 : Int) * 125000) - ((t3 : Int) * 125000 - ((t2 : Int) * 125000 + p2))).ediv 2 + t.linkAsym hd.link).toNat)) ∧
      ((∀ q, x.reqSerial = some q → q % 2 ^ 32 ≠ rs ∨ x.reqT1 + 80000 < t4 ∨ s.frameBad hd = true) → exec (.delayResp hd rs t2 p2 t3 t4 p4) s = .next t)) ∧
    (∀ (tn : Nat) (a : Int) (g : Fin 32), hd.link = .group g → s.receives hd 1 (beBytes 8 tn) = true → let t := s.fabNote hd 1 (beBytes 8 tn)
      let v := ((tn : Int) + roundDiv (((t.plink hd.link).delayPs : Int) - a) 125000).toNat
      (t.fabRole = 2 → t.tnSrc = 2 → t.follows_ g = true → (t.plink hd.link).st = .up → s.str.st = .locked →
        (s.clk.tnValid = false → exec (.tnAnnounce hd tn a) s = .next { t with clk := { s.clk with tnValid := true, tn := v % 2 ^ 64 } }) ∧
        (s.clk.tnValid = true → s.clk.tn = v → exec (.tnAnnounce hd tn a) s = .next t) ∧
        (s.clk.tnValid = true → s.clk.tn ≠ v → exec (.tnAnnounce hd tn a) s = .next ((t.setSticky (Reg.fabStatus g.val) 0x02000000).event [0] 0x0061 g.val tn))) ∧
      (¬(t.fabRole = 2 ∧ t.tnSrc = 2 ∧ t.follows_ g = true ∧ (t.plink hd.link).st = .up ∧ s.str.st = .locked) → exec (.tnAnnounce hd tn a) s = .next t)) ∧
    (∀ (id : Word) (f : Nat), let B := beBytes 4 id.toNat ++ beBytes 8 f
      s.receives hd 0x10 B = true → let t := s.fabNote hd 0x10 B
      let c := t.proposeStatus f id
      ∃ u : State, exec (.flipPropose hd id f) s = .next u ∧
        (c ≠ 0 → u.flp = s.flp) ∧ (c = 0 → ∃ x ∈ u.flp.flips, x.id = id ∧ x.f = f) ∧
        (c = 0 → (∀ x ∈ s.flp.flips, ¬(x.id = id ∧ x.f = f)) → u.flp.flips = s.flp.flips ++ [{ h := 65536 + id.toNat, f := f, id := id, fabric := true, fromMgr := true }]) ∧
        u.fab.sendQ = t.fab.sendQ ++ [⟨none, 0x11, s.fabId, s.mgrId, t.fab.serial + 1, beBytes 4 id.toNat ++ beBytes 1 c ++ beBytes 1 (if c = 0 then 0 else 4), s.copies⟩]) ∧
    (∀ (id : Word) (st re : Nat), let B := beBytes 4 id.toNat ++ beBytes 1 st ++ beBytes 1 re
      s.receives hd 0x11 B = true → let t := s.fabNote hd 0x11 B
      (∀ x, s.flp.fab.find? (fun x => x.id = id) = some x →
        (st = 0 → hd.origin ∈ x.ws → ∃ u : State, exec (.flipReady hd id st re) s = .next u ∧ (∀ y ∈ u.flp.fab, y.id = id → hd.origin ∈ y.ready) ∧ u.flp.fab.length = s.flp.fab.length ∧
          u = { t with flp := { s.flp with fab := u.flp.fab } }) ∧
        (st ≠ 0 → hd.origin ∈ x.ws → s.tnNow < x.f → exec (.flipReady hd id st re) s = .next (t.cancelFab x hd.origin 4)) ∧
        (hd.origin ∉ x.ws → exec (.flipReady hd id st re) s = .next t)) ∧
      (s.flp.fab.find? (fun x => x.id = id) = none → exec (.flipReady hd id st re) s = .next t)) ∧
    (∀ id fid : Word, let B := beBytes 4 id.toNat ++ beBytes 4 fid.toNat
      s.receives hd 0x12 B = true → ∃ u : State, exec (.fabFlipCancel hd id fid) s = .next u ∧ u.hrp = s.hrp ∧ u.flp = { s.flp with flips := u.flp.flips } ∧
        u.flp.flips.length = s.flp.flips.length ∧ (∀ x ∈ u.flp.flips, x.fromMgr = true → x.id = id → s.tnNow + 4 < x.f → x.cancelled = true)) ∧
    (∀ (id : Word) (cm : Bool), let B := beBytes 4 id.toNat ++ beBytes 1 (b2n cm)
      s.receives hd 0x13 B = true → let t := s.fabNote hd 0x13 B
      ∃ u : State, exec (.flipResult hd id cm) s = .next u.finishReady ∧ u = { t with flp := { s.flp with fab := u.flp.fab } } ∧
        ∀ y ∈ u.flp.fab, y.id = id → hd.origin ∈ y.ws → ∃ r ∈ y.results, r.1 = hd.origin) ∧
    (∀ (tn st : Nat) (df : BitVec 56), let B := beBytes 8 tn ++ beBytes 1 st ++ beBytes 7 df.toNat
      s.receives hd 0x30 B = true → ∃ u w, exec (.fabStatus hd tn st df) s = .next u ∧ u.fab.workers = s.fab.workers.filter (fun o => o.id ≠ hd.origin) ++ [w] ∧
        w.id = hd.origin ∧ w.silent = 0 ∧ w.lost = false ∧ u = { s with fab := u.fab }) ∧
    (∀ (r : Fin 16) (k : BitVec 256), hd.link = .calrin → s.mated = true → s.receives hd 0x50 (beBytes 1 r ++ beBytes 32 k.toNat) = true →
      ∃ u : State, exec (.mateRingKey hd r k) s = .next u ∧ u.ring r = { s.ring r with key := some k, oldKey := (s.ring r).key.map (fun o => (o, (s.ring r).expect - 1)) } ∧ ∀ j, j ≠ r.val → u.ring j = s.ring j)

/-- CMD, CMD_DATA, OUT_DATA, RESULT, EVENT, DUMP, MBX and the key agreement and dump messages of a mate. -/
def Obligations.FabricCommands : Prop :=
  ∀ (hd : FabHdr) (m : Nat) (s : State),
    (∀ (p : Nat) (d : Desc) (sg : FwSigs), let B := beBytes 8 m ++ beBytes 1 p ++ descBytes d
      s.receives hd 0x20 B = true → let t := s.fabNote hd 0x20 B
      let c := Instr.fabCmd hd m p d sg
      let w := (s.fab.wcmds.find? (fun w => w.mserial = m)).getD { mserial := m, prin := 0 }
      let n := if descHasBatch d then fld d.body 72 4 else 0
      (s.sealed = false ∨ s.fw = false → exec c s = .next t) ∧
      (s.sealed = true → s.fw = true →
        (w.h ≠ none → w.result = none → exec c s = .next (t.needWcmd m)) ∧
        (∀ r, w.h ≠ none → w.result = some r → ∃ u : State, exec c s = .next u ∧ u.mgp = s.mgp ∧
          u.fab.sendQ.map (fun x => (x.type, x.dest, x.body)) = t.fab.sendQ.map (fun x => (x.type, x.dest, x.body)) ++
            w.output.map (fun o => (0x26, s.mgrId, beBytes 8 w.mserial ++ beBytes 4 o.1 ++ o.2)) ++ [(0x21, s.mgrId, beBytes 8 w.mserial ++ cmpBytes r 0)]) ∧
        (w.h = none → w.batch.length < n → exec c s = .next (t.needWcmd m)) ∧
        (w.h = none → n ≤ w.batch.length → ∃ u : State, exec c s = .next u ∧
          u.mgp = { s.mgp with nextH := (s.mgp.nextH + 1) % 65536, journal := s.mgp.journal ++ [(s.mgp.nextH,
            { ring := 0, prin := p, origin := .manager m, d := { d with tag := BitVec.ofNat 128 m }, j := s.clk.tick, jtn := s.tnNow,
              batch := if descHasBatch d then some ⟨w.batch.take n, true, true, sg⟩ else none, recTn := if s.cal.role = .active then some s.tnNow else none })] } ∧
          u.fab.sendQ = t.fab.sendQ ∧ u.fab.wcmds.find? (fun w => w.mserial = m) = some { w with prin := p, h := some s.mgp.nextH }))) ∧
    (∀ (off : Nat) (data : List Byte), let B := beBytes 8 m ++ beBytes 4 off ++ data
      let w := (s.fab.wcmds.find? (fun w => w.mserial = m)).getD { mserial := m, prin := 0 }
      (s.receives hd 0x25 B = true → (s.sealed = false ∨ s.fw = false → exec (.cmdData hd m off data) s = .next (s.fabNote hd 0x25 B)) ∧
        (s.sealed = true → s.fw = true → ∃ u : State, exec (.cmdData hd m off data) s = .next u ∧ u = { s with fab := u.fab } ∧ u.fab.sendQ = (s.fabNote hd 0x25 B).fab.sendQ ∧
          u.fab.wcmds.find? (fun w => w.mserial = m) = some (if (w.h = none ∨ s.copies = true) ∧ off ≤ w.batch.length then { w with batch := w.batch.take off ++ data } else w))) ∧
      (s.receives hd 0x26 B = true → let t := s.fabNote hd 0x26 B
        (∀ e c, s.job m = some e → s.fab.cmds.find? (fun c => decide (c.h = m) && decide (c.worker = hd.origin)) = some c →
          (c.abandoned = false → e.cmp = none → e.origin = .ring → exec (.outData hd m off data) s = .next
            ((t.setJob m (fun e => { e with outLeft := e.outLeft + 1 })).issue e.ring ⟨.output m, e.outRef.1 + off, e.outRef.2, data, data.length⟩)) ∧
          (c.abandoned = true ∨ e.cmp ≠ none → exec (.outData hd m off data) s = .next t)) ∧
        (s.job m = none ∨ s.fab.cmds.find? (fun c => decide (c.h = m) && decide (c.worker = hd.origin)) = none → exec (.outData hd m off data) s = .next t))) ∧
    (∀ r : CmpEntry, let B := beBytes 8 m ++ cmpBytes r 0
      s.receives hd 0x21 B = true → let t := s.fabNote hd 0x21 B
      let y : State := { t with fab := { t.fab with cmds := s.fab.cmds.filter (fun y => y.h ≠ m) } }
      (s.fab.cmds.find? (fun c => decide (c.h = m) && decide (c.worker = hd.origin)) = none → exec (.fabResult hd m r) s = .next t) ∧
      (∀ c, s.fab.cmds.find? (fun c => decide (c.h = m) && decide (c.worker = hd.origin)) = some c →
        (c.abandoned = true → exec (.fabResult hd m r) s = .next (y.event [(s.ring r.ring).prin] 0x0065 hd.origin.toNat (r.serial % 2 ^ 56 * 256 + r.status % 256))) ∧
        (∀ e, c.abandoned = false → s.job m = some e → exec (.fabResult hd m r) s = .next ((if e.d.opcode = 0x70 ∧ r.status = 0 then y.noteHolds hd.origin e else y).completeEntry m
          { r with remote := true, device := hd.origin, ring := e.ring, serial := e.d.serial })) ∧
        (c.abandoned = false → s.job m = none → exec (.fabResult hd m r) s = .next y))) ∧
    (∀ (p : Nat) (e : EvtEntry), let B := beBytes 1 p ++ evtBytes e 0 0
      s.receives hd 0x22 B = true → exec (.fabEvent hd p e) s = .next ((s.fabNote hd 0x22 B).emit [p] { e with remote := true, device := hd.origin })) ∧
    (∀ (p l off : Nat) (data : List Byte), let B := beBytes 1 p ++ beBytes 8 l ++ beBytes 4 off ++ data
      (s.receives hd 0x23 B = true → exec (.fabDump hd p l off data) s = .next
        (if s.fw then (s.fabNote hd 0x23 B).takeDump (2 + hd.origin.toNat) 2 hd.origin p l off data else s.fabNote hd 0x23 B)) ∧
      (s.fw = true → hd.link = .calrin → s.mated = true → s.receives hd mateDumpType B = true →
        exec (.mateDump hd p l off data) s = .next ((s.fabNote hd mateDumpType B).takeDump 1 4 0 p l off data))) ∧
    (∀ (ch : Fin 64) (fl : Byte) (msg : List Byte), let B := leBytes 1 ch ++ [fl] ++ msg
      s.receives hd 0x24 B = true → exec (.fabMbx hd ch fl msg) s = .next ((s.fabNote hd 0x24 B).mbxMsg hd.origin ch fl msg)) ∧
    (∀ (req : List Byte) (ec lms : Bool), hd.link = .calrin → s.mated = true → s.receives hd 0x51 req = true → let t := s.fabNote hd 0x51 req
      let fits := kaRange req = true ∧ kaForMate req = true ∧ ec = true ∧ lms = true ∧ kaKeyDigest req = t.ownerDigest ∧
        BitVec.ofNat 384 (beNat ((req.drop 320).take 48)) = Config.deviceId
      (fits → exec (.mateKeyAgreeRequest hd req ec lms) s = .next ((t.draw.2.takeLeaf.2.kaInstall 0 req t.draw.1).send (some .calrin) 0x52 0
        (beBytes 8 (leAt req 8 8) ++ t.draw.2.signed t.draw.2.takeLeaf.1 (kaBody req t.draw.1)))) ∧
      (¬fits → exec (.mateKeyAgreeRequest hd req ec lms) s = .next (t.send (some .calrin) 0x52 0 (beBytes 8 (leAt req 8 8))))) ∧
    (∀ resp : List Byte, hd.link = .calrin → s.mated = true → s.receives hd 0x52 (beBytes 8 m ++ resp) = true → let t := s.fabNote hd 0x52 (beBytes 8 m ++ resp)
      let x := s.mgp.journal.find? (fun x => decide (x.2.d.opcode = 0x72) && decide (x.2.d.serial = m) && decide (x.2.prin = 0) && x.2.accepted.isSome && x.2.cmp.isNone && kaForMate x.2.bytes)
      (x = none → exec (.mateKeyAgreeResponse hd m resp) s = .next t) ∧
      (∀ y, x = some y → exec (.mateKeyAgreeResponse hd m resp) s = .next
        (if resp = [] then t.complete y.1 eAuth s.tnNow 0 else (t.output y.1 (y.2.f 8 8) (y.2.f 16 4) 32 resp).complete y.1 0 s.tnNow 0)))

/-- PEER_KEYING_MESSAGE, PEER_KEYING_RETRY, DELAY_SAMPLE_TIMEOUT, FAB_CMD_RETRY, FAB_WORKER_LOST and FAB_CMD_ABANDON. -/
def Obligations.FabricTimers : Prop :=
  ∀ s : State, s.up = true →
    (∀ (hd : FabHdr) (n : BitVec 256) (e : BitVec 768), (s.plink hd.link).st = .keying →
      exec (.peerKeyingMessage hd (.hello n e)) s = .next ((s.setPlink hd.link { s.plink hd.link with helloFar := some (n, e) }).quotePeer (linkNo hd.link))) ∧
    (∀ (hd : FabHdr) (n : BitVec 256) (e : BitVec 768), (s.plink hd.link).st ≠ .keying → (s.plink hd.link).st ≠ .down → exec (.peerKeyingMessage hd (.hello n e)) s = .next s) ∧
    (∀ (hd : FabHdr) (d b q : Bool) (id : Digest) (lc : Nat) (o fw : Digest) (n fn : BitVec 256) (fe : BitVec 768) (i : Nat), let l := hd.link
      let x := s.plink l
      x.st = .keying → x.nonceOwn = some i → x.helloFar = some (fn, fe) →
      let low := decide (Config.deviceId.toNat < id.toNat)
      let own := Config.nonce i
      let salt := if low then beBytes 32 own.toNat ++ beBytes 32 fn.toNat else beBytes 32 fn.toNat ++ beBytes 32 own.toNat
      let accepts := d = true ∧ b = true ∧ q = true ∧ lc = 2 ∧ o = s.ownerDigest ∧ (bit (s.reg Reg.peerCfg) 0 = true → fw = s.rnd.mFw) ∧
        beBytes 32 n.toNat = peerNonce (helloBytes own (Config.ephPub i)) (helloBytes fn fe) low
      ∃ u : State, exec (.peerKeyingMessage hd (.quote d b q id lc o fw n)) s = .next u ∧ (∀ k, k ≠ l → u.plink k = s.plink k) ∧
        (accepts → u.plink l = { x with st := .measuring, keys := some { tx := peerKey i fe salt Config.deviceId, rx := peerKey i fe salt id, recTx := recordKey i fe salt Config.deviceId, recRx := recordKey i fe salt id } }) ∧
        (¬accepts → (u.plink l).st = .down ∧ (u.plink l).keys = none ∧ (u.plink l).samples = [] ∧ (u.plink l).retryAt = some (u.clk.tick + 8000000))) ∧
    (∀ (hd : FabHdr) (d b q : Bool) (id : Digest) (lc : Nat) (o fw : Digest) (n : BitVec 256), let x := s.plink hd.link
      x.st ≠ .keying ∨ x.nonceOwn = none ∨ x.helloFar = none → exec (.peerKeyingMessage hd (.quote d b q id lc o fw n)) s = .next s) ∧
    (∀ l : Link, let x := s.plink l
      let ready := match l with | .group g => s.fabRole ≠ 0 ∧ s.isFabricLink g = true ∧ (s.group g).st = .inService ∧ 2 ≤ (s.fabricInFrame g).length | .calrin => s.anyPort = true
      (∀ a, x.retryAt = some a → x.st = .down → a ≤ s.clk.tick → ∃ u : State, exec (.peerKeyingRetry l) s = .next u ∧ (∀ k, k ≠ l → u.plink k = s.plink k) ∧
        (ready → u.plink l = { x with st := .keying, nonceOwn := some s.fresh, helloFar := none, retryAt := none }) ∧ (¬ready → u.plink l = { x with retryAt := none })) ∧
      (x.retryAt = none ∨ x.st ≠ .down ∨ (∃ t, x.retryAt = some t ∧ s.clk.tick < t) → exec (.peerKeyingRetry l) s = .next s) ∧
      (x.reqSerial.isSome = true → x.reqT1 + 80000 ≤ s.clk.tick → exec (.delaySampleTimeout l) s = .next (s.setPlink l { x with reqSerial := none })) ∧
      (x.reqSerial = none ∨ s.clk.tick < x.reqT1 + 80000 → exec (.delaySampleTimeout l) s = .next s)) ∧
    (∀ w : Word, (∀ x, s.worker w = some x → s.fabRole = 1 → 3 ≤ x.silent → x.lost = false → exec (.fabWorkerLost w) s = .next
        (({ s with fab := { s.fab with workers := s.fab.workers.map (fun x => if x.id = w then { x with lost := true, lostTick := s.clk.tick } else x) } } : State).event [0] 0x0062 w.toNat 0)) ∧
      ((∀ x, s.worker w = some x → ¬(s.fabRole = 1 ∧ 3 ≤ x.silent ∧ x.lost = false)) → exec (.fabWorkerLost w) s = .next s)) ∧
    (∀ (h : Nat) (c : RemoteCmd) (e : JEntry), s.fw = true → s.fab.cmds.find? (fun c => c.h = h) = some c → s.job h = some e →
      (c.abandoned = false → e.cmp = none → c.sentTick + s.retry ≤ s.clk.tick → ∃ u : State, exec (.fabCmdRetry h) s = .next u ∧
        u.fab.cmds = s.fab.cmds.map (fun x => if x.h = h then { x with sentTick := s.clk.tick } else x) ∧
        u.fab.sendQ.map (fun x => (x.type, x.dest, x.body)) = s.fab.sendQ.map (fun x => (x.type, x.dest, x.body)) ++
          (pieces 713 0 e.bytes).map (fun p => (0x25, c.worker, beBytes 8 h ++ beBytes 4 p.1 ++ p.2)) ++ [(0x20, c.worker, beBytes 8 h ++ beBytes 1 e.prin ++ descBytes e.d)]) ∧
      (c.abandoned = true ∨ e.cmp ≠ none ∨ s.clk.tick < c.sentTick + s.retry → exec (.fabCmdRetry h) s = .next s) ∧
      (∀ w, s.worker c.worker = some w → c.abandoned = false → w.lost = true → w.lostTick + 64000000 ≤ s.clk.tick → exec (.fabCmdAbandon h) s = .next
        (({ s with fab := { s.fab with cmds := s.fab.cmds.map (fun x => if x.h = h then { x with abandoned := true } else x) } } : State).completeEntry h
          ⟨e.d.serial, e.d.opcode, eAborted, true, e.d.ring, c.worker, s.tnNow, 0xFFFFFFFFFFFFFFFF⟩)) ∧
      ((∀ w, s.worker c.worker = some w → c.abandoned = true ∨ w.lost = false ∨ s.clk.tick < w.lostTick + 64000000) → exec (.fabCmdAbandon h) s = .next s))

/-- MGMT_FRAME_RECEIVED, MGMT_LINK_CHANGE and SA_TX_SWITCH. -/
def Obligations.Ports : Prop :=
  (∀ (p : Fin 2) (f : EthFrame) (s : State), s.fw = true → let x := s.port p
    let c := Instr.mgmtFrameReceived p f
    let bad := f.len < 64 ∨ 4256 < f.len ∨ f.vlan = true ∨ f.pause = true ∨ f.dst ≠ x.mac
    (x.link = false ∨ x.mode = 0 → exec c s = .next s) ∧
    (x.link = true → x.mode ≠ 0 → (f.fcsOk = false → exec c s = .next (s.count 6 p 2 1)) ∧ (f.fcsOk = true → bad → exec c s = .next (s.count 6 p 6 1)) ∧
      (f.fcsOk = true → ¬bad → (x.mode = 1 → f.sec = none → exec c s = .next ((s.count 6 p 0 1).rocv p f.op)) ∧ (x.mode = 1 → f.sec ≠ none → exec c s = .next (s.count 6 p 6 1)) ∧
        (x.mode ≠ 1 → f.sec = none → exec c s = .next (s.count 6 p 3 1)) ∧
        ∀ t, x.mode ≠ 1 → f.sec = some t →
          (∀ n, x.next = some n → n.an = t.an → (t.icvOk = false → exec c s = .next (s.count 6 p 4 1)) ∧ (t.icvOk = true → t.pn + 64 ≤ n.rxHigh → exec c s = .next (s.count 6 p 5 1)) ∧
            (t.icvOk = true → n.rxHigh < t.pn + 64 → let a := { n with rxHigh := max n.rxHigh t.pn }
              exec c s = .next (((s.setPort p (if x.txNew = true ∧ (x.sa = none ∨ 16 ≤ x.rxNew + 1) then { x with sa := some a, next := none, txNew := false, rxNew := 0 }
                else { x with next := some a, rxNew := x.rxNew + 1 })).count 6 p 0 1).rocv p f.op))) ∧
          (∀ a, (∀ n, x.next = some n → n.an ≠ t.an) → x.sa = some a → a.an = t.an → (t.icvOk = false → exec c s = .next (s.count 6 p 4 1)) ∧ (t.icvOk = true → t.pn + 64 ≤ a.rxHigh → exec c s = .next (s.count 6 p 5 1)) ∧
            (t.icvOk = true → a.rxHigh < t.pn + 64 → exec c s = .next (((s.setPort p { x with sa := some { a with rxHigh := max a.rxHigh t.pn } }).count 6 p 0 1).rocv p f.op))) ∧
          ((∀ n, x.next = some n → n.an ≠ t.an) → (∀ a, x.sa = some a → a.an ≠ t.an) → exec c s = .next (s.count 6 p 6 1))))) ∧
  (∀ (s : State) (p : Nat) (q : Fin 16) (k : Word) (a n : Nat) (d : List Byte), ((s.qp q).port ≠ p ∨ s.reaches q = false →
      ∀ o ∈ [Roce.write q k a d, Roce.read q k a n, Roce.ack q], s.rocv p o = s.count 6 p 6 1) ∧
    ((s.qp q).port = p → s.reaches q = true → s.rocv p (.write q k a d) = s.hostWrite q k a d ∧ s.rocv p (.read q k a n) = s.hostRead q k a n ∧ s.rocv p (.ack q) = s.writeAcked q)) ∧
  (∀ (p : Fin 2) (b : Bool) (s : State), s.up = true → exec (.mgmtLinkChange p b) s = .next ((List.range 16).foldl (fun t q => if (t.qp q).bound then t.moveOps q else t)
    (s.setPort p { s.port p with link := b && decide ((s.port p).mode ≠ 0) }))) ∧
  (∀ (s : State) (q w : Nat), s.workQp (s.qp q).ring = some w → w ≠ q → s.qpWorks q = false →
    (s.moveOps q).qp w = { s.qp w with ops := (s.qp w).ops ++ (s.qp q).ops, timer := if (s.qp w).ops.isEmpty then s.clk.tick else (s.qp w).timer } ∧ (s.moveOps q).qp q = { s.qp q with ops := [] } ∧ ∀ j, j ≠ q → j ≠ w → (s.moveOps q).qp j = s.qp j) ∧
  (∀ (s : State) (q : Nat), s.qpWorks q = true ∨ s.workQp (s.qp q).ring = none → s.moveOps q = s) ∧
  (∀ (p : Fin 2) (s : State), let x := s.port p
    (∀ n t, x.next = some n → x.switchTn = some t → s.up = true → s.clk.tnValid = false ∨ t ≤ s.clk.tn → exec (.saTxSwitch p) s = .next (s.setPort p
      (if x.sa = none ∨ 16 ≤ x.rxNew then { x with sa := some n, next := none, switchTn := none, txNew := false, rxNew := 0 } else { x with switchTn := none, txNew := true }))) ∧
    (x.next = none ∨ x.switchTn = none ∨ (∃ t, x.switchTn = some t ∧ s.clk.tnValid = true ∧ s.clk.tn < t) → exec (.saTxSwitch p) s = .next s))

/-- KICK, DOORBELL_POLL, DOORBELL_READ_DONE, DESCRIPTOR_FETCH_DONE, DESCRIPTOR_TAKE and BATCH_READ_DONE. -/
def Obligations.RingFetch : Prop :=
  (∀ (q : Fin 16) (k : Word) (a n : Nat) (s : State), s.up = true → let x := s.qp q
    let r := (a - 0x20000000) / 8
    let m := (s.port x.port).mode
    let good := x.rkey = k ∧ 0x20000000 ≤ a ∧ a < 0x20000080 ∧ a % 8 = 0 ∧ n = 8 ∧ (s.ring r).st ≠ .unbound ∧ (s.ring r).prin = x.prin ∧ (m = 1 → q.val = 0 ∧ r = 0)
    (x.bound = true → m ≠ 0 → (good → exec (.kick q k a n) s = .next (((if s.ringFetches r then s.setRing r { s.ring r with kicked := true } else s).count 3 r 4 1).answer q .ack)) ∧
      (¬good → exec (.kick q k a n) s = .next (s.answer q .nak))) ∧ (x.bound = false ∨ m = 0 → exec (.kick q k a n) s = .next s)) ∧
  (∀ (r : Fin 16) (s : State), let on := s.ringFetches r = true ∧ s.clk.tnValid = true ∧ s.clk.tn % 512 = 32 * r.val
    (on → (s.ring r).dbRead = false → exec (.doorbellPoll r) s = .next (((s.setRing r { s.ring r with dbRead := true, kicked := false }).issue r ⟨.doorbell r, (s.ring r).dbAddr, (s.ring r).hkeys.getD 3 0, [], 16⟩).count 3 r 5 1)) ∧
    (on → (s.ring r).dbRead = true → exec (.doorbellPoll r) s = .next (s.setRing r { s.ring r with kickAgain := true, kicked := false })) ∧ (¬on → exec (.doorbellPoll r) s = .next s)) ∧
  (∀ (r : Fin 16) (a b c : Nat) (s : State), let x := s.ring r
    let p := idxFrom x.cmdCons a
    (s.fw = true → x.dbRead = true → ∃ u : State, exec (.doorbellReadDone r a b c) s = .next u ∧
      (u.ring r).cmpCons = min (idxFrom x.cmpCons b) x.cmpProd ∧ (u.ring r).evtCons = min (idxFrom x.evtCons c) x.evtProd ∧ (x.kickAgain = false → (u.ring r).dbRead = false) ∧
      (∀ j, j ∈ u.mgp.journal ↔ j ∈ s.mgp.journal ∧ ¬(j.2.ring = r ∧ j.2.origin = .ring ∧ j.2.posted = true ∧ ∃ k, j.2.slot = some k ∧ k < (u.ring r).cmpCons)) ∧
      (x.cmdSize < p - x.cmdCons → (u.ring r).st = .halted ∧ (u.ring r).cause = 5 ∧ (u.ring r).fetch = [] ∧ (u.ring r).cmdProd = x.cmdProd) ∧
      (p - x.cmdCons ≤ x.cmdSize → (u.ring r).cmdProd = max p x.takeIdx ∧ (u.ring r).fetch = x.fetch ∧ ((u.ring r).st = .halted ↔ x.st = .halted ∧ x.cause ≠ 5))) ∧
    (s.fw = false ∨ x.dbRead = false → exec (.doorbellReadDone r a b c) s = .next s)) ∧
  (∀ (r : Fin 16) (ds : List Desc) (s : State), let x := s.ring r
    let mine := fun (o : RdmaOp) => match o.kind with | .descs k _ _ => decide (k = r.val) | _ => false
    (s.fw = true → x.fetching ≠ 0 → ∃ u : State, exec (.descriptorFetchDone r ds) s = .next u ∧ (u.ring r).expect = x.expect ∧ u.mgp.journal = s.mgp.journal ∧
      (∀ o i m, ((s.qp x.qpLo).ops ++ (s.qp x.qpHi).ops).find? mine = some o → o.kind = .descs r i m →
        (i = x.fetchIdx → (u.ring r).fetch = x.fetch ++ ds.take x.fetching ∧ (u.ring r).fetchIdx = x.fetchIdx + (ds.take x.fetching).length) ∧
        (i ≠ x.fetchIdx → (u.ring r).fetch = x.fetch ∧ (u.ring r).fetchIdx = x.fetchIdx))) ∧
    (s.fw = false ∨ x.fetching = 0 → exec (.descriptorFetchDone r ds) s = .next s)) ∧
  (∀ (s : State), let t := (List.range 16).foldl State.refreshBusy s
    (4 ≤ t.clk.takeUsed ∨ t.nextRing = none → exec .descriptorTake s = .next t) ∧
    (∀ k d l, t.clk.takeUsed < 4 → t.nextRing = some k → (t.ring k).fetch = d :: l → ∃ u : State, exec .descriptorTake s = .next u ∧
      u.clk = { t.clk with takeUsed := t.clk.takeUsed + 1 } ∧ u.mgp.rr = k ∧ let c := (t.ring k).check k d
      (c ≠ 0 → (u.ring k).st = .halted ∧ (u.ring k).cause = c ∧ (u.ring k).fetch = [] ∧ (u.ring k).expect = (t.ring k).expect ∧ u.mgp.journal = t.mgp.journal) ∧
      (c = 0 → descHasBatch d = true → descBatchRef d = true → (u.ring k).batchWait = true ∧ (u.ring k).fetch = d :: l ∧ (u.ring k).expect = (t.ring k).expect ∧ u.mgp.journal = t.mgp.journal) ∧
      (c = 0 → ¬(descHasBatch d = true ∧ descBatchRef d = true) → (u.ring k).fetch = l ∧ (u.ring k).expect = (t.ring k).expect + 1 ∧
        u.mgp.journal = t.mgp.journal ++ [(t.mgp.nextH, { ring := k, prin := (t.ring k).prin, d := d, j := t.clk.tick, jtn := t.tnNow, recTn := if t.cal.role = .active then some t.tnNow else none })]))) ∧
  (∀ (x : Ring) (r : Nat) (d : Desc), let bad := ∃ k, x.keyFor d.serial = some k ∧ d.tag ≠ Config.gmac k (tagIv r 0 d.serial) (descBytes d)
    (d.ring ≠ r → x.check r d = 1) ∧ (d.ring = r → d.serial ≠ x.expect → x.check r d = 2) ∧ (d.ring = r → d.serial = x.expect → bad → x.check r d = 3) ∧
    (d.ring = r → d.serial = x.expect → ¬bad → x.check r d = if d.opcode ∈ opcodes then 0 else 4)) ∧
  (∀ (r : Fin 16) (b : Batch) (s : State), let x := s.ring r
    (∀ d l, s.fw = true → x.fetch = d :: l → x.batchWait = true → b.bytes.length = fld d.body 72 4 → ∃ u : State, exec (.batchReadDone r b) s = .next u ∧
      (u.ring r).fetch = l ∧ (u.ring r).batchWait = false ∧ (u.ring r).expect = x.expect + 1 ∧ u.mgp.journal = s.mgp.journal ++ [(s.mgp.nextH,
        { ring := r, prin := x.prin, d := d, batch := some b, batchOk := x.batchOk r d b, j := s.clk.tick, jtn := s.tnNow, recTn := if s.cal.role = .active then some s.tnNow else none })]) ∧
    (s.fw = false → exec (.batchReadDone r b) s = .next s) ∧
    (s.fw = true → x.batchWait = false → exec (.batchReadDone r b) s = .next (s.attachBatch r b)))

/-- COMPLETION_POST, RDMA_WRITE_ACK, QP_ACK_TIMEOUT and COMPLETION_RING_READ_DONE. -/
def Obligations.Completions : Prop :=
  (∀ (r : Fin 16) (s : State) (h : Nat) (rest : List Nat) (e : JEntry) (c : CmpEntry), let x := s.ring r
    let q := (s.workQp r).getD x.qpLo
    s.writesHost = true → x.cmpFree ≠ 0 → s.cmpReadOut r = false → x.overflow = h :: rest → s.job h = some e → e.cmp = some c →
    let ready := s.ackedRec e = true ∧ e.outLeft = 0 ∧ e.notBefore ≤ s.clk.tick
    (¬ready → exec (.completionPost r) s = .next s) ∧
    (ready → e.dest = none → ∃ t : State, exec (.completionPost r) s = .next ((t.refreshBusy r).dropOldKey r) ∧
      t.ring r = { x with cmpProd := x.cmpProd + 1, overflow := rest, dirty := true } ∧ (∀ j, j ≠ r.val → t.ring j = s.ring j) ∧
      (t.qp q).ops = (s.qp q).ops ++ [⟨.completion r, x.cmpBase + 32 * (x.cmpProd % x.cmpSize), x.hkeys.getD 1 0, cmpBytes c (phaseBit x.cmpProd x.cmpSize), 32⟩] ∧
      t.job h = some { e with posted := true, slot := some x.cmpProd } ∧
      (s.cal.role = .active → t.cal.cur.rings = s.cal.cur.rings ++ [⟨r, 1, x.cmpProd + 1⟩])) ∧
    (ready → ∀ a k ph, e.dest = some (a, k, ph) → ∃ t : State, exec (.completionPost r) s = .next (t.dropOldKey r) ∧
      t.ring r = { x with overflow := rest } ∧ t.job h = none ∧
      (t.qp q).ops = (s.qp q).ops ++ [⟨.completion r, a, k, cmpBytes c ph, 32⟩])) ∧
  (∀ (q : Fin 16) (s : State), s.up = true → let x := s.qp q
    let v := s.setQp q { x with ops := dropFirst (fun o => !o.kind.isRead) x.ops, retries := 0, timer := s.clk.tick }
    (x.ops.find? (fun o => !o.kind.isRead) = none → exec (.rdmaWriteAck q) s = .next s) ∧
    (∀ o, x.ops.find? (fun o => !o.kind.isRead) = some o → ∃ t : State, exec (.rdmaWriteAck q) s = .next t ∧
      (∀ h, o.kind = .output h → t = v.setJob h (fun e => { e with outLeft := e.outLeft - 1 })) ∧
      (∀ r i m, o.kind = .dump r i → (s.dump r).imgs.find? (fun y => y.seq = i && !y.sent) = some m →
        let more := fun (p : Nat) => (v.qp p).ops.any (fun o => decide (o.kind = .dump r i))
        (more (s.ring r).qpLo = true ∨ more (s.ring r).qpHi = true → t = v) ∧
        (more (s.ring r).qpLo = false → more (s.ring r).qpHi = false → let w := (v.workQp r).getD (s.ring r).qpLo
          (t.qp w).ops = (v.qp w).ops ++ [⟨.trailer r i, m.tail, (s.dump r).hkey, leBytes 8 m.latch ++ leBytes 8 i, 16⟩] ∧
          ∀ y ∈ (t.dump r).imgs, y.seq = i → y.sent = true)) ∧
      (∀ r i m, o.kind = .trailer r i → (s.dump r).imgs.find? (fun y => y.seq = i) = some m →
        t.mgp.qp = v.mgp.qp ∧ (t.dump r).imgs = (s.dump r).imgs.filter (fun y => y.seq ≠ i) ∧ (t.dump r).prev.look (0, 0) m.src = (m.latch, 0)) ∧
      (∀ r, o.kind = .completion r ∨ o.kind = .event r ∨ o.kind = .index r → t = v))) ∧
  (∀ (q : Fin 16) (s : State), let x := s.qp q
    let due := s.fw = true ∧ x.bound = true ∧ x.err = false ∧ x.ops ≠ [] ∧ x.timer + 1049 ≤ s.clk.tick
    (¬due → exec (.qpAckTimeout q) s = .next s) ∧
    (due → x.retries < 7 → exec (.qpAckTimeout q) s = .next ((s.setQp q { x with retries := x.retries + 1, timer := s.clk.tick }).count 6 x.port 8 1)) ∧
    (due → 7 ≤ x.retries → exec (.qpAckTimeout q) s = .next
      (((s.setQp q { x with err := true, retries := 0 }).moveOps q).event (if x.prin = 0 then [0] else [0, x.prin]) 0x0082 q.val 0))) ∧
  (∀ (r : Fin 16) (slots : List (Nat × CmpEntry)) (s : State), s.fw = true →
    (s.cmpReadOut r = false → exec (.completionRingReadDone r slots) s = .next s) ∧
    (s.cmpReadOut r = true → exec (.completionRingReadDone r slots) s = .next
      (((s.mgp.journal.filter (fun p => decide (p.2.ring = r.val) && decide (p.2.origin = .ring))).map (fun p => p.1)).foldl
        (fun t h => t.repost r slots h) (s.doneOp r (fun o => o.kind = .cmpRing r)))) ∧
    (∀ (h : Nat) (e : JEntry) (c : CmpEntry) (k : Nat), let x := s.ring r
      s.job h = some e → e.cmp = some c → e.slot = some k →
      (k < x.cmpCons ∨ x.cmpProd ≤ k ∨ (k % x.cmpSize, c) ∈ slots → s.repost r slots h = s) ∧
      (x.cmpCons ≤ k → k < x.cmpProd → (k % x.cmpSize, c) ∉ slots → let q := (s.workQp r).getD x.qpLo
        ((s.repost r slots h).qp q).ops = (s.qp q).ops ++ [⟨.completion r, x.cmpBase + 32 * (k % x.cmpSize), x.hkeys.getD 1 0, cmpBytes c (phaseBit k x.cmpSize), 32⟩])))

/-- REGISTER_WRITE, RDMA_READ_REQUEST and GLB_RST_CTRL_WARM. -/
def Obligations.HostWindows : Prop :=
  (∀ (q : Fin 16) (k : Word) (a : Nat) (d : List Byte) (s : State), s.fw = true →
    let c := Instr.registerWrite q k a d
    let bad := (s.qp q).rkey ≠ k ∨ s.accessor q ≠ some 0 ∨ a % 4 ≠ 0 ∨ d.length % 4 ≠ 0 ∨ 0x10000000 < a + d.length
    (s.reaches q = false → exec c s = .next s) ∧
    (s.reaches q = true → 0x20000000 ≤ a → a < 0x20000080 → exec c s = .next (s.doorbell q k a d.length)) ∧
    (s.reaches q = true → ¬(0x20000000 ≤ a ∧ a < 0x20000080) → bad → ∃ t : State, exec c s = .next t ∧ t.mgp.resp = some .nak ∧ t = { s with mgp := t.mgp, cnt := t.cnt }) ∧
    (s.reaches q = true → ¬bad → d.length ≤ 64 → exec c s = .next ((s.writeWords (d.length / 4) a d).answer q .ack)) ∧
    (s.reaches q = true → ¬bad → 64 < d.length → let t := s.writeWords 16 a (d.take 64)
      exec c s = .next { t with mgp := { t.mgp with more := t.mgp.more ++ [⟨q, true, a + 64, d.length - 64, d.drop 64⟩] } })) ∧
  (∀ (a : Nat) (v : Word) (s : State), let sp := regSpec a
    let m := sp.rw ||| (if s.sealed then 0 else sp.rws)
    let t := s.writeFields a v
    inArr a (Reg.refPrio 0) 16 4 = false →
      t.reg a = (s.reg a &&& ~~~m) ||| (v &&& m) ∧ t.stick a = s.stick a &&& ~~~(v &&& sp.w1c) ∧
      (∀ b, b ≠ a → t.reg b = s.reg b ∧ t.stick b = s.stick b) ∧ t = { s with regs := t.regs, sticky := t.sticky }) ∧
  (∀ (q : Fin 16) (k : Word) (a n : Nat) (s : State), s.fw = true →
    let c := Instr.rdmaReadRequest q k a n
    (s.reaches q = false → exec c s = .next s) ∧
    (s.reaches q = true → (s.qp q).rkey ≠ k ∨ s.accessor q = none ∨ (∃ p, s.accessor q = some p ∧ mayRead p a n = false) →
      ∃ t : State, exec c s = .next t ∧ t.mgp.resp = some .nak ∧ t = { s with mgp := t.mgp, cnt := t.cnt }) ∧
    (∀ p, s.reaches q = true → (s.qp q).rkey = k → s.accessor q = some p → mayRead p a n = true →
      let u := if a < 0x10000000 then s.readRegs (min 64 n / 4) a else (s.tableBytes a (min 64 n), s)
      u.1.length = min 64 n ∧ (0x10000000 ≤ a → u.2 = s) ∧
      (a < 0x10000000 → n = 4 → u.1 = wordBytes (if a = Reg.tnLoadHi then s.clk.loCap.look 0 a else s.shown.regNow a) ∧ u.2 = s.capture a) ∧
      (n ≤ 64 → exec c s = .next (u.2.answer q (.data u.1)) ∧ (u.2.answer q (.data u.1)).mgp.resp = some (.data u.1)) ∧
      (64 < n → exec c s = .next { u.2 with mgp := { u.2.mgp with more := u.2.mgp.more ++ [⟨q, false, a + 64, n - 64, u.1⟩] } }))) ∧
  (∀ (q : Fin 16) (s : State), s.fw = true →
    (s.accessor q = some 0 → exec (.glbRstCtrlWarm q) s = .next ((s.warmReset 3).boot.answer q .ack) ∧ (s.warmReset 3).pwr.last = 3 ∧
      (s.warmReset 3).pwr.warmCount = min 65535 (s.pwr.warmCount + 1) ∧ (s.warmReset 3).sealed = false ∧ (s.warmReset 3).clk.tnValid = false) ∧
    (s.accessor q ≠ some 0 → ∃ t : State, exec (.glbRstCtrlWarm q) s = .next t ∧ t.mgp.resp = some .nak ∧ t = { s with mgp := t.mgp, cnt := t.cnt }))

/-- The 29 host commands. -/
def Obligations.CommandsAccepted : Prop :=
  (∀ (h : Nat) (s : State),
    ∀ m ∈ [(Instr.nop h, 0x00, (fun _ _ => (0, 0) : Check), (fun h _ s => s.complete h 0 s.tnNow 0 : Effect)), (.mapWrite h, 0x10, chkMapWrite, effMapWrite), (.mapRead h, 0x11, chkMapRead, effMapRead),
        (.wheelDefine h, 0x12, chkWheelDefine, effWheelDefine), (.wheelDelete h, 0x13, chkWheelDelete, effWheelDelete), (.flipAt h, 0x20, chkFlipAt, effFlipAt), (.flipSeq h, 0x21, chkFlipSeq, effFlipSeq),
        (.flipCancel h, 0x22, chkFlipCancel, effFlipCancel), (.pairSet h, 0x30, chkPairSet, effPairSet), (.pairCmd h, 0x31, chkPairCmd, effPairCmd), (.laneState h, 0x40, chkLaneState, effLaneState),
        (.laneLoop h, 0x41, chkLaneLoop, effLaneLoop), (.eyeScan h, 0x42, chkEyeScan, effEyeScan), (.refConfig h, 0x50, chkRefConfig, effRefConfig), (.refForce h, 0x51, chkRefForce, effRefForce),
        (.phaseStep h, 0x52, chkPhaseStep, effPhaseStep), (.counterRead h, 0x60, chkCounterRead, effCounterRead), (.counterPreset h, 0x61, chkCounterPreset, effCounterPreset), (.dumpConfig h, 0x62, chkDumpConfig, effDumpConfig),
        (.partitionSet h, 0x70, chkPartitionSet, effPartitionSet), (.ringBind h, 0x71, chkRingBind, effRingBind), (.keyAgree h, 0x72, chkKeyAgree, fun h e s => s.whenKey h e), (.fwStage h, 0x73, chkFwStage, effFwStage),
        (.fwActivate h, 0x74, chkFwActivate, effFwActivate), (.attestQuote h, 0x75, chkAttestQuote, fun h e s => s.whenKey h e), (.mbxPost h, 0x80, chkMbxPost, effMbxPost), (.budgetSet h, 0x81, chkBudgetSet, effBudgetSet),
        (.sealSetup h, 0x82, chkSeal, effSeal), (.controlRestart h, 0x83, chkControlRestart, effControlRestart)],
      (s.job h = none ∨ m.2.1 = 0x60 ∧ s.clk.readUsed ≠ 0 → exec m.1 s = .next s) ∧
      ∀ e, s.job h = some e → (m.2.1 = 0x60 → s.clk.readUsed = 0) →
        let v := s.accept h e
        (e.d.opcode ≠ m.2.1 ∨ s.acceptable h e = false → exec m.1 s = .next s) ∧
        (e.d.opcode = m.2.1 → s.acceptable h e = true →
          (v.commonCheck e ≠ 0 → exec m.1 s = .next (v.complete h (v.commonCheck e) v.tnNow 0)) ∧
          (v.commonCheck e = 0 → e.origin = .ring → e.target ≠ 0 → exec m.1 s = .next (v.remote h e)) ∧
          (v.commonCheck e = 0 → ¬(e.origin = .ring ∧ e.target ≠ 0) → (m.2.2.1 e v).1 ≠ 0 → exec m.1 s = .next (v.complete h (m.2.2.1 e v).1 v.tnNow (m.2.2.1 e v).2)) ∧
          (s.carries m.2.1 m.2.2.1 h e → exec m.1 s = .next (m.2.2.2 h e v)))) ∧
  (∀ (h : Nat) (e : JEntry) (s : State), s.job h = some e → let v := s.accept h e
    v.job h = some { e with accepted := some s.clk.tick, resume := false } ∧ v = { s with mgp := v.mgp, cnt := v.cnt, cal := v.cal } ∧
    (e.origin = .ring → e.resume = false → (v.ring e.ring).cmdCons = (s.ring e.ring).cmdCons + 1) ∧
    (e.resume = true → v.mgp.ring = s.mgp.ring)) ∧
  (∀ (h : Nat) (e : JEntry) (s : State) (st tick result : Nat), s.job h = some e → e.cmp = none → e.origin = .ring → s.copies = false → (s.ring e.ring).boot = false →
    let x := s.ring e.ring
    let c : CmpEntry := ⟨e.d.serial, e.d.opcode, st, false, e.d.ring, 0, tick, BitVec.ofNat 64 result⟩
    let t := s.complete h st tick result
    t.job h = some { e with cmp := some c, slot := some (x.cmpProd + x.overflow.length), recTn := none, posted := false } ∧
    t.ring e.ring = { x with overflow := x.overflow ++ [h] } ∧ (s.cal.role = .active → t.cal.cur.cmps = s.cal.cur.cmps ++ [⟨e.ring, h, x.cmpProd + x.overflow.length, c⟩]))

/-- The commands that wait. -/
def Obligations.ScheduledCommands : Prop :=
  ∀ (h : Nat) (e : JEntry) (s : State), let v := s.accept h e
    (s.carries 0x10 chkMapWrite h e → exec (.mapWrite h) s = .next { v with flp := { v.flp with jobs := v.flp.jobs ++
      [{ h := h, ring := if e.origin = .ring then e.ring else 0, prin := e.prin, noMove := decide (e.f 4 1 % 2 = 1), acc := v.tnNow, rest := mapEntries (e.f 8 4) (e.items 16 48) }] } }) ∧
    (s.carries 0x20 chkFlipAt h e → let id := BitVec.ofNat 32 e.d.serial
      let t := ({ v with flp := { v.flp with flips := v.flp.flips ++ [{ h := h, f := e.f 8 8, id := id, fabric := decide (e.f 4 1 % 2 = 1) }] } } : State).recEvt 1 h (e.f 8 8) 0
      (e.f 4 1 % 2 = 0 → exec (.flipAt h) s = .next t) ∧
      (e.f 4 1 % 2 = 1 → ∃ u : State, exec (.flipAt h) s = .next u ∧
        u.flp = { t.flp with fab := v.flp.fab ++ [{ h := h, id := id, f := e.f 8 8, a := v.tnNow, ws := v.fab.workers.map (fun w => w.id) }] } ∧
        u.fab.sendQ = v.fab.sendQ ++ [⟨none, 0x10, v.fabId, 0xFFFFFFFF, v.fab.serial + 1, beBytes 4 id.toNat ++ beBytes 8 (e.f 8 8), v.copies⟩])) ∧
    (s.carries 0x21 chkFlipSeq h e → ∃ u : State, u = (let w := (seqSlots e).foldl State.checkRead v
        match fitRoll w.activePage (w.activePage.released (seqSlots e)) (seqSlots e) w.standby with | some q => w.setStandby q | none => w) ∧
      exec (.flipSeq h) s = .next (({ u with flp := { u.flp with
        seqs := u.flp.seqs ++ [{ h := h, prin := e.prin, serial := e.d.serial, trigger := e.f 4 2, reference := if e.f 14 1 % 2 = 1 then some (e.f 6 2) else none, s := BitVec.ofNat 24 (e.f 8 4), expiry := u.clk.tick + e.f 12 2, roll := seqSlots e }],
        asked := u.flp.asked ++ [(e.prin, e.d.serial)] } } : State).recEvt 1 h (u.tnNow + e.f 12 2) 0)) ∧
    (s.carries 0x31 chkPairCmd h e → exec (.pairCmd h) s = .next (({ v with col := { v.col with acts := v.col.acts ++ [⟨h, e.f 4 2, e.f 6 1, e.f 8 8⟩] } } : State).recEvt 1 h (e.f 8 8) 0)) ∧
    (s.carries 0x41 chkLaneLoop h e → exec (.laneLoop h) s = .next (({ v with sds := { v.sds with
      loops := v.sds.loops ++ [⟨h, e.f 4 2, e.f 6 1, e.f 8 8, decide (e.prin = 64) && v.lanePartition (e.f 4 2)⟩] } } : State).recEvt 1 h (e.f 8 8) 0)) ∧
    (s.carries 0x42 chkEyeScan h e → exec (.eyeScan h) s = .next { v with sds := { v.sds with
      scans := v.sds.scans ++ [{ h := h, lane := e.f 4 2, eye := e.f 6 1, dwell := if e.f 8 2 = 0 then 80 else e.f 8 2, out := e.f 16 8, hkey := e.f 24 4 }] } }) ∧
    (s.carries 0x50 chkRefConfig h e → let b := ceilDiv (v.secClock + 16) 8000 * 8000
      exec (.refConfig h) s = .next (({ v with str := { v.str with cfgs := v.str.cfgs ++ [⟨h, b, e.f 4 4, (words32 26 e.bytes).map (BitVec.ofNat 32)⟩] } } : State).recEvt 1 h b 0)) ∧
    (s.carries 0x51 chkRefForce h e → let b := ceilDiv (v.secClock + 16) 8000 * 8000
      exec (.refForce h) s = .next (({ v with str := { v.str with forces := v.str.forces ++ [⟨h, b, e.f 4 1, e.f 5 1⟩] } } : State).recEvt 1 h b 0)) ∧
    (s.carries 0x52 chkPhaseStep h e → let a := (BitVec.ofNat 32 (e.f 8 4)).toInt
      let c := if e.f 4 1 = 0 then 2500 else e.f 6 2
      exec (.phaseStep h) s = .next (({ v with str := { v.str with steps := v.str.steps ++ [⟨h, e.f 16 8, a, c, ceilDiv a.natAbs c⟩] } } : State).recEvt 1 h (e.f 16 8) 0)) ∧
    (s.carries 0x61 chkCounterPreset h e → exec (.counterPreset h) s = .next (({ v with cnt := { v.cnt with
      presets := v.cnt.presets ++ [⟨h, e.f 4 1, e.f 8 4, e.f 16 8, e.f 24 8, e.f 32 8⟩] } } : State).recEvt 1 h (e.f 32 8) 0)) ∧
    (s.carries 0x62 chkDumpConfig h e → exec (.dumpConfig h) s = .next { v with cnt := { v.cnt with
      dumpCfgs := v.cnt.dumpCfgs ++ [⟨h, e.prin, e.f 4 1, e.f 8 8, e.f 16 4, e.f 20 4, v.clk.tick + 16⟩] } }) ∧
    (s.carries 0x83 chkControlRestart h e → exec (.controlRestart h) s = .next (({ v with restarts := v.restarts ++ [⟨h, decide (e.f 4 1 = 1), e.f 8 8⟩] } : State).recEvt 1 h (e.f 8 8) 0))

/-- The commands that complete at once. -/
def Obligations.ImmediateCommands : Prop :=
  ∀ (h : Nat) (e : JEntry) (s : State), let v := s.accept h e
    (s.carries 0x00 (fun _ _ => (0, 0)) h e → exec (.nop h) s = .next (v.complete h 0 v.tnNow 0)) ∧
    (s.carries 0x11 chkMapRead h e →
      let p := if v.resyncing then v.activePage else v.page (v.pageSel (e.f 4 1))
      let ents := (List.range (e.f 12 4)).map (fun i => v.seenEntry e.prin (p.entry (e.f 8 4 + i)))
      exec (.mapRead h) s = .next ((v.output h (e.f 16 8) (e.f 24 4) 0 (ents.flatMap (fun x => leBytes 4 x.toNat))).complete h 0 v.tnNow
        ((match ents with | x :: _ => x.toNat | [] => 0) + v.pageSel (e.f 4 1) * 2 ^ 32 + (if v.pageSel (e.f 4 1) = v.activeNo then 0 else 1) * 2 ^ 33))) ∧
    (s.carries 0x12 chkWheelDefine h e → ∃ x : Wheel, exec (.wheelDefine h) s = .next (((v.setWheel (e.f 4 2) x).clearCounters 1 (e.f 4 2)).complete h 0 ((v.setWheel (e.f 4 2) x).clearCounters 1 (e.f 4 2)).tnNow 0) ∧
      x.defined = true ∧ x.owner = e.prin ∧ x.members = wdMembers e ∧ x.maxSkew = e.f 8 1 ∧ x.align = .hunt ∧ x.huntUntil = v.clk.tick + 128 ∧
      x.reverse = (if e.f 9 1 / 8 % 2 = 1 then some (e.f 10 2) else none) ∧ x.trace = leBytes 16 (e.f 12 16) ∧
      (x.timChk, x.timAis, x.excAis) = (decide (e.f 9 1 % 2 = 1), decide (e.f 9 1 / 2 % 2 = 1), decide (e.f 9 1 / 4 % 2 = 1))) ∧
    (s.carries 0x13 chkWheelDelete h e → let t := (v.setWheel (e.f 4 2) {}).clearCounters 1 (e.f 4 2)
      exec (.wheelDelete h) s = .next (t.complete h 0 t.tnNow 0)) ∧
    (s.carries 0x22 chkFlipCancel h e →
      (e.f 4 1 = 0 → ∀ x, v.flp.flips.find? (fun x => decide (x.f = e.f 8 8) && !x.cancelled) = some x →
        (x.fromMgr = true → let t : State := { v with flp := { v.flp with flips := v.flp.flips.map (fun y => if y.id = x.id then { y with cancelled := true } else y) } }
          exec (.flipCancel h) s = .next (t.complete h 0 t.tnNow 0)) ∧
        (x.fromMgr = false → x.fabric = true → ∀ y, v.flp.fab.find? (fun y => y.id = x.id) = some y → let t := v.cancelFab y v.fabId 1
          exec (.flipCancel h) s = .next (t.complete h 0 t.tnNow 0)) ∧
        (x.fromMgr = false → x.fabric = false →
          let t := (({ v with flp := { v.flp with flips := v.flp.flips.filter (fun y => y.h ≠ x.h) } } : State).recEvt 2 x.h 0 0).complete x.h eAborted x.f (abortResult 0 1 0)
          exec (.flipCancel h) s = .next (t.complete h 0 t.tnNow 0))) ∧
      (e.f 4 1 ≠ 0 → ∀ f, v.seqNamed e.prin (e.f 8 8) = some f → let t := (v.recEvt 2 f.h 0 0).endSeq f eAborted 1 none false
        exec (.flipCancel h) s = .next (t.complete h 0 t.tnNow 0))) ∧
    (s.carries 0x30 chkPairSet h e → let n := e.f 4 2
      (psMode e = 0 → exec (.pairSet h) s = .next ((v.removePair n).complete h 0 v.tnNow 0)) ∧
      (psMode e ≠ 0 → let p := v.pairAfter e
        (∀ (_ : (v.pair n).defined = true), let t := (v.setPair n p).setPair n p
          exec (.pairSet h) s = .next (t.complete h 0 t.tnNow p.result)) ∧
        (∀ (_ : (v.pair n).defined = false), let u := ((v.setPair n p).clearCounters 2 n).freshRetimers [p.wa, p.wb]
          let t := u.setPair n { p with reqCode := u.reqOf p }
          exec (.pairSet h) s = .next (t.complete h 0 t.tnNow p.result)))) ∧
    (s.carries 0x40 chkLaneState h e → let g := e.f 4 1
      let c := v.lsCeil e g
      let w := (groupLanes g).foldl (fun (t : State) n => t.moveLane (v.lane n) e n) (v.lsBook e g)
      let x := w.group g
      let d := (w.setGroup g { x with cleared := 0 }).fallback g []
      let t := if v.lsAllOff e g then (w.setGroup g { x with st := .down, rung := 0, txRung := 0, ceil := c, cleared := 0, sendAct := 0 }).groupLinkDown g
        else if (v.group g).st = .down then (w.setGroup g { x with ceil := c, cleared := 0 }).tryAlign g
        else if e.f 5 1 = 15 ∨ c = x.rung then w.setGroup g { x with ceil := c }
        else d.setGroup g { d.group g with ceil := c }
      exec (.laneState h) s = .next (t.complete h 0 t.tnNow (t.groupMw g))) ∧
    (s.carries 0x60 chkCounterRead h e → s.clk.readUsed = 0 →
      let out := leBytes 1 (e.f 4 1) ++ leBytes 1 (scopeNc (e.f 4 1)) ++ [0, 0] ++ leBytes 4 (e.f 8 4) ++ leBytes 4 (e.f 12 4) ++ leBytes 4 0
        ++ leBytes 8 v.tnNow ++ leBytes 8 v.lastLatch ++ objsWords v.snapTab (e.f 4 1) (e.f 8 4) (e.f 12 4)
      let t : State := { v with clk := { v.clk with readUsed := v.clk.readUsed + 1 } }
      exec (.counterRead h) s = .next ((t.output h (e.f 16 8) (e.f 24 4) 0 out).complete h 0 t.tnNow out.length)) ∧
    (s.carries 0x70 chkPartitionSet h e → let t := v.ptApply e
      exec (.partitionSet h) s = .next (t.complete h 0 t.tnNow (t.part (ptP e)).views)) ∧
    (s.carries 0x71 chkRingBind h e → let r := rbR e
      let w := v.complete h 0 v.tnNow 0
      (rbUnbind e = true → exec (.ringBind h) s = .next (w.unbindRing r)) ∧
      (rbUnbind e = false → let old := v.ring r
        let new := w.rbNew e
        let same := decide (e.ring = r) && decide (e.origin = .ring) && !old.boot
        let u := if same then w.setJob h (fun j => { j with dest := some (old.cmpBase + 32 * (old.cmpProd % old.cmpSize), old.hkeys.getD 1 0, phaseBit old.cmpProd old.cmpSize) }) else w
        let y := (u.unbindRing r).setRing r { new with overflow := if same then (u.ring r).overflow else [] }
        let t := (y.rbMine e).foldl (fun (s : State) (q : QpRec) => s.setQp q.qp q.val) y
        exec (.ringBind h) s = .next (if old.prin = new.prin ∧ old.st ≠ .unbound then t.setDump r (w.dump r) else t))) ∧
    (s.carries 0x72 chkKeyAgree h e →
      (v.rnd.ephBusyUntil = none → exec (.keyAgree h) s = .next (v.serveKey h)) ∧
      (v.rnd.ephBusyUntil ≠ none → exec (.keyAgree h) s = .next { v with rnd := { v.rnd with quotes := v.rnd.quotes ++ [⟨h, e.prin⟩] } })) ∧
    (s.carries 0x75 chkAttestQuote h e →
      (v.rnd.ephBusyUntil = none → exec (.attestQuote h) s = .next (v.serveKey h)) ∧
      (v.rnd.ephBusyUntil ≠ none → exec (.attestQuote h) s = .next { v with rnd := { v.rnd with quotes := v.rnd.quotes ++ [⟨h, e.prin⟩] } })) ∧
    (s.carries 0x73 chkFwStage h e → let img := v.fsImage e
      let w := if fsFirst e then v.setSpare none else v
      let t : State := { w with rnd := { w.rnd with stage := img.bytes, stageTotal := e.f 12 4, staged := fsLast e } }
      exec (.fwStage h) s = .next (if fsLast e then (t.setSpare (some img)).complete h 0 t.tnNow (imgSvn img.bytes) else t.complete h 0 t.tnNow 0)) ∧
    (s.carries 0x74 chkFwActivate h e →
      let w : State := if e.f 4 1 % 2 = 1 then { v with flash := flashPrefer v.flash (!v.pwr.slotB) } else v
      let t : State := if e.f 4 1 / 2 % 2 = 1 then { w with rnd := { w.rnd with svnFused := max w.rnd.svnFused w.rnd.svnRun } } else w
      exec (.fwActivate h) s = .next (t.complete h 0 t.tnNow t.rnd.svnFused)) ∧
    (s.carries 0x80 chkMbxPost h e → let c := e.f 4 1
      let m := v.mbox c
      m.h ≠ some h →
      (m.full = true → exec (.mbxPost h) s = .next ((v.setSticky (Reg.mbxStatus c) mbRefusedBit).complete h eConflict v.tnNow 0)) ∧
      (m.full = false → let l := e.items 16 64
        exec (.mbxPost h) s = .next ((v.setMbox c { m with msg := if l.all (fun b => b = 0) then [] else l }).mbPost c (e.f 8 4) (some h)))) ∧
    (s.carries 0x81 chkBudgetSet h e → let t : State := { v with nrg := { v.nrg with budget := e.f 4 4 } }
      exec (.budgetSet h) s = .next (t.complete h 0 t.tnNow t.committed)) ∧
    (s.carries 0x82 chkSeal h e → let d := v.setupDigest
      let u := ({ v with sealed := true, sealImg := some v.rwsImage, rnd := { v.rnd with mSetup := d }, sds := { v.sds with bt := { v.sds.bt with sealBuf := v.sds.bt.buf } } } : State).resumeSealed
      let t := u.complete h 0 u.tnNow (leNat ((digestBytes d).take 8))
      exec (.sealSetup h) s = .next (if t.mated then (t.setRole .detached).resolve else t))

/-- What the scheduled counter work and a new key do. -/
def Obligations.ScheduledCounters : Prop :=
  (∀ s : State, s.up = true →
    (s.presetsDue = [] → exec .counterPresetApply s = .next s) ∧
    (s.presetsDue ≠ [] → let u := s.cycle0.secondNow
      exec .counterPresetApply s = .next (u.presetsDue.foldl (fun (t : State) p => if u.drops 6 then t.complete p.h eAborted p.n 0 else t.applyPreset p)
        { u with cnt := { u.cnt with presets := u.cnt.presets.filter (fun p => !u.dueAt p.n) } })) ∧
    (s.dumpsDue = [] → exec .dumpConfigApply s = .next s) ∧
    (s.dumpsDue ≠ [] → let w := s.cycle0.secondNow.presetsNow
      exec .dumpConfigApply s = .next (if w.dumpsDue.isEmpty ∨ w.drops 6 then w else w.dumpsDue.foldl State.applyDumpCfg
        { w with cnt := { w.cnt with dumpCfgs := w.cnt.dumpCfgs.filter (fun c => decide (w.clk.tick < c.at_)) } })) ∧
    (s.rnd.ephBusyUntil = none → exec .ephemeralKeyReady s = .next s) ∧
    (s.rnd.ephBusyUntil ≠ none →
      exec .ephemeralKeyReady s = .next (({ s with rnd := { s.rnd with ephBusyUntil := none } } : State).serveQuotes s.rnd.quotes.length))) ∧
  (∀ (u : State) (p : Preset), p.scope ≤ 7 → ∃ t : State, u.applyPreset p = t.complete p.h 0 p.n 0 ∧
    t = { u with cnt := { u.cnt with start := t.cnt.start, live := t.cnt.live } } ∧
    (∀ j < scopeNc p.scope, maskBit p.mask j → u.counts p.scope p.obj = true → let w := scopeWidth p.scope
      t.cnt.live.look {} (cKey p.scope p.obj j) = ({ v := p.value } : Counter).add w
        (((u.cnt.live.look {} (cKey p.scope p.obj j)).v + 2 ^ w - (u.cnt.start.look {} (cKey p.scope p.obj j)).v) % 2 ^ w)) ∧
    (∀ k, (∀ j < scopeNc p.scope, maskBit p.mask j → k ≠ cKey p.scope p.obj j) → t.cnt.live.look {} k = u.cnt.live.look {} k)) ∧
  (∀ (w : State) (c : DumpCfg), let sz := w.dumpSize c.prin c.scopes
    (w.ringOf c.prin = none → w.applyDumpCfg c = w.complete c.h eRange w.tnNow 0) ∧
    (∀ r, w.ringOf c.prin = some r →
      (c.len ≠ 0 → c.len < sz → w.applyDumpCfg c = w.complete c.h eRange w.tnNow sz) ∧
      (c.len = 0 ∨ sz ≤ c.len → ∃ t : State, t = (w.abandonDumps r).setDumpCfg r c ∧
        w.applyDumpCfg c = t.complete c.h 0 t.tnNow (if c.len = 0 then 0 else (t.dump r).slots * 2 ^ 32 + sz) ∧
        (c.len = 0 → t.dump r = {}) ∧
        (c.len ≠ 0 → (t.dump r).en = true ∧ (t.dump r).scopes = c.scopes ∧ (t.dump r).addr = c.addr)))) ∧
  (∀ (q : Fin 65) (s : State), s.up = true → s.fw = true →
    (s.clk.tnValid = false ∨ s.cnt.latchTn = 0 ∨ s.clk.tn ≤ s.cnt.latchTn → exec (.dumpImageStart q) s = .next s) ∧
    (s.clk.tnValid = true → s.cnt.latchTn ≠ 0 → s.cnt.latchTn < s.clk.tn →
      (s.viaManager = true → s.clk.tn = s.cnt.latchTn + 1 → (q.val = 0 ∨ (s.part q.val).set = true) →
        exec (.dumpImageStart q) s = .next ((imgPieces q.val s.cnt.latchTn (s.imgBytes q.val 255)).foldl (fun (s : State) b => s.send none 0x23 s.mgrId b) s)) ∧
      (s.viaManager = false → ∀ r, s.ringOf q.val = some r → s.dumpDue q.val = true → (List.range q.val).all (fun q => !s.dumpDue q) = true →
        let d := s.dump r
        let t := s.setDump r { d with started := s.cnt.latchTn }
        (t.copies = true → exec (.dumpImageStart q) s = .next ((imgPieces q.val s.cnt.latchTn (t.imgBytes q.val d.scopes)).foldl (fun (s : State) b => s.send (some .calrin) mateDumpType 0 b) t)) ∧
        (t.copies = false → t.writesHost = true → (t.workQp r).isSome = true → d.slots ≠ 0 →
          exec (.dumpImageStart q) s = .next (t.writeImage r 0 s.cnt.latchTn 0 0 (t.sections q.val d.scopes))) ∧
        (t.copies = false → ¬(t.writesHost = true ∧ (t.workQp r).isSome = true ∧ d.slots ≠ 0) →
          exec (.dumpImageStart q) s = .next (t.setDump r { (t.dump r).skip 0 with started := s.cnt.latchTn })))))

/-- The Rack, the Pantry and Whisk. -/
def Obligations.RackPantryWhisk : Prop :=
  (∀ (q : RackReq) (s : State), s.up = true →
    (q.master ≤ 4 → s.fw = false → exec (.rackAccess q) s = .next s) ∧
    (¬(q.master ≤ 4 ∧ s.fw = false) → let u := if q.target = 1 then (s.count 7 0 5 q.stall).count 7 0 6 q.whisk else s
      let p := rackPath u.pwr.codeLocked (Config.isCode (q.addr / 16)) q.master q.target q.addr
      (p = .none ∨ (q.write = true ∧ p = .read) ∨ rackSize q.target ≤ q.addr ∨ 6 < q.target →
        exec (.rackAccess q) s = .next (u.rackError q.master q.target q.write)) ∧
      (¬(p = .none ∨ (q.write = true ∧ p = .read) ∨ rackSize q.target ≤ q.addr ∨ 6 < q.target) →
        (q.target = 0 → exec (.rackAccess q) s = .next (u.regAccess q)) ∧
        (q.target = 6 → exec (.rackAccess q) s = .next (if Reg.mbxBase 0 ≤ q.addr ∧ q.addr < Reg.mbxBase 64 then u.regAccess q else u.rackError q.master 6 q.write)) ∧
        (q.target = 4 → exec (.rackAccess q) s = .next (u.rackOk (u.tableBytes q.addr (min q.data.length 16)))) ∧
        (q.target = 5 → exec (.rackAccess q) s = .next (u.diagAccess q)) ∧
        (1 ≤ q.target → q.target ≤ 3 → q.master ≠ 8 → let a := q.addr / 16
          let o := q.addr % 16
          let n := min q.data.length (16 - o)
          (q.write = false → exec (.rackAccess q) s = .next (u.rackOk (((leBytes 16 (u.memRead q.target a).toNat).drop o).take n))) ∧
          (q.write = true → q.target = 1 → u.mem.owner.look 0 (q.addr / 65536) ≠ q.master →
            exec (.rackAccess q) s = .next (u.rackError q.master 1 true)) ∧
          (q.write = true → ¬(q.target = 1 ∧ u.mem.owner.look 0 (q.addr / 65536) ≠ q.master) → let v := overlay (u.memRead q.target a) o (q.data.take n)
            let t := (u.memWrite q.target a v).rackOk []
            exec (.rackAccess q) s = .next t ∧ t.memRead q.target a = v ∧ ∀ b, b ≠ a → t.memRead q.target b = u.memRead q.target b))))) ∧
  (∀ (m t : Nat) (w : Bool) (s : State), let r := s.rackError m t w
    r.mem = { s.mem with lastErr := true, lastOut := [] } ∧
    (bit (s.stick Reg.rckErr) 31 = false → (r.rck.errMaster, r.rck.errTarget, r.rck.errWrite) = (m, t, w) ∧ r.rck.whk = s.rck.whk) ∧
    (bit (s.stick Reg.rckErr) 31 = true → r.rck = s.rck)) ∧
  (∀ (m : Nat) (b : Fin 64) (n : Nat) (s : State), s.up = true →
    ((m = 0 ∨ s.mem.owner.look 0 b.val = m) → n ≤ 8 → ∃ t, exec (.pantryOwnerWrite m b n) s = .next t ∧
      t.mem.owner.look 0 b.val = n ∧ (∀ k, k ≠ b.val → t.mem.owner.look 0 k = s.mem.owner.look 0 k) ∧
      t = { s with mem := { s.mem with owner := t.mem.owner, lastErr := false, lastOut := [] } }) ∧
    (¬((m = 0 ∨ s.mem.owner.look 0 b.val = m) ∧ n ≤ 8) → exec (.pantryOwnerWrite m b n) s = .next (s.rackError m 1 true))) ∧
  (∀ (m : Nat) (b : Fin 64) (off : Nat) (swap : Bool) (v : Word64) (st wh : Nat) (s : State), s.up = true →
    let u := (s.count 7 0 5 st).count 7 0 6 wh
    (8 < m ∨ off % 8 ≠ 0 ∨ 65536 ≤ off → exec (.pantryAtomic m b off swap v st wh) s = .next (u.rackError m 1 true)) ∧
    (m ≤ 8 → off % 8 = 0 → off < 65536 → let a := b.val * 4096 + off / 16
      let x := u.memRead 1 a
      let old : Word64 := BitVec.ofNat 64 (leAt (leBytes 16 x.toNat) (off % 16) 8)
      let y := overlay x (off % 16) (leBytes 8 (if swap then v else old + v).toNat)
      let t := (u.memWrite 1 a y).rackOk (leBytes 8 old.toNat)
      exec (.pantryAtomic m b off swap v st wh) s = .next t ∧ t.memRead 1 a = y ∧ ∀ k, k ≠ a → t.memRead 1 k = u.memRead 1 k)) ∧
  (∀ (m : Fin 9) (s : State), s.up = true → let w := s.whisk m.val
    let idle := s.whiskOn m.val = false ∨ w.starts = 0 ∨ w.held ≠ none ∨ (3 ≤ m.val ∧ s.oos (m.val - 3) = true ∧ (s.stack (m.val - 3)).testing = false)
    (idle → exec (.whiskRegionStart m) s = .next s) ∧
    (¬idle → ∃ t, exec (.whiskRegionStart m) s = .next t ∧
      t.whisk m.val = { w with held := some w.nextRegion, starts := w.starts - 1, nextRegion := (w.nextRegion + 1) % whiskRegions m.val, save := s.saveRegion m.val w.nextRegion } ∧
      (∀ k, k ≠ m.val → t.whisk k = s.whisk k) ∧ t.mem = s.mem ∧ (m.val < 3 → t.col = s.col)) ∧
    (w.held = none → ∀ f, exec (.whiskRegionEnd m f) s = .next s) ∧
    (∀ r, w.held = some r → ∀ f : Bool,
      (3 ≤ m.val → s.whiskBusy (m.val - 3) = true → exec (.whiskRegionEnd m f) s = .next s) ∧
      (¬(3 ≤ m.val ∧ s.whiskBusy (m.val - 3) = true) →
        let t := (s.restoreRegion m.val).count 5 0 (2 * m.val) 1
        let x := if f then t.whiskFault m.val r else t
        exec (.whiskRegionEnd m f) s = .next (if r + 1 = whiskRegions m.val then x.passEnd m.val else x))))

/-- The mailbox block and the slot processing. -/
def Obligations.MailboxesAndSlots : Prop :=
  (∀ (m : Nat) (c : Fin 64) (s : State), s.up = true → let x := s.mbox c.val
    (¬(s.mbIsSender m c.val = true ∧ m ≠ 4) → exec (.mbxCtrlPost m c) s = .next s) ∧
    (s.mbIsSender m c.val = true → m ≠ 4 → x.full = true → exec (.mbxCtrlPost m c) s = .next (s.setSticky (Reg.mbxStatus c.val) mbRefusedBit)) ∧
    (s.mbIsSender m c.val = true → m ≠ 4 → x.full = false →
      let y := { x with full := true, ack := false, pbr := false, sr := false, wait := false, postNum := (x.postNum + 1) % 16, h := none, deadline := some (s.clk.tick + mbTicks (bits (s.reg (Reg.mbxBind c.val)) 20 0)), retryAt := if s.mbRemote c.val then some (s.clk.tick + s.retry) else none }
      let u := ((s.setMbox c.val y).clrSticky (Reg.mbxStatus c.val) (mbTimeoutBit ||| mbLateBit)).count 7 0 8 1
      exec (.mbxCtrlPost m c) s = .next (if u.mbRemote c.val then u.mbSend c.val false else u.wake (u.mbReceiver c.val))) ∧
    (¬(s.mbIsReceiver m c.val = true ∧ x.full = true) → exec (.mbxCtrlAck m c) s = .next s) ∧
    (s.mbIsReceiver m c.val = true → x.full = true →
      let u := s.setMbox c.val { x with full := false, wait := false, ack := true, deadline := none, retryAt := none, h := none }
      let v := if s.mbSendHere c.val && x.deadline.isNone then u.setSticky (Reg.mbxStatus c.val) mbLateBit else u
      let w := match x.h with | some h => v.complete h stOk v.tnNow 0 | none => v
      exec (.mbxCtrlAck m c) s = .next (if w.mbSendHere c.val then w else w.mbSend c.val true)) ∧
    (¬(s.mbIsSender m c.val = true ∧ x.full = true ∧ mbRank (s.mbReceiver c.val) ≤ mbRank m) → exec (.mbxCtrlWait m c) s = .next s) ∧
    (s.mbIsSender m c.val = true → x.full = true → mbRank (s.mbReceiver c.val) ≤ mbRank m →
      exec (.mbxCtrlWait m c) s = .next ((s.setMbox c.val { x with wait := true }).crossCheck c.val)) ∧
    (¬(s.mbIsSender m c.val = true ∧ x.full = true) → exec (.mbxCtrlWithdraw m c) s = .next s) ∧
    (s.mbIsSender m c.val = true → x.full = true →
      let u := s.setMbox c.val { x with full := false, wait := false, ack := false, deadline := none, retryAt := none, h := none }
      exec (.mbxCtrlWithdraw m c) s = .next (match x.h with | some h => u.complete h eAborted u.tnNow 0 | none => u)) ∧
    (x.deadline = none → exec (.mbxTimeout c) s = .next s) ∧
    (∀ d, x.deadline = some d →
      (¬(x.full = true ∧ d ≤ s.clk.tick) → exec (.mbxTimeout c) s = .next s) ∧
      (x.full = true → d ≤ s.clk.tick →
        let u := (s.setMbox c.val { x with wait := false, deadline := none, h := none }).setSticky (Reg.mbxStatus c.val) mbTimeoutBit
        let v := u.wake (u.mbSender c.val)
        exec (.mbxTimeout c) s = .next (match x.h with | some h => v.complete h eState v.tnNow 1 | none => v))) ∧
    (x.retryAt = none → exec (.mbxRemoteRetry c) s = .next s) ∧
    (∀ t, x.retryAt = some t →
      (¬(x.full = true ∧ t ≤ s.clk.tick) → exec (.mbxRemoteRetry c) s = .next s) ∧
      (x.full = true → t ≤ s.clk.tick →
        exec (.mbxRemoteRetry c) s = .next ((s.setMbox c.val { x with retryAt := some (s.clk.tick + s.retry) }).mbSend c.val false)))) ∧
  (∀ s : State, s.up = true →
    (s.clk.slotsDone = true → exec .slotProcessing s = .next s) ∧
    (s.clk.slotsDone = false → ∃ t, exec .slotProcessing s = .next t ∧ t.clk.slotsDone = true ∧ let u := s.boundary
      (u.clk.slotsDone = true → t = u) ∧
      (u.clk.slotsDone = false → u.drops 0 = true → t = { u with clk := { u.clk with slotsDone := true } }) ∧
      (u.clk.slotsDone = false → u.drops 0 = false → t = u.playouts.slots)))
end

