-- ==== Sys2Proof/Laws/Tab.lean ====
section
/-! SUPPORT. The laws of sparse tables: a write keeps the canonical form, reads back what was written, and leaves every
other index alone. -/
namespace Sys2Proof.Machine

theorem Tab.mem_ins {α : Type} {t : Tab α} {i : Nat} {v : α} {p : Nat × α} (h : p ∈ Tab.ins t i v) : p = (i, v) ∨ p ∈ t := by
  induction t with
  | nil => simpa [Tab.ins] using h
  | cons q t ih =>
    obtain ⟨k, w⟩ := q
    unfold Tab.ins at h
    split at h
    · simpa using h
    · split at h
      · simp only [List.mem_cons] at h ⊢
        exact h.imp id Or.inr
      · simp only [List.mem_cons] at h ⊢
        rcases h with h | h
        · exact Or.inr (Or.inl h)
        · exact (ih h).imp id Or.inr

theorem Tab.ins_rising {α : Type} (t : Tab α) (i : Nat) (v : α) (h : List.Pairwise (fun p q => p.1 < q.1) t) :
    List.Pairwise (fun p q => p.1 < q.1) (Tab.ins t i v) := by
  induction t with
  | nil => simp [Tab.ins]
  | cons q t ih =>
    obtain ⟨k, w⟩ := q
    have hk := (List.pairwise_cons.mp h).1
    have ht := (List.pairwise_cons.mp h).2
    unfold Tab.ins
    split
    · rename_i hi
      refine List.pairwise_cons.mpr ⟨?_, h⟩
      intro p hp
      rcases List.mem_cons.mp hp with hp | hp
      · rw [hp]; exact hi
      · exact Nat.lt_trans hi (hk p hp)
    · split
      · rename_i hi
        refine List.pairwise_cons.mpr ⟨?_, ht⟩
        intro p hp
        rw [hi]
        exact hk p hp
      · rename_i h1 h2
        refine List.pairwise_cons.mpr ⟨?_, ih ht⟩
        intro p hp
        rcases Tab.mem_ins hp with hp | hp
        · rw [hp]; simp only; omega
        · exact hk p hp

/-- Writing one index keeps the canonical form. -/
theorem Tab.put_wfOn {α : Type} [DecidableEq α] {d : Nat → α} {t : Tab α} {i : Nat} {v : α} {c : α} (hc : c = d i)
    (h : Tab.wfOn d t) : Tab.wfOn d (Tab.put c t i v) := by
  subst hc
  unfold Tab.put
  split
  · exact ⟨h.1.filter _, fun p hp => h.2 p (List.mem_filter.mp hp).1⟩
  · rename_i hv
    refine ⟨Tab.ins_rising t i v h.1, fun p hp => ?_⟩
    rcases Tab.mem_ins hp with hp | hp
    · rw [hp]; exact hv
    · exact h.2 p hp

theorem Tab.put_wf {α : Type} [DecidableEq α] {d : α} {t : Tab α} {i : Nat} {v : α} (h : Tab.wf d t) :
    Tab.wf d (Tab.put d t i v) := Tab.put_wfOn rfl h

theorem Tab.wfOn_nil {α : Type} (d : Nat → α) : Tab.wfOn d [] := ⟨List.Pairwise.nil, by simp⟩

theorem Tab.filter_wfOn {α : Type} {e : Nat → α} {t : Tab α} (f : Nat × α → Bool) (h : List.Pairwise (fun p q => p.1 < q.1) t)
    (hf : ∀ p ∈ t, f p = true → p.2 ≠ e p.1) : Tab.wfOn e (t.filter f) :=
  ⟨h.filter _, fun p hp => hf p (List.mem_filter.mp hp).1 (List.mem_filter.mp hp).2⟩

/-! ### What one write does -/

theorem Tab.look_ins_self {α : Type} (d : α) (t : Tab α) (i : Nat) (v : α) : Tab.look d (Tab.ins t i v) i = v := by
  induction t with
  | nil => simp [Tab.ins, Tab.look]
  | cons q t ih =>
    obtain ⟨k, w⟩ := q
    unfold Tab.ins
    split
    · simp [Tab.look]
    · split
      · simp [Tab.look]
      · rename_i h1 h2
        simp [Tab.look, ih, Ne.symm h2]

theorem Tab.look_ins_of_ne {α : Type} (d : α) (t : Tab α) {i j : Nat} (v : α) (h : j ≠ i) :
    Tab.look d (Tab.ins t i v) j = Tab.look d t j := by
  induction t with
  | nil => simp [Tab.ins, Tab.look, Ne.symm h]
  | cons q t ih =>
    obtain ⟨k, w⟩ := q
    unfold Tab.ins
    split
    · simp [Tab.look, Ne.symm h]
    · split
      · rename_i h1 h2
        subst h2
        simp [Tab.look, Ne.symm h]
      · simp only [Tab.look, ih]

theorem Tab.look_del_self {α : Type} (d : α) (t : Tab α) (i : Nat) : Tab.look d (Tab.del t i) i = d := by
  induction t with
  | nil => rfl
  | cons q t ih =>
    obtain ⟨k, w⟩ := q
    unfold Tab.del at ih ⊢
    simp only [ne_eq, decide_not] at ih ⊢
    by_cases hk : k = i
    · simp [hk, ih]
    · simp [hk, Tab.look, ih]

theorem Tab.look_del_of_ne {α : Type} (d : α) (t : Tab α) {i j : Nat} (h : j ≠ i) :
    Tab.look d (Tab.del t i) j = Tab.look d t j := by
  induction t with
  | nil => rfl
  | cons q t ih =>
    obtain ⟨k, w⟩ := q
    unfold Tab.del at ih ⊢
    simp only [ne_eq, decide_not] at ih ⊢
    by_cases hk : k = i
    · subst hk
      simp [Tab.look, Ne.symm h, ih]
    · simp [hk, Tab.look, ih]

/-- A written index reads what was written. -/
@[simp] theorem Tab.look_put_self {α : Type} [DecidableEq α] (d : α) (t : Tab α) (i : Nat) (v : α) :
    Tab.look d (Tab.put d t i v) i = v := by
  unfold Tab.put
  split
  · rename_i h
    rw [Tab.look_del_self, h]
  · exact Tab.look_ins_self d t i v

/-- Every other index reads as before. -/
theorem Tab.look_put_of_ne {α : Type} [DecidableEq α] (d c : α) (t : Tab α) {i j : Nat} (v : α) (h : j ≠ i) :
    Tab.look d (Tab.put c t i v) j = Tab.look d t j := by
  unfold Tab.put
  split
  · exact Tab.look_del_of_ne d t h
  · exact Tab.look_ins_of_ne d t v h

/-- A table written entry by entry is in canonical form. -/
theorem Tab.tidy_wf {α : Type} [DecidableEq α] (d : α) (t : Tab α) : Tab.wf d (Tab.tidy d t) := by
  unfold Tab.tidy
  have key : ∀ (l u : Tab α), Tab.wf d u → Tab.wf d (l.foldl (fun (u : Tab α) p => Tab.put d u p.1 p.2) u) := by
    intro l
    induction l with
    | nil => intro u hu; exact hu
    | cons a l ih => intro u hu; exact ih _ (Tab.put_wf hu)
  exact key t [] (Tab.wfOn_nil _)

end Sys2Proof.Machine
end

