-- ==== Sys2Proof/Laws/Blank.lean ====
section
/-! SUPPORT. Which areas of State an operation may change: two states agree outside a set of areas when they are the same
once those areas are blanked. -/
namespace Sys2Proof.Machine

/-- The state with the areas of `S` blanked. -/
def State.blank (S : Area → Bool) (s : State) : State where
  pending := if S .pending then State.reset.pending else s.pending
  clk := if S .clk then State.reset.clk else s.clk
  pwr := if S .pwr then State.reset.pwr else s.pwr
  regs := if S .regs then State.reset.regs else s.regs
  sticky := if S .sticky then State.reset.sticky else s.sticky
  sealed := if S .sealed then State.reset.sealed else s.sealed
  sealImg := if S .sealImg then State.reset.sealImg else s.sealImg
  flash := if S .flash then State.reset.flash else s.flash
  rnd := if S .rnd then State.reset.rnd else s.rnd
  str := if S .str then State.reset.str else s.str
  sds := if S .sds then State.reset.sds else s.sds
  frm := if S .frm then State.reset.frm else s.frm
  whl := if S .whl then State.reset.whl else s.whl
  hrp := if S .hrp then State.reset.hrp else s.hrp
  flp := if S .flp then State.reset.flp else s.flp
  col := if S .col then State.reset.col else s.col
  cal := if S .cal then State.reset.cal else s.cal
  fab := if S .fab then State.reset.fab else s.fab
  mgp := if S .mgp then State.reset.mgp else s.mgp
  prn := if S .prn then State.reset.prn else s.prn
  mbx := if S .mbx then State.reset.mbx else s.mbx
  mem := if S .mem then State.reset.mem else s.mem
  rck := if S .rck then State.reset.rck else s.rck
  cnt := if S .cnt then State.reset.cnt else s.cnt
  nrg := if S .nrg then State.reset.nrg else s.nrg
  restarts := if S .restarts then State.reset.restarts else s.restarts
  fresh := if S .fresh then State.reset.fresh else s.fresh

variable {S : Area → Bool}

@[simp] theorem State.blank_pending (h_pending : S .pending = true) (s : State) (x) : State.blank S { s with pending := x } = s.blank S := by
  simp [State.blank, h_pending]
@[simp] theorem State.blank_clk (h_clk : S .clk = true) (s : State) (x) : State.blank S { s with clk := x } = s.blank S := by
  simp [State.blank, h_clk]
@[simp] theorem State.blank_pwr (h_pwr : S .pwr = true) (s : State) (x) : State.blank S { s with pwr := x } = s.blank S := by
  simp [State.blank, h_pwr]
@[simp] theorem State.blank_regs (h_regs : S .regs = true) (s : State) (x) : State.blank S { s with regs := x } = s.blank S := by
  simp [State.blank, h_regs]
@[simp] theorem State.blank_sticky (h_sticky : S .sticky = true) (s : State) (x) : State.blank S { s with sticky := x } = s.blank S := by
  simp [State.blank, h_sticky]
@[simp] theorem State.blank_sealed (h_sealed : S .sealed = true) (s : State) (x) : State.blank S { s with sealed := x } = s.blank S := by
  simp [State.blank, h_sealed]
@[simp] theorem State.blank_sealImg (h_sealImg : S .sealImg = true) (s : State) (x) : State.blank S { s with sealImg := x } = s.blank S := by
  simp [State.blank, h_sealImg]
@[simp] theorem State.blank_flash (h_flash : S .flash = true) (s : State) (x) : State.blank S { s with flash := x } = s.blank S := by
  simp [State.blank, h_flash]
@[simp] theorem State.blank_rnd (h_rnd : S .rnd = true) (s : State) (x) : State.blank S { s with rnd := x } = s.blank S := by
  simp [State.blank, h_rnd]
@[simp] theorem State.blank_str (h_str : S .str = true) (s : State) (x) : State.blank S { s with str := x } = s.blank S := by
  simp [State.blank, h_str]
@[simp] theorem State.blank_sds (h_sds : S .sds = true) (s : State) (x) : State.blank S { s with sds := x } = s.blank S := by
  simp [State.blank, h_sds]
@[simp] theorem State.blank_frm (h_frm : S .frm = true) (s : State) (x) : State.blank S { s with frm := x } = s.blank S := by
  simp [State.blank, h_frm]
@[simp] theorem State.blank_whl (h_whl : S .whl = true) (s : State) (x) : State.blank S { s with whl := x } = s.blank S := by
  simp [State.blank, h_whl]
@[simp] theorem State.blank_hrp (h_hrp : S .hrp = true) (s : State) (x) : State.blank S { s with hrp := x } = s.blank S := by
  simp [State.blank, h_hrp]
@[simp] theorem State.blank_flp (h_flp : S .flp = true) (s : State) (x) : State.blank S { s with flp := x } = s.blank S := by
  simp [State.blank, h_flp]
@[simp] theorem State.blank_col (h_col : S .col = true) (s : State) (x) : State.blank S { s with col := x } = s.blank S := by
  simp [State.blank, h_col]
@[simp] theorem State.blank_cal (h_cal : S .cal = true) (s : State) (x) : State.blank S { s with cal := x } = s.blank S := by
  simp [State.blank, h_cal]
@[simp] theorem State.blank_fab (h_fab : S .fab = true) (s : State) (x) : State.blank S { s with fab := x } = s.blank S := by
  simp [State.blank, h_fab]
@[simp] theorem State.blank_mgp (h_mgp : S .mgp = true) (s : State) (x) : State.blank S { s with mgp := x } = s.blank S := by
  simp [State.blank, h_mgp]
@[simp] theorem State.blank_prn (h_prn : S .prn = true) (s : State) (x) : State.blank S { s with prn := x } = s.blank S := by
  simp [State.blank, h_prn]
@[simp] theorem State.blank_mbx (h_mbx : S .mbx = true) (s : State) (x) : State.blank S { s with mbx := x } = s.blank S := by
  simp [State.blank, h_mbx]
@[simp] theorem State.blank_mem (h_mem : S .mem = true) (s : State) (x) : State.blank S { s with mem := x } = s.blank S := by
  simp [State.blank, h_mem]
@[simp] theorem State.blank_rck (h_rck : S .rck = true) (s : State) (x) : State.blank S { s with rck := x } = s.blank S := by
  simp [State.blank, h_rck]
@[simp] theorem State.blank_cnt (h_cnt : S .cnt = true) (s : State) (x) : State.blank S { s with cnt := x } = s.blank S := by
  simp [State.blank, h_cnt]
@[simp] theorem State.blank_nrg (h_nrg : S .nrg = true) (s : State) (x) : State.blank S { s with nrg := x } = s.blank S := by
  simp [State.blank, h_nrg]
@[simp] theorem State.blank_restarts (h_restarts : S .restarts = true) (s : State) (x) : State.blank S { s with restarts := x } = s.blank S := by
  simp [State.blank, h_restarts]
@[simp] theorem State.blank_fresh (h_fresh : S .fresh = true) (s : State) (x) : State.blank S { s with fresh := x } = s.blank S := by
  simp [State.blank, h_fresh]

theorem foldl_blank {α : Type} {g : State → α → State} (hg : ∀ s a, (g s a).blank S = s.blank S) (l : List α) (s : State) :
    (l.foldl g s).blank S = s.blank S := by
  induction l generalizing s with
  | nil => rfl
  | cons a t ih => rw [List.foldl_cons, ih, hg]

theorem foldl_fst_blank {α β : Type} {g : State × β → α → State × β}
    (hg : ∀ s b a, (g (s, b) a).1.blank S = s.blank S) (l : List α) (x : State × β) :
    (l.foldl g x).1.blank S = x.1.blank S := by
  induction l generalizing x with
  | nil => rfl
  | cons a t ih => rw [List.foldl_cons, ih]; exact hg x.1 x.2 a

@[simp] theorem ite_blank (c : Prop) [Decidable c] (a b : State) :
    (if c then a else b).blank S = if c then a.blank S else b.blank S := by split <;> rfl

@[simp] theorem ite_fst_blank {α : Type} (c : Prop) [Decidable c] (a b : State × α) :
    (if c then a else b).1.blank S = if c then a.1.blank S else b.1.blank S := by split <;> rfl

/-- Two states that agree outside `S` hold the same in every area outside `S`. -/
theorem State.keeps_of_blank {s t : State} (h : t.blank S = s.blank S) (a : Area) (ha : S a = false) : s.keeps t a := by
  cases a
  · have h := congrArg State.pending h; simp only [State.blank, ha] at h; exact h
  · have h := congrArg State.clk h; simp only [State.blank, ha] at h; exact h
  · have h := congrArg State.pwr h; simp only [State.blank, ha] at h; exact h
  · have h := congrArg State.regs h; simp only [State.blank, ha] at h; exact h
  · have h := congrArg State.sticky h; simp only [State.blank, ha] at h; exact h
  · have h := congrArg State.sealed h; simp only [State.blank, ha] at h; exact h
  · have h := congrArg State.sealImg h; simp only [State.blank, ha] at h; exact h
  · have h := congrArg State.flash h; simp only [State.blank, ha] at h; exact h
  · have h := congrArg State.rnd h; simp only [State.blank, ha] at h; exact h
  · have h := congrArg State.str h; simp only [State.blank, ha] at h; exact h
  · have h := congrArg State.sds h; simp only [State.blank, ha] at h; exact h
  · have h := congrArg State.frm h; simp only [State.blank, ha] at h; exact h
  · have h := congrArg State.whl h; simp only [State.blank, ha] at h; exact h
  · have h := congrArg State.hrp h; simp only [State.blank, ha] at h; exact h
  · have h := congrArg State.flp h; simp only [State.blank, ha] at h; exact h
  · have h := congrArg State.col h; simp only [State.blank, ha] at h; exact h
  · have h := congrArg State.cal h; simp only [State.blank, ha] at h; exact h
  · have h := congrArg State.fab h; simp only [State.blank, ha] at h; exact h
  · have h := congrArg State.mgp h; simp only [State.blank, ha] at h; exact h
  · have h := congrArg State.prn h; simp only [State.blank, ha] at h; exact h
  · have h := congrArg State.mbx h; simp only [State.blank, ha] at h; exact h
  · have h := congrArg State.mem h; simp only [State.blank, ha] at h; exact h
  · have h := congrArg State.rck h; simp only [State.blank, ha] at h; exact h
  · have h := congrArg State.cnt h; simp only [State.blank, ha] at h; exact h
  · have h := congrArg State.nrg h; simp only [State.blank, ha] at h; exact h
  · have h := congrArg State.restarts h; simp only [State.blank, ha] at h; exact h
  · have h := congrArg State.fresh h; simp only [State.blank, ha] at h; exact h

end Sys2Proof.Machine
end

