-- ==== Sys2Proof/Laws/AreaOps.lean ====
section
/-! SUPPORT. The areas of State that the registers, the counters, the shared operations and the rings may change. -/
namespace Sys2Proof.Machine
open Sys2Proof
variable {S : Area → Bool}

@[simp] theorem State.setReg_blank (h_regs : S .regs = true) (s : State) (a : Nat) (v : Word) :
    (State.setReg s a v).blank S = s.blank S := by
  simp [State.setReg, h_regs]

@[simp] theorem State.setSticky_blank (h_sticky : S .sticky = true) (s : State) (a : Nat) (m : Word) :
    (State.setSticky s a m).blank S = s.blank S := by
  simp [State.setSticky, h_sticky]

@[simp] theorem State.clrSticky_blank (h_sticky : S .sticky = true) (s : State) (a : Nat) (m : Word) :
    (State.clrSticky s a m).blank S = s.blank S := by
  simp [State.clrSticky, h_sticky]

@[simp] theorem State.setCounter_blank (h_cnt : S .cnt = true) (s : State) (scope : Nat) (obj : Nat) (j : Nat)
    (c : Counter) : (State.setCounter s scope obj j c).blank S = s.blank S := by
  simp [State.setCounter, h_cnt]

@[simp] theorem State.count_blank (h_cnt : S .cnt = true) (s : State) (scope : Nat) (obj : Nat) (j : Nat) (n : Nat) :
    (State.count s scope obj j n).blank S = s.blank S := by
  simp [State.count, h_cnt]

@[simp] theorem State.clearCounters_blank (h_cnt : S .cnt = true) (s : State) (scope : Nat) (obj : Nat) :
    (State.clearCounters s scope obj).blank S = s.blank S := by
  simp [State.clearCounters, h_cnt]

@[simp] theorem State.setLane_blank (h_sds : S .sds = true) (s : State) (n : Nat) (l : Lane) :
    (State.setLane s n l).blank S = s.blank S := by
  simp [State.setLane, h_sds]

@[simp] theorem State.setGroup_blank (h_sds : S .sds = true) (s : State) (g : Nat) (x : Group) :
    (State.setGroup s g x).blank S = s.blank S := by
  simp [State.setGroup, h_sds]

@[simp] theorem State.setRx_blank (h_frm : S .frm = true) (s : State) (n : Nat) (x : RxLane) :
    (State.setRx s n x).blank S = s.blank S := by
  simp [State.setRx, h_frm]

@[simp] theorem State.setTx_blank (h_frm : S .frm = true) (s : State) (n : Nat) (x : TxLane) :
    (State.setTx s n x).blank S = s.blank S := by
  simp [State.setTx, h_frm]

@[simp] theorem State.setWheel_blank (h_whl : S .whl = true) (s : State) (w : Nat) (x : Wheel) :
    (State.setWheel s w x).blank S = s.blank S := by
  simp [State.setWheel, h_whl]

@[simp] theorem State.setPair_blank (h_col : S .col = true) (s : State) (p : Nat) (x : Pair) :
    (State.setPair s p x).blank S = s.blank S := by
  simp [State.setPair, h_col]

@[simp] theorem State.setStack_blank (h_col : S .col = true) (s : State) (t : Nat) (x : Stack) :
    (State.setStack s t x).blank S = s.blank S := by
  simp [State.setStack, h_col]

@[simp] theorem State.setPort_blank (h_mgp : S .mgp = true) (s : State) (p : Nat) (x : Port) :
    (State.setPort s p x).blank S = s.blank S := by
  simp [State.setPort, h_mgp]

@[simp] theorem State.setQp_blank (h_mgp : S .mgp = true) (s : State) (q : Nat) (x : Qp) :
    (State.setQp s q x).blank S = s.blank S := by
  simp [State.setQp, h_mgp]

@[simp] theorem State.setRing_blank (h_mgp : S .mgp = true) (s : State) (r : Nat) (x : Ring) :
    (State.setRing s r x).blank S = s.blank S := by
  simp [State.setRing, h_mgp]

@[simp] theorem State.setSrc_blank (h_str : S .str = true) (s : State) (i : Nat) (x : Src) :
    (State.setSrc s i x).blank S = s.blank S := by
  simp [State.setSrc, h_str]

@[simp] theorem State.setPart_blank (h_prn : S .prn = true) (s : State) (p : Nat) (x : Part) :
    (State.setPart s p x).blank S = s.blank S := by
  simp [State.setPart, h_prn]

@[simp] theorem State.setMbox_blank (h_mbx : S .mbx = true) (s : State) (c : Nat) (x : Mbx) :
    (State.setMbox s c x).blank S = s.blank S := by
  simp [State.setMbox, h_mbx]

@[simp] theorem State.setWhisk_blank (h_rck : S .rck = true) (s : State) (m : Nat) (x : Whisk) :
    (State.setWhisk s m x).blank S = s.blank S := by
  simp [State.setWhisk, h_rck]

@[simp] theorem State.setDump_blank (h_cnt : S .cnt = true) (s : State) (r : Nat) (x : Dump) :
    (State.setDump s r x).blank S = s.blank S := by
  simp [State.setDump, h_cnt]

@[simp] theorem State.setPlink_blank (h_fab : S .fab = true) (s : State) (l : Link) (x : PeerLink) :
    (State.setPlink s l x).blank S = s.blank S := by
  unfold State.setPlink
  split <;> simp [h_fab]

theorem next_blank {s t : State} (ht : t.blank S = s.blank S) :
    ∀ u, (Host.Outcome.next t : Out) = .next u → u.blank S = s.blank S := by
  intro u h
  rw [← Host.Outcome.next.inj h, ht]

theorem whenUp_blank {s t : State} (ht : t.blank S = s.blank S) :
    ∀ u, whenUp s t = .next u → u.blank S = s.blank S := by
  intro u h
  unfold whenUp at h
  rw [← Host.Outcome.next.inj h]
  split
  · exact ht
  · rfl

theorem whenFw_blank {s t : State} (ht : t.blank S = s.blank S) :
    ∀ u, whenFw s t = .next u → u.blank S = s.blank S := by
  intro u h
  unfold whenFw at h
  rw [← Host.Outcome.next.inj h]
  split
  · exact ht
  · rfl

@[simp] theorem State.draw_blank (h_fresh : S .fresh = true) (s : State) : (State.draw s).2.blank S = s.blank S := by
  simp [State.draw, h_fresh]

@[simp] theorem State.recd_blank (h_cal : S .cal = true) (s : State) (f : LRec → LRec) :
    (State.recd s f).blank S = s.blank S := by
  simp [State.recd, h_cal]

@[simp] theorem State.recEvt_blank (h_cal : S .cal = true) (s : State) (kind : Nat) (object : Nat) (tick : Nat)
    (value : Nat) : (State.recEvt s kind object tick value).blank S = s.blank S := by
  simp [State.recEvt, h_cal]

@[simp] theorem State.issue_blank (h_mgp : S .mgp = true) (h_cnt : S .cnt = true) (s : State) (r : Nat) (op : RdmaOp) :
    (State.issue s r op).blank S = s.blank S := by
  simp [State.issue, h_mgp, h_cnt]

@[simp] theorem State.putEvent_blank (h_cal : S .cal = true) (h_mgp : S .mgp = true) (h_cnt : S .cnt = true)
    (s : State) (r : Nat) (e : EvtEntry) : (State.putEvent s r e).blank S = s.blank S := by
  simp [State.putEvent, h_cal, h_mgp, h_cnt]

@[simp] theorem State.deliver_blank (h_cal : S .cal = true) (h_mgp : S .mgp = true) (h_cnt : S .cnt = true)
    (s : State) (ps : List Nat) (e : EvtEntry) : (State.deliver s ps e).blank S = s.blank S := by
  simp only [State.deliver]
  repeat' first
    | (simp [h_cal, h_mgp, h_cnt]; done)
    | (refine (foldl_blank ?_ _ _).trans ?_; intros)
    | split
    | simp [h_cal, h_mgp, h_cnt]

@[simp] theorem State.holdEvent_blank (h_mgp : S .mgp = true) (s : State) (ps : List Nat) (e : EvtEntry) :
    (State.holdEvent s ps e).blank S = s.blank S := by
  simp only [State.holdEvent]
  repeat' first
    | (simp [h_mgp]; done)
    | (refine (foldl_blank ?_ _ _).trans ?_; intros)
    | split
    | simp [h_mgp]

@[simp] theorem State.send_blank (h_fab : S .fab = true) (s : State) (link : Option Link) (y2 : Nat) (dest : Word)
    (body : List Byte) : (State.send s link y2 dest body).blank S = s.blank S := by
  simp [State.send, h_fab]

@[simp] theorem State.emit_blank (h_cal : S .cal = true) (h_fab : S .fab = true) (h_mgp : S .mgp = true)
    (h_cnt : S .cnt = true) (s : State) (ps : List Nat) (e : EvtEntry) : (State.emit s ps e).blank S = s.blank S := by
  simp [State.emit, foldl_blank, h_cal, h_fab, h_mgp, h_cnt]

@[simp] theorem State.flushHeld_blank (h_cal : S .cal = true) (h_mgp : S .mgp = true) (h_cnt : S .cnt = true)
    (s : State) : (State.flushHeld s).blank S = s.blank S := by
  simp [State.flushHeld, foldl_blank, h_cal, h_mgp, h_cnt]

@[simp] theorem State.event_blank (h_cal : S .cal = true) (h_fab : S .fab = true) (h_mgp : S .mgp = true)
    (h_cnt : S .cnt = true) (s : State) (ps : List Nat) (code : Nat) (object : Nat) (value : Nat) :
    (State.event s ps code object value).blank S = s.blank S := by
  simp [State.event, h_cal, h_fab, h_mgp, h_cnt]

@[simp] theorem State.setJob_blank (h_mgp : S .mgp = true) (s : State) (h : Nat) (f : JEntry → JEntry) :
    (State.setJob s h f).blank S = s.blank S := by
  simp [State.setJob, h_mgp]

@[simp] theorem State.dropJob_blank (h_mgp : S .mgp = true) (s : State) (h : Nat) :
    (State.dropJob s h).blank S = s.blank S := by
  simp [State.dropJob, h_mgp]

@[simp] theorem State.setWcmd_blank (h_fab : S .fab = true) (s : State) (m : Nat) (f : WorkerCmd → WorkerCmd) :
    (State.setWcmd s m f).blank S = s.blank S := by
  simp [State.setWcmd, h_fab]

@[simp] theorem State.completeEntry_blank (h_cal : S .cal = true) (h_fab : S .fab = true) (h_mgp : S .mgp = true)
    (h_cnt : S .cnt = true) (s : State) (h : Nat) (c : CmpEntry) : (State.completeEntry s h c).blank S = s.blank S := by
  unfold State.completeEntry
  dsimp only
  repeat' split
  all_goals simp [foldl_blank, h_cal, h_fab, h_mgp, h_cnt]

@[simp] theorem State.complete_blank (h_cal : S .cal = true) (h_fab : S .fab = true) (h_mgp : S .mgp = true)
    (h_cnt : S .cnt = true) (s : State) (h : Nat) (status : Nat) (tick : Nat) (result : Nat) :
    (State.complete s h status tick result).blank S = s.blank S := by
  unfold State.complete
  split <;> simp [h_cal, h_fab, h_mgp, h_cnt]

@[simp] theorem State.refuse_blank (h_cal : S .cal = true) (h_fab : S .fab = true) (h_mgp : S .mgp = true)
    (h_cnt : S .cnt = true) (s : State) (h : Nat) (status : Nat) : (State.refuse s h status).blank S = s.blank S := by
  simp [State.refuse, h_cal, h_fab, h_mgp, h_cnt]

@[simp] theorem State.output_blank (h_fab : S .fab = true) (h_mgp : S .mgp = true) (h_cnt : S .cnt = true) (s : State)
    (h : Nat) (addr : Nat) (hkey : Nat) (off : Nat) (bytes : List Byte) :
    (State.output s h addr hkey off bytes).blank S = s.blank S := by
  unfold State.output
  repeat' split
  all_goals simp [h_fab, h_mgp, h_cnt]

@[simp] theorem State.setRole_blank (h_cal : S .cal = true) (h_fab : S .fab = true) (h_mgp : S .mgp = true)
    (h_cnt : S .cnt = true) (s : State) (r : Role) : (State.setRole s r).blank S = s.blank S := by
  simp [State.setRole, h_cal, h_fab, h_mgp, h_cnt]

@[simp] theorem State.yield_blank (h_cal : S .cal = true) (s : State) (cause : Nat) :
    (State.yield s cause).blank S = s.blank S := by
  simp [State.yield, h_cal]

@[simp] theorem State.answer_blank (h_mgp : S .mgp = true) (h_cnt : S .cnt = true) (s : State) (q : Nat) (r : Resp) :
    (State.answer s q r).blank S = s.blank S := by
  unfold State.answer
  split <;> simp [h_mgp, h_cnt]

theorem State.ownerWrite_blank (h_mgp : S .mgp = true) (h_cnt : S .cnt = true) (s : State) (q : Nat)
    (f : State → State) (hf : (f s).blank S = s.blank S) : (s.ownerWrite q f).blank S = s.blank
    S := by
  unfold State.ownerWrite
  split <;> simp [hf, h_mgp, h_cnt]

@[simp] theorem State.doneOp_blank (h_mgp : S .mgp = true) (s : State) (r : Nat) (k : RdmaOp → Bool) :
    (State.doneOp s r k).blank S = s.blank S := by
  simp [State.doneOp, h_mgp]

@[simp] theorem State.moveOps_blank (h_mgp : S .mgp = true) (s : State) (q : Nat) :
    (State.moveOps s q).blank S = s.blank S := by
  unfold State.moveOps
  dsimp only
  repeat' split
  all_goals simp [h_mgp]

@[simp] theorem State.readDoorbell_blank (h_mgp : S .mgp = true) (h_cnt : S .cnt = true) (s : State) (r : Nat) :
    (State.readDoorbell s r).blank S = s.blank S := by
  simp [State.readDoorbell, h_mgp, h_cnt]

@[simp] theorem State.fetchNow_blank (h_mgp : S .mgp = true) (h_cnt : S .cnt = true) (s : State) (r : Nat) :
    (State.fetchNow s r).blank S = s.blank S := by
  simp [State.fetchNow, h_mgp, h_cnt]

@[simp] theorem State.fetchMore_blank (h_mgp : S .mgp = true) (h_cnt : S .cnt = true) (s : State) (r : Nat) :
    (State.fetchMore s r).blank S = s.blank S := by
  simp [State.fetchMore, h_mgp, h_cnt]

@[simp] theorem State.halt_blank (h_cal : S .cal = true) (h_fab : S .fab = true) (h_mgp : S .mgp = true)
    (h_cnt : S .cnt = true) (s : State) (r : Nat) (cause : Nat) : (State.halt s r cause).blank S = s.blank S := by
  simp [State.halt, h_cal, h_fab, h_mgp, h_cnt]

@[simp] theorem State.refreshBusy_blank (h_cal : S .cal = true) (h_fab : S .fab = true) (h_mgp : S .mgp = true)
    (h_cnt : S .cnt = true) (s : State) (r : Nat) : (State.refreshBusy s r).blank S = s.blank S := by
  unfold State.refreshBusy
  dsimp only
  repeat' split
  all_goals simp [h_cal, h_fab, h_mgp, h_cnt]

@[simp] theorem State.pruneJournal_blank (h_mgp : S .mgp = true) (s : State) (r : Nat) :
    (State.pruneJournal s r).blank S = s.blank S := by
  simp [State.pruneJournal, h_mgp]

@[simp] theorem State.kickRing_blank (h_mgp : S .mgp = true) (s : State) (r : Nat) :
    (State.kickRing s r).blank S = s.blank S := by
  simp [State.kickRing, h_mgp]

@[simp] theorem State.doorbell_blank (h_mgp : S .mgp = true) (h_cnt : S .cnt = true) (s : State) (q : Nat) (rkey : Word)
    (addr : Nat) (len : Nat) : (State.doorbell s q rkey addr len).blank S = s.blank S := by
  simp [State.doorbell, h_mgp, h_cnt]

theorem execKick_blank (h_mgp : S .mgp = true) (h_cnt : S .cnt = true) (qp : Fin 16) (rkey : Word) (addr : Nat)
    (len : Nat) (s : State) : ∀ t, (execKick qp rkey addr len s) = .next t → t.blank S = s.blank S := by
  unfold execKick
  refine whenUp_blank ?_
  simp [h_mgp, h_cnt]

theorem execDoorbellPoll_blank (h_mgp : S .mgp = true) (h_cnt : S .cnt = true) (r : Fin 16) (s : State) : ∀ t,
    (execDoorbellPoll r s) = .next t → t.blank S = s.blank S := by
  unfold execDoorbellPoll
  refine next_blank ?_
  simp [h_mgp, h_cnt]

theorem execDoorbellReadDone_blank (h_cal : S .cal = true) (h_fab : S .fab = true) (h_mgp : S .mgp = true)
    (h_cnt : S .cnt = true) (r : Fin 16) (cmdProd : Nat) (cmpCons : Nat) (evtCons : Nat) (s : State) : ∀ t,
    (execDoorbellReadDone r cmdProd cmpCons evtCons s) = .next t → t.blank S = s.blank S := by
  unfold execDoorbellReadDone
  refine next_blank ?_
  simp [h_cal, h_fab, h_mgp, h_cnt]

theorem execDescriptorFetchDone_blank (h_mgp : S .mgp = true) (h_cnt : S .cnt = true) (r : Fin 16) (ds : List Desc)
    (s : State) : ∀ t, (execDescriptorFetchDone r ds s) = .next t → t.blank S = s.blank S := by
  unfold execDescriptorFetchDone
  refine next_blank ?_
  simp [h_mgp, h_cnt]

@[simp] theorem State.journalCmd_blank (h_cal : S .cal = true) (h_mgp : S .mgp = true) (s : State) (r : Nat) (d : Desc)
    (b : Option Batch) (ok : Bool) : (State.journalCmd s r d b ok).blank S = s.blank S := by
  simp [State.journalCmd, h_cal, h_mgp]

@[simp] theorem State.resumeRing_blank (h_mgp : S .mgp = true) (s : State) (r : Nat) :
    (State.resumeRing s r).blank S = s.blank S := by
  simp [State.resumeRing, h_mgp]

@[simp] theorem State.takeFrom_blank (h_cal : S .cal = true) (h_fab : S .fab = true) (h_mgp : S .mgp = true)
    (h_cnt : S .cnt = true) (s : State) (r : Nat) : (State.takeFrom s r).blank S = s.blank S := by
  unfold State.takeFrom
  split <;> simp [h_cal, h_fab, h_mgp, h_cnt]

@[simp] theorem State.takeNext_blank (h_clk : S .clk = true) (h_cal : S .cal = true) (h_fab : S .fab = true)
    (h_mgp : S .mgp = true) (h_cnt : S .cnt = true) (s : State) : (State.takeNext s).blank S = s.blank S := by
  unfold State.takeNext
  dsimp only
  repeat' split
  all_goals (try simp [foldl_blank, foldl_fst_blank, h_clk, h_cal, h_fab, h_mgp, h_cnt])
  all_goals simp [foldl_blank, foldl_fst_blank, State.blank, h_clk, h_cal, h_fab, h_mgp, h_cnt]

theorem execDescriptorTake_blank (h_clk : S .clk = true) (h_cal : S .cal = true) (h_fab : S .fab = true)
    (h_mgp : S .mgp = true) (h_cnt : S .cnt = true) (s : State) : ∀ t,
    (execDescriptorTake s) = .next t → t.blank S = s.blank S := by
  unfold execDescriptorTake
  refine next_blank ?_
  simp [foldl_blank, h_clk, h_cal, h_fab, h_mgp, h_cnt]

@[simp] theorem State.attachBatch_blank (h_mgp : S .mgp = true) (s : State) (r : Nat) (b : Batch) :
    (State.attachBatch s r b).blank S = s.blank S := by
  unfold State.attachBatch
  split <;> simp [h_mgp]

theorem execBatchReadDone_blank (h_cal : S .cal = true) (h_mgp : S .mgp = true) (h_cnt : S .cnt = true) (r : Fin 16)
    (b : Batch) (s : State) : ∀ t, (execBatchReadDone r b s) = .next t → t.blank S = s.blank S := by
  unfold execBatchReadDone
  refine next_blank ?_
  repeat' split
  all_goals simp [h_cal, h_mgp, h_cnt]

@[simp] theorem State.postOne_blank (h_cal : S .cal = true) (h_fab : S .fab = true) (h_mgp : S .mgp = true)
    (h_cnt : S .cnt = true) (s : State) (r : Nat) (h : Nat) (e : JEntry) (c : CmpEntry) :
    (State.postOne s r h e c).blank S = s.blank S := by
  unfold State.postOne
  split <;> simp [h_cal, h_fab, h_mgp, h_cnt]

@[simp] theorem State.dropOldKey_blank (h_mgp : S .mgp = true) (s : State) (r : Nat) :
    (State.dropOldKey s r).blank S = s.blank S := by
  unfold State.dropOldKey
  dsimp only
  repeat' split
  all_goals simp [h_mgp]

theorem execCompletionPost_blank (h_cal : S .cal = true) (h_fab : S .fab = true) (h_mgp : S .mgp = true)
    (h_cnt : S .cnt = true) (r : Fin 16) (s : State) : ∀ t,
    (execCompletionPost r s) = .next t → t.blank S = s.blank S := by
  unfold execCompletionPost
  refine next_blank ?_
  repeat' split
  all_goals simp [h_cal, h_fab, h_mgp, h_cnt]

@[simp] theorem State.dumpAcked_blank (h_mgp : S .mgp = true) (h_cnt : S .cnt = true) (s : State) (r : Nat) (q : Nat) :
    (State.dumpAcked s r q).blank S = s.blank S := by
  unfold State.dumpAcked
  dsimp only
  repeat' split
  all_goals simp [h_mgp, h_cnt]

@[simp] theorem State.writeAcked_blank (h_mgp : S .mgp = true) (h_cnt : S .cnt = true) (s : State) (q : Nat) :
    (State.writeAcked s q).blank S = s.blank S := by
  unfold State.writeAcked
  dsimp only
  repeat' split
  all_goals simp [h_mgp, h_cnt]

theorem execRdmaWriteAck_blank (h_mgp : S .mgp = true) (h_cnt : S .cnt = true) (qp : Fin 16) (s : State) : ∀ t,
    (execRdmaWriteAck qp s) = .next t → t.blank S = s.blank S := by
  unfold execRdmaWriteAck
  refine whenUp_blank ?_
  simp [h_mgp, h_cnt]

theorem execQpAckTimeout_blank (h_cal : S .cal = true) (h_fab : S .fab = true) (h_mgp : S .mgp = true)
    (h_cnt : S .cnt = true) (qp : Fin 16) (s : State) : ∀ t,
    (execQpAckTimeout qp s) = .next t → t.blank S = s.blank S := by
  unfold execQpAckTimeout
  refine next_blank ?_
  simp [h_cal, h_fab, h_mgp, h_cnt]

@[simp] theorem State.accept_blank (h_cal : S .cal = true) (h_mgp : S .mgp = true) (h_cnt : S .cnt = true) (s : State)
    (h : Nat) (e : JEntry) : (State.accept s h e).blank S = s.blank S := by
  unfold State.accept
  split <;> simp [h_cal, h_mgp, h_cnt]

@[simp] theorem State.sendCmd_blank (h_fab : S .fab = true) (s : State) (h : Nat) (e : JEntry) (w : Word) :
    (State.sendCmd s h e w).blank S = s.blank S := by
  simp [State.sendCmd, foldl_blank, h_fab]

@[simp] theorem State.remote_blank (h_fab : S .fab = true) (s : State) (h : Nat) (e : JEntry) :
    (State.remote s h e).blank S = s.blank S := by
  simp [State.remote, h_fab]

theorem State.runCmd_blank (h_cal : S .cal = true) (h_fab : S .fab = true) (h_mgp : S .mgp = true)
    (h_cnt : S .cnt = true) (s : State) (opc : Nat) (chk : Check) (eff : Effect) (h : Nat)
    (he : ∀ h e s, (eff h e s).blank S = s.blank S) : (s.runCmd opc chk eff h).blank S = s.blank S := by
  unfold State.runCmd
  dsimp only
  repeat' split
  all_goals simp [he, h_cal, h_fab, h_mgp, h_cnt]

@[simp] theorem State.completeNext_blank (h_cal : S .cal = true) (h_fab : S .fab = true) (h_mgp : S .mgp = true)
    (h_cnt : S .cnt = true) (s : State) (h : Nat) (status : Nat) (tick : Nat) (result : Nat) :
    (State.completeNext s h status tick result).blank S = s.blank S := by
  simp [State.completeNext, h_cal, h_fab, h_mgp, h_cnt]

@[simp] theorem State.ownResult_blank (h_flp : S .flp = true) (s : State) (x : Flip) (done : Bool) :
    (State.ownResult s x done).blank S = s.blank S := by
  simp [State.ownResult, h_flp]

@[simp] theorem State.cancelFab_blank (h_flp : S .flp = true) (h_cal : S .cal = true) (h_fab : S .fab = true)
    (s : State) (x : FabFlip) (failId : Word) (reason : Nat) : (State.cancelFab s x failId reason).blank S = s.blank
    S := by
  simp only [State.cancelFab]
  repeat' split
  all_goals simp [h_flp, h_cal, h_fab]

@[simp] theorem State.fabLinkFailed_blank (h_flp : S .flp = true) (h_cal : S .cal = true) (h_fab : S .fab = true)
    (s : State) (g : Option Nat) : (State.fabLinkFailed s g).blank S = s.blank S := by
  simp only [State.fabLinkFailed]
  repeat' first
    | (simp [h_flp, h_cal, h_fab]; done)
    | (refine (foldl_blank ?_ _ _).trans ?_; intros)
    | split
    | simp [h_flp, h_cal, h_fab]

end Sys2Proof.Machine
end

