-- ==== Sys2Proof/Laws/AreaMap.lean ====
section
/-! SUPPORT. The areas of State that the map pages and the map commands may change. -/
namespace Sys2Proof.Machine
open Sys2Proof
variable {S : Area → Bool}

@[simp] theorem State.setPage_blank (h_hrp : S .hrp = true) (s : State) (i : Nat) (p : Page) :
    (State.setPage s i p).blank S = s.blank S := by
  simp [State.setPage, h_hrp]

@[simp] theorem State.setStandby_blank (h_hrp : S .hrp = true) (s : State) (p : Page) :
    (State.setStandby s p).blank S = s.blank S := by
  simp [State.setStandby, h_hrp]

@[simp] theorem State.noteHigh_blank (h_hrp : S .hrp = true) (h_cal : S .cal = true) (h_fab : S .fab = true)
    (h_mgp : S .mgp = true) (h_cnt : S .cnt = true) (s : State) (g : Nat) : (State.noteHigh s g).blank S = s.blank S := by
  simp [State.noteHigh, h_hrp, h_cal, h_fab, h_mgp, h_cnt]

@[simp] theorem State.closeOne_blank (h_flp : S .flp = true) (s : State) (h : Nat) (moves : Nat) :
    (State.closeOne s h moves).blank S = s.blank S := by
  simp [State.closeOne, h_flp]

@[simp] theorem State.dropDeferred_blank (h_hrp : S .hrp = true) (h_flp : S .flp = true) (s : State) (slot : Nat)
    (moves : Nat) : (State.dropDeferred s slot moves).blank S = s.blank S := by
  unfold State.dropDeferred
  split <;> simp [h_hrp, h_flp]

@[simp] theorem State.putPage_blank (h_hrp : S .hrp = true) (h_cal : S .cal = true) (h_fab : S .fab = true)
    (h_mgp : S .mgp = true) (h_cnt : S .cnt = true) (s : State) (p : Page) (groups : List Nat) :
    (State.putPage s p groups).blank S = s.blank S := by
  simp [State.putPage, foldl_blank, h_hrp, h_cal, h_fab, h_mgp, h_cnt]

@[simp] theorem State.putNew_blank (h_hrp : S .hrp = true) (h_flp : S .flp = true) (h_cal : S .cal = true)
    (h_fab : S .fab = true) (h_mgp : S .mgp = true) (h_cnt : S .cnt = true) (s : State) (h : Nat) (slot : Nat) (k : Nat)
    (e : Word) (groups : List Nat) (noMove : Bool) : (State.putNew s h slot k e groups noMove).s.blank S = s.blank S := by
  unfold State.putNew
  dsimp only
  repeat' split
  all_goals simp [h_hrp, h_flp, h_cal, h_fab, h_mgp, h_cnt]

@[simp] theorem State.mapPut_blank (h_hrp : S .hrp = true) (h_flp : S .flp = true) (h_cal : S .cal = true)
    (h_fab : S .fab = true) (h_mgp : S .mgp = true) (h_cnt : S .cnt = true) (s : State) (prin : Nat) (h : Nat) (slot : Nat)
    (v : Nat) (noMove : Bool) : (State.mapPut s prin h slot v noMove).s.blank S = s.blank S := by
  unfold State.mapPut
  dsimp only
  repeat' split
  all_goals simp [h_hrp, h_flp, h_cal, h_fab, h_mgp, h_cnt]

@[simp] theorem State.noteLow_blank (h_hrp : S .hrp = true) (s : State) : (State.noteLow s).blank S = s.blank S :=
    by
  simp [State.noteLow, h_hrp]

@[simp] theorem State.entryFails_blank (h_sticky : S .sticky = true) (h_hrp : S .hrp = true) (h_flp : S .flp = true)
    (h_cal : S .cal = true) (h_fab : S .fab = true) (h_mgp : S .mgp = true) (h_cnt : S .cnt = true) (s : State)
    (pg : Nat) (i : Nat) (treat : Bool) : (State.entryFails s pg i treat).blank S = s.blank S := by
  have h1 : ∀ (x : Hrp) (y : Cal), State.blank S { s with hrp := x, cal := y } = s.blank S := by
    intro x y
    simp [State.blank, h_hrp, h_cal]
  unfold State.entryFails
  dsimp only
  split
  · simp only [State.yield_blank, State.event_blank, State.setSticky_blank, h_sticky, h_cal, h_fab, h_mgp, h_cnt]
    exact h1 _ _
  · simp only [State.event_blank, State.setSticky_blank, ite_blank, State.noteLow_blank, State.dropDeferred_blank,
      State.setPage_blank, h_sticky, h_hrp, h_flp, h_cal, h_fab, h_mgp, h_cnt, ite_self]
    exact h1 _ _

@[simp] theorem State.checkRead_blank (h_sticky : S .sticky = true) (h_hrp : S .hrp = true) (h_flp : S .flp = true)
    (h_cal : S .cal = true) (h_fab : S .fab = true) (h_mgp : S .mgp = true) (h_cnt : S .cnt = true) (s : State)
    (slot : Nat) : (State.checkRead s slot).blank S = s.blank S := by
  simp [State.checkRead, h_sticky, h_hrp, h_flp, h_cal, h_fab, h_mgp, h_cnt]

theorem State.placeDeferred_blank (h_sticky : S .sticky = true) (h_hrp : S .hrp = true) (h_flp : S .flp = true)
    (h_cal : S .cal = true) (h_fab : S .fab = true) (h_mgp : S .mgp = true) (h_cnt : S .cnt = true) (s : State)
    (slot : Nat) : ∀ t, (State.placeDeferred s slot) = some t → t.1.blank S = s.blank S := by
  unfold State.placeDeferred
  dsimp only
  repeat' split
  all_goals simp [h_sticky, h_hrp, h_flp, h_cal, h_fab, h_mgp, h_cnt]

@[simp] theorem State.checkEntry_blank (h_sticky : S .sticky = true) (h_hrp : S .hrp = true) (h_flp : S .flp = true)
    (h_cal : S .cal = true) (h_fab : S .fab = true) (h_mgp : S .mgp = true) (h_cnt : S .cnt = true) (s : State)
    (n : Nat) : (State.checkEntry s n).blank S = s.blank S := by
  simp [State.checkEntry, h_sticky, h_hrp, h_flp, h_cal, h_fab, h_mgp, h_cnt]

theorem execMapCheck_blank (h_clk : S .clk = true) (h_sticky : S .sticky = true) (h_hrp : S .hrp = true)
    (h_flp : S .flp = true) (h_cal : S .cal = true) (h_fab : S .fab = true) (h_mgp : S .mgp = true)
    (h_cnt : S .cnt = true) (s : State) : ∀ t, execMapCheck s = .next t → t.blank S = s.blank S := by
  have h1 : ∀ (u : State) (x : Hrp) (c : Clk) (y : Cal), State.blank S { u with hrp := x, clk := c, cal := y } =
    u.blank S := by
    intro u x c y
    simp [State.blank, h_clk, h_sticky, h_hrp, h_flp, h_cal, h_fab, h_mgp, h_cnt]
  unfold execMapCheck
  refine whenUp_blank ?_
  split
  · rfl
  · refine (h1 _ _ _ _).trans (foldl_blank (fun s n => ?_) _ _)
    simp [h_clk, h_sticky, h_hrp, h_flp, h_cal, h_fab, h_mgp, h_cnt]

@[simp] theorem State.setJobs_blank (h_flp : S .flp = true) (s : State) (f : MapJob → MapJob) (h : Nat) :
    (State.setJobs s f h).blank S = s.blank S := by
  simp [State.setJobs, h_flp]

@[simp] theorem State.endJobs_blank (h_flp : S .flp = true) (h_cal : S .cal = true) (h_fab : S .fab = true)
    (h_mgp : S .mgp = true) (h_cnt : S .cnt = true) (s : State) : (State.endJobs s).blank S = s.blank S := by
  simp [State.endJobs, foldl_blank, h_flp, h_cal, h_fab, h_mgp, h_cnt]

@[simp] theorem State.joinOne_blank (h_clk : S .clk = true) (h_flp : S .flp = true) (h_cal : S .cal = true)
    (h_cnt : S .cnt = true) (s : State) (j : MapJob) : (State.joinOne s j).blank S = s.blank S := by
  unfold State.joinOne
  dsimp only
  repeat' split
  all_goals (try simp [foldl_blank, foldl_fst_blank, h_clk, h_flp, h_cal, h_cnt])
  all_goals simp [foldl_blank, foldl_fst_blank, State.blank, h_clk, h_flp, h_cal, h_cnt]

@[simp] theorem State.joinMany_blank (h_clk : S .clk = true) (h_flp : S .flp = true) (h_cal : S .cal = true)
    (h_cnt : S .cnt = true) (x0 : Nat) (s : State) : (State.joinMany x0 s).blank S = s.blank S := by
  fun_induction State.joinMany <;> simp_all

@[simp] theorem State.carry_blank (h_flp : S .flp = true) (s : State) (prin : Nat) :
    (State.carry s prin).blank S = s.blank S := by
  simp [State.carry, h_flp]

@[simp] theorem State.noteRun_blank (h_clk : S .clk = true) (h_flp : S .flp = true) (h_cal : S .cal = true)
    (h_cnt : S .cnt = true) (t : State) (j : MapJob) (idx : Nat) (slot : Nat) (v : Nat) (queued : Bool) (held : Bool)
    (status : Nat) (moves : Nat) (deferred : Bool) (cost : Nat) :
    (State.noteRun t j idx slot v queued held status moves deferred cost).blank S = t.blank S := by
  simp [State.noteRun, h_clk, h_flp, h_cal, h_cnt]

@[simp] theorem State.runEntry_blank (h_clk : S .clk = true) (h_sticky : S .sticky = true) (h_hrp : S .hrp = true)
    (h_flp : S .flp = true) (h_cal : S .cal = true) (h_fab : S .fab = true) (h_mgp : S .mgp = true)
    (h_cnt : S .cnt = true) (s : State) (j : MapJob) (idx : Nat) (slot : Nat) (v : Nat) (queued : Bool)
    (held : Bool) : (State.runEntry s j idx slot v queued held).blank S = s.blank S := by
  simp [State.runEntry, h_clk, h_sticky, h_hrp, h_flp, h_cal, h_fab, h_mgp, h_cnt]

theorem State.runNext_blank (h_clk : S .clk = true) (h_sticky : S .sticky = true) (h_hrp : S .hrp = true)
    (h_flp : S .flp = true) (h_cal : S .cal = true) (h_fab : S .fab = true) (h_mgp : S .mgp = true)
    (h_cnt : S .cnt = true) (s : State) : ∀ t, (State.runNext s) = some t → t.blank S = s.blank S := by
  unfold State.runNext
  repeat' split
  all_goals simp [h_clk, h_sticky, h_hrp, h_flp, h_cal, h_fab, h_mgp, h_cnt]

@[simp] theorem State.runMany_blank (h_clk : S .clk = true) (h_sticky : S .sticky = true) (h_hrp : S .hrp = true)
    (h_flp : S .flp = true) (h_cal : S .cal = true) (h_fab : S .fab = true) (h_mgp : S .mgp = true)
    (h_cnt : S .cnt = true) (n : Nat) (s : State) : (State.runMany n s).blank S = s.blank S := by
  induction n generalizing s with
  | zero => rfl
  | succ n ih =>
    unfold State.runMany
    split
    · rfl
    · split
      · rfl
      · rename_i h
        split
        · simp [h_clk, h_sticky, h_hrp, h_flp, h_cal, h_fab, h_mgp, h_cnt]
        · rw [ih, State.runNext_blank h_clk h_sticky h_hrp h_flp h_cal h_fab h_mgp h_cnt _ _ h]

@[simp] theorem State.mapTick_blank (h_clk : S .clk = true) (h_sticky : S .sticky = true) (h_hrp : S .hrp = true)
    (h_flp : S .flp = true) (h_cal : S .cal = true) (h_fab : S .fab = true) (h_mgp : S .mgp = true)
    (h_cnt : S .cnt = true) (s : State) : (State.mapTick s).blank S = s.blank S := by
  simp [State.mapTick, h_clk, h_sticky, h_hrp, h_flp, h_cal, h_fab, h_mgp, h_cnt]

@[simp] theorem State.mapNow_blank (h_clk : S .clk = true) (h_sticky : S .sticky = true) (h_hrp : S .hrp = true)
    (h_flp : S .flp = true) (h_cal : S .cal = true) (h_fab : S .fab = true) (h_mgp : S .mgp = true)
    (h_cnt : S .cnt = true) (s : State) : (State.mapNow s).blank S = s.blank S := by
  simp [State.mapNow, h_clk, h_sticky, h_hrp, h_flp, h_cal, h_fab, h_mgp, h_cnt]

theorem execDeferredEntryPlace_blank (h_clk : S .clk = true) (h_sticky : S .sticky = true) (h_hrp : S .hrp = true)
    (h_flp : S .flp = true) (h_cal : S .cal = true) (h_fab : S .fab = true) (h_mgp : S .mgp = true)
    (h_cnt : S .cnt = true) (slot : Fin 524288) (s : State) : ∀ t, execDeferredEntryPlace slot s = .next t → t.blank
    S = s.blank S := by
  unfold execDeferredEntryPlace
  refine next_blank ?_
  split
  · split
    · rfl
    · rename_i h
      have := State.placeDeferred_blank h_sticky h_hrp h_flp h_cal h_fab h_mgp h_cnt _ _ _ h
      dsimp only
      split <;> simpa [h_clk, h_sticky, h_hrp, h_flp, h_cal, h_fab, h_mgp, h_cnt] using this
  · rfl

@[simp] theorem effMapWrite_blank (h_flp : S .flp = true) (x0 : Nat) (x1 : JEntry) (s : State) :
    (effMapWrite x0 x1 s).blank S = s.blank S := by
  simp [effMapWrite, h_flp]

theorem execMapWrite_blank (h_flp : S .flp = true) (h_cal : S .cal = true) (h_fab : S .fab = true)
    (h_mgp : S .mgp = true) (h_cnt : S .cnt = true) (h : Nat) (s : State) : ∀ t,
    (execMapWrite h s) = .next t → t.blank S = s.blank S := by
  unfold execMapWrite
  refine next_blank ?_
  exact State.runCmd_blank h_cal h_fab h_mgp h_cnt _ _ _ _ _ (by simp [h_flp])

@[simp] theorem effMapRead_blank (h_cal : S .cal = true) (h_fab : S .fab = true) (h_mgp : S .mgp = true)
    (h_cnt : S .cnt = true) (x0 : Nat) (x1 : JEntry) (s : State) : (effMapRead x0 x1 s).blank S = s.blank S := by
  simp [effMapRead, h_cal, h_fab, h_mgp, h_cnt]

theorem execMapRead_blank (h_cal : S .cal = true) (h_fab : S .fab = true) (h_mgp : S .mgp = true)
    (h_cnt : S .cnt = true) (h : Nat) (s : State) : ∀ t, (execMapRead h s) = .next t → t.blank S = s.blank S := by
  unfold execMapRead
  refine next_blank ?_
  exact State.runCmd_blank h_cal h_fab h_mgp h_cnt _ _ _ _ _ (by simp [h_cal, h_fab, h_mgp, h_cnt])

end Sys2Proof.Machine
end

