-- ==== Sys2Proof/Laws/AreaLanes.lean ====
section
/-! SUPPORT. The areas of State that the lanes, the groups, the framers and the Wheels may change. -/
namespace Sys2Proof.Machine
open Sys2Proof
variable {S : Area → Bool}

@[simp] theorem State.noteDefects_blank (h_frm : S .frm = true) (s : State) (n : Nat) :
    (State.noteDefects s n).blank S = s.blank S := by
  simp [State.noteDefects, h_frm]

@[simp] theorem State.cutCopies_blank (h_col : S .col = true) (s : State) (hit : Nat → Bool) :
    (State.cutCopies s hit).blank S = s.blank S := by
  simp [State.cutCopies, h_col]

@[simp] theorem State.huntWheels_blank (h_whl : S .whl = true) (h_col : S .col = true) (s : State) (n : Nat) :
    (State.huntWheels s n).blank S = s.blank S := by
  simp [State.huntWheels, h_whl, h_col]

@[simp] theorem State.enterHunt_blank (h_sds : S .sds = true) (h_frm : S .frm = true) (h_whl : S .whl = true)
    (h_col : S .col = true) (s : State) (n : Nat) : (State.enterHunt s n).blank S = s.blank S := by
  simp [State.enterHunt, h_sds, h_frm, h_whl, h_col]

@[simp] theorem State.endScan_blank (h_sds : S .sds = true) (h_cal : S .cal = true) (h_fab : S .fab = true)
    (h_mgp : S .mgp = true) (h_cnt : S .cnt = true) (s : State) (c : Scan) (status : Nat) (done : Nat) (vstep : Nat)
    (points : List Nat) : (State.endScan s c status done vstep points).blank S = s.blank S := by
  simp [State.endScan, h_sds, h_cal, h_fab, h_mgp, h_cnt]

@[simp] theorem State.abortScan_blank (h_sds : S .sds = true) (h_cal : S .cal = true) (h_fab : S .fab = true)
    (h_mgp : S .mgp = true) (h_cnt : S .cnt = true) (h_fresh : S .fresh = true) (s : State) (n : Nat) (status : Nat) :
    (State.abortScan s n status).blank S = s.blank S := by
  unfold State.abortScan
  split <;> simp [h_sds, h_cal, h_fab, h_mgp, h_cnt, h_fresh]

@[simp] theorem State.setLinkSt_blank (h_cal : S .cal = true) (h_fab : S .fab = true) (h_mgp : S .mgp = true)
    (h_cnt : S .cnt = true) (s : State) (l : Link) (st : LinkSt) : (State.setLinkSt s l st).blank S = s.blank S := by
  unfold State.setLinkSt
  repeat' split
  all_goals simp [h_cal, h_fab, h_mgp, h_cnt]

@[simp] theorem State.groupLinkDown_blank (h_flp : S .flp = true) (h_cal : S .cal = true) (h_fab : S .fab = true)
    (h_mgp : S .mgp = true) (h_cnt : S .cnt = true) (s : State) (g : Nat) :
    (State.groupLinkDown s g).blank S = s.blank S := by
  unfold State.groupLinkDown
  split <;> simp [h_flp, h_cal, h_fab, h_mgp, h_cnt]

@[simp] theorem State.applyTable_blank (h_sds : S .sds = true) (s : State) (g : Nat) : (State.applyTable s g).blank
    S = s.blank S := by
  simp [State.applyTable, h_sds]

@[simp] theorem State.calLinkDown_blank (h_flp : S .flp = true) (h_cal : S .cal = true) (h_fab : S .fab = true)
    (h_mgp : S .mgp = true) (h_cnt : S .cnt = true) (s : State) : (State.calLinkDown s).blank S = s.blank S := by
  unfold State.calLinkDown
  repeat' split
  all_goals simp [h_flp, h_cal, h_fab, h_mgp, h_cnt]

@[simp] theorem State.enterAlign_blank (h_sds : S .sds = true) (h_frm : S .frm = true) (h_whl : S .whl = true)
    (h_col : S .col = true) (h_cal : S .cal = true) (h_fab : S .fab = true) (h_mgp : S .mgp = true)
    (h_cnt : S .cnt = true) (h_fresh : S .fresh = true) (s : State) (g : Nat) : (State.enterAlign s g).blank S =
    s.blank S := by
  simp [State.enterAlign, foldl_blank, h_sds, h_frm, h_whl, h_col, h_cal, h_fab, h_mgp, h_cnt, h_fresh]

@[simp] theorem State.chooseSeq_blank (h_fresh : S .fresh = true) (s : State) (g : Nat) :
    (State.chooseSeq s g).1.blank S = s.blank S := by
  simp [State.chooseSeq, h_fresh]

@[simp] theorem State.inService_blank (h_str : S .str = true) (h_sds : S .sds = true) (h_cal : S .cal = true)
    (h_fab : S .fab = true) (h_mgp : S .mgp = true) (h_cnt : S .cnt = true) (s : State) (g : Nat) :
    (State.inService s g).blank S = s.blank S := by
  simp [State.inService, foldl_blank, h_str, h_sds, h_cal, h_fab, h_mgp, h_cnt]

@[simp] theorem State.announce_blank (h_sds : S .sds = true) (h_fresh : S .fresh = true) (s : State) (g : Nat)
    (target : Nat) (act : Nat) : (State.announce s g target act).blank S = s.blank S := by
  simp [State.announce, h_sds, h_fresh]

@[simp] theorem State.propose_blank (h_sds : S .sds = true) (h_fresh : S .fresh = true) (s : State) (g : Nat) :
    (State.propose s g).blank S = s.blank S := by
  simp [State.propose, h_sds, h_fresh]

@[simp] theorem State.enterNegotiate_blank (h_sds : S .sds = true) (h_fresh : S .fresh = true) (s : State) (g : Nat)
    : (State.enterNegotiate s g).blank S = s.blank S := by
  simp [State.enterNegotiate, h_sds, h_fresh]

@[simp] theorem State.fallback_blank (h_sds : S .sds = true) (h_flp : S .flp = true) (h_cal : S .cal = true)
    (h_fab : S .fab = true) (h_mgp : S .mgp = true) (h_cnt : S .cnt = true) (h_fresh : S .fresh = true) (s : State)
    (g : Nat) (lanes : List Nat) : (State.fallback s g lanes).blank S = s.blank S := by
  simp [State.fallback, foldl_blank, h_sds, h_flp, h_cal, h_fab, h_mgp, h_cnt, h_fresh]

@[simp] theorem State.laneFailure_blank (h_sds : S .sds = true) (h_flp : S .flp = true) (h_cal : S .cal = true)
    (h_fab : S .fab = true) (h_mgp : S .mgp = true) (h_cnt : S .cnt = true) (h_fresh : S .fresh = true) (s : State)
    (g : Nat) (bad : List Nat) : (State.laneFailure s g bad).1.blank S = s.blank S := by
  simp [State.laneFailure, foldl_blank, h_sds, h_flp, h_cal, h_fab, h_mgp, h_cnt, h_fresh]

@[simp] theorem State.enterVerify_blank (h_sds : S .sds = true) (s : State) (g : Nat) :
    (State.enterVerify s g).blank S = s.blank S := by
  simp [State.enterVerify, foldl_blank, h_sds]

@[simp] theorem State.switched_blank (h_sds : S .sds = true) (h_frm : S .frm = true) (h_whl : S .whl = true)
    (h_col : S .col = true) (h_cal : S .cal = true) (h_fab : S .fab = true) (h_mgp : S .mgp = true)
    (h_cnt : S .cnt = true) (h_fresh : S .fresh = true) (s : State) (g : Nat) : (State.switched s g).blank S =
    s.blank S := by
  simp [State.switched, h_sds, h_frm, h_whl, h_col, h_cal, h_fab, h_mgp, h_cnt, h_fresh]

@[simp] theorem State.tryNegotiate_blank (h_sticky : S .sticky = true) (h_sds : S .sds = true)
    (h_fresh : S .fresh = true) (s : State) (g : Nat) : (State.tryNegotiate s g).blank S = s.blank S := by
  simp [State.tryNegotiate, h_sticky, h_sds, h_fresh]

@[simp] theorem State.onFail_blank (h_str : S .str = true) (h_sds : S .sds = true) (h_flp : S .flp = true)
    (h_cal : S .cal = true) (h_fab : S .fab = true) (h_mgp : S .mgp = true) (h_cnt : S .cnt = true)
    (h_fresh : S .fresh = true) (s : State) (g : Nat) (n : Nat) (w : BitVec 64) : (State.onFail s g n w).blank S =
    s.blank S := by
  simp [State.onFail, h_str, h_sds, h_flp, h_cal, h_fab, h_mgp, h_cnt, h_fresh]

@[simp] theorem State.onPropose_blank (h_str : S .str = true) (h_sds : S .sds = true) (h_flp : S .flp = true)
    (h_cal : S .cal = true) (h_fab : S .fab = true) (h_mgp : S .mgp = true) (h_cnt : S .cnt = true)
    (h_fresh : S .fresh = true) (s : State) (g : Nat) (n : Nat) (w : BitVec 64) : (State.onPropose s g n w).blank S
    = s.blank S := by
  simp [State.onPropose, h_str, h_sds, h_flp, h_cal, h_fab, h_mgp, h_cnt, h_fresh]

@[simp] theorem State.onAnswer_blank (h_str : S .str = true) (h_sds : S .sds = true) (h_cal : S .cal = true)
    (h_fab : S .fab = true) (h_mgp : S .mgp = true) (h_cnt : S .cnt = true) (h_fresh : S .fresh = true) (s : State)
    (g : Nat) (n : Nat) (w : BitVec 64) : (State.onAnswer s g n w).blank S = s.blank S := by
  simp [State.onAnswer, h_str, h_sds, h_cal, h_fab, h_mgp, h_cnt, h_fresh]

theorem execCapabilityWord_blank (h_sticky : S .sticky = true) (h_str : S .str = true) (h_sds : S .sds = true)
    (h_flp : S .flp = true) (h_cal : S .cal = true) (h_fab : S .fab = true) (h_mgp : S .mgp = true)
    (h_cnt : S .cnt = true) (h_fresh : S .fresh = true) (lane : Fin 256) (w : BitVec 64) (s : State) : ∀ t,
    (execCapabilityWord lane w s) = .next t → t.blank S = s.blank S := by
  unfold execCapabilityWord
  refine whenUp_blank ?_
  simp [h_sticky, h_str, h_sds, h_flp, h_cal, h_fab, h_mgp, h_cnt, h_fresh]

theorem execLadderTAlignExpiry_blank (h_sticky : S .sticky = true) (h_sds : S .sds = true)
    (h_fresh : S .fresh = true) (g : Fin 32) (s : State) : ∀ t, (execLadderTAlignExpiry g s) = .next t → t.blank S =
    s.blank S := by
  unfold execLadderTAlignExpiry
  refine whenUp_blank ?_
  simp [foldl_blank, h_sticky, h_sds, h_fresh]

theorem execLadderTNegExpiry_blank (h_sticky : S .sticky = true) (h_sds : S .sds = true) (h_frm : S .frm = true)
    (h_whl : S .whl = true) (h_col : S .col = true) (h_cal : S .cal = true) (h_fab : S .fab = true)
    (h_mgp : S .mgp = true) (h_cnt : S .cnt = true) (h_fresh : S .fresh = true) (g : Fin 32) (s : State) : ∀ t,
    (execLadderTNegExpiry g s) = .next t → t.blank S = s.blank S := by
  unfold execLadderTNegExpiry
  refine whenUp_blank ?_
  simp [h_sticky, h_sds, h_frm, h_whl, h_col, h_cal, h_fab, h_mgp, h_cnt, h_fresh]

@[simp] theorem State.takeRung_blank (h_sds : S .sds = true) (h_frm : S .frm = true) (h_whl : S .whl = true)
    (h_col : S .col = true) (h_cal : S .cal = true) (h_fab : S .fab = true) (h_mgp : S .mgp = true)
    (h_cnt : S .cnt = true) (h_fresh : S .fresh = true) (s : State) (g : Nat) (rung : Nat) (own : Bool) :
    (State.takeRung s g rung own).blank S = s.blank S := by
  simp [State.takeRung, foldl_blank, h_sds, h_frm, h_whl, h_col, h_cal, h_fab, h_mgp, h_cnt, h_fresh]

theorem execStepSwitch_blank (h_sds : S .sds = true) (h_frm : S .frm = true) (h_whl : S .whl = true)
    (h_col : S .col = true) (h_cal : S .cal = true) (h_fab : S .fab = true) (h_mgp : S .mgp = true)
    (h_cnt : S .cnt = true) (h_fresh : S .fresh = true) (g : Fin 32) (far : Bool) (s : State) : ∀ t,
    (execStepSwitch g far s) = .next t → t.blank S = s.blank S := by
  unfold execStepSwitch
  refine whenUp_blank ?_
  repeat' split
  all_goals simp [h_sds, h_frm, h_whl, h_col, h_cal, h_fab, h_mgp, h_cnt, h_fresh]

theorem execLadderTVerifyExpiry_blank (h_str : S .str = true) (h_sds : S .sds = true) (h_flp : S .flp = true)
    (h_cal : S .cal = true) (h_fab : S .fab = true) (h_mgp : S .mgp = true) (h_cnt : S .cnt = true)
    (h_fresh : S .fresh = true) (g : Fin 32) (s : State) : ∀ t, (execLadderTVerifyExpiry g s) = .next t → t.blank S
    = s.blank S := by
  unfold execLadderTVerifyExpiry
  refine whenUp_blank ?_
  simp [h_str, h_sds, h_flp, h_cal, h_fab, h_mgp, h_cnt, h_fresh]

theorem execLaneDrop_blank (h_str : S .str = true) (h_sds : S .sds = true) (h_frm : S .frm = true)
    (h_whl : S .whl = true) (h_flp : S .flp = true) (h_col : S .col = true) (h_cal : S .cal = true)
    (h_fab : S .fab = true) (h_mgp : S .mgp = true) (h_cnt : S .cnt = true) (h_fresh : S .fresh = true)
    (lane : Fin 256) (s : State) : ∀ t, (execLaneDrop lane s) = .next t → t.blank S = s.blank S := by
  unfold execLaneDrop
  refine whenUp_blank ?_
  repeat' split
  all_goals simp [h_str, h_sds, h_frm, h_whl, h_flp, h_col, h_cal, h_fab, h_mgp, h_cnt, h_fresh]

theorem execLaneWakeVerifyExpiry_blank (h_str : S .str = true) (h_sds : S .sds = true) (h_cal : S .cal = true)
    (h_fab : S .fab = true) (h_mgp : S .mgp = true) (h_cnt : S .cnt = true) (lane : Fin 256) (s : State) : ∀ t,
    (execLaneWakeVerifyExpiry lane s) = .next t → t.blank S = s.blank S := by
  unfold execLaneWakeVerifyExpiry
  refine whenUp_blank ?_
  repeat' split
  all_goals simp [h_str, h_sds, h_cal, h_fab, h_mgp, h_cnt]

@[simp] theorem State.clearDefects_blank (h_frm : S .frm = true) (s : State) (n : Nat) :
    (State.clearDefects s n).blank S = s.blank S := by
  simp [State.clearDefects, h_frm]

@[simp] theorem State.startWake_blank (h_sds : S .sds = true) (s : State) (n : Nat) :
    (State.startWake s n).blank S = s.blank S := by
  simp [State.startWake, h_sds]

@[simp] theorem State.tryAlign_blank (h_sds : S .sds = true) (h_frm : S .frm = true) (h_whl : S .whl = true)
    (h_col : S .col = true) (h_cal : S .cal = true) (h_fab : S .fab = true) (h_mgp : S .mgp = true)
    (h_cnt : S .cnt = true) (h_fresh : S .fresh = true) (s : State) (g : Nat) : (State.tryAlign s g).blank S =
    s.blank S := by
  simp [State.tryAlign, h_sds, h_frm, h_whl, h_col, h_cal, h_fab, h_mgp, h_cnt, h_fresh]

@[simp] theorem State.settleRx_blank (h_str : S .str = true) (h_sds : S .sds = true) (h_frm : S .frm = true)
    (h_whl : S .whl = true) (h_col : S .col = true) (h_cal : S .cal = true) (h_fab : S .fab = true)
    (h_mgp : S .mgp = true) (h_cnt : S .cnt = true) (h_fresh : S .fresh = true) (s : State) (n : Nat) :
    (State.settleRx s n).blank S = s.blank S := by
  simp [State.settleRx, h_str, h_sds, h_frm, h_whl, h_col, h_cal, h_fab, h_mgp, h_cnt, h_fresh]

theorem execLaneDirectionSettled_blank (h_str : S .str = true) (h_sds : S .sds = true) (h_frm : S .frm = true)
    (h_whl : S .whl = true) (h_col : S .col = true) (h_cal : S .cal = true) (h_fab : S .fab = true)
    (h_mgp : S .mgp = true) (h_cnt : S .cnt = true) (h_fresh : S .fresh = true) (lane : Fin 256) (rx : Bool)
    (s : State) : ∀ t, (execLaneDirectionSettled lane rx s) = .next t → t.blank S = s.blank S := by
  unfold execLaneDirectionSettled
  refine whenUp_blank ?_
  repeat' split
  all_goals simp [h_str, h_sds, h_frm, h_whl, h_col, h_cal, h_fab, h_mgp, h_cnt, h_fresh]

@[simp] theorem State.setLoop_blank (h_sds : S .sds = true) (h_frm : S .frm = true) (h_whl : S .whl = true)
    (h_col : S .col = true) (h_cal : S .cal = true) (h_fab : S .fab = true) (h_mgp : S .mgp = true)
    (h_cnt : S .cnt = true) (h_fresh : S .fresh = true) (s : State) (n : Nat) (mode : Nat) (maint : Bool) :
    (State.setLoop s n mode maint).blank S = s.blank S := by
  simp [State.setLoop, h_sds, h_frm, h_whl, h_col, h_cal, h_fab, h_mgp, h_cnt, h_fresh]

@[simp] theorem State.loopNow_blank (h_sds : S .sds = true) (h_frm : S .frm = true) (h_whl : S .whl = true)
    (h_col : S .col = true) (h_cal : S .cal = true) (h_fab : S .fab = true) (h_mgp : S .mgp = true)
    (h_cnt : S .cnt = true) (h_fresh : S .fresh = true) (s : State) (lane : Nat) : (State.loopNow s lane).blank S =
    s.blank S := by
  unfold State.loopNow
  repeat' split
  all_goals simp [h_sds, h_frm, h_whl, h_col, h_cal, h_fab, h_mgp, h_cnt, h_fresh]

@[simp] theorem State.loopsNow_blank (h_sds : S .sds = true) (h_frm : S .frm = true) (h_whl : S .whl = true)
    (h_col : S .col = true) (h_cal : S .cal = true) (h_fab : S .fab = true) (h_mgp : S .mgp = true)
    (h_cnt : S .cnt = true) (h_fresh : S .fresh = true) (s : State) : (State.loopsNow s).blank S = s.blank S := by
  simp [State.loopsNow, foldl_blank, h_sds, h_frm, h_whl, h_col, h_cal, h_fab, h_mgp, h_cnt, h_fresh]

theorem execLoopGrantRelease_blank (h_sds : S .sds = true) (h_frm : S .frm = true) (h_whl : S .whl = true)
    (h_col : S .col = true) (h_cal : S .cal = true) (h_fab : S .fab = true) (h_mgp : S .mgp = true)
    (h_cnt : S .cnt = true) (h_fresh : S .fresh = true) (lane : Fin 256) (s : State) : ∀ t,
    (execLoopGrantRelease lane s) = .next t → t.blank S = s.blank S := by
  unfold execLoopGrantRelease
  refine whenUp_blank ?_
  simp [h_sds, h_frm, h_whl, h_col, h_cal, h_fab, h_mgp, h_cnt, h_fresh]

theorem execEyeScanEnd_blank (h_sds : S .sds = true) (h_cal : S .cal = true) (h_fab : S .fab = true)
    (h_mgp : S .mgp = true) (h_cnt : S .cnt = true) (lane : Fin 256) (points : List Nat) (vstep : BitVec 16)
    (s : State) : ∀ t, execEyeScanEnd lane points vstep s = .next t → t.blank S = s.blank S := by
  unfold execEyeScanEnd
  refine whenUp_blank ?_
  repeat' split
  all_goals simp [h_sds, h_cal, h_fab, h_mgp, h_cnt]

@[simp] theorem State.setTiming_blank (h_regs : S .regs = true) (s : State) (g : Nat) (foreign : Bool) :
    (State.setTiming s g foreign).blank S = s.blank S := by
  simp [State.setTiming, h_regs]

theorem execGroupTimingWrite_blank (h_regs : S .regs = true) (h_mgp : S .mgp = true) (h_cnt : S .cnt = true)
    (qp : Fin 16) (g : Fin 32) (foreign : Bool) (s : State) : ∀ t, (execGroupTimingWrite qp g foreign s) = .next t →
    t.blank S = s.blank S := by
  unfold execGroupTimingWrite
  refine whenUp_blank ?_
  exact State.ownerWrite_blank h_mgp h_cnt _ _ _ (by simp [h_regs, h_mgp, h_cnt])

@[simp] theorem State.btLoad_blank (h_sds : S .sds = true) (s : State) : (State.btLoad s).blank S = s.blank S := by
  simp [State.btLoad, h_sds]

theorem execBoardTableLoad_blank (h_sds : S .sds = true) (h_mgp : S .mgp = true) (h_cnt : S .cnt = true)
    (qp : Fin 16) (s : State) : ∀ t, (execBoardTableLoad qp s) = .next t → t.blank S = s.blank S := by
  unfold execBoardTableLoad
  refine whenUp_blank ?_
  exact State.ownerWrite_blank h_mgp h_cnt _ _ _ (by simp [h_sds, h_mgp, h_cnt])

theorem execBoardTableVerifyDone_blank (h_sds : S .sds = true) (ecOk : Bool) (lmsOk : Bool) (s : State) : ∀ t,
    (execBoardTableVerifyDone ecOk lmsOk s) = .next t → t.blank S = s.blank S := by
  unfold execBoardTableVerifyDone
  refine whenUp_blank ?_
  simp [h_sds]

@[simp] theorem State.takeOverhead_blank (h_frm : S .frm = true) (h_cnt : S .cnt = true) (s : State) (n : Nat)
    (good : Bool) (f : RxFrame) : (State.takeOverhead s n good f).blank S = s.blank S := by
  unfold State.takeOverhead
  dsimp only
  repeat' split
  all_goals simp [h_frm, h_cnt]

@[simp] theorem State.takeCap_blank (h_sds : S .sds = true) (s : State) (n : Nat) (good : Bool) (f : RxFrame) :
    (State.takeCap s n good f).blank S = s.blank S := by
  simp [State.takeCap, h_sds]

@[simp] theorem State.toInFrame_blank (h_sds : S .sds = true) (h_frm : S .frm = true) (h_whl : S .whl = true)
    (h_col : S .col = true) (s : State) (n : Nat) (pos : Nat) : (State.toInFrame s n pos).blank S = s.blank S := by
  simp [State.toInFrame, h_sds, h_frm, h_whl, h_col]

@[simp] theorem State.goodHeader_blank (h_sticky : S .sticky = true) (h_frm : S .frm = true) (s : State) (n : Nat)
    (f : RxFrame) : (State.goodHeader s n f).blank S = s.blank S := by
  simp [State.goodHeader, h_sticky, h_frm]

@[simp] theorem State.countFrame_blank (h_sds : S .sds = true) (h_frm : S .frm = true) (h_cnt : S .cnt = true)
    (s : State) (n : Nat) (f : RxFrame) : (State.countFrame s n f).blank S = s.blank S := by
  simp [State.countFrame, h_sds, h_frm, h_cnt]

@[simp] theorem State.holdCells_blank (h_frm : S .frm = true) (s : State) (n : Nat) (good : Bool) (f : RxFrame) :
    (State.holdCells s n good f).blank S = s.blank S := by
  simp [State.holdCells, h_frm]

@[simp] theorem State.noteHeader_blank (h_sticky : S .sticky = true) (h_str : S .str = true) (h_sds : S .sds = true)
    (h_cal : S .cal = true) (h_fab : S .fab = true) (h_mgp : S .mgp = true) (h_cnt : S .cnt = true) (s : State)
    (n : Nat) (f : RxFrame) : (State.noteHeader s n f).blank S = s.blank S := by
  simp [State.noteHeader, h_sticky, h_str, h_sds, h_cal, h_fab, h_mgp, h_cnt]

@[simp] theorem State.atExpected_blank (h_sticky : S .sticky = true) (h_sds : S .sds = true) (h_frm : S .frm = true)
    (h_whl : S .whl = true) (h_col : S .col = true) (h_cnt : S .cnt = true) (s : State) (n : Nat) (f : RxFrame) :
    (State.atExpected s n f).blank S = s.blank S := by
  simp [State.atExpected, h_sticky, h_sds, h_frm, h_whl, h_col, h_cnt]

@[simp] theorem State.acceptAt_blank (h_sticky : S .sticky = true) (h_sds : S .sds = true) (h_frm : S .frm = true)
    (h_whl : S .whl = true) (h_col : S .col = true) (h_cnt : S .cnt = true) (s : State) (n : Nat) (f : RxFrame) :
    (State.acceptAt s n f).blank S = s.blank S := by
  simp [State.acceptAt, h_sticky, h_sds, h_frm, h_whl, h_col, h_cnt]

@[simp] theorem State.undoAccept_blank (h_sticky : S .sticky = true) (h_frm : S .frm = true) (s : State) (n : Nat)
    (a : Accept) : (State.undoAccept s n a).blank S = s.blank S := by
  simp [State.undoAccept, h_sticky, h_frm]

@[simp] theorem State.noteCand_blank (h_frm : S .frm = true) (s : State) (n : Nat) (f : RxFrame) :
    (State.noteCand s n f).blank S = s.blank S := by
  simp [State.noteCand, h_frm]

@[simp] theorem State.atOther_blank (h_sticky : S .sticky = true) (h_sds : S .sds = true) (h_frm : S .frm = true)
    (h_whl : S .whl = true) (h_col : S .col = true) (h_cnt : S .cnt = true) (s : State) (n : Nat) (f : RxFrame) :
    (State.atOther s n f).blank S = s.blank S := by
  simp [State.atOther, h_sticky, h_sds, h_frm, h_whl, h_col, h_cnt]

@[simp] theorem State.inHunt_blank (h_sticky : S .sticky = true) (h_sds : S .sds = true) (h_frm : S .frm = true)
    (h_whl : S .whl = true) (h_col : S .col = true) (h_cnt : S .cnt = true) (s : State) (n : Nat) (f : RxFrame) :
    (State.inHunt s n f).blank S = s.blank S := by
  simp [State.inHunt, h_sticky, h_sds, h_frm, h_whl, h_col, h_cnt]

@[simp] theorem State.afterAccept_blank (h_sticky : S .sticky = true) (h_sds : S .sds = true)
    (h_frm : S .frm = true) (h_whl : S .whl = true) (h_col : S .col = true) (h_cnt : S .cnt = true) (s : State)
    (n : Nat) (a : Accept) (f : RxFrame) : (State.afterAccept s n a f).blank S = s.blank S := by
  simp [State.afterAccept, h_sticky, h_sds, h_frm, h_whl, h_col, h_cnt]

@[simp] theorem State.atOff_blank (h_sticky : S .sticky = true) (h_sds : S .sds = true) (h_frm : S .frm = true)
    (h_whl : S .whl = true) (h_col : S .col = true) (h_cnt : S .cnt = true) (s : State) (n : Nat) (f : RxFrame) :
    (State.atOff s n f).blank S = s.blank S := by
  unfold State.atOff
  repeat' split
  all_goals simp [h_sticky, h_sds, h_frm, h_whl, h_col, h_cnt]

@[simp] theorem State.examine_blank (h_sticky : S .sticky = true) (h_str : S .str = true) (h_sds : S .sds = true)
    (h_frm : S .frm = true) (h_whl : S .whl = true) (h_col : S .col = true) (h_cal : S .cal = true)
    (h_fab : S .fab = true) (h_mgp : S .mgp = true) (h_cnt : S .cnt = true) (s : State) (n : Nat) (f : RxFrame) :
    (State.examine s n f).blank S = s.blank S := by
  unfold State.examine
  dsimp only
  repeat' split
  all_goals simp [h_sticky, h_str, h_sds, h_frm, h_whl, h_col, h_cal, h_fab, h_mgp, h_cnt]

@[simp] theorem State.startKeying_blank (h_cal : S .cal = true) (h_fab : S .fab = true) (h_mgp : S .mgp = true)
    (h_cnt : S .cnt = true) (h_fresh : S .fresh = true) (s : State) (l : Link) :
    (State.startKeying s l).blank S = s.blank S := by
  simp [State.startKeying, h_cal, h_fab, h_mgp, h_cnt, h_fresh]

@[simp] theorem State.linkCheck_blank (h_str : S .str = true) (h_sds : S .sds = true) (h_cal : S .cal = true)
    (h_fab : S .fab = true) (h_mgp : S .mgp = true) (h_cnt : S .cnt = true) (h_fresh : S .fresh = true) (s : State)
    (g : Nat) : (State.linkCheck s g).blank S = s.blank S := by
  unfold State.linkCheck
  split <;> simp [h_str, h_sds, h_cal, h_fab, h_mgp, h_cnt, h_fresh]

@[simp] theorem State.takeFrame_blank (h_sticky : S .sticky = true) (h_str : S .str = true) (h_sds : S .sds = true)
    (h_frm : S .frm = true) (h_whl : S .whl = true) (h_col : S .col = true) (h_cal : S .cal = true)
    (h_fab : S .fab = true) (h_mgp : S .mgp = true) (h_cnt : S .cnt = true) (h_fresh : S .fresh = true) (s : State)
    (n : Nat) (f : RxFrame) : (State.takeFrame s n f).blank S = s.blank S := by
  unfold State.takeFrame
  dsimp only
  repeat' split
  all_goals simp [h_sticky, h_str, h_sds, h_frm, h_whl, h_col, h_cal, h_fab, h_mgp, h_cnt, h_fresh]

@[simp] theorem State.noteSkew_blank (h_whl : S .whl = true) (h_col : S .col = true) (s : State) (n : Nat) :
    (State.noteSkew s n).blank S = s.blank S := by
  unfold State.noteSkew
  repeat' split
  all_goals simp [h_whl, h_col]

theorem execFrameReceived_blank (h_sticky : S .sticky = true) (h_str : S .str = true) (h_sds : S .sds = true)
    (h_frm : S .frm = true) (h_whl : S .whl = true) (h_col : S .col = true) (h_cal : S .cal = true)
    (h_fab : S .fab = true) (h_mgp : S .mgp = true) (h_cnt : S .cnt = true) (h_fresh : S .fresh = true)
    (lane : Fin 256) (f : RxFrame) (s : State) : ∀ t, (execFrameReceived lane f s) = .next t → t.blank S = s.blank S
    := by
  unfold execFrameReceived
  refine whenUp_blank ?_
  simp [h_sticky, h_str, h_sds, h_frm, h_whl, h_col, h_cal, h_fab, h_mgp, h_cnt, h_fresh]

theorem execOverheadPacket_blank (h_frm : S .frm = true) (lane : Fin 256) (s : State) : ∀ t,
    (execOverheadPacket lane s) = .next t → t.blank S = s.blank S := by
  unfold execOverheadPacket
  refine whenUp_blank ?_
  repeat' split
  all_goals simp [h_frm]

@[simp] theorem State.linkLoss_blank (h_flp : S .flp = true) (h_cal : S .cal = true) (h_fab : S .fab = true)
    (h_mgp : S .mgp = true) (h_cnt : S .cnt = true) (s : State) (g : Nat) : (State.linkLoss s g).blank S = s.blank S := by
  simp [State.linkLoss, h_flp, h_cal, h_fab, h_mgp, h_cnt]

@[simp] theorem State.setDeclared_blank (h_frm : S .frm = true) (s : State) (n : Nat) (d : Nat) (v : Bool) :
    (State.setDeclared s n d v).blank S = s.blank S := by
  simp [State.setDeclared, h_frm]

theorem execLaneDefectDeclare_blank (h_frm : S .frm = true) (h_flp : S .flp = true) (h_cal : S .cal = true)
    (h_fab : S .fab = true) (h_mgp : S .mgp = true) (h_cnt : S .cnt = true) (lane : Fin 256) (d : Fin 4) (held : Nat)
    (s : State) : ∀ t, (execLaneDefectDeclare lane d held s) = .next t → t.blank S = s.blank S := by
  unfold execLaneDefectDeclare
  refine whenUp_blank ?_
  simp [h_frm, h_flp, h_cal, h_fab, h_mgp, h_cnt]

theorem execLaneDefectClear_blank (h_frm : S .frm = true) (lane : Fin 256) (d : Fin 4) (held : Nat) (s : State) : ∀ t,
    (execLaneDefectClear lane d held s) = .next t → t.blank S = s.blank S := by
  unfold execLaneDefectClear
  refine whenUp_blank ?_
  simp [h_frm]

@[simp] theorem State.laneEvent_blank (h_cal : S .cal = true) (h_fab : S .fab = true) (h_mgp : S .mgp = true)
    (h_cnt : S .cnt = true) (s : State) (code : Nat) (n : Nat) (d : Nat) :
    (State.laneEvent s code n d).blank S = s.blank S := by
  simp [State.laneEvent, h_cal, h_fab, h_mgp, h_cnt]

theorem execLaneFail_blank (h_frm : S .frm = true) (h_cal : S .cal = true) (h_fab : S .fab = true)
    (h_mgp : S .mgp = true) (h_cnt : S .cnt = true) (lane : Fin 256) (d : Fin 4) (s : State) : ∀ t,
    (execLaneFail lane d s) = .next t → t.blank S = s.blank S := by
  unfold execLaneFail
  refine whenUp_blank ?_
  simp [h_frm, h_cal, h_fab, h_mgp, h_cnt]

theorem execLaneClear_blank (h_frm : S .frm = true) (h_cal : S .cal = true) (h_fab : S .fab = true)
    (h_mgp : S .mgp = true) (h_cnt : S .cnt = true) (lane : Fin 256) (d : Fin 4) (s : State) : ∀ t,
    (execLaneClear lane d s) = .next t → t.blank S = s.blank S := by
  unfold execLaneClear
  refine whenUp_blank ?_
  simp [h_frm, h_cal, h_fab, h_mgp, h_cnt]

@[simp] theorem State.reportPhases_blank (h_frm : S .frm = true) (s : State) :
    (State.reportPhases s).blank S = s.blank S := by
  simp [State.reportPhases, foldl_blank, h_frm]

@[simp] theorem State.takeMf_blank (h_whl : S .whl = true) (h_cnt : S .cnt = true) (s : State) (n : Nat) (mf : RxMf) :
    (State.takeMf s n mf).1.blank S = s.blank S := by
  simp [State.takeMf, h_whl, h_cnt]

@[simp] theorem State.setWhlDef_blank (h_whl : S .whl = true) (h_cal : S .cal = true) (h_fab : S .fab = true)
    (h_mgp : S .mgp = true) (h_cnt : S .cnt = true) (s : State) (n : Nat) (d : Nat) (v : Bool) :
    (State.setWhlDef s n d v).blank S = s.blank S := by
  simp [State.setWhlDef, h_whl, h_cal, h_fab, h_mgp, h_cnt]

theorem execWheelDefectDeclare_blank (h_whl : S .whl = true) (h_cal : S .cal = true) (h_fab : S .fab = true)
    (h_mgp : S .mgp = true) (h_cnt : S .cnt = true) (w : Fin 65536) (d : Fin 6) (s : State) : ∀ t,
    (execWheelDefectDeclare w d s) = .next t → t.blank S = s.blank S := by
  unfold execWheelDefectDeclare
  refine whenUp_blank ?_
  simp [h_whl, h_cal, h_fab, h_mgp, h_cnt]

theorem execWheelDefectClear_blank (h_whl : S .whl = true) (h_cal : S .cal = true) (h_fab : S .fab = true)
    (h_mgp : S .mgp = true) (h_cnt : S .cnt = true) (w : Fin 65536) (d : Fin 6) (s : State) : ∀ t,
    (execWheelDefectClear w d s) = .next t → t.blank S = s.blank S := by
  unfold execWheelDefectClear
  refine whenUp_blank ?_
  simp [h_whl, h_cal, h_fab, h_mgp, h_cnt]

@[simp] theorem effWheelDefine_blank (h_whl : S .whl = true) (h_cal : S .cal = true) (h_fab : S .fab = true)
    (h_mgp : S .mgp = true) (h_cnt : S .cnt = true) (x0 : Nat) (x1 : JEntry) (s : State) :
    (effWheelDefine x0 x1 s).blank S = s.blank S := by
  simp [effWheelDefine, h_whl, h_cal, h_fab, h_mgp, h_cnt]

theorem execWheelDefine_blank (h_whl : S .whl = true) (h_cal : S .cal = true) (h_fab : S .fab = true)
    (h_mgp : S .mgp = true) (h_cnt : S .cnt = true) (h : Nat) (s : State) : ∀ t,
    (execWheelDefine h s) = .next t → t.blank S = s.blank S := by
  unfold execWheelDefine
  refine next_blank ?_
  exact State.runCmd_blank h_cal h_fab h_mgp h_cnt _ _ _ _ _ (by simp [h_whl, h_cal, h_fab, h_mgp, h_cnt])

@[simp] theorem effWheelDelete_blank (h_whl : S .whl = true) (h_cal : S .cal = true) (h_fab : S .fab = true)
    (h_mgp : S .mgp = true) (h_cnt : S .cnt = true) (x0 : Nat) (x1 : JEntry) (s : State) :
    (effWheelDelete x0 x1 s).blank S = s.blank S := by
  simp [effWheelDelete, h_whl, h_cal, h_fab, h_mgp, h_cnt]

theorem execWheelDelete_blank (h_whl : S .whl = true) (h_cal : S .cal = true) (h_fab : S .fab = true)
    (h_mgp : S .mgp = true) (h_cnt : S .cnt = true) (h : Nat) (s : State) : ∀ t,
    (execWheelDelete h s) = .next t → t.blank S = s.blank S := by
  unfold execWheelDelete
  refine next_blank ?_
  exact State.runCmd_blank h_cal h_fab h_mgp h_cnt _ _ _ _ _ (by simp [h_whl, h_cal, h_fab, h_mgp, h_cnt])

end Sys2Proof.Machine
end

