-- ==== Sys2Proof/Laws/AreaFlips.lean ====
section
/-! SUPPORT. The areas of State that Flips and named-tick actions may change. -/
namespace Sys2Proof.Machine
open Sys2Proof
variable {S : Area → Bool}

theorem execFlipFreeze_blank (h_flp : S .flp = true) (s : State) : ∀ t,
    (execFlipFreeze s) = .next t → t.blank S = s.blank S := by
  unfold execFlipFreeze
  refine whenUp_blank ?_
  repeat' split
  all_goals simp [h_flp]

@[simp] theorem State.sendResult_blank (h_fab : S .fab = true) (s : State) (x : Flip) (done : Bool) :
    (State.sendResult s x done).blank S = s.blank S := by
  simp [State.sendResult, h_fab]

@[simp] theorem State.swapPages_blank (h_hrp : S .hrp = true) (s : State) : (State.swapPages s).blank S = s.blank S := by
  simp [State.swapPages, h_hrp]

@[simp] theorem State.flipDone_blank (h_flp : S .flp = true) (h_cal : S .cal = true) (h_fab : S .fab = true)
    (h_mgp : S .mgp = true) (h_cnt : S .cnt = true) (s : State) (carried : Nat) (x : Flip) :
    (State.flipDone s carried x).blank S = s.blank S := by
  simp [State.flipDone, h_flp, h_cal, h_fab, h_mgp, h_cnt]

@[simp] theorem State.commit_blank (h_hrp : S .hrp = true) (h_flp : S .flp = true) (h_cal : S .cal = true)
    (h_fab : S .fab = true) (h_mgp : S .mgp = true) (h_cnt : S .cnt = true) (s : State) :
    (State.commit s).blank S = s.blank S := by
  unfold State.commit
  dsimp only
  repeat' split
  all_goals simp [foldl_blank, h_hrp, h_flp, h_cal, h_fab, h_mgp, h_cnt]

@[simp] theorem State.copySlice_blank (h_sticky : S .sticky = true) (h_hrp : S .hrp = true) (h_flp : S .flp = true)
    (h_cal : S .cal = true) (h_fab : S .fab = true) (h_mgp : S .mgp = true) (h_cnt : S .cnt = true) (s : State) :
    (State.copySlice s).blank S = s.blank S := by
  unfold State.copySlice
  dsimp only
  split
  · split
    · generalize List.map _ (List.range 4096) = l
      refine (foldl_blank (fun t i => ?_) _ _).trans (State.setStandby_blank h_hrp _ _)
      simp [h_sticky, h_hrp, h_flp, h_cal, h_fab, h_mgp, h_cnt]
    · rfl
  · rfl

theorem execResyncEnd_blank (h_flp : S .flp = true) (s : State) : ∀ t, (execResyncEnd s) = .next t → t.blank S =
    s.blank S := by
  unfold execResyncEnd
  refine whenUp_blank ?_
  repeat' split
  all_goals simp [foldl_blank, h_flp]

@[simp] theorem effFlipAt_blank (h_flp : S .flp = true) (h_cal : S .cal = true) (h_fab : S .fab = true) (x0 : Nat)
    (x1 : JEntry) (s : State) : (effFlipAt x0 x1 s).blank S = s.blank S := by
  simp [effFlipAt, h_flp, h_cal, h_fab]

theorem execFlipAt_blank (h_flp : S .flp = true) (h_cal : S .cal = true) (h_fab : S .fab = true)
    (h_mgp : S .mgp = true) (h_cnt : S .cnt = true) (h : Nat) (s : State) : ∀ t,
    (execFlipAt h s) = .next t → t.blank S = s.blank S := by
  unfold execFlipAt
  refine next_blank ?_
  exact State.runCmd_blank h_cal h_fab h_mgp h_cnt _ _ _ _ _ (by simp [h_flp, h_cal, h_fab])

theorem execFabricFlipReadyTimeout_blank (h_flp : S .flp = true) (h_cal : S .cal = true) (h_fab : S .fab = true)
    (h : Nat) (worker : Word) (s : State) : ∀ t,
    (execFabricFlipReadyTimeout h worker s) = .next t → t.blank S = s.blank S := by
  unfold execFabricFlipReadyTimeout
  refine next_blank ?_
  repeat' split
  all_goals simp [h_flp, h_cal, h_fab]

@[simp] theorem State.tellOutcome_blank (h_cal : S .cal = true) (h_fab : S .fab = true) (h_mgp : S .mgp = true)
    (h_cnt : S .cnt = true) (t : State) (o : Option Bool) (id : Word) :
    (State.tellOutcome t o id).blank S = t.blank S := by
  unfold State.tellOutcome
  split <;> simp [h_cal, h_fab, h_mgp, h_cnt]

@[simp] theorem State.finishFab_blank (h_flp : S .flp = true) (h_cal : S .cal = true) (h_fab : S .fab = true)
    (h_mgp : S .mgp = true) (h_cnt : S .cnt = true) (s : State) (x : FabFlip) :
    (State.finishFab s x).blank S = s.blank S := by
  simp [State.finishFab, foldl_blank, h_flp, h_cal, h_fab, h_mgp, h_cnt]

@[simp] theorem State.finishReady_blank (h_flp : S .flp = true) (h_cal : S .cal = true) (h_fab : S .fab = true)
    (h_mgp : S .mgp = true) (h_cnt : S .cnt = true) (s : State) : (State.finishReady s).blank S = s.blank S := by
  simp [State.finishReady, foldl_blank, h_flp, h_cal, h_fab, h_mgp, h_cnt]

@[simp] theorem State.flipsNow_blank (h_hrp : S .hrp = true) (h_flp : S .flp = true) (h_cal : S .cal = true)
    (h_fab : S .fab = true) (h_mgp : S .mgp = true) (h_cnt : S .cnt = true) (s : State) : (State.flipsNow s).blank S
    = s.blank S := by
  simp [State.flipsNow, h_hrp, h_flp, h_cal, h_fab, h_mgp, h_cnt]

theorem execFlipCommit_blank (h_hrp : S .hrp = true) (h_flp : S .flp = true) (h_cal : S .cal = true)
    (h_fab : S .fab = true) (h_mgp : S .mgp = true) (h_cnt : S .cnt = true) (s : State) : ∀ t,
    (execFlipCommit s) = .next t → t.blank S = s.blank S := by
  unfold execFlipCommit
  refine whenUp_blank ?_
  simp [h_hrp, h_flp, h_cal, h_fab, h_mgp, h_cnt]

theorem execFabricFlipResultTimeout_blank (h_flp : S .flp = true) (h_cal : S .cal = true) (h_fab : S .fab = true)
    (h_mgp : S .mgp = true) (h_cnt : S .cnt = true) (h : Nat) (s : State) : ∀ t,
    (execFabricFlipResultTimeout h s) = .next t → t.blank S = s.blank S := by
  unfold execFabricFlipResultTimeout
  refine next_blank ?_
  repeat' split
  all_goals simp [h_flp, h_cal, h_fab, h_mgp, h_cnt]

@[simp] theorem State.ownFire_blank (h_flp : S .flp = true) (s : State) (h : Nat) (t : Option Nat) :
    (State.ownFire s h t).blank S = s.blank S := by
  simp [State.ownFire, h_flp]

@[simp] theorem State.endSeq_blank (h_flp : S .flp = true) (h_cal : S .cal = true) (h_fab : S .fab = true)
    (h_mgp : S .mgp = true) (h_cnt : S .cnt = true) (s : State) (f : SeqFlip) (status : Nat) (reason : Nat)
    (off : Option Int) (late : Bool) : (State.endSeq s f status reason off late).blank S = s.blank S := by
  simp [State.endSeq, h_flp, h_cal, h_fab, h_mgp, h_cnt]

@[simp] theorem State.fireRoll_blank (h_hrp : S .hrp = true) (s : State) (roll : List Nat) :
    (State.fireRoll s roll).blank S = s.blank S := by
  simp [State.fireRoll, h_hrp]

@[simp] theorem State.fireNow_blank (h_hrp : S .hrp = true) (h_flp : S .flp = true) (h_cal : S .cal = true)
    (h_fab : S .fab = true) (h_mgp : S .mgp = true) (h_cnt : S .cnt = true) (s : State) (h : Nat) :
    (State.fireNow s h).blank S = s.blank S := by
  unfold State.fireNow
  dsimp only
  repeat' split
  all_goals simp [h_hrp, h_flp, h_cal, h_fab, h_mgp, h_cnt]

@[simp] theorem State.firesNow_blank (h_hrp : S .hrp = true) (h_flp : S .flp = true) (h_cal : S .cal = true)
    (h_fab : S .fab = true) (h_mgp : S .mgp = true) (h_cnt : S .cnt = true) (s : State) : (State.firesNow s).blank S
    = s.blank S := by
  simp [State.firesNow, foldl_blank, h_hrp, h_flp, h_cal, h_fab, h_mgp, h_cnt]

theorem execFlipSeqFire_blank (h_hrp : S .hrp = true) (h_flp : S .flp = true) (h_cal : S .cal = true)
    (h_fab : S .fab = true) (h_mgp : S .mgp = true) (h_cnt : S .cnt = true) (h : Nat) (s : State) : ∀ t,
    (execFlipSeqFire h s) = .next t → t.blank S = s.blank S := by
  unfold execFlipSeqFire
  refine whenUp_blank ?_
  repeat' split
  all_goals simp [h_hrp, h_flp, h_cal, h_fab, h_mgp, h_cnt]

theorem execFlipSeqExpire_blank (h_flp : S .flp = true) (h_cal : S .cal = true) (h_fab : S .fab = true)
    (h_mgp : S .mgp = true) (h_cnt : S .cnt = true) (h : Nat) (s : State) : ∀ t,
    (execFlipSeqExpire h s) = .next t → t.blank S = s.blank S := by
  unfold execFlipSeqExpire
  refine whenUp_blank ?_
  repeat' split
  all_goals simp [h_flp, h_cal, h_fab, h_mgp, h_cnt]

theorem execFlipSeqDiff_blank (h_sticky : S .sticky = true) (h_flp : S .flp = true) (h_cal : S .cal = true)
    (h_fab : S .fab = true) (h_mgp : S .mgp = true) (h_cnt : S .cnt = true) (h : Nat) (s : State) : ∀ t,
    (execFlipSeqDiff h s) = .next t → t.blank S = s.blank S := by
  unfold execFlipSeqDiff
  refine whenUp_blank ?_
  repeat' split
  all_goals simp [h_sticky, h_flp, h_cal, h_fab, h_mgp, h_cnt]

@[simp] theorem State.watchOne_blank (h_flp : S .flp = true) (h_cal : S .cal = true) (h_fab : S .fab = true)
    (h_mgp : S .mgp = true) (h_cnt : S .cnt = true) (s : State) (x : BitVec 24) (t0 : Nat) (f : SeqFlip) :
    (State.watchOne s x t0 f).blank S = s.blank S := by
  unfold State.watchOne
  repeat' split
  all_goals simp [h_flp, h_cal, h_fab, h_mgp, h_cnt]

@[simp] theorem State.seqWatch_blank (h_flp : S .flp = true) (h_cal : S .cal = true) (h_fab : S .fab = true)
    (h_mgp : S .mgp = true) (h_cnt : S .cnt = true) (s : State) (w : Nat) (x : BitVec 24) (t0 : Nat) :
    (State.seqWatch s w x t0).blank S = s.blank S := by
  simp [State.seqWatch, foldl_blank, h_flp, h_cal, h_fab, h_mgp, h_cnt]

@[simp] theorem effFlipSeq_blank (h_sticky : S .sticky = true) (h_hrp : S .hrp = true) (h_flp : S .flp = true)
    (h_cal : S .cal = true) (h_fab : S .fab = true) (h_mgp : S .mgp = true) (h_cnt : S .cnt = true) (x0 : Nat)
    (x1 : JEntry) (s : State) : (effFlipSeq x0 x1 s).blank S = s.blank S := by
  unfold effFlipSeq
  dsimp only
  repeat' split
  all_goals simp [foldl_blank, h_sticky, h_hrp, h_flp, h_cal, h_fab, h_mgp, h_cnt]

theorem execFlipSeq_blank (h_sticky : S .sticky = true) (h_hrp : S .hrp = true) (h_flp : S .flp = true)
    (h_cal : S .cal = true) (h_fab : S .fab = true) (h_mgp : S .mgp = true) (h_cnt : S .cnt = true) (h : Nat)
    (s : State) : ∀ t, (execFlipSeq h s) = .next t → t.blank S = s.blank S := by
  unfold execFlipSeq
  refine next_blank ?_
  exact State.runCmd_blank h_cal h_fab h_mgp h_cnt _ _ _ _ _ (by simp [h_sticky, h_hrp, h_flp, h_cal, h_fab, h_mgp, h_cnt])

@[simp] theorem effFlipCancel_blank (h_flp : S .flp = true) (h_cal : S .cal = true) (h_fab : S .fab = true)
    (h_mgp : S .mgp = true) (h_cnt : S .cnt = true) (x0 : Nat) (x1 : JEntry) (s : State) :
    (effFlipCancel x0 x1 s).blank S = s.blank S := by
  unfold effFlipCancel
  dsimp only
  repeat' split
  all_goals simp [h_flp, h_cal, h_fab, h_mgp, h_cnt]

theorem execFlipCancel_blank (h_flp : S .flp = true) (h_cal : S .cal = true) (h_fab : S .fab = true)
    (h_mgp : S .mgp = true) (h_cnt : S .cnt = true) (h : Nat) (s : State) : ∀ t,
    (execFlipCancel h s) = .next t → t.blank S = s.blank S := by
  unfold execFlipCancel
  refine next_blank ?_
  exact State.runCmd_blank h_cal h_fab h_mgp h_cnt _ _ _ _ _ (by simp [h_flp, h_cal, h_fab, h_mgp, h_cnt])

end Sys2Proof.Machine
end

