-- ==== Sys2Proof/Laws/AreaColander.lean ====
section
/-! SUPPORT. The areas of State that the pairs, the memories, the Cave and the retimers may change. -/
namespace Sys2Proof.Machine
open Sys2Proof
variable {S : Area → Bool}

@[simp] theorem State.pairEvent_blank (h_cal : S .cal = true) (h_fab : S .fab = true) (h_mgp : S .mgp = true)
    (h_cnt : S .cnt = true) (s : State) (n : Nat) (kind : Nat) (value : Nat) :
    (State.pairEvent s n kind value).blank S = s.blank S := by
  simp [State.pairEvent, h_cal, h_fab, h_mgp, h_cnt]

@[simp] theorem State.raiseReq_blank (h_col : S .col = true) (s : State) (pc : Nat) (r : CavReq) :
    (State.raiseReq s pc r).blank S = s.blank S := by
  simp [State.raiseReq, h_col]

@[simp] theorem State.raiseWrites_blank (h_col : S .col = true) (s : State) (n : Nat) (x : Nat) (t0 : Nat) :
    (State.raiseWrites s n x t0).blank S = s.blank S := by
  unfold State.raiseWrites
  refine foldl_blank (fun s j => ?_) _ _
  exact foldl_blank (fun s i => by simp [h_col]) _ _

@[simp] theorem State.missRead_blank (h_col : S .col = true) (h_cnt : S .cnt = true) (s : State) (n : Nat) (x : Nat)
    (j : Nat) : (State.missRead s n x j).blank S = s.blank S := by
  simp [State.missRead, h_col, h_cnt]

@[simp] theorem State.raiseReads_blank (h_col : S .col = true) (h_cnt : S .cnt = true) (s : State) (n : Nat)
    (x : Nat) (t : Nat) : (State.raiseReads s n x t).blank S = s.blank S := by
  unfold State.raiseReads
  refine foldl_blank (fun s j => ?_) _ _
  refine foldl_blank (fun s z => ?_) _ _
  dsimp only
  repeat' split
  all_goals simp [h_col, h_cnt]

@[simp] theorem State.caveWrite_blank (h_col : S .col = true) (h_cnt : S .cnt = true) (s : State) (n : Nat)
    (x : Nat) (t0 : Nat) (copyB : Bool) (again : Bool) : (State.caveWrite s n x t0 copyB again).blank S = s.blank S
    := by
  simp [State.caveWrite, h_col, h_cnt]

@[simp] theorem State.setLate_blank (h_col : S .col = true) (h_cal : S .cal = true) (h_fab : S .fab = true)
    (h_mgp : S .mgp = true) (h_cnt : S .cnt = true) (s : State) (n : Nat) (copyB : Bool) :
    (State.setLate s n copyB).blank S = s.blank S := by
  simp [State.setLate, h_col, h_cal, h_fab, h_mgp, h_cnt]

@[simp] theorem State.caveTake_blank (h_col : S .col = true) (h_cnt : S .cnt = true) (s : State) (n : Nat)
    (c : Chunk) (copyB : Bool) : (State.caveTake s n c copyB).blank S = s.blank S := by
  unfold State.caveTake
  dsimp only
  repeat' split
  all_goals simp [h_col, h_cnt]

@[simp] theorem State.feedPair_blank (h_col : S .col = true) (h_cal : S .cal = true) (h_fab : S .fab = true)
    (h_mgp : S .mgp = true) (h_cnt : S .cnt = true) (s : State) (w : Nat) (o : MfOut) (t0 : Nat) :
    (State.feedPair s w o t0).blank S = s.blank S := by
  unfold State.feedPair
  dsimp only
  repeat' split
  all_goals simp [h_col, h_cal, h_fab, h_mgp, h_cnt]

@[simp] theorem State.lockNow_blank (h_col : S .col = true) (h_cal : S .cal = true) (s : State) (n : Nat) :
    (State.lockNow s n).blank S = s.blank S := by
  simp [State.lockNow, h_col, h_cal]

theorem execPairLock_blank (h_col : S .col = true) (h_cal : S .cal = true) (h_fab : S .fab = true)
    (h_mgp : S .mgp = true) (h_cnt : S .cnt = true) (p : Fin 32768) (s : State) : ∀ t,
    (execPairLock p s) = .next t → t.blank S = s.blank S := by
  unfold execPairLock
  refine whenUp_blank ?_
  simp [h_col, h_cal, h_fab, h_mgp, h_cnt]

@[simp] theorem State.noteTaken_blank (h_col : S .col = true) (h_cnt : S .cnt = true) (s : State) (n : Nat)
    (t : Option Bool) : (State.noteTaken s n t).blank S = s.blank S := by
  unfold State.noteTaken
  split <;> simp [h_col, h_cnt]

@[simp] theorem State.sendMf_blank (h_col : S .col = true) (s : State) (n : Nat) (x : Nat) (t0 : Nat) (cnt : Nat)
    (taken : Option (Bool × Chunk)) : (State.sendMf s n x t0 cnt taken).blank S = s.blank S := by
  simp [State.sendMf, h_col]

@[simp] theorem State.spliceMiss_blank (h_col : S .col = true) (s : State) (n : Nat) (x : Nat) (t : Nat) :
    (State.spliceMiss s n x t).blank S = s.blank S := by
  simp only [State.spliceMiss]
  repeat' split
  all_goals simp [h_col]

@[simp] theorem State.selectorOut_blank (h_col : S .col = true) (h_cnt : S .cnt = true) (s : State) (n : Nat) :
    (State.selectorOut s n).blank S = s.blank S := by
  unfold State.selectorOut
  dsimp only
  repeat' split
  all_goals simp [h_col, h_cnt]

@[simp] theorem State.playout_blank (h_col : S .col = true) (h_cnt : S .cnt = true) (s : State) (p : Nat) :
    (State.playout s p).blank S = s.blank S := by
  unfold State.playout
  dsimp only
  repeat' split
  all_goals simp [h_col, h_cnt]

@[simp] theorem State.playouts_blank (h_col : S .col = true) (h_cnt : S .cnt = true) (s : State) :
    (State.playouts s).blank S = s.blank S := by
  simp [State.playouts, foldl_blank, h_col, h_cnt]

theorem execColanderPlayout_blank (h_col : S .col = true) (h_cnt : S .cnt = true) (p : Fin 32768) (s : State) : ∀ t,
    execColanderPlayout p s = .next t → t.blank S = s.blank S := by
  unfold execColanderPlayout
  refine whenUp_blank ?_
  simp [h_col, h_cnt]

@[simp] theorem State.evalMate_blank (h_col : S .col = true) (h_cal : S .cal = true) (h_fab : S .fab = true)
    (h_mgp : S .mgp = true) (h_cnt : S .cnt = true) (s : State) (n : Nat) : (State.evalMate s n).blank S = s.blank S
    := by
  unfold State.evalMate
  dsimp only
  repeat' split
  all_goals simp [h_col, h_cal, h_fab, h_mgp, h_cnt]

@[simp] theorem State.evalPair_blank (h_col : S .col = true) (h_cal : S .cal = true) (h_fab : S .fab = true)
    (h_mgp : S .mgp = true) (h_cnt : S .cnt = true) (s : State) (n : Nat) (eff : Nat) :
    (State.evalPair s n eff).blank S = s.blank S := by
  unfold State.evalPair
  dsimp only
  repeat' split
  all_goals simp [h_col, h_cal, h_fab, h_mgp, h_cnt]

theorem execSelectorEvaluate_blank (h_col : S .col = true) (h_cal : S .cal = true) (h_fab : S .fab = true)
    (h_mgp : S .mgp = true) (h_cnt : S .cnt = true) (p : Fin 32768) (s : State) : ∀ t,
    (execSelectorEvaluate p s) = .next t → t.blank S = s.blank S := by
  unfold execSelectorEvaluate
  refine whenUp_blank ?_
  simp [h_col, h_cal, h_fab, h_mgp, h_cnt]

theorem execPairWtrExpiry_blank (h_col : S .col = true) (h_cal : S .cal = true) (h_fab : S .fab = true)
    (h_mgp : S .mgp = true) (h_cnt : S .cnt = true) (p : Fin 32768) (s : State) : ∀ t,
    (execPairWtrExpiry p s) = .next t → t.blank S = s.blank S := by
  unfold execPairWtrExpiry
  refine whenUp_blank ?_
  repeat' split
  all_goals simp [h_col, h_cal, h_fab, h_mgp, h_cnt]

@[simp] theorem State.realignPair_blank (h_col : S .col = true) (h_cal : S .cal = true) (h_fab : S .fab = true)
    (h_mgp : S .mgp = true) (h_cnt : S .cnt = true) (s : State) (n : Nat) :
    (State.realignPair s n).blank S = s.blank S := by
  simp [State.realignPair, h_col, h_cal, h_fab, h_mgp, h_cnt]

@[simp] theorem State.pairNow_blank (h_col : S .col = true) (h_cal : S .cal = true) (h_fab : S .fab = true)
    (h_mgp : S .mgp = true) (h_cnt : S .cnt = true) (s : State) (p : Nat) : (State.pairNow s p).blank S = s.blank S
    := by
  unfold State.pairNow
  dsimp only
  repeat' split
  all_goals simp [h_col, h_cal, h_fab, h_mgp, h_cnt]

@[simp] theorem State.pairsNow_blank (h_col : S .col = true) (h_cal : S .cal = true) (h_fab : S .fab = true)
    (h_mgp : S .mgp = true) (h_cnt : S .cnt = true) (s : State) : (State.pairsNow s).blank S = s.blank S := by
  simp [State.pairsNow, foldl_blank, h_col, h_cal, h_fab, h_mgp, h_cnt]

theorem execPairCmdApply_blank (h_hrp : S .hrp = true) (h_flp : S .flp = true) (h_col : S .col = true)
    (h_cal : S .cal = true) (h_fab : S .fab = true) (h_mgp : S .mgp = true) (h_cnt : S .cnt = true) (p : Fin 32768)
    (s : State) : ∀ t, execPairCmdApply p s = .next t → t.blank S = s.blank S := by
  unfold execPairCmdApply
  refine whenUp_blank ?_
  simp [h_hrp, h_flp, h_col, h_cal, h_fab, h_mgp, h_cnt]

@[simp] theorem State.memWrite_blank (h_mem : S .mem = true) (h_rck : S .rck = true) (s : State) (k : Nat) (a : Nat)
    (v : BitVec 128) : (State.memWrite s k a v).blank S = s.blank S := by
  simp [State.memWrite, h_mem, h_rck]

@[simp] theorem State.restoreRegion_blank (h_mem : S .mem = true) (h_rck : S .rck = true) (s : State) (m : Nat) :
    (State.restoreRegion s m).blank S = s.blank S := by
  unfold State.restoreRegion
  dsimp only
  repeat' split
  all_goals simp [h_mem, h_rck]

@[simp] theorem State.caveTouched_blank (h_mem : S .mem = true) (s : State) (t : Nat) :
    (State.caveTouched s t).blank S = s.blank S := by
  simp [State.caveTouched, h_mem]

@[simp] theorem State.setReqs_blank (h_col : S .col = true) (s : State) (pc : Nat) (l : List CavReq) :
    (State.setReqs s pc l).blank S = s.blank S := by
  simp [State.setReqs, h_col]

theorem execCaveBurstComplete_blank (h_col : S .col = true) (h_mem : S .mem = true) (h_cnt : S .cnt = true)
    (pc : Fin 192) (uncorr : Bool) (s : State) : ∀ t,
    (execCaveBurstComplete pc uncorr s) = .next t → t.blank S = s.blank S := by
  unfold execCaveBurstComplete
  refine whenUp_blank ?_
  repeat' split
  all_goals simp [h_col, h_mem, h_cnt]

theorem execCaveRequestAbandon_blank (h_col : S .col = true) (h_cnt : S .cnt = true) (pc : Fin 192) (s : State) : ∀ t,
    (execCaveRequestAbandon pc s) = .next t → t.blank S = s.blank S := by
  unfold execCaveRequestAbandon
  refine whenUp_blank ?_
  repeat' split
  all_goals simp [h_col, h_cnt]

@[simp] theorem State.missReads_blank (h_col : S .col = true) (h_cnt : S .cnt = true) (s : State) (t : Nat) :
    (State.missReads s t).blank S = s.blank S := by
  unfold State.missReads
  refine foldl_blank (fun s i => ?_) _ _
  refine (foldl_blank (fun t r => ?_) _ _).trans ?_
  · simp [h_col, h_cnt]
  · simp [h_col]

@[simp] theorem State.dropWhisk_blank (h_col : S .col = true) (s : State) (t : Nat) :
    (State.dropWhisk s t).blank S = s.blank S := by
  simp [State.dropWhisk, foldl_blank, h_col]

@[simp] theorem State.grantAt_blank (h_col : S .col = true) (s : State) (pc : Nat) :
    (State.grantAt s pc).blank S = s.blank S := by
  unfold State.grantAt
  split <;> simp [h_col]

@[simp] theorem State.grantStack_blank (h_col : S .col = true) (s : State) (t : Nat) :
    (State.grantStack s t).blank S = s.blank S := by
  simp [State.grantStack, foldl_blank, h_col]

@[simp] theorem State.freezeStack_blank (h_regs : S .regs = true) (h_col : S .col = true) (s : State) (t : Nat) :
    (State.freezeStack s t).blank S = s.blank S := by
  simp [State.freezeStack, h_regs, h_col]

@[simp] theorem State.thawStack_blank (h_regs : S .regs = true) (h_col : S .col = true) (h_rck : S .rck = true)
    (s : State) (t : Nat) : (State.thawStack s t).blank S = s.blank S := by
  simp [State.thawStack, h_regs, h_col, h_rck]

@[simp] theorem State.writeFreeze_blank (h_regs : S .regs = true) (h_col : S .col = true) (h_rck : S .rck = true)
    (s : State) (v : Word) : (State.writeFreeze s v).blank S = s.blank S := by
  simp [State.writeFreeze, foldl_blank, h_regs, h_col, h_rck]

theorem execCavArbFreezeWrite_blank (h_regs : S .regs = true) (h_col : S .col = true) (h_mgp : S .mgp = true)
    (h_rck : S .rck = true) (h_cnt : S .cnt = true) (qp : Fin 16) (v : Word) (s : State) : ∀ t,
    (execCavArbFreezeWrite qp v s) = .next t → t.blank S = s.blank S := by
  unfold execCavArbFreezeWrite
  refine whenUp_blank ?_
  exact State.ownerWrite_blank h_mgp h_cnt _ _ _ (by simp [h_regs, h_col, h_mgp, h_rck, h_cnt])

theorem execCaveStackFault_blank (h_regs : S .regs = true) (h_sticky : S .sticky = true) (h_col : S .col = true)
    (h_cal : S .cal = true) (h_fab : S .fab = true) (h_mgp : S .mgp = true) (h_cnt : S .cnt = true) (st : Fin 6)
    (training : Bool) (s : State) : ∀ t, (execCaveStackFault st training s) = .next t → t.blank S = s.blank S := by
  unfold execCaveStackFault
  refine whenUp_blank ?_
  simp [h_regs, h_sticky, h_col, h_cal, h_fab, h_mgp, h_cnt]

theorem execStackMoveEnd_blank (h_col : S .col = true) (h_cal : S .cal = true) (h_fab : S .fab = true)
    (h_mgp : S .mgp = true) (h_cnt : S .cnt = true) (p : Fin 32768) (s : State) : ∀ t, execStackMoveEnd p s = .next
    t → t.blank S = s.blank S := by
  unfold execStackMoveEnd
  refine whenUp_blank ?_
  repeat' split
  all_goals simp [h_col, h_cal, h_fab, h_mgp, h_cnt]

@[simp] theorem State.noteDiff_blank (h_cal : S .cal = true) (s : State) : (State.noteDiff s).blank S = s.blank S := by
  simp [State.noteDiff, h_cal]

@[simp] theorem State.wheelOverhead_blank (h_whl : S .whl = true) (h_flp : S .flp = true) (h_col : S .col = true)
    (h_cal : S .cal = true) (h_fab : S .fab = true) (h_mgp : S .mgp = true) (h_cnt : S .cnt = true) (s : State)
    (w : Nat) (mf : RxMf) : (State.wheelOverhead s w mf).blank S = s.blank S := by
  simp [State.wheelOverhead, h_whl, h_flp, h_col, h_cal, h_fab, h_mgp, h_cnt]

theorem execWheelOverhead_blank (h_whl : S .whl = true) (h_flp : S .flp = true) (h_col : S .col = true)
    (h_cal : S .cal = true) (h_fab : S .fab = true) (h_mgp : S .mgp = true) (h_cnt : S .cnt = true) (w : Fin 65536)
    (mf : RxMf) (s : State) : ∀ t, (execWheelOverhead w mf s) = .next t → t.blank S = s.blank S := by
  unfold execWheelOverhead
  refine whenUp_blank ?_
  simp [h_whl, h_flp, h_col, h_cal, h_fab, h_mgp, h_cnt]

theorem execRetimerDecide_blank (h_whl : S .whl = true) (h_col : S .col = true) (w : Fin 65536) (s : State) : ∀ t,
    (execRetimerDecide w s) = .next t → t.blank S = s.blank S := by
  unfold execRetimerDecide
  refine whenUp_blank ?_
  repeat' split
  all_goals simp [h_whl, h_col]

theorem execRetimerCountDeadline_blank (h_whl : S .whl = true) (h_col : S .col = true) (h_cal : S .cal = true)
    (w : Fin 65536) (s : State) : ∀ t, (execRetimerCountDeadline w s) = .next t → t.blank S = s.blank S := by
  unfold execRetimerCountDeadline
  refine whenUp_blank ?_
  repeat' split
  all_goals simp [h_whl, h_col, h_cal]

@[simp] theorem State.retimeTick_blank (h_whl : S .whl = true) (h_cnt : S .cnt = true) (s : State) (w : Nat) :
    (State.retimeTick s w).blank S = s.blank S := by
  simp [State.retimeTick, h_whl, h_cnt]

@[simp] theorem State.pullChunk_blank (h_col : S .col = true) (h_cal : S .cal = true) (h_fab : S .fab = true)
    (h_mgp : S .mgp = true) (h_cnt : S .cnt = true) (s : State) (n : Nat) : (State.pullChunk s n).blank S = s.blank S := by
  simp [State.pullChunk, h_col, h_cal, h_fab, h_mgp, h_cnt]

@[simp] theorem State.pairTick_blank (h_col : S .col = true) (h_cal : S .cal = true) (h_fab : S .fab = true)
    (h_mgp : S .mgp = true) (h_cnt : S .cnt = true) (s : State) (n : Nat) : (State.pairTick s n).blank S = s.blank S := by
  simp [State.pairTick, h_col, h_cal, h_fab, h_mgp, h_cnt]

end Sys2Proof.Machine
end

