-- ==== Sys2Proof/Laws/AreaStarter.lean ====
section
/-! SUPPORT. The areas of State that the Starter and the Wheel overhead may change. -/
namespace Sys2Proof.Machine
open Sys2Proof
variable {S : Area → Bool}

@[simp] theorem State.onStr_blank (h_str : S .str = true) (s : State) (f : Str → Str) :
    (State.onStr s f).blank S = s.blank S := by
  simp [State.onStr, h_str]

@[simp] theorem State.loseRef_blank (h_str : S .str = true) (s : State) (i : Nat) :
    (State.loseRef s i).blank S = s.blank S := by
  simp [State.loseRef, h_str]

@[simp] theorem State.disqualify_blank (h_str : S .str = true) (s : State) (i : Nat) (reason : Nat) :
    (State.disqualify s i reason).blank S = s.blank S := by
  simp [State.disqualify, h_str]

theorem execSourceActivityLoss_blank (h_str : S .str = true) (last : LastEdge) (s : State) : ∀ t,
    execSourceActivityLoss last s = .next t → t.blank S = s.blank S := by
  unfold execSourceActivityLoss
  refine whenUp_blank ?_
  simp [h_str]

@[simp] theorem State.measure_blank (h_str : S .str = true) (s : State) (m : PeriodIn) (i : Nat) :
    (State.measure s m i).blank S = s.blank S := by
  unfold State.measure
  split <;> simp [h_str]

theorem execSourceQualified_blank (h_str : S .str = true) (src : Fin 38) (s : State) : ∀ t,
    (execSourceQualified src s) = .next t → t.blank S = s.blank S := by
  unfold execSourceQualified
  refine whenUp_blank ?_
  repeat' split
  all_goals simp [h_str]

@[simp] theorem State.outliers_blank (h_str : S .str = true) (h_cal : S .cal = true) (h_fab : S .fab = true)
    (h_mgp : S .mgp = true) (h_cnt : S .cnt = true) (s : State) : (State.outliers s).blank S = s.blank S := by
  simp [State.outliers, foldl_blank, h_str, h_cal, h_fab, h_mgp, h_cnt]

@[simp] theorem State.takeQl_blank (h_sticky : S .sticky = true) (h_str : S .str = true) (h_frm : S .frm = true)
    (s : State) : (State.takeQl s).blank S = s.blank S := by
  simp only [State.takeQl]
  repeat' first
    | (simp [foldl_blank, h_sticky, h_str, h_frm]; done)
    | (refine (foldl_blank ?_ _ _).trans ?_; intros)
    | split
    | simp [h_sticky, h_str, h_frm]

@[simp] theorem State.noteSelectable_blank (h_str : S .str = true) (s : State) :
    (State.noteSelectable s).blank S = s.blank S := by
  simp [State.noteSelectable, foldl_blank, h_str]

theorem execReferenceWtrExpiry_blank (h_str : S .str = true) (entry : Fin 16) (s : State) : ∀ t,
    (execReferenceWtrExpiry entry s) = .next t → t.blank S = s.blank S := by
  unfold execReferenceWtrExpiry
  refine whenUp_blank ?_
  simp [h_str]

@[simp] theorem State.holdSample_blank (h_str : S .str = true) (s : State) :
    (State.holdSample s).blank S = s.blank S := by
  simp [State.holdSample, h_str]

@[simp] theorem State.enter_blank (h_str : S .str = true) (h_cal : S .cal = true) (h_fab : S .fab = true)
    (h_mgp : S .mgp = true) (h_cnt : S .cnt = true) (s : State) (st : StrState) :
    (State.enter s st).blank S = s.blank S := by
  simp [State.enter, h_str, h_cal, h_fab, h_mgp, h_cnt]

@[simp] theorem State.selectEntry_blank (h_str : S .str = true) (s : State) (k : Nat) (phase : Int) :
    (State.selectEntry s k phase).blank S = s.blank S := by
  simp [State.selectEntry, h_str]

@[simp] theorem State.noRef_blank (h_str : S .str = true) (h_cal : S .cal = true) (h_fab : S .fab = true)
    (h_mgp : S .mgp = true) (h_cnt : S .cnt = true) (s : State) : (State.noRef s).blank S = s.blank S := by
  unfold State.noRef
  dsimp only
  repeat' split
  all_goals simp [h_str, h_cal, h_fab, h_mgp, h_cnt]

@[simp] theorem State.outcome_blank (h_str : S .str = true) (h_cal : S .cal = true) (h_fab : S .fab = true)
    (h_mgp : S .mgp = true) (h_cnt : S .cnt = true) (s : State) (phase : Int) :
    (State.outcome s phase).blank S = s.blank S := by
  unfold State.outcome
  repeat' split
  all_goals simp [h_str, h_cal, h_fab, h_mgp, h_cnt]

@[simp] theorem State.followOutcome_blank (h_str : S .str = true) (h_cal : S .cal = true) (h_fab : S .fab = true)
    (h_mgp : S .mgp = true) (h_cnt : S .cnt = true) (s : State) (phase : Int) :
    (State.followOutcome s phase).blank S = s.blank S := by
  simp [State.followOutcome, h_str, h_cal, h_fab, h_mgp, h_cnt]

@[simp] theorem State.unfollow_blank (h_str : S .str = true) (h_cal : S .cal = true) (h_fab : S .fab = true)
    (h_mgp : S .mgp = true) (h_cnt : S .cnt = true) (s : State) (phase : Int) :
    (State.unfollow s phase).blank S = s.blank S := by
  unfold State.unfollow
  dsimp only
  repeat' split
  all_goals simp [h_str, h_cal, h_fab, h_mgp, h_cnt]

@[simp] theorem State.takeWord_blank (h_str : S .str = true) (s : State) (m : PeriodIn) :
    (State.takeWord s m).blank S = s.blank S := by
  simp [State.takeWord, h_str]

@[simp] theorem State.starterPeriod_blank (h_sticky : S .sticky = true) (h_str : S .str = true)
    (h_frm : S .frm = true) (h_cal : S .cal = true) (h_fab : S .fab = true) (h_mgp : S .mgp = true)
    (h_cnt : S .cnt = true) (s : State) (m : PeriodIn) : (State.starterPeriod s m).blank S = s.blank S := by
  simp [State.starterPeriod, foldl_blank, h_sticky, h_str, h_frm, h_cal, h_fab, h_mgp, h_cnt]

theorem execStarterLock_blank (h_str : S .str = true) (h_cal : S .cal = true) (h_fab : S .fab = true)
    (h_mgp : S .mgp = true) (h_cnt : S .cnt = true) (s : State) : ∀ t,
    (execStarterLock s) = .next t → t.blank S = s.blank S := by
  unfold execStarterLock
  refine whenUp_blank ?_
  repeat' split
  all_goals simp [h_str, h_cal, h_fab, h_mgp, h_cnt]

theorem execAcqTmoExpiry_blank (h_str : S .str = true) (s : State) : ∀ t,
    (execAcqTmoExpiry s) = .next t → t.blank S = s.blank S := by
  unfold execAcqTmoExpiry
  refine whenUp_blank ?_
  repeat' split
  all_goals simp [h_str]

theorem execLoopBandwidthStep_blank (h_str : S .str = true) (s : State) : ∀ t,
    (execLoopBandwidthStep s) = .next t → t.blank S = s.blank S := by
  unfold execLoopBandwidthStep
  refine whenUp_blank ?_
  simp [h_str]

theorem execTransitionEnd_blank (h_str : S .str = true) (s : State) : ∀ t,
    (execTransitionEnd s) = .next t → t.blank S = s.blank S := by
  unfold execTransitionEnd
  refine whenUp_blank ?_
  simp [h_str]

theorem execHoldoverLimitExpiry_blank (h_str : S .str = true) (h_cal : S .cal = true) (h_fab : S .fab = true)
    (h_mgp : S .mgp = true) (h_cnt : S .cnt = true) (s : State) : ∀ t,
    (execHoldoverLimitExpiry s) = .next t → t.blank S = s.blank S := by
  unfold execHoldoverLimitExpiry
  refine whenUp_blank ?_
  simp [h_str, h_cal, h_fab, h_mgp, h_cnt]

@[simp] theorem effRefConfig_blank (h_str : S .str = true) (h_cal : S .cal = true) (x0 : Nat) (x1 : JEntry)
    (s : State) : (effRefConfig x0 x1 s).blank S = s.blank S := by
  simp [effRefConfig, h_str, h_cal]

theorem execRefConfig_blank (h_str : S .str = true) (h_cal : S .cal = true) (h_fab : S .fab = true)
    (h_mgp : S .mgp = true) (h_cnt : S .cnt = true) (h : Nat) (s : State) : ∀ t,
    (execRefConfig h s) = .next t → t.blank S = s.blank S := by
  unfold execRefConfig
  refine next_blank ?_
  exact State.runCmd_blank h_cal h_fab h_mgp h_cnt _ _ _ _ _ (by simp [h_str, h_cal])

@[simp] theorem effRefForce_blank (h_str : S .str = true) (h_cal : S .cal = true) (x0 : Nat) (x1 : JEntry) (s : State) :
    (effRefForce x0 x1 s).blank S = s.blank S := by
  simp [effRefForce, h_str, h_cal]

theorem execRefForce_blank (h_str : S .str = true) (h_cal : S .cal = true) (h_fab : S .fab = true)
    (h_mgp : S .mgp = true) (h_cnt : S .cnt = true) (h : Nat) (s : State) : ∀ t,
    (execRefForce h s) = .next t → t.blank S = s.blank S := by
  unfold execRefForce
  refine next_blank ?_
  exact State.runCmd_blank h_cal h_fab h_mgp h_cnt _ _ _ _ _ (by simp [h_str, h_cal])

@[simp] theorem effPhaseStep_blank (h_str : S .str = true) (h_cal : S .cal = true) (x0 : Nat) (x1 : JEntry)
    (s : State) : (effPhaseStep x0 x1 s).blank S = s.blank S := by
  simp [effPhaseStep, h_str, h_cal]

theorem execPhaseStep_blank (h_str : S .str = true) (h_cal : S .cal = true) (h_fab : S .fab = true)
    (h_mgp : S .mgp = true) (h_cnt : S .cnt = true) (h : Nat) (s : State) : ∀ t,
    (execPhaseStep h s) = .next t → t.blank S = s.blank S := by
  unfold execPhaseStep
  refine next_blank ?_
  exact State.runCmd_blank h_cal h_fab h_mgp h_cnt _ _ _ _ _ (by simp [h_str, h_cal])

@[simp] theorem State.cfgNow_blank (h_regs : S .regs = true) (h_str : S .str = true) (h_cal : S .cal = true)
    (h_fab : S .fab = true) (h_mgp : S .mgp = true) (h_cnt : S .cnt = true) (s : State) : (State.cfgNow s).blank S =
    s.blank S := by
  unfold State.cfgNow
  dsimp only
  repeat' split
  all_goals simp [foldl_blank, h_regs, h_str, h_cal, h_fab, h_mgp, h_cnt]

@[simp] theorem State.forceNow_blank (h_str : S .str = true) (h_cal : S .cal = true) (h_fab : S .fab = true)
    (h_mgp : S .mgp = true) (h_cnt : S .cnt = true) (s : State) : (State.forceNow s).blank S = s.blank S := by
  unfold State.forceNow
  dsimp only
  repeat' split
  all_goals simp [h_str, h_cal, h_fab, h_mgp, h_cnt]

@[simp] theorem State.refsNow_blank (h_regs : S .regs = true) (h_str : S .str = true) (h_cal : S .cal = true)
    (h_fab : S .fab = true) (h_mgp : S .mgp = true) (h_cnt : S .cnt = true) (s : State) : (State.refsNow s).blank S
    = s.blank S := by
  simp [State.refsNow, foldl_blank, h_regs, h_str, h_cal, h_fab, h_mgp, h_cnt]

@[simp] theorem State.stepNow_blank (h_str : S .str = true) (h_cal : S .cal = true) (h_fab : S .fab = true)
    (h_mgp : S .mgp = true) (h_cnt : S .cnt = true) (s : State) : (State.stepNow s).blank S = s.blank S := by
  unfold State.stepNow
  dsimp only
  repeat' split
  all_goals simp [h_str, h_cal, h_fab, h_mgp, h_cnt]

theorem execPhaseStepEnd_blank (h_str : S .str = true) (s : State) : ∀ t,
    (execPhaseStepEnd s) = .next t → t.blank S = s.blank S := by
  unfold execPhaseStepEnd
  refine whenUp_blank ?_
  repeat' split
  all_goals simp [h_str]

@[simp] theorem State.askLoad_blank (h_clk : S .clk = true) (s : State) : (State.askLoad s).blank S = s.blank S := by
  simp [State.askLoad, h_clk]

theorem execTnLoad_blank (h_clk : S .clk = true) (h_mgp : S .mgp = true) (h_cnt : S .cnt = true) (qp : Fin 16)
    (s : State) : ∀ t, (execTnLoad qp s) = .next t → t.blank S = s.blank S := by
  unfold execTnLoad
  refine whenUp_blank ?_
  exact State.ownerWrite_blank h_mgp h_cnt _ _ _ (by simp [h_clk])

theorem execTodMessage_blank (h_clk : S .clk = true) (bytes : List Byte) (s : State) : ∀ t,
    (execTodMessage bytes s) = .next t → t.blank S = s.blank S := by
  unfold execTodMessage
  refine whenUp_blank ?_
  repeat' split
  all_goals simp [h_clk]

@[simp] theorem State.missedEdge_blank (h_clk : S .clk = true) (h_str : S .str = true) (s : State) :
    (State.missedEdge s).blank S = s.blank S := by
  simp [State.missedEdge, h_clk, h_str]

@[simp] theorem State.edgeWith_blank (h_clk : S .clk = true) (h_sticky : S .sticky = true) (h_str : S .str = true)
    (h_cal : S .cal = true) (h_fab : S .fab = true) (h_mgp : S .mgp = true) (h_cnt : S .cnt = true) (s : State)
    (sec : Nat) (ql : Nat) : (State.edgeWith s sec ql).blank S = s.blank S := by
  simp [State.edgeWith, h_clk, h_sticky, h_str, h_cal, h_fab, h_mgp, h_cnt]

@[simp] theorem State.ppsEdge_blank (h_str : S .str = true) (s : State) : (State.ppsEdge s).blank S = s.blank S :=
    by
  simp [State.ppsEdge, h_str]

theorem execPpsInEdge_blank (h_clk : S .clk = true) (h_sticky : S .sticky = true) (h_str : S .str = true)
    (h_cal : S .cal = true) (h_fab : S .fab = true) (h_mgp : S .mgp = true) (h_cnt : S .cnt = true) (s : State) : ∀
    t, execPpsInEdge s = .next t → t.blank S = s.blank S := by
  unfold execPpsInEdge
  refine whenUp_blank ?_
  dsimp only
  repeat' split
  all_goals simp [h_clk, h_sticky, h_str, h_cal, h_fab, h_mgp, h_cnt]

theorem execTodOutSend_blank (h_clk : S .clk = true) (h_fresh : S .fresh = true) (s : State) : ∀ t,
    (execTodOutSend s) = .next t → t.blank S = s.blank S := by
  unfold execTodOutSend
  refine whenUp_blank ?_
  dsimp only
  repeat' split
  all_goals (try simp [foldl_blank, foldl_fst_blank, h_clk, h_fresh])
  all_goals simp [State.blank, h_clk, h_fresh]

@[simp] theorem State.routeMsgs_blank (h_fab : S .fab = true) (s : State) : (State.routeMsgs s).blank S = s.blank S := by
  simp [State.routeMsgs, h_fab]

@[simp] theorem State.depart_blank (h_fab : S .fab = true) (s : State) (l : Link) (d : Nat) (m : OutMsg) :
    (State.depart s l d m).blank S = s.blank S := by
  simp [State.depart, h_fab]

@[simp] theorem State.takeSend2_blank (h_frm : S .frm = true) (s : State) (n : Nat) : (State.takeSend2 s n).blank S
    = s.blank S := by
  unfold State.takeSend2
  repeat' split
  all_goals simp [h_frm]

@[simp] theorem State.linkFragment_blank (h_frm : S .frm = true) (h_fab : S .fab = true) (s : State) (l : Link)
    (lanes : List Nat) (n : Nat) (tx : Nat) (i : Nat) (d : Nat) (cap : Nat) :
    (State.linkFragment s l lanes n tx i d cap).1.blank S = s.blank S := by
  unfold State.linkFragment
  dsimp only
  repeat' split
  all_goals simp [h_frm, h_fab]

end Sys2Proof.Machine
end

