-- ==== Sys2Proof/Laws/AreaCalrin.lean ====
section
/-! SUPPORT. The areas of State that the Calrin interface and its records may change. -/
namespace Sys2Proof.Machine
open Sys2Proof
variable {S : Area → Bool}

@[simp] theorem State.setLone_blank (h_cal : S .cal = true) (s : State) : (State.setLone s).blank S = s.blank S := by
  simp [State.setLone, h_cal]

@[simp] theorem State.resumeJournal_blank (h_flp : S .flp = true) (h_mgp : S .mgp = true) (s : State) :
    (State.resumeJournal s).blank S = s.blank S := by
  simp [State.resumeJournal, State.blank, h_flp, h_mgp]

@[simp] theorem State.refillOverflow_blank (h_mgp : S .mgp = true) (s : State) (r : Nat) :
    (State.refillOverflow s r).blank S = s.blank S := by
  simp [State.refillOverflow, foldl_blank, h_mgp]

@[simp] theorem State.becomeActive_blank (h_flp : S .flp = true) (h_cal : S .cal = true) (h_fab : S .fab = true)
    (h_mgp : S .mgp = true) (h_cnt : S .cnt = true) (s : State) : (State.becomeActive s).blank S = s.blank S := by
  simp [State.becomeActive, foldl_blank, h_flp, h_cal, h_fab, h_mgp, h_cnt]

@[simp] theorem State.enterSyncing_blank (h_cal : S .cal = true) (h_fab : S .fab = true) (h_mgp : S .mgp = true)
    (h_cnt : S .cnt = true) (s : State) : (State.enterSyncing s).blank S = s.blank S := by
  simp [State.enterSyncing, h_cal, h_fab, h_mgp, h_cnt]

@[simp] theorem State.recordGap_blank (h_sticky : S .sticky = true) (h_cal : S .cal = true) (h_fab : S .fab = true)
    (h_mgp : S .mgp = true) (h_cnt : S .cnt = true) (s : State) : (State.recordGap s).blank S = s.blank S := by
  simp [State.recordGap, h_sticky, h_cal, h_fab, h_mgp, h_cnt]

@[simp] theorem State.resolve_blank (h_cal : S .cal = true) (h_fab : S .fab = true) (h_mgp : S .mgp = true)
    (h_cnt : S .cnt = true) (s : State) : (State.resolve s).blank S = s.blank S := by
  unfold State.resolve
  split <;> simp [h_cal, h_fab, h_mgp, h_cnt]

@[simp] theorem State.addSnap_blank (h_cal : S .cal = true) (s : State) (r : LRec) :
    (State.addSnap s r).1.blank S = s.blank S := by
  unfold State.addSnap
  repeat' split
  all_goals simp [h_cal]

@[simp] theorem State.calFrame_blank (h_frm : S .frm = true) (h_fab : S .fab = true) (s : State) (bytes : List Byte)
    (l : Nat) : (State.calFrame s bytes l).1.blank S = s.blank S := by
  simp [State.calFrame, h_frm, h_fab]

@[simp] theorem State.sealOwn_blank (h_cal : S .cal = true) (h_mgp : S .mgp = true) (s : State) :
    (State.sealOwn s).1.blank S = s.blank S := by
  simp [State.sealOwn, foldl_blank, h_cal, h_mgp]

@[simp] theorem State.sealTick_blank (h_frm : S .frm = true) (h_cal : S .cal = true) (h_fab : S .fab = true)
    (h_mgp : S .mgp = true) (s : State) : (State.sealTick s).blank S = s.blank S := by
  simp [State.sealTick, foldl_fst_blank, h_frm, h_cal, h_fab, h_mgp]

@[simp] theorem State.sealNow_blank (h_clk : S .clk = true) (h_frm : S .frm = true) (h_cal : S .cal = true)
    (h_fab : S .fab = true) (h_mgp : S .mgp = true) (s : State) : (State.sealNow s).blank S = s.blank S := by
  unfold State.sealNow
  dsimp only
  split
  · simp [State.blank, h_clk, h_cal]
  · simp [h_clk, h_frm, h_cal, h_fab, h_mgp]

@[simp] theorem State.calAlign_blank (h_cal : S .cal = true) (s : State) (lane : Nat) (pos : Nat) (good : Bool)
    (seq : BitVec 24) : (State.calAlign s lane pos good seq).1.blank S = s.blank S := by
  simp [State.calAlign, h_cal]

@[simp] theorem State.calLink_blank (h_flp : S .flp = true) (h_cal : S .cal = true) (h_fab : S .fab = true)
    (h_mgp : S .mgp = true) (h_cnt : S .cnt = true) (h_fresh : S .fresh = true) (s : State) (was : Bool) :
    (State.calLink s was).blank S = s.blank S := by
  simp [State.calLink, h_flp, h_cal, h_fab, h_mgp, h_cnt, h_fresh]

@[simp] theorem State.takeAck_blank (h_cal : S .cal = true) (h_fab : S .fab = true) (h_mgp : S .mgp = true)
    (h_cnt : S .cnt = true) (s : State) (a : BitVec 24) : (State.takeAck s a).blank S = s.blank S := by
  simp [State.takeAck, h_cal, h_fab, h_mgp, h_cnt]

@[simp] theorem State.dropCave_blank (h_col : S .col = true) (s : State) : (State.dropCave s).blank S = s.blank S :=
    by
  simp [State.dropCave, h_col]

@[simp] theorem State.storeRec_blank (h_sticky : S .sticky = true) (h_col : S .col = true) (h_cal : S .cal = true)
    (h_fab : S .fab = true) (h_mgp : S .mgp = true) (h_cnt : S .cnt = true) (s : State) (r : LRec) :
    (State.storeRec s r).blank S = s.blank S := by
  unfold State.storeRec
  repeat' split
  all_goals simp [h_sticky, h_col, h_cal, h_fab, h_mgp, h_cnt]

@[simp] theorem State.takeShare_blank (h_sticky : S .sticky = true) (h_col : S .col = true) (h_cal : S .cal = true)
    (h_fab : S .fab = true) (h_mgp : S .mgp = true) (h_cnt : S .cnt = true) (s : State) (lane : Nat) (tn : Nat)
    (thin : Bool) (b : List Byte) : (State.takeShare s lane tn thin b).blank S = s.blank S := by
  unfold State.takeShare
  dsimp only
  repeat' split
  all_goals simp [h_sticky, h_col, h_cal, h_fab, h_mgp, h_cnt]

@[simp] theorem State.takeCalHdr_blank (h_sticky : S .sticky = true) (h_cal : S .cal = true) (h_fab : S .fab = true)
    (h_mgp : S .mgp = true) (h_cnt : S .cnt = true) (s : State) (h : BitVec 128) :
    (State.takeCalHdr s h).blank S = s.blank S := by
  unfold State.takeCalHdr
  split <;> simp [h_sticky, h_cal, h_fab, h_mgp, h_cnt]

@[simp] theorem State.takeRecord_blank (h_sticky : S .sticky = true) (h_col : S .col = true) (h_cal : S .cal = true)
    (h_fab : S .fab = true) (h_mgp : S .mgp = true) (h_cnt : S .cnt = true) (s : State) (lane : Nat) (f : CalFrame)
    : (State.takeRecord s lane f).blank S = s.blank S := by
  unfold State.takeRecord
  dsimp only
  repeat' split
  all_goals simp [h_sticky, h_col, h_cal, h_fab, h_mgp, h_cnt]

theorem execCalrinFrame_blank (h_sticky : S .sticky = true) (h_flp : S .flp = true) (h_col : S .col = true)
    (h_cal : S .cal = true) (h_fab : S .fab = true) (h_mgp : S .mgp = true) (h_cnt : S .cnt = true)
    (h_fresh : S .fresh = true) (lane : Fin 4) (f : CalFrame) (s : State) : ∀ t, execCalrinFrame lane f s = .next t
    → t.blank S = s.blank S := by
  unfold execCalrinFrame
  refine whenUp_blank ?_
  dsimp only
  repeat' split
  all_goals simp [h_sticky, h_flp, h_col, h_cal, h_fab, h_mgp, h_cnt, h_fresh]

theorem execAckStall_blank (h_cal : S .cal = true) (h_fab : S .fab = true) (h_mgp : S .mgp = true)
    (h_cnt : S .cnt = true) (s : State) : ∀ t, (execAckStall s) = .next t → t.blank S = s.blank S := by
  unfold execAckStall
  refine whenUp_blank ?_
  simp [h_cal, h_fab, h_mgp, h_cnt]

theorem execHeartbeatChange_blank (h_cal : S .cal = true) (h_fab : S .fab = true) (h_mgp : S .mgp = true)
    (h_cnt : S .cnt = true) (changes : BitVec 8) (s : State) : ∀ t,
    (execHeartbeatChange changes s) = .next t → t.blank S = s.blank S := by
  unfold execHeartbeatChange
  refine whenUp_blank ?_
  simp [h_cal, h_fab, h_mgp, h_cnt]

theorem execHeartbeatSilence_blank (h_flp : S .flp = true) (h_cal : S .cal = true) (h_fab : S .fab = true)
    (h_mgp : S .mgp = true) (h_cnt : S .cnt = true) (s : State) : ∀ t,
    (execHeartbeatSilence s) = .next t → t.blank S = s.blank S := by
  unfold execHeartbeatSilence
  refine whenUp_blank ?_
  dsimp only
  repeat' split
  all_goals simp [h_flp, h_cal, h_fab, h_mgp, h_cnt]

theorem execSettleDetachedExpiry_blank (h_flp : S .flp = true) (h_cal : S .cal = true) (h_fab : S .fab = true)
    (h_mgp : S .mgp = true) (h_cnt : S .cnt = true) (s : State) : ∀ t,
    (execSettleDetachedExpiry s) = .next t → t.blank S = s.blank S := by
  unfold execSettleDetachedExpiry
  refine whenUp_blank ?_
  simp [h_flp, h_cal, h_fab, h_mgp, h_cnt]

theorem execReclaimSettleExpiry_blank (h_cal : S .cal = true) (s : State) : ∀ t,
    (execReclaimSettleExpiry s) = .next t → t.blank S = s.blank S := by
  unfold execReclaimSettleExpiry
  refine whenUp_blank ?_
  simp [h_cal]

theorem execYieldComplete_blank (h_cal : S .cal = true) (h_fab : S .fab = true) (h_mgp : S .mgp = true)
    (h_cnt : S .cnt = true) (s : State) : ∀ t, (execYieldComplete s) = .next t → t.blank S = s.blank S := by
  unfold execYieldComplete
  refine whenUp_blank ?_
  repeat' split
  all_goals simp [h_cal, h_fab, h_mgp, h_cnt]

@[simp] theorem State.swap_blank (h_cal : S .cal = true) (s : State) : (State.swap s).blank S = s.blank S := by
  simp [State.swap, h_cal]

theorem execCalMateCtrlSwap_blank (h_cal : S .cal = true) (h_mgp : S .mgp = true) (h_cnt : S .cnt = true)
    (qp : Fin 16) (s : State) : ∀ t, (execCalMateCtrlSwap qp s) = .next t → t.blank S = s.blank S := by
  unfold execCalMateCtrlSwap
  refine whenUp_blank ?_
  exact State.ownerWrite_blank h_mgp h_cnt _ _ _ (by simp [h_cal, h_mgp, h_cnt])

theorem execSyncComplete_blank (h_cal : S .cal = true) (h_fab : S .fab = true) (h_mgp : S .mgp = true)
    (h_cnt : S .cnt = true) (s : State) : ∀ t, (execSyncComplete s) = .next t → t.blank S = s.blank S := by
  unfold execSyncComplete
  refine whenUp_blank ?_
  simp [h_cal, h_fab, h_mgp, h_cnt]

theorem execTakeoverHoldEnd_blank (h_cal : S .cal = true) (h_mgp : S .mgp = true) (h_cnt : S .cnt = true)
    (s : State) : ∀ t, (execTakeoverHoldEnd s) = .next t → t.blank S = s.blank S := by
  unfold execTakeoverHoldEnd
  refine whenUp_blank ?_
  repeat' split
  all_goals simp [foldl_blank, h_cal, h_mgp, h_cnt]

@[simp] theorem State.repost_blank (h_mgp : S .mgp = true) (h_cnt : S .cnt = true) (s : State) (r : Nat)
    (slots : List (Nat × CmpEntry)) (h : Nat) : (State.repost s r slots h).blank S = s.blank S := by
  unfold State.repost
  repeat' split
  all_goals simp [h_mgp, h_cnt]

theorem execCompletionRingReadDone_blank (h_mgp : S .mgp = true) (h_cnt : S .cnt = true) (r : Fin 16)
    (slots : List (Nat × CmpEntry)) (s : State) : ∀ t,
    (execCompletionRingReadDone r slots s) = .next t → t.blank S = s.blank S := by
  unfold execCompletionRingReadDone
  refine whenFw_blank ?_
  simp [foldl_blank, h_mgp, h_cnt]

@[simp] theorem effBudgetSet_blank (h_cal : S .cal = true) (h_fab : S .fab = true) (h_mgp : S .mgp = true)
    (h_cnt : S .cnt = true) (h_nrg : S .nrg = true) (x0 : Nat) (x1 : JEntry) (s : State) :
    (effBudgetSet x0 x1 s).blank S = s.blank S := by
  simp [effBudgetSet, h_cal, h_fab, h_mgp, h_cnt, h_nrg]

theorem execBudgetSet_blank (h_cal : S .cal = true) (h_fab : S .fab = true) (h_mgp : S .mgp = true)
    (h_cnt : S .cnt = true) (h_nrg : S .nrg = true) (h : Nat) (s : State) : ∀ t,
    (execBudgetSet h s) = .next t → t.blank S = s.blank S := by
  unfold execBudgetSet
  refine next_blank ?_
  exact State.runCmd_blank h_cal h_fab h_mgp h_cnt _ _ _ _ _ (by simp [h_cal, h_fab, h_mgp, h_cnt, h_nrg])

@[simp] theorem State.giveWhisk_blank (h_rck : S .rck = true) (s : State) (m : Nat) (full : Nat) (cost : Nat) (base : Nat)
    (h : Nat) : (State.giveWhisk s m full cost base h).1.blank S = s.blank S := by
  simp [State.giveWhisk, h_rck]

@[simp] theorem State.startScan_blank (h_sds : S .sds = true) (s : State) (c : Scan) :
    (State.startScan s c).blank S = s.blank S := by
  simp [State.startScan, h_sds]

@[simp] theorem State.powerStack_blank (h_col : S .col = true) (s : State) (t : Nat) : (State.powerStack s t).blank
    S = s.blank S := by
  simp [State.powerStack, h_col]

@[simp] theorem State.plan_blank (h_sds : S .sds = true) (h_col : S .col = true) (h_cal : S .cal = true)
    (h_fab : S .fab = true) (h_mgp : S .mgp = true) (h_rck : S .rck = true) (h_cnt : S .cnt = true)
    (h_fresh : S .fresh = true) (s : State) (h : Nat) : (State.plan s h).blank S = s.blank S := by
  simp [State.plan, foldl_blank, foldl_fst_blank, h_sds, h_col, h_cal, h_fab, h_mgp, h_rck, h_cnt, h_fresh]

@[simp] theorem State.endGrants_blank (h_rck : S .rck = true) (s : State) : (State.endGrants s).blank S = s.blank S := by
  simp [State.endGrants, foldl_blank, h_rck]

@[simp] theorem State.ledgerPeriod_blank (h_sticky : S .sticky = true) (h_sds : S .sds = true) (h_col : S .col = true)
    (h_cal : S .cal = true) (h_fab : S .fab = true) (h_mgp : S .mgp = true) (h_rck : S .rck = true)
    (h_cnt : S .cnt = true) (h_nrg : S .nrg = true) (h_fresh : S .fresh = true) (s : State) (dom : List Nat) :
    (State.ledgerPeriod s dom).blank S = s.blank S := by
  simp [State.ledgerPeriod, foldl_blank, h_sticky, h_sds, h_col, h_cal, h_fab, h_mgp, h_rck, h_cnt, h_nrg, h_fresh]

end Sys2Proof.Machine
end

