-- ==== Sys2Proof/Laws/AreaRind.lean ====
section
/-! SUPPORT. The areas of State that the principals, the messages of peers and the command set may change. -/
namespace Sys2Proof.Machine
open Sys2Proof
variable {S : Area → Bool}

@[simp] theorem State.unbindRing_blank (h_mgp : S .mgp = true) (h_cnt : S .cnt = true) (s : State) (r : Nat) :
    (State.unbindRing s r).blank S = s.blank S := by
  simp [State.unbindRing, h_mgp, h_cnt]

@[simp] theorem State.dropRingKey_blank (h_mgp : S .mgp = true) (s : State) (p : Nat) :
    (State.dropRingKey s p).blank S = s.blank S := by
  unfold State.dropRingKey
  split <;> simp [h_mgp]

@[simp] theorem State.ptTables_blank (h_prn : S .prn = true) (s : State) (p : Nat) (new : Part)
    (ch : List (Nat × Block)) : (State.ptTables s p new ch).blank S = s.blank S := by
  simp [State.ptTables, foldl_blank, h_prn]

@[simp] theorem State.ptApply_blank (h_mgp : S .mgp = true) (h_prn : S .prn = true) (h_cnt : S .cnt = true)
    (s : State) (e : JEntry) : (State.ptApply s e).blank S = s.blank S := by
  unfold State.ptApply
  dsimp only
  repeat' split
  all_goals simp [h_mgp, h_prn, h_cnt]

@[simp] theorem effPartitionSet_blank (h_cal : S .cal = true) (h_fab : S .fab = true) (h_mgp : S .mgp = true)
    (h_prn : S .prn = true) (h_cnt : S .cnt = true) (x0 : Nat) (x1 : JEntry) (s : State) :
    (effPartitionSet x0 x1 s).blank S = s.blank S := by
  simp [effPartitionSet, h_cal, h_fab, h_mgp, h_prn, h_cnt]

theorem execPartitionSet_blank (h_cal : S .cal = true) (h_fab : S .fab = true) (h_mgp : S .mgp = true)
    (h_prn : S .prn = true) (h_cnt : S .cnt = true) (h : Nat) (s : State) : ∀ t,
    (execPartitionSet h s) = .next t → t.blank S = s.blank S := by
  unfold execPartitionSet
  refine next_blank ?_
  exact State.runCmd_blank h_cal h_fab h_mgp h_cnt _ _ _ _ _ (by simp [h_cal, h_fab, h_mgp, h_prn, h_cnt])

@[simp] theorem effRingBind_blank (h_cal : S .cal = true) (h_fab : S .fab = true) (h_mgp : S .mgp = true)
    (h_cnt : S .cnt = true) (x0 : Nat) (x1 : JEntry) (s : State) : (effRingBind x0 x1 s).blank S = s.blank S := by
  simp [effRingBind, foldl_blank, h_cal, h_fab, h_mgp, h_cnt]

theorem execRingBind_blank (h_cal : S .cal = true) (h_fab : S .fab = true) (h_mgp : S .mgp = true)
    (h_cnt : S .cnt = true) (h : Nat) (s : State) : ∀ t, (execRingBind h s) = .next t → t.blank S = s.blank S := by
  unfold execRingBind
  refine next_blank ?_
  exact State.runCmd_blank h_cal h_fab h_mgp h_cnt _ _ _ _ _ (by simp [h_cal, h_fab, h_mgp, h_cnt])

@[simp] theorem State.authFail_blank (h_sticky : S .sticky = true) (h_flp : S .flp = true) (h_cal : S .cal = true)
    (h_fab : S .fab = true) (h_mgp : S .mgp = true) (h_cnt : S .cnt = true) (s : State) (l : Link) :
    (State.authFail s l).blank S = s.blank S := by
  unfold State.authFail
  split <;> simp [h_sticky, h_flp, h_cal, h_fab, h_mgp, h_cnt]

@[simp] theorem State.relayMsg_blank (h_fab : S .fab = true) (s : State) (hd : FabHdr) (y2 : Nat) (body : List Byte) :
    (State.relayMsg s hd y2 body).blank S = s.blank S := by
  unfold State.relayMsg
  split <;> simp [h_fab]

@[simp] theorem State.fabHeard_blank (h_fab : S .fab = true) (s : State) (hd : FabHdr) (type : Nat) :
    (State.fabHeard s hd type).blank S = s.blank S := by
  unfold State.fabHeard
  repeat' split
  all_goals simp [h_fab]

@[simp] theorem State.fabNote_blank (h_fab : S .fab = true) (s : State) (hd : FabHdr) (y2 : Nat) (body : List Byte) :
    (State.fabNote s hd y2 body).blank S = s.blank S := by
  simp [State.fabNote, h_fab]

theorem State.fabTake_blank (h_sticky : S .sticky = true) (h_flp : S .flp = true) (h_cal : S .cal = true)
    (h_fab : S .fab = true) (h_mgp : S .mgp = true) (h_cnt : S .cnt = true) (s : State) (hd : FabHdr) (type : Nat)
    (body : List Byte) (act : State → State)
    (ha : ∀ s, (act s).blank S = s.blank S) : (s.fabTake hd type body act).blank S = s.blank S := by
  unfold State.fabTake
  dsimp only
  repeat' split
  all_goals simp [ha, h_sticky, h_flp, h_cal, h_fab, h_mgp, h_cnt]

@[simp] theorem State.advanceLeaf_blank (h_rnd : S .rnd = true) (s : State) :
    (State.advanceLeaf s).blank S = s.blank S := by
  simp [State.advanceLeaf, h_rnd]

@[simp] theorem State.takeLeaf_blank (h_rnd : S .rnd = true) (s : State) : (State.takeLeaf s).2.blank S = s.blank S := by
  unfold State.takeLeaf
  split <;> simp [h_rnd]

@[simp] theorem State.giveQuote_blank (h_rnd : S .rnd = true) (h_cal : S .cal = true) (h_fab : S .fab = true)
    (h_mgp : S .mgp = true) (h_cnt : S .cnt = true) (s : State) (h : Nat) (e : JEntry) :
    (State.giveQuote s h e).blank S = s.blank S := by
  simp [State.giveQuote, h_rnd, h_cal, h_fab, h_mgp, h_cnt]

@[simp] theorem State.keyPorts_blank (h_mgp : S .mgp = true) (s : State) (ports : List Nat) (okm : List Byte)
    (start : Nat) : (State.keyPorts s ports okm start).blank S = s.blank S := by
  simp [State.keyPorts, foldl_blank, h_mgp]

@[simp] theorem State.takeOwnership_blank (h_rnd : S .rnd = true) (s : State) (b : List Byte) :
    (State.takeOwnership s b).blank S = s.blank S := by
  unfold State.takeOwnership
  split <;> simp [h_rnd]

@[simp] theorem State.keyRing_blank (h_fab : S .fab = true) (h_mgp : S .mgp = true) (s : State) (r : Nat)
    (key : List Byte) (serial : Nat) : (State.keyRing s r key serial).blank S = s.blank S := by
  simp [State.keyRing, h_fab, h_mgp]

@[simp] theorem State.kaInstall_blank (h_rnd : S .rnd = true) (h_fab : S .fab = true) (h_mgp : S .mgp = true)
    (s : State) (ring : Nat) (b : List Byte) (i : Nat) : (State.kaInstall s ring b i).blank S = s.blank S := by
  simp [State.kaInstall, h_rnd, h_fab, h_mgp]

@[simp] theorem State.giveKeys_blank (h_rnd : S .rnd = true) (h_cal : S .cal = true) (h_fab : S .fab = true)
    (h_mgp : S .mgp = true) (h_cnt : S .cnt = true) (h_fresh : S .fresh = true) (s : State) (h : Nat) (e : JEntry) :
    (State.giveKeys s h e).blank S = s.blank S := by
  simp [State.giveKeys, h_rnd, h_cal, h_fab, h_mgp, h_cnt, h_fresh]

@[simp] theorem State.sendPeerQuote_blank (h_rnd : S .rnd = true) (h_fab : S .fab = true) (s : State) (n : Nat) :
    (State.sendPeerQuote s n).blank S = s.blank S := by
  unfold State.sendPeerQuote
  dsimp only
  repeat' split
  all_goals simp [foldl_blank, h_rnd, h_fab]

@[simp] theorem State.serveKey_blank (h_rnd : S .rnd = true) (h_cal : S .cal = true) (h_fab : S .fab = true)
    (h_mgp : S .mgp = true) (h_cnt : S .cnt = true) (h_fresh : S .fresh = true) (s : State) (h : Nat) :
    (State.serveKey s h).blank S = s.blank S := by
  unfold State.serveKey
  split <;> simp [h_rnd, h_cal, h_fab, h_mgp, h_cnt, h_fresh]

@[simp] theorem State.whenKey_blank (h_rnd : S .rnd = true) (h_cal : S .cal = true) (h_fab : S .fab = true)
    (h_mgp : S .mgp = true) (h_cnt : S .cnt = true) (h_fresh : S .fresh = true) (s : State) (h : Nat) (e : JEntry) :
    (State.whenKey s h e).blank S = s.blank S := by
  simp [State.whenKey, h_rnd, h_cal, h_fab, h_mgp, h_cnt, h_fresh]

@[simp] theorem State.serveJob_blank (h_rnd : S .rnd = true) (h_cal : S .cal = true) (h_fab : S .fab = true)
    (h_mgp : S .mgp = true) (h_cnt : S .cnt = true) (h_fresh : S .fresh = true) (s : State) (j : QuoteJob) :
    (State.serveJob s j).blank S = s.blank S := by
  simp [State.serveJob, h_rnd, h_cal, h_fab, h_mgp, h_cnt, h_fresh]

@[simp] theorem State.quotePeer_blank (h_rnd : S .rnd = true) (h_fab : S .fab = true) (s : State) (n : Nat) :
    (State.quotePeer s n).blank S = s.blank S := by
  simp [State.quotePeer, h_rnd, h_fab]

@[simp] theorem State.serveQuotes_blank (h_rnd : S .rnd = true) (h_cal : S .cal = true) (h_fab : S .fab = true)
    (h_mgp : S .mgp = true) (h_cnt : S .cnt = true) (h_fresh : S .fresh = true) (x0 : Nat) (s : State) :
    (State.serveQuotes x0 s).blank S = s.blank S := by
  fun_induction State.serveQuotes <;> simp_all

theorem execKeyAgree_blank (h_rnd : S .rnd = true) (h_cal : S .cal = true) (h_fab : S .fab = true)
    (h_mgp : S .mgp = true) (h_cnt : S .cnt = true) (h_fresh : S .fresh = true) (h : Nat) (s : State) : ∀ t,
    (execKeyAgree h s) = .next t → t.blank S = s.blank S := by
  unfold execKeyAgree
  refine next_blank ?_
  exact State.runCmd_blank h_cal h_fab h_mgp h_cnt _ _ _ _ _ (by simp [h_rnd, h_cal, h_fab, h_mgp, h_cnt, h_fresh])

theorem execMateRingKey_blank (h_sticky : S .sticky = true) (h_flp : S .flp = true) (h_cal : S .cal = true)
    (h_fab : S .fab = true) (h_mgp : S .mgp = true) (h_cnt : S .cnt = true) (hd : FabHdr) (ring : Fin 16)
    (key : BitVec 256) (s : State) : ∀ t, (execMateRingKey hd ring key s) = .next t → t.blank S = s.blank S := by
  unfold execMateRingKey
  refine next_blank ?_
  split
  · exact State.fabTake_blank h_sticky h_flp h_cal h_fab h_mgp h_cnt _ _ _ _ _ (by intro s; (try dsimp only); (repeat'
    split) <;> simp [h_mgp])
  · rfl

theorem execMateKeyAgreeRequest_blank (h_sticky : S .sticky = true) (h_rnd : S .rnd = true) (h_flp : S .flp = true)
    (h_cal : S .cal = true) (h_fab : S .fab = true) (h_mgp : S .mgp = true) (h_cnt : S .cnt = true)
    (h_fresh : S .fresh = true) (hd : FabHdr) (req : List Byte) (ecOk : Bool) (lmsOk : Bool) (s : State) : ∀ t,
    (execMateKeyAgreeRequest hd req ecOk lmsOk s) = .next t → t.blank S = s.blank S := by
  unfold execMateKeyAgreeRequest
  refine next_blank ?_
  split
  · exact State.fabTake_blank h_sticky h_flp h_cal h_fab h_mgp h_cnt _ _ _ _ _ (by intro s; (try dsimp only); (repeat'
    split) <;> simp [h_rnd, h_fab, h_mgp, h_fresh])
  · rfl

theorem execMateKeyAgreeResponse_blank (h_sticky : S .sticky = true) (h_flp : S .flp = true) (h_cal : S .cal = true)
    (h_fab : S .fab = true) (h_mgp : S .mgp = true) (h_cnt : S .cnt = true) (hd : FabHdr) (serial : Nat)
    (resp : List Byte) (s : State) : ∀ t,
    (execMateKeyAgreeResponse hd serial resp s) = .next t → t.blank S = s.blank S := by
  unfold execMateKeyAgreeResponse
  refine next_blank ?_
  split
  · exact State.fabTake_blank h_sticky h_flp h_cal h_fab h_mgp h_cnt _ _ _ _ _ (by intro s; (try dsimp only); (repeat'
    split) <;> simp [h_cal, h_fab, h_mgp, h_cnt])
  · rfl

theorem execSaTxSwitch_blank (h_mgp : S .mgp = true) (port : Fin 2) (s : State) : ∀ t,
    (execSaTxSwitch port s) = .next t → t.blank S = s.blank S := by
  unfold execSaTxSwitch
  refine next_blank ?_
  repeat' split
  all_goals simp [h_mgp]

theorem execAttestQuote_blank (h_rnd : S .rnd = true) (h_cal : S .cal = true) (h_fab : S .fab = true)
    (h_mgp : S .mgp = true) (h_cnt : S .cnt = true) (h_fresh : S .fresh = true) (h : Nat) (s : State) : ∀ t,
    (execAttestQuote h s) = .next t → t.blank S = s.blank S := by
  unfold execAttestQuote
  refine next_blank ?_
  exact State.runCmd_blank h_cal h_fab h_mgp h_cnt _ _ _ _ _ (by simp [h_rnd, h_cal, h_fab, h_mgp, h_cnt, h_fresh])

theorem execEphemeralKeyReady_blank (h_rnd : S .rnd = true) (h_cal : S .cal = true) (h_fab : S .fab = true)
    (h_mgp : S .mgp = true) (h_cnt : S .cnt = true) (h_fresh : S .fresh = true) (s : State) : ∀ t,
    (execEphemeralKeyReady s) = .next t → t.blank S = s.blank S := by
  unfold execEphemeralKeyReady
  refine whenUp_blank ?_
  simp [h_rnd, h_cal, h_fab, h_mgp, h_cnt, h_fresh]

@[simp] theorem State.setSpare_blank (h_flash : S .flash = true) (s : State) (x : Option FwImage) :
    (State.setSpare s x).blank S = s.blank S := by
  simp [State.setSpare, h_flash]

@[simp] theorem effFwStage_blank (h_flash : S .flash = true) (h_rnd : S .rnd = true) (h_cal : S .cal = true)
    (h_fab : S .fab = true) (h_mgp : S .mgp = true) (h_cnt : S .cnt = true) (x0 : Nat) (x1 : JEntry) (s : State) :
    (effFwStage x0 x1 s).blank S = s.blank S := by
  simp [effFwStage, h_flash, h_rnd, h_cal, h_fab, h_mgp, h_cnt]

theorem execFwStage_blank (h_flash : S .flash = true) (h_rnd : S .rnd = true) (h_cal : S .cal = true)
    (h_fab : S .fab = true) (h_mgp : S .mgp = true) (h_cnt : S .cnt = true) (h : Nat) (s : State) : ∀ t,
    (execFwStage h s) = .next t → t.blank S = s.blank S := by
  unfold execFwStage
  refine next_blank ?_
  exact State.runCmd_blank h_cal h_fab h_mgp h_cnt _ _ _ _ _ (by simp [h_flash, h_rnd, h_cal, h_fab, h_mgp, h_cnt])

@[simp] theorem effFwActivate_blank (h_flash : S .flash = true) (h_rnd : S .rnd = true) (h_cal : S .cal = true)
    (h_fab : S .fab = true) (h_mgp : S .mgp = true) (h_cnt : S .cnt = true) (x0 : Nat) (x1 : JEntry) (s : State) :
    (effFwActivate x0 x1 s).blank S = s.blank S := by
  simp [effFwActivate, h_flash, h_rnd, h_cal, h_fab, h_mgp, h_cnt]

theorem execFwActivate_blank (h_flash : S .flash = true) (h_rnd : S .rnd = true) (h_cal : S .cal = true)
    (h_fab : S .fab = true) (h_mgp : S .mgp = true) (h_cnt : S .cnt = true) (h : Nat) (s : State) : ∀ t,
    (execFwActivate h s) = .next t → t.blank S = s.blank S := by
  unfold execFwActivate
  refine next_blank ?_
  exact State.runCmd_blank h_cal h_fab h_mgp h_cnt _ _ _ _ _ (by simp [h_flash, h_rnd, h_cal, h_fab, h_mgp, h_cnt])

@[simp] theorem State.resumeSealed_blank (h_cal : S .cal = true) (h_fab : S .fab = true) (h_mgp : S .mgp = true)
    (h_cnt : S .cnt = true) (s : State) : (State.resumeSealed s).blank S = s.blank S := by
  simp [State.resumeSealed, foldl_blank, h_cal, h_fab, h_mgp, h_cnt]

@[simp] theorem effSeal_blank (h_sealed : S .sealed = true) (h_sealImg : S .sealImg = true) (h_rnd : S .rnd = true)
    (h_sds : S .sds = true) (h_cal : S .cal = true) (h_fab : S .fab = true) (h_mgp : S .mgp = true)
    (h_cnt : S .cnt = true) (x0 : Nat) (x1 : JEntry) (s : State) : (effSeal x0 x1 s).blank S = s.blank S := by
  unfold effSeal
  dsimp only
  repeat' split
  all_goals (try simp [foldl_blank, foldl_fst_blank, h_sealed, h_sealImg, h_rnd, h_sds, h_cal, h_fab, h_mgp, h_cnt])
  all_goals simp [foldl_blank, foldl_fst_blank, State.blank, h_sealed, h_sealImg, h_rnd, h_sds, h_cal, h_fab, h_mgp, h_cnt]

theorem execSeal_blank (h_sealed : S .sealed = true) (h_sealImg : S .sealImg = true) (h_rnd : S .rnd = true)
    (h_sds : S .sds = true) (h_cal : S .cal = true) (h_fab : S .fab = true) (h_mgp : S .mgp = true)
    (h_cnt : S .cnt = true) (h : Nat) (s : State) : ∀ t, (execSeal h s) = .next t → t.blank S = s.blank S := by
  unfold execSeal
  refine next_blank ?_
  exact State.runCmd_blank h_cal h_fab h_mgp h_cnt _ _ _ _ _ (by simp [h_sealed, h_sealImg, h_rnd, h_sds, h_cal, h_fab, h_mgp, h_cnt])

@[simp] theorem effControlRestart_blank (h_cal : S .cal = true) (h_restarts : S .restarts = true) (x0 : Nat)
    (x1 : JEntry) (s : State) : (effControlRestart x0 x1 s).blank S = s.blank S := by
  simp [effControlRestart, h_cal, h_restarts]

theorem execControlRestart_blank (h_cal : S .cal = true) (h_fab : S .fab = true) (h_mgp : S .mgp = true)
    (h_cnt : S .cnt = true) (h_restarts : S .restarts = true) (h : Nat) (s : State) : ∀ t,
    (execControlRestart h s) = .next t → t.blank S = s.blank S := by
  unfold execControlRestart
  refine next_blank ?_
  exact State.runCmd_blank h_cal h_fab h_mgp h_cnt _ _ _ _ _ (by simp [h_cal, h_restarts])

theorem execNop_blank (h_cal : S .cal = true) (h_fab : S .fab = true) (h_mgp : S .mgp = true) (h_cnt : S .cnt = true)
    (h : Nat) (s : State) : ∀ t, (execNop h s) = .next t → t.blank S = s.blank S := by
  unfold execNop
  refine next_blank ?_
  exact State.runCmd_blank h_cal h_fab h_mgp h_cnt _ _ _ _ _ (by simp [h_cal, h_fab, h_mgp, h_cnt])

end Sys2Proof.Machine
end

