-- ==== Sys2Proof/Laws/AreaCounters.lean ====
section
/-! SUPPORT. The areas of State that the counters, register reads and the mailboxes may change. -/
namespace Sys2Proof.Machine
open Sys2Proof
variable {S : Area → Bool}

@[simp] theorem effCounterRead_blank (h_clk : S .clk = true) (h_cal : S .cal = true) (h_fab : S .fab = true)
    (h_mgp : S .mgp = true) (h_cnt : S .cnt = true) (x0 : Nat) (x1 : JEntry) (s : State) :
    (effCounterRead x0 x1 s).blank S = s.blank S := by
  simp [effCounterRead, h_clk, h_cal, h_fab, h_mgp, h_cnt]

theorem execCounterRead_blank (h_clk : S .clk = true) (h_cal : S .cal = true) (h_fab : S .fab = true)
    (h_mgp : S .mgp = true) (h_cnt : S .cnt = true) (h : Nat) (s : State) : ∀ t,
    (execCounterRead h s) = .next t → t.blank S = s.blank S := by
  unfold execCounterRead
  refine next_blank ?_
  split
  · exact State.runCmd_blank h_cal h_fab h_mgp h_cnt _ _ _ _ _ (by simp [h_clk, h_cal, h_fab, h_mgp, h_cnt])
  · rfl

@[simp] theorem effCounterPreset_blank (h_cal : S .cal = true) (h_cnt : S .cnt = true) (x0 : Nat) (x1 : JEntry)
    (s : State) : (effCounterPreset x0 x1 s).blank S = s.blank S := by
  simp [effCounterPreset, h_cal, h_cnt]

theorem execCounterPreset_blank (h_cal : S .cal = true) (h_fab : S .fab = true) (h_mgp : S .mgp = true)
    (h_cnt : S .cnt = true) (h : Nat) (s : State) : ∀ t, (execCounterPreset h s) = .next t → t.blank S = s.blank S := by
  unfold execCounterPreset
  refine next_blank ?_
  exact State.runCmd_blank h_cal h_fab h_mgp h_cnt _ _ _ _ _ (by simp [h_cal, h_cnt])

@[simp] theorem State.presetCounter_blank (h_cnt : S .cnt = true) (s : State) (scope : Nat) (obj : Nat) (j : Nat)
    (v : Nat) : (State.presetCounter s scope obj j v).blank S = s.blank S := by
  simp [State.presetCounter, h_cnt]

@[simp] theorem State.applyPreset_blank (h_cal : S .cal = true) (h_fab : S .fab = true) (h_mgp : S .mgp = true)
    (h_cnt : S .cnt = true) (s : State) (p : Preset) : (State.applyPreset s p).blank S = s.blank S := by
  simp [State.applyPreset, foldl_blank, h_cal, h_fab, h_mgp, h_cnt]

@[simp] theorem State.presetsNow_blank (h_cal : S .cal = true) (h_fab : S .fab = true) (h_mgp : S .mgp = true)
    (h_cnt : S .cnt = true) (s : State) : (State.presetsNow s).blank S = s.blank S := by
  simp [State.presetsNow, foldl_blank, h_cal, h_fab, h_mgp, h_cnt]

@[simp] theorem State.countEdge_blank (h_cnt : S .cnt = true) (s : State) : (State.countEdge s).blank S = s.blank S
    := by
  simp [State.countEdge, h_cnt]

@[simp] theorem State.latch_blank (h_cnt : S .cnt = true) (s : State) : (State.latch s).blank S = s.blank S := by
  simp [State.latch, h_cnt]

@[simp] theorem State.writeImage_blank (h_sticky : S .sticky = true) (h_mgp : S .mgp = true) (h_cnt : S .cnt = true)
    (s : State) (r : Nat) (src : Nat) (latch : Nat) (flags : Nat) (dev : Word) (secs : List Section) :
    (State.writeImage s r src latch flags dev secs).blank S = s.blank S := by
  simp [State.writeImage, h_sticky, h_mgp, h_cnt]

@[simp] theorem State.dropDumpOps_blank (h_mgp : S .mgp = true) (s : State) (q : Nat) (r : Nat) (seq : Nat) :
    (State.dropDumpOps s q r seq).blank S = s.blank S := by
  simp [State.dropDumpOps, h_mgp]

@[simp] theorem State.abandonImg_blank (h_mgp : S .mgp = true) (h_cnt : S .cnt = true) (s : State) (r : Nat)
    (i : DumpImg) : (State.abandonImg s r i).blank S = s.blank S := by
  simp [State.abandonImg, h_mgp, h_cnt]

@[simp] theorem State.abandonDumps_blank (h_mgp : S .mgp = true) (h_cnt : S .cnt = true) (s : State) (r : Nat) :
    (s.abandonDumps r).blank S = s.blank S := by
  unfold State.abandonDumps
  dsimp only
  rw [State.setDump_blank h_cnt]
  exact foldl_blank (fun s i => State.abandonImg_blank h_mgp h_cnt s r i) _ _

@[simp] theorem State.startImage_blank (h_sticky : S .sticky = true) (h_fab : S .fab = true) (h_mgp : S .mgp = true)
    (h_cnt : S .cnt = true) (s : State) (p : Nat) (r : Nat) : (State.startImage s p r).blank S = s.blank S := by
  simp [State.startImage, foldl_blank, h_sticky, h_fab, h_mgp, h_cnt]

theorem execDumpImageStart_blank (h_sticky : S .sticky = true) (h_fab : S .fab = true) (h_mgp : S .mgp = true)
    (h_cnt : S .cnt = true) (principal : Fin 65) (s : State) : ∀ t,
    (execDumpImageStart principal s) = .next t → t.blank S = s.blank S := by
  unfold execDumpImageStart
  refine whenFw_blank ?_
  repeat' split
  all_goals simp [foldl_blank, h_sticky, h_fab, h_mgp, h_cnt]

@[simp] theorem State.takeDump_blank (h_sticky : S .sticky = true) (h_mgp : S .mgp = true) (h_cnt : S .cnt = true)
    (s : State) (src : Nat) (flags : Nat) (dev : Word) (p : Nat) (latch : Nat) (off : Nat) (data : List Byte) :
    (State.takeDump s src flags dev p latch off data).blank S = s.blank S := by
  unfold State.takeDump
  dsimp only
  repeat' split
  all_goals simp [h_sticky, h_mgp, h_cnt]

theorem execMateDump_blank (h_sticky : S .sticky = true) (h_flp : S .flp = true) (h_cal : S .cal = true)
    (h_fab : S .fab = true) (h_mgp : S .mgp = true) (h_cnt : S .cnt = true) (hd : FabHdr) (principal : Nat)
    (latchTn : Nat) (offset : Nat) (data : List Byte) (s : State) : ∀ t,
    (execMateDump hd principal latchTn offset data s) = .next t → t.blank S = s.blank S := by
  unfold execMateDump
  refine whenFw_blank ?_
  split
  · exact State.fabTake_blank h_sticky h_flp h_cal h_fab h_mgp h_cnt _ _ _ _ _ (by intro s; (try dsimp only); (repeat'
    split) <;> simp [h_sticky, h_mgp, h_cnt])
  · rfl

@[simp] theorem effDumpConfig_blank (h_cnt : S .cnt = true) (x0 : Nat) (x1 : JEntry) (s : State) :
    (effDumpConfig x0 x1 s).blank S = s.blank S := by
  simp [effDumpConfig, h_cnt]

theorem execDumpConfig_blank (h_cal : S .cal = true) (h_fab : S .fab = true) (h_mgp : S .mgp = true)
    (h_cnt : S .cnt = true) (h : Nat) (s : State) : ∀ t, (execDumpConfig h s) = .next t → t.blank S = s.blank S := by
  unfold execDumpConfig
  refine next_blank ?_
  exact State.runCmd_blank h_cal h_fab h_mgp h_cnt _ _ _ _ _ (by simp [h_cnt])

@[simp] theorem State.setDumpCfg_blank (h_cnt : S .cnt = true) (s : State) (r : Nat) (c : DumpCfg) :
    (State.setDumpCfg s r c).blank S = s.blank S := by
  simp [State.setDumpCfg, h_cnt]

@[simp] theorem State.applyDumpCfg_blank (h_cal : S .cal = true) (h_fab : S .fab = true) (h_mgp : S .mgp = true)
    (h_cnt : S .cnt = true) (s : State) (c : DumpCfg) : (State.applyDumpCfg s c).blank S = s.blank S := by
  unfold State.applyDumpCfg
  split <;> simp [h_cal, h_fab, h_mgp, h_cnt]

@[simp] theorem State.dumpsNow_blank (h_cal : S .cal = true) (h_fab : S .fab = true) (h_mgp : S .mgp = true)
    (h_cnt : S .cnt = true) (s : State) : (State.dumpsNow s).blank S = s.blank S := by
  simp [State.dumpsNow, foldl_blank, h_cal, h_fab, h_mgp, h_cnt]

@[simp] theorem State.dumpSkip_blank (h_mgp : S .mgp = true) (h_cnt : S .cnt = true) (s : State) (r : Nat) :
    (State.dumpSkip s r).blank S = s.blank S := by
  simp [State.dumpSkip, h_mgp, h_cnt]

@[simp] theorem State.capture_blank (h_clk : S .clk = true) (s : State) (a : Nat) :
    (State.capture s a).blank S = s.blank S := by
  unfold State.capture
  split <;> simp [h_clk]

@[simp] theorem State.readReg_blank (h_clk : S .clk = true) (s : State) (a : Nat) :
    (State.readReg s a).2.blank S = s.blank S := by
  simp [State.readReg, h_clk]

@[simp] theorem State.readRegs_blank (h_clk : S .clk = true) (n : Nat) (s : State) (a : Nat) :
    (State.readRegs s n a).2.blank S = s.blank S := by
  induction n generalizing s a with
  | zero => rfl
  | succ n ih => simp [State.readRegs, ih, h_clk]

theorem execLoRegisterRead_blank (h_clk : S .clk = true) (h_mgp : S .mgp = true) (h_cnt : S .cnt = true) (qp : Fin 16)
    (addr : Nat) (s : State) : ∀ t, (execLoRegisterRead qp addr s) = .next t → t.blank S = s.blank S := by
  unfold execLoRegisterRead
  refine whenFw_blank ?_
  dsimp only
  repeat' split
  all_goals simp [h_clk, h_mgp, h_cnt]

@[simp] theorem State.wake_blank (h_pwr : S .pwr = true) (s : State) (m : Nat) : (State.wake s m).blank S = s.blank S := by
  simp [State.wake, h_pwr]

@[simp] theorem State.mbSend_blank (h_fab : S .fab = true) (s : State) (c : Nat) (ack : Bool) :
    (State.mbSend s c ack).blank S = s.blank S := by
  simp [State.mbSend, h_fab]

@[simp] theorem State.mbPost_blank (h_pwr : S .pwr = true) (h_sticky : S .sticky = true) (h_fab : S .fab = true)
    (h_mbx : S .mbx = true) (h_cnt : S .cnt = true) (s : State) (c : Nat) (us : Nat) (h : Option Nat) :
    (State.mbPost s c us h).blank S = s.blank S := by
  simp [State.mbPost, h_pwr, h_sticky, h_fab, h_mbx, h_cnt]

@[simp] theorem State.mbTaken_blank (h_sticky : S .sticky = true) (h_cal : S .cal = true) (h_fab : S .fab = true)
    (h_mgp : S .mgp = true) (h_mbx : S .mbx = true) (h_cnt : S .cnt = true) (s : State) (c : Nat) :
    (State.mbTaken s c).blank S = s.blank S := by
  unfold State.mbTaken
  dsimp only
  repeat' split
  all_goals simp [h_sticky, h_cal, h_fab, h_mgp, h_mbx, h_cnt]

@[simp] theorem State.mbAck_blank (h_sticky : S .sticky = true) (h_cal : S .cal = true) (h_fab : S .fab = true)
    (h_mgp : S .mgp = true) (h_mbx : S .mbx = true) (h_cnt : S .cnt = true) (s : State) (m : Nat) (c : Nat) :
    (State.mbAck s m c).blank S = s.blank S := by
  simp [State.mbAck, h_sticky, h_cal, h_fab, h_mgp, h_mbx, h_cnt]

@[simp] theorem State.mbCtrlPost_blank (h_pwr : S .pwr = true) (h_sticky : S .sticky = true) (h_fab : S .fab = true)
    (h_mbx : S .mbx = true) (h_cnt : S .cnt = true) (s : State) (m : Nat) (c : Nat) :
    (State.mbCtrlPost s m c).blank S = s.blank S := by
  simp [State.mbCtrlPost, h_pwr, h_sticky, h_fab, h_mbx, h_cnt]

@[simp] theorem State.mbWithdraw_blank (h_cal : S .cal = true) (h_fab : S .fab = true) (h_mgp : S .mgp = true)
    (h_mbx : S .mbx = true) (h_cnt : S .cnt = true) (s : State) (m : Nat) (c : Nat) :
    (State.mbWithdraw s m c).blank S = s.blank S := by
  unfold State.mbWithdraw
  dsimp only
  repeat' split
  all_goals simp [h_cal, h_fab, h_mgp, h_mbx, h_cnt]

@[simp] theorem State.setCross_blank (h_pwr : S .pwr = true) (h_sticky : S .sticky = true) (s : State) (c : Nat) :
    (State.setCross s c).blank S = s.blank S := by
  simp [State.setCross, h_pwr, h_sticky]

@[simp] theorem State.crossCheck_blank (h_pwr : S .pwr = true) (h_sticky : S .sticky = true) (s : State) (c : Nat) :
    (State.crossCheck s c).blank S = s.blank S := by
  unfold State.crossCheck
  dsimp only
  repeat' split
  all_goals simp [h_pwr, h_sticky]

@[simp] theorem State.mbWait_blank (h_pwr : S .pwr = true) (h_sticky : S .sticky = true) (h_mbx : S .mbx = true)
    (s : State) (m : Nat) (c : Nat) : (State.mbWait s m c).blank S = s.blank S := by
  simp [State.mbWait, h_pwr, h_sticky, h_mbx]

@[simp] theorem State.mbCtrl_blank (h_pwr : S .pwr = true) (h_sticky : S .sticky = true) (h_cal : S .cal = true)
    (h_fab : S .fab = true) (h_mgp : S .mgp = true) (h_mbx : S .mbx = true) (h_cnt : S .cnt = true) (s : State)
    (m : Nat) (c : Nat) (v : Word) : (State.mbCtrl s m c v).blank S = s.blank S := by
  simp [State.mbCtrl, h_pwr, h_sticky, h_cal, h_fab, h_mgp, h_mbx, h_cnt]

@[simp] theorem State.mbSlot_blank (h_mbx : S .mbx = true) (s : State) (m : Nat) (c : Nat) (w : Nat) (v : Word) :
    (State.mbSlot s m c w v).blank S = s.blank S := by
  simp [State.mbSlot, h_mbx]

@[simp] theorem State.mbReset_blank (h_pwr : S .pwr = true) (h_mbx : S .mbx = true) (s : State) (ms : List Nat) :
    (State.mbReset s ms).blank S = s.blank S := by
  simp [State.mbReset, foldl_blank, h_pwr, h_mbx]

@[simp] theorem State.mbBlockReset_blank (h_sticky : S .sticky = true) (h_cal : S .cal = true) (h_fab : S .fab = true)
    (h_mgp : S .mgp = true) (h_mbx : S .mbx = true) (h_cnt : S .cnt = true) (s : State) :
    (State.mbBlockReset s).blank S = s.blank S := by
  simp [State.mbBlockReset, foldl_blank, h_sticky, h_cal, h_fab, h_mgp, h_mbx, h_cnt]

@[simp] theorem State.mbxMsg_blank (h_pwr : S .pwr = true) (h_sticky : S .sticky = true) (h_cal : S .cal = true)
    (h_fab : S .fab = true) (h_mgp : S .mgp = true) (h_mbx : S .mbx = true) (h_cnt : S .cnt = true) (s : State)
    (origin : Word) (c : Nat) (fl : Byte) (msg : List Byte) : (State.mbxMsg s origin c fl msg).blank S = s.blank S := by
  simp [State.mbxMsg, h_pwr, h_sticky, h_cal, h_fab, h_mgp, h_mbx, h_cnt]

@[simp] theorem effMbxPost_blank (h_pwr : S .pwr = true) (h_sticky : S .sticky = true) (h_cal : S .cal = true)
    (h_fab : S .fab = true) (h_mgp : S .mgp = true) (h_mbx : S .mbx = true) (h_cnt : S .cnt = true) (x0 : Nat)
    (x1 : JEntry) (s : State) : (effMbxPost x0 x1 s).blank S = s.blank S := by
  simp [effMbxPost, h_pwr, h_sticky, h_cal, h_fab, h_mgp, h_mbx, h_cnt]

theorem execMbxPost_blank (h_pwr : S .pwr = true) (h_sticky : S .sticky = true) (h_cal : S .cal = true)
    (h_fab : S .fab = true) (h_mgp : S .mgp = true) (h_mbx : S .mbx = true) (h_cnt : S .cnt = true) (h : Nat)
    (s : State) : ∀ t, (execMbxPost h s) = .next t → t.blank S = s.blank S := by
  unfold execMbxPost
  refine next_blank ?_
  exact State.runCmd_blank h_cal h_fab h_mgp h_cnt _ _ _ _ _ (by simp [h_pwr, h_sticky, h_cal, h_fab, h_mgp, h_mbx,
    h_cnt])

theorem execMbxCtrlPost_blank (h_pwr : S .pwr = true) (h_sticky : S .sticky = true) (h_fab : S .fab = true)
    (h_mbx : S .mbx = true) (h_cnt : S .cnt = true) (master : Nat) (c : Fin 64) (s : State) : ∀ t,
    (execMbxCtrlPost master c s) = .next t → t.blank S = s.blank S := by
  unfold execMbxCtrlPost
  refine whenUp_blank ?_
  simp [h_pwr, h_sticky, h_fab, h_mbx, h_cnt]

theorem execMbxCtrlAck_blank (h_sticky : S .sticky = true) (h_cal : S .cal = true) (h_fab : S .fab = true)
    (h_mgp : S .mgp = true) (h_mbx : S .mbx = true) (h_cnt : S .cnt = true) (master : Nat) (c : Fin 64)
    (s : State) : ∀ t, (execMbxCtrlAck master c s) = .next t → t.blank S = s.blank S := by
  unfold execMbxCtrlAck
  refine whenUp_blank ?_
  simp [h_sticky, h_cal, h_fab, h_mgp, h_mbx, h_cnt]

theorem execMbxCtrlWait_blank (h_pwr : S .pwr = true) (h_sticky : S .sticky = true) (h_mbx : S .mbx = true)
    (master : Nat) (c : Fin 64) (s : State) : ∀ t, (execMbxCtrlWait master c s) = .next t → t.blank S = s.blank S := by
  unfold execMbxCtrlWait
  refine whenUp_blank ?_
  simp [h_pwr, h_sticky, h_mbx]

theorem execMbxCtrlWithdraw_blank (h_cal : S .cal = true) (h_fab : S .fab = true) (h_mgp : S .mgp = true)
    (h_mbx : S .mbx = true) (h_cnt : S .cnt = true) (master : Nat) (c : Fin 64) (s : State) : ∀ t,
    (execMbxCtrlWithdraw master c s) = .next t → t.blank S = s.blank S := by
  unfold execMbxCtrlWithdraw
  refine whenUp_blank ?_
  simp [h_cal, h_fab, h_mgp, h_mbx, h_cnt]

theorem execMbxTimeout_blank (h_pwr : S .pwr = true) (h_sticky : S .sticky = true) (h_cal : S .cal = true)
    (h_fab : S .fab = true) (h_mgp : S .mgp = true) (h_mbx : S .mbx = true) (h_cnt : S .cnt = true) (c : Fin 64)
    (s : State) : ∀ t, (execMbxTimeout c s) = .next t → t.blank S = s.blank S := by
  unfold execMbxTimeout
  refine whenUp_blank ?_
  repeat' split
  all_goals simp [h_pwr, h_sticky, h_cal, h_fab, h_mgp, h_mbx, h_cnt]

theorem execMbxRemoteRetry_blank (h_fab : S .fab = true) (h_mbx : S .mbx = true) (c : Fin 64) (s : State) : ∀ t,
    (execMbxRemoteRetry c s) = .next t → t.blank S = s.blank S := by
  unfold execMbxRemoteRetry
  refine whenUp_blank ?_
  repeat' split
  all_goals simp [h_fab, h_mbx]

end Sys2Proof.Machine
end

