-- ==== Sys2Proof/Laws/AreaFabric.lean ====
section
/-! SUPPORT. The areas of State that the fabric commands and the commands of lanes may change. -/
namespace Sys2Proof.Machine
open Sys2Proof
variable {S : Area → Bool}

@[simp] theorem State.keyingFailed_blank (h_cal : S .cal = true) (h_fab : S .fab = true) (h_mgp : S .mgp = true)
    (h_cnt : S .cnt = true) (s : State) (l : Link) : (State.keyingFailed s l).blank S = s.blank S := by
  simp [State.keyingFailed, h_cal, h_fab, h_mgp, h_cnt]

@[simp] theorem State.takeHello_blank (h_rnd : S .rnd = true) (h_str : S .str = true) (h_sds : S .sds = true)
    (h_cal : S .cal = true) (h_fab : S .fab = true) (h_mgp : S .mgp = true) (h_cnt : S .cnt = true)
    (h_fresh : S .fresh = true) (s : State) (l : Link) (n : BitVec 256) (e : BitVec 768) :
    (State.takeHello s l n e).blank S = s.blank S := by
  unfold State.takeHello
  repeat' split
  all_goals simp [h_rnd, h_str, h_sds, h_cal, h_fab, h_mgp, h_cnt, h_fresh]

@[simp] theorem State.takePeerQuote_blank (h_cal : S .cal = true) (h_fab : S .fab = true) (h_mgp : S .mgp = true)
    (h_cnt : S .cnt = true) (s : State) (l : Link) (dcertOk : Bool) (bcertOk : Bool) (quoteOk : Bool) (id : Digest)
    (lc : Nat) (owner : Digest) (fw : Digest) (nonce : BitVec 256) :
    (State.takePeerQuote s l dcertOk bcertOk quoteOk id lc owner fw nonce).blank S = s.blank S := by
  unfold State.takePeerQuote
  dsimp only
  repeat' split
  all_goals simp [h_cal, h_fab, h_mgp, h_cnt]

theorem execPeerKeyingMessage_blank (h_rnd : S .rnd = true) (h_str : S .str = true) (h_sds : S .sds = true)
    (h_cal : S .cal = true) (h_fab : S .fab = true) (h_mgp : S .mgp = true) (h_cnt : S .cnt = true)
    (h_fresh : S .fresh = true) (hd : FabHdr) (m : PeerMsg) (s : State) : ∀ t, (execPeerKeyingMessage hd m s) =
    .next t → t.blank S = s.blank S := by
  unfold execPeerKeyingMessage
  refine whenUp_blank ?_
  repeat' split
  all_goals simp [h_rnd, h_str, h_sds, h_cal, h_fab, h_mgp, h_cnt, h_fresh]

theorem execPeerKeyingRetry_blank (h_str : S .str = true) (h_sds : S .sds = true) (h_cal : S .cal = true)
    (h_fab : S .fab = true) (h_mgp : S .mgp = true) (h_cnt : S .cnt = true) (h_fresh : S .fresh = true)
    (link : Link) (s : State) : ∀ t, (execPeerKeyingRetry link s) = .next t → t.blank S = s.blank S := by
  unfold execPeerKeyingRetry
  refine whenUp_blank ?_
  repeat' split
  all_goals simp [h_str, h_sds, h_cal, h_fab, h_mgp, h_cnt, h_fresh]

theorem execDelayReq_blank (h_sticky : S .sticky = true) (h_flp : S .flp = true) (h_cal : S .cal = true)
    (h_fab : S .fab = true) (h_mgp : S .mgp = true) (h_cnt : S .cnt = true) (hd : FabHdr) (t2Tick : Nat) (t2Ps : Nat)
    (s : State) : ∀ t, (execDelayReq hd t2Tick t2Ps s) = .next t → t.blank S = s.blank S := by
  unfold execDelayReq
  refine next_blank ?_
  exact State.fabTake_blank h_sticky h_flp h_cal h_fab h_mgp h_cnt _ _ _ _ _ (by intro s; (try dsimp only); (repeat'
    split) <;> simp [h_fab])

@[simp] theorem State.addSample_blank (h_flp : S .flp = true) (h_cal : S .cal = true) (h_fab : S .fab = true)
    (h_mgp : S .mgp = true) (h_cnt : S .cnt = true) (s : State) (l : Link) (d : Nat) : (State.addSample s l d).blank
    S = s.blank S := by
  unfold State.addSample
  split <;> simp [h_flp, h_cal, h_fab, h_mgp, h_cnt]

theorem execDelayResp_blank (h_sticky : S .sticky = true) (h_flp : S .flp = true) (h_cal : S .cal = true)
    (h_fab : S .fab = true) (h_mgp : S .mgp = true) (h_cnt : S .cnt = true) (hd : FabHdr) (reqSerial : Nat) (t2Tick : Nat)
    (t2Ps : Nat) (t3Tick : Nat) (t4Tick : Nat) (t4Ps : Nat) (s : State) : ∀ t,
    (execDelayResp hd reqSerial t2Tick t2Ps t3Tick t4Tick t4Ps s) = .next t → t.blank S = s.blank S := by
  unfold execDelayResp
  refine next_blank ?_
  exact State.fabTake_blank h_sticky h_flp h_cal h_fab h_mgp h_cnt _ _ _ _ _ (by intro s; (try dsimp only); (repeat'
    split) <;> simp [h_flp, h_cal, h_fab, h_mgp, h_cnt])

theorem execDelaySampleTimeout_blank (h_fab : S .fab = true) (link : Link) (s : State) : ∀ t,
    (execDelaySampleTimeout link s) = .next t → t.blank S = s.blank S := by
  unfold execDelaySampleTimeout
  refine whenUp_blank ?_
  simp [h_fab]

@[simp] theorem State.takeTn_blank (h_clk : S .clk = true) (s : State) (v : Nat) :
    (State.takeTn s v).blank S = s.blank S := by
  simp [State.takeTn, h_clk]

theorem execTnAnnounce_blank (h_clk : S .clk = true) (h_sticky : S .sticky = true) (h_flp : S .flp = true)
    (h_cal : S .cal = true) (h_fab : S .fab = true) (h_mgp : S .mgp = true) (h_cnt : S .cnt = true) (hd : FabHdr)
    (tn : Nat) (arrPs : Int) (s : State) : ∀ t, (execTnAnnounce hd tn arrPs s) = .next t → t.blank S = s.blank S := by
  unfold execTnAnnounce
  refine next_blank ?_
  exact State.fabTake_blank h_sticky h_flp h_cal h_fab h_mgp h_cnt _ _ _ _ _ (by intro s; (try dsimp only); (repeat'
    split) <;> simp [h_clk, h_sticky, h_cal, h_fab, h_mgp, h_cnt])

theorem execFlipPropose_blank (h_sticky : S .sticky = true) (h_flp : S .flp = true) (h_cal : S .cal = true)
    (h_fab : S .fab = true) (h_mgp : S .mgp = true) (h_cnt : S .cnt = true) (hd : FabHdr) (flipId : Word) (f : Nat)
    (s : State) : ∀ t, (execFlipPropose hd flipId f s) = .next t → t.blank S = s.blank S := by
  unfold execFlipPropose
  refine next_blank ?_
  exact State.fabTake_blank h_sticky h_flp h_cal h_fab h_mgp h_cnt _ _ _ _ _ (by intro s; (try dsimp only); (repeat'
    split) <;> simp [h_flp, h_cal, h_fab])

theorem execFlipReady_blank (h_sticky : S .sticky = true) (h_flp : S .flp = true) (h_cal : S .cal = true)
    (h_fab : S .fab = true) (h_mgp : S .mgp = true) (h_cnt : S .cnt = true) (hd : FabHdr) (flipId : Word) (status : Nat)
    (reason : Nat) (s : State) : ∀ t, (execFlipReady hd flipId status reason s) = .next t → t.blank S = s.blank S := by
  unfold execFlipReady
  refine next_blank ?_
  exact State.fabTake_blank h_sticky h_flp h_cal h_fab h_mgp h_cnt _ _ _ _ _ (by intro s; (try dsimp only); (repeat'
    split) <;> simp [h_flp, h_cal, h_fab])

theorem execFabFlipCancel_blank (h_sticky : S .sticky = true) (h_flp : S .flp = true) (h_cal : S .cal = true)
    (h_fab : S .fab = true) (h_mgp : S .mgp = true) (h_cnt : S .cnt = true) (hd : FabHdr) (flipId : Word)
    (failId : Word) (s : State) : ∀ t, (execFabFlipCancel hd flipId failId s) = .next t → t.blank S = s.blank S := by
  unfold execFabFlipCancel
  refine next_blank ?_
  exact State.fabTake_blank h_sticky h_flp h_cal h_fab h_mgp h_cnt _ _ _ _ _ (by intro s; (try dsimp only); (repeat'
    split) <;> simp [h_flp, h_cal])

theorem execFlipResult_blank (h_sticky : S .sticky = true) (h_flp : S .flp = true) (h_cal : S .cal = true)
    (h_fab : S .fab = true) (h_mgp : S .mgp = true) (h_cnt : S .cnt = true) (hd : FabHdr) (flipId : Word)
    (committed : Bool) (s : State) : ∀ t, (execFlipResult hd flipId committed s) = .next t → t.blank S = s.blank S := by
  unfold execFlipResult
  refine next_blank ?_
  exact State.fabTake_blank h_sticky h_flp h_cal h_fab h_mgp h_cnt _ _ _ _ _ (by intro s; (try dsimp only); (repeat'
    split) <;> simp [h_flp, h_cal, h_fab, h_mgp, h_cnt])

@[simp] theorem State.resendResult_blank (h_fab : S .fab = true) (s : State) (w : WorkerCmd) (c : CmpEntry) :
    (State.resendResult s w c).blank S = s.blank S := by
  simp [State.resendResult, foldl_blank, h_fab]

@[simp] theorem State.needWcmd_blank (h_fab : S .fab = true) (s : State) (m : Nat) :
    (State.needWcmd s m).blank S = s.blank S := by
  simp [State.needWcmd, h_fab]

@[simp] theorem State.journalRemote_blank (h_cal : S .cal = true) (h_fab : S .fab = true) (h_mgp : S .mgp = true)
    (s : State) (m : Nat) (prin : Nat) (d : Desc) (b : Option Batch) :
    (State.journalRemote s m prin d b).blank S = s.blank S := by
  simp [State.journalRemote, h_cal, h_fab, h_mgp]

theorem execFabCmd_blank (h_sticky : S .sticky = true) (h_flp : S .flp = true) (h_cal : S .cal = true)
    (h_fab : S .fab = true) (h_mgp : S .mgp = true) (h_cnt : S .cnt = true) (hd : FabHdr) (mserial : Nat)
    (principal : Nat) (d : Desc) (sigs : FwSigs) (s : State) : ∀ t,
    (execFabCmd hd mserial principal d sigs s) = .next t → t.blank S = s.blank S := by
  unfold execFabCmd
  refine next_blank ?_
  exact State.fabTake_blank h_sticky h_flp h_cal h_fab h_mgp h_cnt _ _ _ _ _ (by intro s; (try dsimp only); (repeat'
    split) <;> simp [h_cal, h_fab, h_mgp])

theorem execCmdData_blank (h_sticky : S .sticky = true) (h_flp : S .flp = true) (h_cal : S .cal = true)
    (h_fab : S .fab = true) (h_mgp : S .mgp = true) (h_cnt : S .cnt = true) (hd : FabHdr) (mserial : Nat) (offset : Nat)
    (data : List Byte) (s : State) : ∀ t, (execCmdData hd mserial offset data s) = .next t → t.blank S = s.blank S := by
  unfold execCmdData
  refine next_blank ?_
  exact State.fabTake_blank h_sticky h_flp h_cal h_fab h_mgp h_cnt _ _ _ _ _ (by intro s; (try dsimp only); (repeat'
    split) <;> simp [h_fab])

theorem execOutData_blank (h_sticky : S .sticky = true) (h_flp : S .flp = true) (h_cal : S .cal = true)
    (h_fab : S .fab = true) (h_mgp : S .mgp = true) (h_cnt : S .cnt = true) (hd : FabHdr) (mserial : Nat) (offset : Nat)
    (data : List Byte) (s : State) : ∀ t, (execOutData hd mserial offset data s) = .next t → t.blank S = s.blank S := by
  unfold execOutData
  refine next_blank ?_
  exact State.fabTake_blank h_sticky h_flp h_cal h_fab h_mgp h_cnt _ _ _ _ _ (by intro s; (try dsimp only); (repeat'
    split) <;> simp [h_fab, h_mgp, h_cnt])

@[simp] theorem State.noteHolds_blank (h_fab : S .fab = true) (s : State) (w : Word) (e : JEntry) :
    (State.noteHolds s w e).blank S = s.blank S := by
  simp [State.noteHolds, h_fab]

theorem execFabResult_blank (h_sticky : S .sticky = true) (h_flp : S .flp = true) (h_cal : S .cal = true)
    (h_fab : S .fab = true) (h_mgp : S .mgp = true) (h_cnt : S .cnt = true) (hd : FabHdr) (mserial : Nat) (c : CmpEntry)
    (s : State) : ∀ t, (execFabResult hd mserial c s) = .next t → t.blank S = s.blank S := by
  unfold execFabResult
  refine next_blank ?_
  exact State.fabTake_blank h_sticky h_flp h_cal h_fab h_mgp h_cnt _ _ _ _ _ (by intro s; (try dsimp only); (repeat'
    split) <;> simp [h_cal, h_fab, h_mgp, h_cnt])

theorem execFabEvent_blank (h_sticky : S .sticky = true) (h_flp : S .flp = true) (h_cal : S .cal = true)
    (h_fab : S .fab = true) (h_mgp : S .mgp = true) (h_cnt : S .cnt = true) (hd : FabHdr) (principal : Nat)
    (e : EvtEntry) (s : State) : ∀ t, (execFabEvent hd principal e s) = .next t → t.blank S = s.blank S := by
  unfold execFabEvent
  refine next_blank ?_
  exact State.fabTake_blank h_sticky h_flp h_cal h_fab h_mgp h_cnt _ _ _ _ _ (by intro s; (try dsimp only); (repeat'
    split) <;> simp [h_cal, h_fab, h_mgp, h_cnt])

theorem execFabDump_blank (h_sticky : S .sticky = true) (h_flp : S .flp = true) (h_cal : S .cal = true)
    (h_fab : S .fab = true) (h_mgp : S .mgp = true) (h_cnt : S .cnt = true) (hd : FabHdr) (principal : Nat)
    (latchTn : Nat) (offset : Nat) (data : List Byte) (s : State) : ∀ t,
    (execFabDump hd principal latchTn offset data s) = .next t → t.blank S = s.blank S := by
  unfold execFabDump
  refine next_blank ?_
  exact State.fabTake_blank h_sticky h_flp h_cal h_fab h_mgp h_cnt _ _ _ _ _ (by intro s; (try dsimp only); (repeat'
    split) <;> simp [h_sticky, h_mgp, h_cnt])

theorem execFabMbx_blank (h_pwr : S .pwr = true) (h_sticky : S .sticky = true) (h_flp : S .flp = true)
    (h_cal : S .cal = true) (h_fab : S .fab = true) (h_mgp : S .mgp = true) (h_mbx : S .mbx = true)
    (h_cnt : S .cnt = true) (hd : FabHdr) (channel : Fin 64) (flags : Byte) (msg : List Byte) (s : State) : ∀ t,
    (execFabMbx hd channel flags msg s) = .next t → t.blank S = s.blank S := by
  unfold execFabMbx
  refine next_blank ?_
  exact State.fabTake_blank h_sticky h_flp h_cal h_fab h_mgp h_cnt _ _ _ _ _ (by intro s; (try dsimp only); (repeat'
    split) <;> simp [h_pwr, h_sticky, h_cal, h_fab, h_mgp, h_mbx, h_cnt])

theorem execFabStatus_blank (h_sticky : S .sticky = true) (h_flp : S .flp = true) (h_cal : S .cal = true)
    (h_fab : S .fab = true) (h_mgp : S .mgp = true) (h_cnt : S .cnt = true) (hd : FabHdr) (tn : Nat) (st : Nat)
    (defects : BitVec 56) (s : State) : ∀ t, (execFabStatus hd tn st defects s) = .next t → t.blank S = s.blank S := by
  unfold execFabStatus
  refine next_blank ?_
  exact State.fabTake_blank h_sticky h_flp h_cal h_fab h_mgp h_cnt _ _ _ _ _ (by intro s; (try dsimp only); (repeat'
    split) <;> simp [h_fab])

theorem execFabCmdRetry_blank (h_fab : S .fab = true) (h : Nat) (s : State) : ∀ t,
    (execFabCmdRetry h s) = .next t → t.blank S = s.blank S := by
  unfold execFabCmdRetry
  refine whenFw_blank ?_
  repeat' split
  all_goals simp [h_fab]

theorem execFabWorkerLost_blank (h_cal : S .cal = true) (h_fab : S .fab = true) (h_mgp : S .mgp = true)
    (h_cnt : S .cnt = true) (worker : Word) (s : State) : ∀ t,
    (execFabWorkerLost worker s) = .next t → t.blank S = s.blank S := by
  unfold execFabWorkerLost
  refine whenUp_blank ?_
  repeat' split
  all_goals simp [h_cal, h_fab, h_mgp, h_cnt]

theorem execFabCmdAbandon_blank (h_cal : S .cal = true) (h_fab : S .fab = true) (h_mgp : S .mgp = true)
    (h_cnt : S .cnt = true) (h : Nat) (s : State) : ∀ t, (execFabCmdAbandon h s) = .next t → t.blank S = s.blank S := by
  unfold execFabCmdAbandon
  refine whenFw_blank ?_
  repeat' split
  all_goals simp [h_cal, h_fab, h_mgp, h_cnt]

@[simp] theorem State.lsBook_blank (h_sds : S .sds = true) (s : State) (e : JEntry) (g : Nat) :
    (State.lsBook s e g).blank S = s.blank S := by
  simp [State.lsBook, foldl_blank, h_sds]

@[simp] theorem State.moveLane_blank (h_str : S .str = true) (h_sds : S .sds = true) (h_flp : S .flp = true)
    (h_cal : S .cal = true) (h_fab : S .fab = true) (h_mgp : S .mgp = true) (h_cnt : S .cnt = true)
    (h_fresh : S .fresh = true) (s : State) (was : Lane) (e : JEntry) (n : Nat) : (State.moveLane s was e n).blank S
    = s.blank S := by
  unfold State.moveLane
  repeat' split
  all_goals simp [h_str, h_sds, h_flp, h_cal, h_fab, h_mgp, h_cnt, h_fresh]

@[simp] theorem effLaneState_blank (h_str : S .str = true) (h_sds : S .sds = true) (h_frm : S .frm = true)
    (h_whl : S .whl = true) (h_flp : S .flp = true) (h_col : S .col = true) (h_cal : S .cal = true)
    (h_fab : S .fab = true) (h_mgp : S .mgp = true) (h_cnt : S .cnt = true) (h_fresh : S .fresh = true) (x0 : Nat)
    (x1 : JEntry) (s : State) : (effLaneState x0 x1 s).blank S = s.blank S := by
  simp [effLaneState, foldl_blank, h_str, h_sds, h_frm, h_whl, h_flp, h_col, h_cal, h_fab, h_mgp, h_cnt, h_fresh]

theorem execLaneState_blank (h_str : S .str = true) (h_sds : S .sds = true) (h_frm : S .frm = true)
    (h_whl : S .whl = true) (h_flp : S .flp = true) (h_col : S .col = true) (h_cal : S .cal = true)
    (h_fab : S .fab = true) (h_mgp : S .mgp = true) (h_cnt : S .cnt = true) (h_fresh : S .fresh = true) (h : Nat)
    (s : State) : ∀ t, (execLaneState h s) = .next t → t.blank S = s.blank S := by
  unfold execLaneState
  refine next_blank ?_
  exact State.runCmd_blank h_cal h_fab h_mgp h_cnt _ _ _ _ _ (by simp [h_str, h_sds, h_frm, h_whl, h_flp, h_col, h_cal, h_fab, h_mgp, h_cnt, h_fresh])

@[simp] theorem effLaneLoop_blank (h_sds : S .sds = true) (h_cal : S .cal = true) (x0 : Nat) (x1 : JEntry) (s : State) :
    (effLaneLoop x0 x1 s).blank S = s.blank S := by
  simp [effLaneLoop, h_sds, h_cal]

theorem execLaneLoop_blank (h_sds : S .sds = true) (h_cal : S .cal = true) (h_fab : S .fab = true)
    (h_mgp : S .mgp = true) (h_cnt : S .cnt = true) (h : Nat) (s : State) : ∀ t,
    (execLaneLoop h s) = .next t → t.blank S = s.blank S := by
  unfold execLaneLoop
  refine next_blank ?_
  exact State.runCmd_blank h_cal h_fab h_mgp h_cnt _ _ _ _ _ (by simp [h_sds, h_cal])

@[simp] theorem effEyeScan_blank (h_sds : S .sds = true) (x0 : Nat) (x1 : JEntry) (s : State) :
    (effEyeScan x0 x1 s).blank S = s.blank S := by
  simp [effEyeScan, h_sds]

theorem execEyeScan_blank (h_sds : S .sds = true) (h_cal : S .cal = true) (h_fab : S .fab = true)
    (h_mgp : S .mgp = true) (h_cnt : S .cnt = true) (h : Nat) (s : State) : ∀ t,
    (execEyeScan h s) = .next t → t.blank S = s.blank S := by
  unfold execEyeScan
  refine next_blank ?_
  exact State.runCmd_blank h_cal h_fab h_mgp h_cnt _ _ _ _ _ (by simp [h_sds])

end Sys2Proof.Machine
end

