-- ==== Sys2Proof/Laws/AreaPower.lean ====
section
/-! SUPPORT. The areas of State that resets, the boot, restarts and the commands of pairs may change. -/
namespace Sys2Proof.Machine
open Sys2Proof
variable {S : Area → Bool}

@[simp] theorem State.checkTap_blank (h_pwr : S .pwr = true) (s : State) : (State.checkTap s).blank S = s.blank S :=
    by
  simp [State.checkTap, h_pwr]

@[simp] theorem State.applyMove_blank (h_rnd : S .rnd = true) (h_mem : S .mem = true) (s : State) (lc : Lifecycle) :
    (State.applyMove s lc).blank S = s.blank S := by
  unfold State.applyMove
  repeat' split
  all_goals simp [State.blank, h_rnd, h_mem]

@[simp] theorem State.bootToken_blank (h_pwr : S .pwr = true) (h_rnd : S .rnd = true) (h_mem : S .mem = true)
    (s : State) : (State.bootToken s).blank S = s.blank S := by
  unfold State.bootToken
  repeat' split
  all_goals simp [h_pwr, h_rnd, h_mem]

@[simp] theorem State.bootNet_blank (h_pwr : S .pwr = true) (h_regs : S .regs = true) (h_mgp : S .mgp = true)
    (s : State) : (State.bootNet s).blank S = s.blank S := by
  simp [State.bootNet, h_pwr, h_regs, h_mgp]

@[simp] theorem State.runImage_blank (h_rnd : S .rnd = true) (h_mem : S .mem = true) (s : State)
    (x : Option FwImage) : (State.runImage s x).blank S = s.blank S := by
  unfold State.runImage
  split
  · simp [State.blank, h_rnd, h_mem]
  · rfl

@[simp] theorem State.bootKeys_blank (h_rnd : S .rnd = true) (h_cal : S .cal = true) (h_fab : S .fab = true)
    (h_mgp : S .mgp = true) (h_cnt : S .cnt = true) (s : State) : (State.bootKeys s).blank S = s.blank S := by
  simp [State.bootKeys, h_rnd, h_cal, h_fab, h_mgp, h_cnt]

@[simp] theorem State.bootLanes_blank (h_sds : S .sds = true) (s : State) : (State.bootLanes s).blank S = s.blank S := by
  simp [State.bootLanes, h_sds]

@[simp] theorem State.bootFw_blank (h_pwr : S .pwr = true) (h_regs : S .regs = true) (h_sds : S .sds = true)
    (h_mgp : S .mgp = true) (h_mem : S .mem = true) (s : State) : (State.bootFw s).blank S = s.blank S := by
  simp [State.bootFw, foldl_blank, h_pwr, h_regs, h_sds, h_mgp, h_mem]

@[simp] theorem State.bootRom_blank (h_pwr : S .pwr = true) (h_sticky : S .sticky = true) (s : State) :
    (State.bootRom s).blank S = s.blank S := by
  simp [State.bootRom, h_pwr, h_sticky]

@[simp] theorem State.bootImage_blank (h_pwr : S .pwr = true) (h_regs : S .regs = true) (h_rnd : S .rnd = true)
    (h_sds : S .sds = true) (h_cal : S .cal = true) (h_fab : S .fab = true) (h_mgp : S .mgp = true)
    (h_mem : S .mem = true) (h_cnt : S .cnt = true) (s : State) : (State.bootImage s).blank S = s.blank S := by
  simp [State.bootImage, h_pwr, h_regs, h_rnd, h_sds, h_cal, h_fab, h_mgp, h_mem, h_cnt]

@[simp] theorem State.boot_blank (h_pwr : S .pwr = true) (h_regs : S .regs = true) (h_sticky : S .sticky = true)
    (h_rnd : S .rnd = true) (h_sds : S .sds = true) (h_cal : S .cal = true) (h_fab : S .fab = true)
    (h_mgp : S .mgp = true) (h_mem : S .mem = true) (h_cnt : S .cnt = true) (s : State) :
    (State.boot s).blank S = s.blank S := by
  simp [State.boot, h_pwr, h_regs, h_sticky, h_rnd, h_sds, h_cal, h_fab, h_mgp, h_mem, h_cnt]

@[simp] theorem State.provision_blank (h_rnd : S .rnd = true) (s : State) (fused : Option (BitVec 64 × Bool)) :
    (State.provision s fused).blank S = s.blank S := by
  unfold State.provision
  split <;> simp [h_rnd]

@[simp] theorem State.stopEngine_blank (h_mgp : S .mgp = true) (s : State) :
    (State.stopEngine s).blank S = s.blank S := by
  simp [State.stopEngine, h_mgp]

@[simp] theorem State.stopCores_blank (h_pwr : S .pwr = true) (h_mem : S .mem = true) (s : State) :
    (State.stopCores s).blank S = s.blank S := by
  simp [State.stopCores, State.blank, h_pwr, h_mem]

@[simp] theorem State.takeStaged_blank (h_pwr : S .pwr = true) (h_sticky : S .sticky = true) (h_rnd : S .rnd = true)
    (h_mem : S .mem = true) (s : State) : (State.takeStaged s).blank S = s.blank S := by
  unfold State.takeStaged
  dsimp only
  repeat' split
  all_goals (try simp [foldl_blank, foldl_fst_blank, h_pwr, h_sticky, h_rnd, h_mem])
  all_goals simp [foldl_blank, foldl_fst_blank, State.blank, h_pwr, h_sticky, h_rnd, h_mem]

@[simp] theorem State.beginRestart_blank (h_pwr : S .pwr = true) (h_sticky : S .sticky = true) (h_rnd : S .rnd = true)
    (h_mgp : S .mgp = true) (h_mbx : S .mbx = true) (h_mem : S .mem = true) (s : State) (staged : Bool) :
    (State.beginRestart s staged).blank S = s.blank S := by
  simp [State.beginRestart, h_pwr, h_sticky, h_rnd, h_mgp, h_mbx, h_mem]

theorem execTickFault_blank (h_clk : S .clk = true) (h_sticky : S .sticky = true) (h_cal : S .cal = true)
    (h_fab : S .fab = true) (h_mgp : S .mgp = true) (h_cnt : S .cnt = true) (unit : Fin 8) (s : State) : ∀ t,
    (execTickFault unit s) = .next t → t.blank S = s.blank S := by
  unfold execTickFault
  refine whenUp_blank ?_
  simp [h_clk, h_sticky, h_cal, h_fab, h_mgp, h_cnt]

@[simp] theorem State.askBlock_blank (h_pwr : S .pwr = true) (s : State) (i : Nat) :
    (State.askBlock s i).blank S = s.blank S := by
  simp [State.askBlock, h_pwr]

@[simp] theorem State.askGroup_blank (h_pwr : S .pwr = true) (s : State) (g : Nat) :
    (State.askGroup s g).blank S = s.blank S := by
  simp [State.askGroup, h_pwr]

@[simp] theorem State.resetPort_blank (h_mgp : S .mgp = true) (s : State) (p : Nat) :
    (State.resetPort s p).blank S = s.blank S := by
  simp [State.resetPort, foldl_blank, h_mgp]

@[simp] theorem State.resetDumps_blank (h_mgp : S .mgp = true) (h_cnt : S .cnt = true) (s : State) :
    (State.resetDumps s).blank S = s.blank S := by
  simp [State.resetDumps, foldl_blank, h_mgp, h_cnt]

@[simp] theorem State.restartWhisk_blank (h_mem : S .mem = true) (h_rck : S .rck = true) (s : State) (m : Nat) :
    (State.restartWhisk s m).blank S = s.blank S := by
  simp [State.restartWhisk, h_mem, h_rck]

@[simp] theorem State.resetWhisk_blank (h_mem : S .mem = true) (h_rck : S .rck = true) (s : State) :
    (State.resetWhisk s).blank S = s.blank S := by
  simp [State.resetWhisk, foldl_blank, h_mem, h_rck]

@[simp] theorem State.resetCalrin_blank (h_flp : S .flp = true) (h_cal : S .cal = true) (h_fab : S .fab = true)
    (h_mgp : S .mgp = true) (h_cnt : S .cnt = true) (s : State) : (State.resetCalrin s).blank S = s.blank S := by
  simp [State.resetCalrin, h_flp, h_cal, h_fab, h_mgp, h_cnt]

@[simp] theorem State.clearRetimers_blank (h_whl : S .whl = true) (s : State) (n : Nat) :
    (State.clearRetimers s n).blank S = s.blank S := by
  simp [State.clearRetimers, h_whl]

@[simp] theorem State.resetGroup_blank (h_sds : S .sds = true) (h_frm : S .frm = true) (h_whl : S .whl = true)
    (h_flp : S .flp = true) (h_col : S .col = true) (h_cal : S .cal = true) (h_fab : S .fab = true)
    (h_mgp : S .mgp = true) (h_cnt : S .cnt = true) (h_fresh : S .fresh = true) (s : State) (g : Nat) :
    (State.resetGroup s g).blank S = s.blank S := by
  simp [State.resetGroup, foldl_blank, h_sds, h_frm, h_whl, h_flp, h_col, h_cal, h_fab, h_mgp, h_cnt, h_fresh]

@[simp] theorem State.resetBlock_blank (h_sticky : S .sticky = true) (h_flp : S .flp = true) (h_cal : S .cal = true)
    (h_fab : S .fab = true) (h_mgp : S .mgp = true) (h_mbx : S .mbx = true) (h_mem : S .mem = true)
    (h_rck : S .rck = true) (h_cnt : S .cnt = true) (s : State) (i : Nat) : (State.resetBlock s i).blank S = s.blank
    S := by
  unfold State.resetBlock
  split <;> simp [h_sticky, h_flp, h_cal, h_fab, h_mgp, h_mbx, h_mem, h_rck, h_cnt]

@[simp] theorem State.blockResets_blank (h_pwr : S .pwr = true) (h_sticky : S .sticky = true)
    (h_sds : S .sds = true) (h_frm : S .frm = true) (h_whl : S .whl = true) (h_flp : S .flp = true)
    (h_col : S .col = true) (h_cal : S .cal = true) (h_fab : S .fab = true) (h_mgp : S .mgp = true)
    (h_mbx : S .mbx = true) (h_mem : S .mem = true) (h_rck : S .rck = true) (h_cnt : S .cnt = true)
    (h_fresh : S .fresh = true) (s : State) : (State.blockResets s).blank S = s.blank S := by
  simp [State.blockResets, foldl_blank, h_pwr, h_sticky, h_sds, h_frm, h_whl, h_flp, h_col, h_cal, h_fab, h_mgp, h_mbx, h_mem, h_rck, h_cnt, h_fresh]

theorem execMailboxBlockReset_blank (h_pwr : S .pwr = true) (h_mgp : S .mgp = true) (h_cnt : S .cnt = true)
    (qp : Fin 16) (s : State) : ∀ t, (execMailboxBlockReset qp s) = .next t → t.blank S = s.blank S := by
  unfold execMailboxBlockReset
  refine whenFw_blank ?_
  exact State.ownerWrite_blank h_mgp h_cnt _ _ _ (by simp [h_pwr, h_mgp, h_cnt])

theorem execMgmtPortBlockReset_blank (h_pwr : S .pwr = true) (h_mgp : S .mgp = true) (h_cnt : S .cnt = true)
    (qp : Fin 16) (port : Fin 2) (s : State) : ∀ t, (execMgmtPortBlockReset qp port s) = .next t → t.blank S =
    s.blank S := by
  unfold execMgmtPortBlockReset
  refine whenFw_blank ?_
  exact State.ownerWrite_blank h_mgp h_cnt _ _ _ (by simp [h_pwr, h_mgp, h_cnt])

theorem execDumpEngineReset_blank (h_pwr : S .pwr = true) (h_mgp : S .mgp = true) (h_cnt : S .cnt = true)
    (qp : Fin 16) (s : State) : ∀ t, (execDumpEngineReset qp s) = .next t → t.blank S = s.blank S := by
  unfold execDumpEngineReset
  refine whenFw_blank ?_
  exact State.ownerWrite_blank h_mgp h_cnt _ _ _ (by simp [h_pwr, h_mgp, h_cnt])

theorem execWhiskBlockReset_blank (h_pwr : S .pwr = true) (h_mgp : S .mgp = true) (h_cnt : S .cnt = true)
    (qp : Fin 16) (s : State) : ∀ t, (execWhiskBlockReset qp s) = .next t → t.blank S = s.blank S := by
  unfold execWhiskBlockReset
  refine whenFw_blank ?_
  exact State.ownerWrite_blank h_mgp h_cnt _ _ _ (by simp [h_pwr, h_mgp, h_cnt])

theorem execCalrinBlockReset_blank (h_pwr : S .pwr = true) (h_mgp : S .mgp = true) (h_cnt : S .cnt = true)
    (qp : Fin 16) (s : State) : ∀ t, (execCalrinBlockReset qp s) = .next t → t.blank S = s.blank S := by
  unfold execCalrinBlockReset
  refine whenFw_blank ?_
  exact State.ownerWrite_blank h_mgp h_cnt _ _ _ (by simp [h_pwr, h_mgp, h_cnt])

theorem execLaneGroupReset_blank (h_pwr : S .pwr = true) (h_mgp : S .mgp = true) (h_cnt : S .cnt = true)
    (qp : Fin 16) (g : Fin 32) (s : State) : ∀ t, (execLaneGroupReset qp g s) = .next t → t.blank S = s.blank S :=
    by
  unfold execLaneGroupReset
  refine whenFw_blank ?_
  exact State.ownerWrite_blank h_mgp h_cnt _ _ _ (by simp [h_pwr, h_mgp, h_cnt])

theorem execAlertCauseChange_blank (h_pwr : S .pwr = true) (cause : AlertCause) (on : Bool) (rails : Byte)
    (tDie : Byte) (tHbm : Byte) (s : State) : ∀ t,
    (execAlertCauseChange cause on rails tDie tHbm s) = .next t → t.blank S = s.blank S := by
  unfold execAlertCauseChange
  refine next_blank ?_
  simp [h_pwr]

theorem execI2cAccess_blank (h_pwr : S .pwr = true) (addr : BitVec 7) (wr : List Byte) (rd : Nat) (s : State) : ∀ t,
    (execI2cAccess addr wr rd s) = .next t → t.blank S = s.blank S := by
  unfold execI2cAccess
  refine next_blank ?_
  simp [h_pwr]

theorem execJtagInstruction_blank (h_pwr : S .pwr = true) (instr : TapInstr) (s : State) : ∀ t,
    (execJtagInstruction instr s) = .next t → t.blank S = s.blank S := by
  unfold execJtagInstruction
  refine next_blank ?_
  simp [h_pwr]

@[simp] theorem State.dropReqs_blank (h_col : S .col = true) (s : State) (n : Nat) : (State.dropReqs s n).blank S =
    s.blank S := by
  simp [State.dropReqs, h_col]

@[simp] theorem State.freshRetimers_blank (h_whl : S .whl = true) (s : State) (ws : List Nat) :
    (State.freshRetimers s ws).blank S = s.blank S := by
  simp [State.freshRetimers, foldl_blank, h_whl]

@[simp] theorem State.removePair_blank (h_whl : S .whl = true) (h_col : S .col = true) (h_cal : S .cal = true)
    (h_fab : S .fab = true) (h_mgp : S .mgp = true) (h_cnt : S .cnt = true) (s : State) (n : Nat) :
    (State.removePair s n).blank S = s.blank S := by
  simp [State.removePair, foldl_blank, h_whl, h_col, h_cal, h_fab, h_mgp, h_cnt]

@[simp] theorem effPairSet_blank (h_whl : S .whl = true) (h_col : S .col = true) (h_cal : S .cal = true)
    (h_fab : S .fab = true) (h_mgp : S .mgp = true) (h_cnt : S .cnt = true) (x0 : Nat) (x1 : JEntry) (s : State) :
    (effPairSet x0 x1 s).blank S = s.blank S := by
  simp [effPairSet, h_whl, h_col, h_cal, h_fab, h_mgp, h_cnt]

theorem execPairSet_blank (h_whl : S .whl = true) (h_col : S .col = true) (h_cal : S .cal = true)
    (h_fab : S .fab = true) (h_mgp : S .mgp = true) (h_cnt : S .cnt = true) (h : Nat) (s : State) : ∀ t,
    (execPairSet h s) = .next t → t.blank S = s.blank S := by
  unfold execPairSet
  refine next_blank ?_
  exact State.runCmd_blank h_cal h_fab h_mgp h_cnt _ _ _ _ _ (by simp [h_whl, h_col, h_cal, h_fab, h_mgp, h_cnt])

@[simp] theorem effPairCmd_blank (h_col : S .col = true) (h_cal : S .cal = true) (x0 : Nat) (x1 : JEntry) (s : State) :
    (effPairCmd x0 x1 s).blank S = s.blank S := by
  simp [effPairCmd, h_col, h_cal]

theorem execPairCmd_blank (h_col : S .col = true) (h_cal : S .cal = true) (h_fab : S .fab = true)
    (h_mgp : S .mgp = true) (h_cnt : S .cnt = true) (h : Nat) (s : State) : ∀ t,
    (execPairCmd h s) = .next t → t.blank S = s.blank S := by
  unfold execPairCmd
  refine next_blank ?_
  exact State.runCmd_blank h_cal h_fab h_mgp h_cnt _ _ _ _ _ (by simp [h_col, h_cal])

end Sys2Proof.Machine
end

