-- ==== Sys2Proof/Laws/AreaPeriods.lean ====
section
/-! SUPPORT. The areas of State that the periods may change. -/
namespace Sys2Proof.Machine
open Sys2Proof
variable {S : Area → Bool}

@[simp] theorem State.sendOn_blank (h_fab : S .fab = true) (s : State) (ls : List Link) (y2 : Nat) :
    (State.sendOn s ls y2).blank S = s.blank S := by
  simp [State.sendOn, foldl_blank, h_fab]

@[simp] theorem State.announceTn_blank (h_fab : S .fab = true) (s : State) :
    (State.announceTn s).blank S = s.blank S := by
  simp [State.announceTn, h_fab]

@[simp] theorem State.second_blank (h_clk : S .clk = true) (h_str : S .str = true) (h_fab : S .fab = true)
    (h_mgp : S .mgp = true) (h_cnt : S .cnt = true) (s : State) : (State.second s).blank S = s.blank S := by
  simp [State.second, foldl_blank, h_clk, h_str, h_fab, h_mgp, h_cnt]

@[simp] theorem State.secondNow_blank (h_clk : S .clk = true) (h_str : S .str = true) (h_fab : S .fab = true)
    (h_mgp : S .mgp = true) (h_cnt : S .cnt = true) (s : State) : (State.secondNow s).blank S = s.blank S := by
  simp [State.secondNow, h_clk, h_str, h_fab, h_mgp, h_cnt]

@[simp] theorem State.sleepCores_blank (h_pwr : S .pwr = true) (s : State) :
    (State.sleepCores s).blank S = s.blank S := by
  simp [State.sleepCores, h_pwr]

@[simp] theorem State.fabPeriod_blank (h_fab : S .fab = true) (h_fresh : S .fresh = true) (s : State) :
    (State.fabPeriod s).blank S = s.blank S := by
  simp [State.fabPeriod, h_fab, h_fresh]

@[simp] theorem State.diffPeriod_blank (h_cal : S .cal = true) (s : State) :
    (State.diffPeriod s).blank S = s.blank S := by
  simp [State.diffPeriod, h_cal]

@[simp] theorem State.period_blank (h_clk : S .clk = true) (h_pwr : S .pwr = true) (h_sticky : S .sticky = true)
    (h_str : S .str = true) (h_sds : S .sds = true) (h_frm : S .frm = true) (h_col : S .col = true)
    (h_cal : S .cal = true) (h_fab : S .fab = true) (h_mgp : S .mgp = true) (h_rck : S .rck = true)
    (h_cnt : S .cnt = true) (h_nrg : S .nrg = true) (h_fresh : S .fresh = true) (s : State) (m : PeriodIn) :
    (State.period s m).blank S = s.blank S := by
  simp [State.period, h_clk, h_pwr, h_sticky, h_str, h_sds, h_frm, h_col, h_cal, h_fab, h_mgp, h_rck, h_cnt, h_nrg,
    h_fresh]

end Sys2Proof.Machine
end

