-- ==== Sys2Proof/Laws/AreaBoundary.lean ====
section
/-! SUPPORT. Which areas the boundary actions, slot processing, map writes and the seal of a tick may change. -/
namespace Sys2Proof.Machine
variable {S : Area → Bool}

@[simp] theorem State.startFrame_blank (h_frm : S .frm = true) (h_fab : S .fab = true) (s : State) (n : Nat) :
    (s.startFrame n).blank S = s.blank S := by
  unfold State.startFrame
  refine (State.setTx_blank ?_ _ _ _).trans (State.linkFragment_blank h_frm h_fab _ _ _ _ _ _ _ _)
  exact h_frm

@[simp] theorem State.txTick_blank (h_frm : S .frm = true) (h_fab : S .fab = true) (s : State) (n : Nat) :
    (State.txTick s n).blank S = s.blank S := by
  simp [State.txTick, h_frm, h_fab]

@[simp] theorem State.loopTick_blank (h_sticky : S .sticky = true) (h_str : S .str = true) (h_sds : S .sds = true)
    (h_frm : S .frm = true) (h_whl : S .whl = true) (h_col : S .col = true) (h_cal : S .cal = true)
    (h_fab : S .fab = true) (h_mgp : S .mgp = true) (h_cnt : S .cnt = true) (h_fresh : S .fresh = true) (s : State)
    (n : Nat) : (State.loopTick s n).blank S = s.blank S := by
  unfold State.loopTick
  repeat' split
  all_goals simp [-List.reduceReplicate, h_sticky, h_str, h_sds, h_frm, h_whl, h_col, h_cal, h_fab, h_mgp, h_cnt, h_fresh]

@[simp] theorem State.wheelTick_blank (h_whl : S .whl = true) (h_cnt : S .cnt = true) (s : State) (w : Nat) :
    (State.wheelTick s w).blank S = s.blank S := by
  simp [State.wheelTick, h_whl, h_cnt]

@[simp] theorem State.retimeAll_blank (h_whl : S .whl = true) (h_col : S .col = true) (h_cal : S .cal = true)
    (h_fab : S .fab = true) (h_mgp : S .mgp = true) (h_cnt : S .cnt = true) (s : State) :
    (State.retimeAll s).blank S = s.blank S := by
  simp [State.retimeAll, foldl_blank, h_whl, h_col, h_cal, h_fab, h_mgp, h_cnt]

@[simp] theorem State.slots_blank (h_clk : S .clk = true) (h_sticky : S .sticky = true) (h_str : S .str = true)
    (h_sds : S .sds = true) (h_frm : S .frm = true) (h_whl : S .whl = true) (h_col : S .col = true)
    (h_cal : S .cal = true) (h_fab : S .fab = true) (h_mgp : S .mgp = true) (h_cnt : S .cnt = true)
    (h_fresh : S .fresh = true) (s : State) : (State.slots s).blank S = s.blank S := by
  simp [State.slots, foldl_blank, h_clk, h_sticky, h_str, h_sds, h_frm, h_whl, h_col, h_cal, h_fab, h_mgp, h_cnt, h_fresh]


@[simp] theorem State.slotsNow_blank (h_clk : S .clk = true) (h_sticky : S .sticky = true) (h_str : S .str = true)
    (h_sds : S .sds = true) (h_frm : S .frm = true) (h_whl : S .whl = true) (h_col : S .col = true)
    (h_cal : S .cal = true) (h_fab : S .fab = true) (h_mgp : S .mgp = true) (h_cnt : S .cnt = true)
    (h_fresh : S .fresh = true) (s : State) : (State.slotsNow s).blank S = s.blank S := by
  simp [State.slotsNow, h_clk, h_sticky, h_str, h_sds, h_frm, h_whl, h_col, h_cal, h_fab, h_mgp, h_cnt, h_fresh]

@[simp] theorem State.cycle0_blank (h_sds : S .sds = true) (h_frm : S .frm = true) (h_whl : S .whl = true)
    (h_hrp : S .hrp = true) (h_flp : S .flp = true) (h_col : S .col = true) (h_cal : S .cal = true)
    (h_fab : S .fab = true) (h_mgp : S .mgp = true) (h_cnt : S .cnt = true) (h_fresh : S .fresh = true) (s : State)
    : (State.cycle0 s).blank S = s.blank S := by
  simp [State.cycle0, h_sds, h_frm, h_whl, h_hrp, h_flp, h_col, h_cal, h_fab, h_mgp, h_cnt, h_fresh]

@[simp] theorem State.cycle1_blank (h_clk : S .clk = true) (h_str : S .str = true) (h_sds : S .sds = true)
    (h_frm : S .frm = true) (h_whl : S .whl = true) (h_hrp : S .hrp = true) (h_flp : S .flp = true)
    (h_col : S .col = true) (h_cal : S .cal = true) (h_fab : S .fab = true) (h_mgp : S .mgp = true)
    (h_cnt : S .cnt = true) (h_fresh : S .fresh = true) (s : State) : (State.cycle1 s).blank S = s.blank S := by
  simp [State.cycle1, h_clk, h_str, h_sds, h_frm, h_whl, h_hrp, h_flp, h_col, h_cal, h_fab, h_mgp, h_cnt, h_fresh]

@[simp] theorem State.boundary_blank (h_clk : S .clk = true) (h_regs : S .regs = true) (h_str : S .str = true)
    (h_sds : S .sds = true) (h_frm : S .frm = true) (h_whl : S .whl = true) (h_hrp : S .hrp = true)
    (h_flp : S .flp = true) (h_col : S .col = true) (h_cal : S .cal = true) (h_fab : S .fab = true)
    (h_mgp : S .mgp = true) (h_cnt : S .cnt = true) (h_fresh : S .fresh = true) (s : State) :
    (State.boundary s).blank S = s.blank S := by
  simp [State.boundary, h_clk, h_regs, h_str, h_sds, h_frm, h_whl, h_hrp, h_flp, h_col, h_cal, h_fab, h_mgp, h_cnt,
    h_fresh]

@[simp] theorem State.finish_blank (h_clk : S .clk = true) (h_regs : S .regs = true) (h_sticky : S .sticky = true)
    (h_str : S .str = true) (h_sds : S .sds = true) (h_frm : S .frm = true) (h_whl : S .whl = true)
    (h_hrp : S .hrp = true) (h_flp : S .flp = true) (h_col : S .col = true) (h_cal : S .cal = true)
    (h_fab : S .fab = true) (h_mgp : S .mgp = true) (h_cnt : S .cnt = true) (h_fresh : S .fresh = true) (s : State)
    : (State.finish s).blank S = s.blank S := by
  simp [State.finish, h_clk, h_regs, h_sticky, h_str, h_sds, h_frm, h_whl, h_hrp, h_flp, h_col, h_cal, h_fab, h_mgp,
    h_cnt, h_fresh]

theorem execLaneLoopApply_blank (h_sds : S .sds = true) (h_frm : S .frm = true) (h_whl : S .whl = true)
    (h_hrp : S .hrp = true) (h_flp : S .flp = true) (h_col : S .col = true) (h_cal : S .cal = true)
    (h_fab : S .fab = true) (h_mgp : S .mgp = true) (h_cnt : S .cnt = true) (h_fresh : S .fresh = true)
    (lane : Fin 256) (s : State) : ∀ t, execLaneLoopApply lane s = .next t → t.blank S = s.blank S := by
  unfold execLaneLoopApply
  refine whenUp_blank ?_
  simp [h_sds, h_frm, h_whl, h_hrp, h_flp, h_col, h_cal, h_fab, h_mgp, h_cnt, h_fresh]

theorem execSecondBoundary_blank (h_clk : S .clk = true) (h_str : S .str = true) (h_sds : S .sds = true)
    (h_frm : S .frm = true) (h_whl : S .whl = true) (h_hrp : S .hrp = true) (h_flp : S .flp = true)
    (h_col : S .col = true) (h_cal : S .cal = true) (h_fab : S .fab = true) (h_mgp : S .mgp = true)
    (h_cnt : S .cnt = true) (h_fresh : S .fresh = true) (s : State) : ∀ t, execSecondBoundary s = .next t → t.blank
    S = s.blank S := by
  unfold execSecondBoundary
  refine whenUp_blank ?_
  simp [h_clk, h_str, h_sds, h_frm, h_whl, h_hrp, h_flp, h_col, h_cal, h_fab, h_mgp, h_cnt, h_fresh]

theorem execCounterPresetApply_blank (h_clk : S .clk = true) (h_str : S .str = true) (h_sds : S .sds = true)
    (h_frm : S .frm = true) (h_whl : S .whl = true) (h_hrp : S .hrp = true) (h_flp : S .flp = true)
    (h_col : S .col = true) (h_cal : S .cal = true) (h_fab : S .fab = true) (h_mgp : S .mgp = true)
    (h_cnt : S .cnt = true) (h_fresh : S .fresh = true) (s : State) : ∀ t, execCounterPresetApply s = .next t →
    t.blank S = s.blank S := by
  unfold execCounterPresetApply
  refine whenUp_blank ?_
  simp [h_clk, h_str, h_sds, h_frm, h_whl, h_hrp, h_flp, h_col, h_cal, h_fab, h_mgp, h_cnt, h_fresh]

theorem execDumpConfigApply_blank (h_clk : S .clk = true) (h_str : S .str = true) (h_sds : S .sds = true)
    (h_frm : S .frm = true) (h_whl : S .whl = true) (h_hrp : S .hrp = true) (h_flp : S .flp = true)
    (h_col : S .col = true) (h_cal : S .cal = true) (h_fab : S .fab = true) (h_mgp : S .mgp = true)
    (h_cnt : S .cnt = true) (h_fresh : S .fresh = true) (s : State) : ∀ t, execDumpConfigApply s = .next t → t.blank
    S = s.blank S := by
  unfold execDumpConfigApply
  refine whenUp_blank ?_
  simp [h_clk, h_str, h_sds, h_frm, h_whl, h_hrp, h_flp, h_col, h_cal, h_fab, h_mgp, h_cnt, h_fresh]

theorem execRefConfigApply_blank (h_clk : S .clk = true) (h_regs : S .regs = true) (h_str : S .str = true)
    (h_sds : S .sds = true) (h_frm : S .frm = true) (h_whl : S .whl = true) (h_hrp : S .hrp = true)
    (h_flp : S .flp = true) (h_col : S .col = true) (h_cal : S .cal = true) (h_fab : S .fab = true)
    (h_mgp : S .mgp = true) (h_cnt : S .cnt = true) (h_fresh : S .fresh = true) (s : State) : ∀ t,
    execRefConfigApply s = .next t → t.blank S = s.blank S := by
  unfold execRefConfigApply
  refine whenUp_blank ?_
  simp [h_clk, h_regs, h_str, h_sds, h_frm, h_whl, h_hrp, h_flp, h_col, h_cal, h_fab, h_mgp, h_cnt, h_fresh]

theorem execRefForceApply_blank (h_clk : S .clk = true) (h_str : S .str = true) (h_sds : S .sds = true)
    (h_frm : S .frm = true) (h_whl : S .whl = true) (h_hrp : S .hrp = true) (h_flp : S .flp = true)
    (h_col : S .col = true) (h_cal : S .cal = true) (h_fab : S .fab = true) (h_mgp : S .mgp = true)
    (h_cnt : S .cnt = true) (h_fresh : S .fresh = true) (s : State) : ∀ t, execRefForceApply s = .next t → t.blank S
    = s.blank S := by
  unfold execRefForceApply
  refine whenUp_blank ?_
  simp [h_clk, h_str, h_sds, h_frm, h_whl, h_hrp, h_flp, h_col, h_cal, h_fab, h_mgp, h_cnt, h_fresh]

theorem execSelectionPeriodBoundary_blank (h_clk : S .clk = true) (h_pwr : S .pwr = true) (h_regs : S .regs = true)
    (h_sticky : S .sticky = true) (h_str : S .str = true) (h_sds : S .sds = true) (h_frm : S .frm = true)
    (h_whl : S .whl = true) (h_hrp : S .hrp = true) (h_flp : S .flp = true) (h_col : S .col = true)
    (h_cal : S .cal = true) (h_fab : S .fab = true) (h_mgp : S .mgp = true) (h_rck : S .rck = true)
    (h_cnt : S .cnt = true) (h_nrg : S .nrg = true) (h_fresh : S .fresh = true) (m : PeriodIn) (s : State) : ∀ t,
    execSelectionPeriodBoundary m s = .next t → t.blank S = s.blank S := by
  unfold execSelectionPeriodBoundary
  refine whenUp_blank ?_
  simp [h_clk, h_pwr, h_regs, h_sticky, h_str, h_sds, h_frm, h_whl, h_hrp, h_flp, h_col, h_cal, h_fab, h_mgp, h_rck,
    h_cnt, h_nrg, h_fresh]

theorem execPhaseStepApply_blank (h_clk : S .clk = true) (h_regs : S .regs = true) (h_str : S .str = true)
    (h_sds : S .sds = true) (h_frm : S .frm = true) (h_whl : S .whl = true) (h_hrp : S .hrp = true)
    (h_flp : S .flp = true) (h_col : S .col = true) (h_cal : S .cal = true) (h_fab : S .fab = true)
    (h_mgp : S .mgp = true) (h_cnt : S .cnt = true) (h_fresh : S .fresh = true) (s : State) : ∀ t,
    execPhaseStepApply s = .next t → t.blank S = s.blank S := by
  unfold execPhaseStepApply
  refine whenUp_blank ?_
  simp [h_clk, h_regs, h_str, h_sds, h_frm, h_whl, h_hrp, h_flp, h_col, h_cal, h_fab, h_mgp, h_cnt, h_fresh]

theorem execSlotProcessing_blank (h_clk : S .clk = true) (h_regs : S .regs = true) (h_sticky : S .sticky = true)
    (h_str : S .str = true) (h_sds : S .sds = true) (h_frm : S .frm = true) (h_whl : S .whl = true)
    (h_hrp : S .hrp = true) (h_flp : S .flp = true) (h_col : S .col = true) (h_cal : S .cal = true)
    (h_fab : S .fab = true) (h_mgp : S .mgp = true) (h_cnt : S .cnt = true) (h_fresh : S .fresh = true) (s : State)
    : ∀ t, execSlotProcessing s = .next t → t.blank S = s.blank S := by
  unfold execSlotProcessing
  refine whenUp_blank ?_
  simp [h_clk, h_regs, h_sticky, h_str, h_sds, h_frm, h_whl, h_hrp, h_flp, h_col, h_cal, h_fab, h_mgp, h_cnt, h_fresh]

theorem execMapWriteExecute_blank (h_clk : S .clk = true) (h_regs : S .regs = true) (h_sticky : S .sticky = true)
    (h_str : S .str = true) (h_sds : S .sds = true) (h_frm : S .frm = true) (h_whl : S .whl = true)
    (h_hrp : S .hrp = true) (h_flp : S .flp = true) (h_col : S .col = true) (h_cal : S .cal = true)
    (h_fab : S .fab = true) (h_mgp : S .mgp = true) (h_cnt : S .cnt = true) (h_fresh : S .fresh = true) (s : State)
    : ∀ t, execMapWriteExecute s = .next t → t.blank S = s.blank S := by
  unfold execMapWriteExecute
  refine next_blank ?_
  simp [h_clk, h_regs, h_sticky, h_str, h_sds, h_frm, h_whl, h_hrp, h_flp, h_col, h_cal, h_fab, h_mgp, h_cnt, h_fresh]

theorem execLadleRecordSeal_blank (h_clk : S .clk = true) (h_regs : S .regs = true) (h_sticky : S .sticky = true)
    (h_str : S .str = true) (h_sds : S .sds = true) (h_frm : S .frm = true) (h_whl : S .whl = true)
    (h_hrp : S .hrp = true) (h_flp : S .flp = true) (h_col : S .col = true) (h_cal : S .cal = true)
    (h_fab : S .fab = true) (h_mgp : S .mgp = true) (h_cnt : S .cnt = true) (h_fresh : S .fresh = true) (s : State)
    : ∀ t, execLadleRecordSeal s = .next t → t.blank S = s.blank S := by
  unfold execLadleRecordSeal
  refine whenUp_blank ?_
  simp [h_clk, h_regs, h_sticky, h_str, h_sds, h_frm, h_whl, h_hrp, h_flp, h_col, h_cal, h_fab, h_mgp, h_cnt, h_fresh]

end Sys2Proof.Machine
end

