-- ==== Sys2Proof/Laws/AreaTick.lean ====
section
/-! SUPPORT. The areas of State that register windows, the Rack, ring slots and the tick may change. -/
namespace Sys2Proof.Machine
open Sys2Proof
variable {S : Area → Bool}

@[simp] theorem State.linkBroken_blank (h_flp : S .flp = true) (h_cal : S .cal = true) (h_fab : S .fab = true)
    (h_mgp : S .mgp = true) (h_cnt : S .cnt = true) (s : State) (g : Nat) : (State.linkBroken s g).blank S = s.blank S := by
  simp [State.linkBroken, h_flp, h_cal, h_fab, h_mgp, h_cnt]

@[simp] theorem State.writeFields_blank (h_regs : S .regs = true) (h_sticky : S .sticky = true) (s : State) (a : Nat)
    (v : Word) : (State.writeFields s a v).blank S = s.blank S := by
  simp [State.writeFields, h_regs, h_sticky]

@[simp] theorem State.askBlocks_blank (h_pwr : S .pwr = true) (s : State) (v : Word) :
    (State.askBlocks s v).blank S = s.blank S := by
  simp [State.askBlocks, foldl_blank, h_pwr]

@[simp] theorem State.askGroups_blank (h_pwr : S .pwr = true) (s : State) (v : Word) :
    (State.askGroups s v).blank S = s.blank S := by
  simp [State.askGroups, foldl_blank, h_pwr]

@[simp] theorem State.writeWord_blank (h_clk : S .clk = true) (h_pwr : S .pwr = true) (h_regs : S .regs = true)
    (h_sticky : S .sticky = true) (h_sds : S .sds = true) (h_flp : S .flp = true) (h_col : S .col = true)
    (h_cal : S .cal = true) (h_fab : S .fab = true) (h_mgp : S .mgp = true) (h_mbx : S .mbx = true)
    (h_rck : S .rck = true) (h_cnt : S .cnt = true) (s : State) (a : Nat) (v : Word) :
    (State.writeWord s a v).blank S = s.blank S := by
  simp [State.writeWord, h_clk, h_pwr, h_regs, h_sticky, h_sds, h_flp, h_col, h_cal, h_fab, h_mgp, h_mbx, h_rck, h_cnt]

@[simp] theorem State.readPiece_blank (h_clk : S .clk = true) (h_mgp : S .mgp = true) (h_cnt : S .cnt = true)
    (s : State) (x : Access) : (State.readPiece s x).1.blank S = s.blank S := by
  unfold State.readPiece
  split <;> simp [h_clk, h_mgp, h_cnt]

@[simp] theorem keepPiece_blank (h_mgp : S .mgp = true) (r : State × Option Access) :
    (keepPiece r).blank S = r.1.blank S := by
  unfold keepPiece
  split <;> simp [h_mgp]

@[simp] theorem State.hostRead_blank (h_clk : S .clk = true) (h_mgp : S .mgp = true) (h_cnt : S .cnt = true)
    (s : State) (q : Nat) (rkey : Word) (addr : Nat) (n : Nat) : (State.hostRead s q rkey addr n).blank S = s.blank S := by
  unfold State.hostRead
  repeat' split
  all_goals simp [h_clk, h_mgp, h_cnt]

theorem execRdmaReadRequest_blank (h_clk : S .clk = true) (h_mgp : S .mgp = true) (h_cnt : S .cnt = true)
    (qp : Fin 16) (rkey : Word) (addr : Nat) (len : Nat) (s : State) : ∀ t,
    (execRdmaReadRequest qp rkey addr len s) = .next t → t.blank S = s.blank S := by
  unfold execRdmaReadRequest
  refine whenFw_blank ?_
  simp [h_clk, h_mgp, h_cnt]

theorem execMgmtLinkChange_blank (h_mgp : S .mgp = true) (port : Fin 2) (up : Bool) (s : State) : ∀ t,
    (execMgmtLinkChange port up s) = .next t → t.blank S = s.blank S := by
  unfold execMgmtLinkChange
  refine whenUp_blank ?_
  simp [foldl_blank, h_mgp]

@[simp] theorem State.rackError_blank (h_sticky : S .sticky = true) (h_mem : S .mem = true) (h_rck : S .rck = true)
    (h_cnt : S .cnt = true) (s : State) (master : Nat) (target : Nat) (write : Bool) :
    (State.rackError s master target write).blank S = s.blank S := by
  simp [State.rackError, h_sticky, h_mem, h_rck, h_cnt]

@[simp] theorem State.rackOk_blank (h_mem : S .mem = true) (s : State) (d : List Byte) :
    (State.rackOk s d).blank S = s.blank S := by
  simp [State.rackOk, h_mem]

@[simp] theorem State.memAccess_blank (h_sticky : S .sticky = true) (h_mem : S .mem = true) (h_rck : S .rck = true)
    (h_cnt : S .cnt = true) (s : State) (q : RackReq) : (State.memAccess s q).blank S = s.blank S := by
  simp [State.memAccess, h_sticky, h_mem, h_rck, h_cnt]

@[simp] theorem State.masterWrite_blank (h_clk : S .clk = true) (h_pwr : S .pwr = true) (h_regs : S .regs = true)
    (h_sticky : S .sticky = true) (h_sds : S .sds = true) (h_flp : S .flp = true) (h_col : S .col = true)
    (h_cal : S .cal = true) (h_fab : S .fab = true) (h_mgp : S .mgp = true) (h_mbx : S .mbx = true)
    (h_rck : S .rck = true) (h_cnt : S .cnt = true) (s : State) (m : Nat) (a : Nat) (v : Word) :
    (State.masterWrite s m a v).blank S = s.blank S := by
  simp [State.masterWrite, h_clk, h_pwr, h_regs, h_sticky, h_sds, h_flp, h_col, h_cal, h_fab, h_mgp, h_mbx, h_rck, h_cnt]

@[simp] theorem State.masterWrites_blank (h_clk : S .clk = true) (h_pwr : S .pwr = true) (h_regs : S .regs = true)
    (h_sticky : S .sticky = true) (h_sds : S .sds = true) (h_flp : S .flp = true) (h_col : S .col = true)
    (h_cal : S .cal = true) (h_fab : S .fab = true) (h_mgp : S .mgp = true) (h_mbx : S .mbx = true)
    (h_rck : S .rck = true) (h_cnt : S .cnt = true) (s : State) (m : Nat) (x2 : Nat) (x3 : Nat) (x4 : List Byte) :
    (State.masterWrites s m x2 x3 x4).blank S = s.blank S := by
  fun_induction State.masterWrites <;> simp_all

@[simp] theorem State.diagAccess_blank (h_sticky : S .sticky = true) (h_col : S .col = true) (h_mem : S .mem = true)
    (h_rck : S .rck = true) (h_cnt : S .cnt = true) (h_fresh : S .fresh = true) (s : State) (q : RackReq) :
    (State.diagAccess s q).blank S = s.blank S := by
  simp [State.diagAccess, h_sticky, h_col, h_mem, h_rck, h_cnt, h_fresh]

theorem execPantryOwnerWrite_blank (h_sticky : S .sticky = true) (h_mem : S .mem = true) (h_rck : S .rck = true)
    (h_cnt : S .cnt = true) (master : Nat) (bank : Fin 64) (newOwner : Nat) (s : State) : ∀ t,
    (execPantryOwnerWrite master bank newOwner s) = .next t → t.blank S = s.blank S := by
  unfold execPantryOwnerWrite
  refine whenUp_blank ?_
  simp [h_sticky, h_mem, h_rck, h_cnt]

theorem execPantryAtomic_blank (h_sticky : S .sticky = true) (h_mem : S .mem = true) (h_rck : S .rck = true)
    (h_cnt : S .cnt = true) (master : Nat) (bank : Fin 64) (off : Nat) (swap : Bool) (v : Word64) (stall : Nat) (whisk : Nat)
    (s : State) : ∀ t, (execPantryAtomic master bank off swap v stall whisk s) = .next t → t.blank S = s.blank S := by
  unfold execPantryAtomic
  refine whenUp_blank ?_
  simp [h_sticky, h_mem, h_rck, h_cnt]

theorem execWhiskRegionStart_blank (h_col : S .col = true) (h_rck : S .rck = true) (m : Fin 9) (s : State) : ∀ t,
    (execWhiskRegionStart m s) = .next t → t.blank S = s.blank S := by
  unfold execWhiskRegionStart
  refine whenUp_blank ?_
  simp [h_col, h_rck]

@[simp] theorem State.passEnd_blank (h_col : S .col = true) (h_rck : S .rck = true) (s : State) (m : Nat) :
    (State.passEnd s m).blank S = s.blank S := by
  simp [State.passEnd, h_col, h_rck]

@[simp] theorem State.whiskFault_blank (h_col : S .col = true) (h_cal : S .cal = true) (h_fab : S .fab = true)
    (h_mgp : S .mgp = true) (h_rck : S .rck = true) (h_cnt : S .cnt = true) (s : State) (m : Nat) (r : Nat) :
    (State.whiskFault s m r).blank S = s.blank S := by
  simp [State.whiskFault, h_col, h_cal, h_fab, h_mgp, h_rck, h_cnt]

theorem execWhiskRegionEnd_blank (h_col : S .col = true) (h_cal : S .cal = true) (h_fab : S .fab = true)
    (h_mgp : S .mgp = true) (h_mem : S .mem = true) (h_rck : S .rck = true) (h_cnt : S .cnt = true) (m : Fin 9)
    (failed : Bool) (s : State) : ∀ t, (execWhiskRegionEnd m failed s) = .next t → t.blank S = s.blank S := by
  unfold execWhiskRegionEnd
  refine whenUp_blank ?_
  repeat' split
  all_goals simp [h_col, h_cal, h_fab, h_mgp, h_mem, h_rck, h_cnt]

end Sys2Proof.Machine
end

