-- ==== Sys2Proof/Laws/Hold.lean ====
section
/-! SUPPORT. The held part of State, which most commands leave as it was: the queue, the memories (without the last answer
of the Rack), the set-up registers and their sealed image, fuses, flash, the tables of principals, the map entries and the
latched counters; and what is said about changing one part of it. -/
namespace Sys2Proof.Machine

structure Fuses where
  lc : Lifecycle
  slots : Tab OwnerSlot
  svnFused : Nat
  secretBurned : Bool
  grade : Bool
  serial : Word64

structure MapPart where
  active : Bool := false
  ent0 : Tab Word := []
  ent1 : Tab Word := []

structure Hold where
  pending : List Instr
  mem : Mem
  regs : Tab Word
  sealImg : Option (Tab Word)
  fuses : Fuses
  flash : Flash
  prn : Prn
  map : MapPart
  latched : Tab Counter
  latchTn : Nat

def Mem.body (m : Mem) : Mem := { m with lastOut := [], lastErr := false }
def Rnd.fuses (r : Rnd) : Fuses := ⟨r.lc, r.slots, r.svnFused, r.secretBurned, r.grade, r.serial⟩
def Hrp.part (h : Hrp) : MapPart := ⟨h.active, h.p0.ent, h.p1.ent⟩

def State.hold (s : State) : Hold :=
  ⟨s.pending, s.mem.body, s.regs, s.sealImg, s.rnd.fuses, s.flash, s.prn, s.hrp.part, s.cnt.latched, s.cnt.latchTn⟩

@[simp] theorem Mem.body_mk (a b c d e f g h i j k l m n) :
    Mem.body ⟨a, b, c, d, e, f, g, h, i, j, k, l, m, n⟩ = ⟨a, b, c, d, e, f, g, h, i, j, k, l, [], false⟩ := rfl
@[simp] theorem Mem.body_eta (m : Mem) :
    (⟨m.owner, m.pantry, m.ret, m.sram, m.cave, m.zeroed, m.volZero, m.sramClr, m.caveWr, m.raw, m.rawVol, m.code, [], false⟩ : Mem) = m.body := rfl
@[simp] theorem Rnd.fuses_mk (a b c d e f g h i j k l m n o p q r t) :
    Rnd.fuses ⟨a, b, c, d, e, f, g, h, i, j, k, l, m, n, o, p, q, r, t⟩ = ⟨a, b, c, g, h, i⟩ := rfl
@[simp] theorem Rnd.fuses_eta (r : Rnd) : (⟨r.lc, r.slots, r.svnFused, r.secretBurned, r.grade, r.serial⟩ : Fuses) = r.fuses := rfl
@[simp] theorem Hrp.part_mk (a b c d e f g) : Hrp.part ⟨a, b, c, d, e, f, g⟩ = ⟨a, b.ent, c.ent⟩ := rfl
@[simp] theorem Hrp.part_eta (h : Hrp) : (⟨h.active, h.p0.ent, h.p1.ent⟩ : MapPart) = h.part := rfl

@[simp] theorem State.hold_mk (a b c d e f g h i j k l m n o p q r t u v w x y z a1 b1) :
    State.hold ⟨a, b, c, d, e, f, g, h, i, j, k, l, m, n, o, p, q, r, t, u, v, w, x, y, z, a1, b1⟩
      = ⟨a, w.body, d, g, i.fuses, h, u, n.part, y.latched, y.latchTn⟩ := rfl

@[simp] theorem State.hold_eta (s : State) :
    (⟨s.pending, s.mem.body, s.regs, s.sealImg, s.rnd.fuses, s.flash, s.prn, s.hrp.part, s.cnt.latched, s.cnt.latchTn⟩ : Hold)
      = s.hold := rfl

theorem foldl_hold {α : Type} {g : State → α → State} (hg : ∀ s a, (g s a).hold = s.hold) (l : List α) (s : State) :
    (l.foldl g s).hold = s.hold := by
  induction l generalizing s with
  | nil => rfl
  | cons a t ih => rw [List.foldl_cons, ih, hg]

@[simp] theorem ite_hold (c : Prop) [Decidable c] (a b : State) :
    (if c then a else b).hold = if c then a.hold else b.hold := by split <;> rfl

@[simp] theorem ite_fst_hold {α : Type} (c : Prop) [Decidable c] (a b : State × α) :
    (if c then a else b).1.hold = if c then a.1.hold else b.1.hold := by split <;> rfl


def noFuses : Fuses := ⟨.manufacture, [], 0, false, false, 0⟩
def noFlash : Flash := ⟨⟨false, false, 0⟩, ⟨false, false, 0⟩, [], [], none, none, none⟩

def Hold.noMap (h : Hold) : Hold := { h with map := {} }
def Hold.noMem (h : Hold) : Hold := { h with mem := {} }
def Hold.noRegs (h : Hold) : Hold := { h with regs := [] }
def Hold.noPrn (h : Hold) : Hold := { h with prn := {} }
def Hold.noFuse (h : Hold) : Hold := { h with fuses := noFuses, flash := noFlash }
def Hold.noSeal (h : Hold) : Hold := { h with sealImg := none }
def Hold.noLatch (h : Hold) : Hold := { h with latched := [], latchTn := 0 }

@[simp] theorem Hold.noMap_mk (a b c d e f g i j k) : Hold.noMap ⟨a, b, c, d, e, f, g, i, j, k⟩ = ⟨a, b, c, d, e, f, g, {}, j, k⟩ := rfl
@[simp] theorem Hold.noMap_hold (s : State) : (⟨s.pending, s.mem.body, s.regs, s.sealImg, s.rnd.fuses, s.flash, s.prn, {}, s.cnt.latched, s.cnt.latchTn⟩ : Hold) = s.hold.noMap := rfl
@[simp] theorem Hold.noMem_mk (a b c d e f g i j k) : Hold.noMem ⟨a, b, c, d, e, f, g, i, j, k⟩ = ⟨a, {}, c, d, e, f, g, i, j, k⟩ := rfl
@[simp] theorem Hold.noMem_hold (s : State) : (⟨s.pending, {}, s.regs, s.sealImg, s.rnd.fuses, s.flash, s.prn, s.hrp.part, s.cnt.latched, s.cnt.latchTn⟩ : Hold) = s.hold.noMem := rfl
@[simp] theorem Hold.noRegs_mk (a b c d e f g i j k) : Hold.noRegs ⟨a, b, c, d, e, f, g, i, j, k⟩ = ⟨a, b, [], d, e, f, g, i, j, k⟩ := rfl
@[simp] theorem Hold.noRegs_hold (s : State) : (⟨s.pending, s.mem.body, [], s.sealImg, s.rnd.fuses, s.flash, s.prn, s.hrp.part, s.cnt.latched, s.cnt.latchTn⟩ : Hold) = s.hold.noRegs := rfl
@[simp] theorem Hold.noPrn_mk (a b c d e f g i j k) : Hold.noPrn ⟨a, b, c, d, e, f, g, i, j, k⟩ = ⟨a, b, c, d, e, f, {}, i, j, k⟩ := rfl
@[simp] theorem Hold.noPrn_hold (s : State) : (⟨s.pending, s.mem.body, s.regs, s.sealImg, s.rnd.fuses, s.flash, {}, s.hrp.part, s.cnt.latched, s.cnt.latchTn⟩ : Hold) = s.hold.noPrn := rfl
@[simp] theorem Hold.noFuse_mk (a b c d e f g i j k) : Hold.noFuse ⟨a, b, c, d, e, f, g, i, j, k⟩ = ⟨a, b, c, d, noFuses, noFlash, g, i, j, k⟩ := rfl
@[simp] theorem Hold.noFuse_hold (s : State) : (⟨s.pending, s.mem.body, s.regs, s.sealImg, noFuses, noFlash, s.prn, s.hrp.part, s.cnt.latched, s.cnt.latchTn⟩ : Hold) = s.hold.noFuse := rfl
@[simp] theorem Hold.noSeal_mk (a b c d e f g i j k) : Hold.noSeal ⟨a, b, c, d, e, f, g, i, j, k⟩ = ⟨a, b, c, none, e, f, g, i, j, k⟩ := rfl
@[simp] theorem Hold.noSeal_hold (s : State) : (⟨s.pending, s.mem.body, s.regs, none, s.rnd.fuses, s.flash, s.prn, s.hrp.part, s.cnt.latched, s.cnt.latchTn⟩ : Hold) = s.hold.noSeal := rfl
@[simp] theorem Hold.noLatch_mk (a b c d e f g i j k) : Hold.noLatch ⟨a, b, c, d, e, f, g, i, j, k⟩ = ⟨a, b, c, d, e, f, g, i, [], 0⟩ := rfl
@[simp] theorem Hold.noLatch_hold (s : State) : (⟨s.pending, s.mem.body, s.regs, s.sealImg, s.rnd.fuses, s.flash, s.prn, s.hrp.part, [], 0⟩ : Hold) = s.hold.noLatch := rfl

theorem foldl_phi {α β : Type} (φ : Hold → β) {g : State → α → State} (hg : ∀ s a, φ (g s a).hold = φ s.hold) (l : List α) (s : State) :
    φ (l.foldl g s).hold = φ s.hold := by
  induction l generalizing s with
  | nil => rfl
  | cons a t ih => rw [List.foldl_cons, ih, hg]

theorem ite_phi {β : Type} (φ : Hold → β) (c : Prop) [Decidable c] (a b : State) :
    φ (if c then a else b).hold = if c then φ a.hold else φ b.hold := by split <;> rfl

@[simp] theorem Hold.noMap_ite (c : Prop) [Decidable c] (a b : Hold) : (if c then a else b).noMap = if c then a.noMap else b.noMap := by split <;> rfl
@[simp] theorem Hold.noMem_ite (c : Prop) [Decidable c] (a b : Hold) : (if c then a else b).noMem = if c then a.noMem else b.noMem := by split <;> rfl
@[simp] theorem Hold.noRegs_ite (c : Prop) [Decidable c] (a b : Hold) : (if c then a else b).noRegs = if c then a.noRegs else b.noRegs := by split <;> rfl
@[simp] theorem Hold.noPrn_ite (c : Prop) [Decidable c] (a b : Hold) : (if c then a else b).noPrn = if c then a.noPrn else b.noPrn := by split <;> rfl
@[simp] theorem Hold.noFuse_ite (c : Prop) [Decidable c] (a b : Hold) : (if c then a else b).noFuse = if c then a.noFuse else b.noFuse := by split <;> rfl
@[simp] theorem Hold.noSeal_ite (c : Prop) [Decidable c] (a b : Hold) : (if c then a else b).noSeal = if c then a.noSeal else b.noSeal := by split <;> rfl
@[simp] theorem Hold.noLatch_ite (c : Prop) [Decidable c] (a b : Hold) : (if c then a else b).noLatch = if c then a.noLatch else b.noLatch := by split <;> rfl


/-- The held part without what boundary actions change: map entries, set-up registers, latched counters. -/
def Hold.noBound (h : Hold) : Hold := { h with map := {}, regs := [], latched := [], latchTn := 0 }

theorem Hold.noBound_of_noMap {a b : Hold} (h : a.noMap = b.noMap) : a.noBound = b.noBound :=
  show a.noMap.noBound = b.noMap.noBound from congrArg Hold.noBound h
theorem Hold.noBound_of_noRegs {a b : Hold} (h : a.noRegs = b.noRegs) : a.noBound = b.noBound :=
  show a.noRegs.noBound = b.noRegs.noBound from congrArg Hold.noBound h
theorem Hold.noBound_of_noLatch {a b : Hold} (h : a.noLatch = b.noLatch) : a.noBound = b.noBound :=
  show a.noLatch.noBound = b.noLatch.noBound from congrArg Hold.noBound h

theorem foldl_fst_phi {α β γ : Type} (φ : Hold → γ) {g : State × β → α → State × β}
    (hg : ∀ s b a, φ (g (s, b) a).1.hold = φ s.hold) (l : List α) (x : State × β) :
    φ (l.foldl g x).1.hold = φ x.1.hold := by
  induction l generalizing x with
  | nil => rfl
  | cons a t ih => rw [List.foldl_cons, ih]; exact hg x.1 x.2 a

theorem foldl_fst_hold {α β : Type} {g : State × β → α → State × β}
    (hg : ∀ s b a, (g (s, b) a).1.hold = s.hold) (l : List α) (x : State × β) : (l.foldl g x).1.hold = x.1.hold :=
  foldl_fst_phi id hg l x

@[simp] theorem Hold.pending_ite (c : Prop) [Decidable c] (a b : Hold) : (if c then a else b).pending = if c then a.pending else b.pending := by split <;> rfl

theorem State.pending_hold (s : State) : s.pending = s.hold.pending := rfl

theorem Hold.noMap_queue (h : Hold) : h.noMap.pending = h.pending := rfl
theorem Hold.noMap_to {a b : Hold} (h : a.noMap = b.noMap) : a.pending = b.pending := by
  rw [← Hold.noMap_queue a, h, Hold.noMap_queue b]
theorem Hold.noMem_queue (h : Hold) : h.noMem.pending = h.pending := rfl
theorem Hold.noMem_to {a b : Hold} (h : a.noMem = b.noMem) : a.pending = b.pending := by
  rw [← Hold.noMem_queue a, h, Hold.noMem_queue b]
theorem Hold.noRegs_queue (h : Hold) : h.noRegs.pending = h.pending := rfl
theorem Hold.noRegs_to {a b : Hold} (h : a.noRegs = b.noRegs) : a.pending = b.pending := by
  rw [← Hold.noRegs_queue a, h, Hold.noRegs_queue b]
theorem Hold.noPrn_queue (h : Hold) : h.noPrn.pending = h.pending := rfl
theorem Hold.noPrn_to {a b : Hold} (h : a.noPrn = b.noPrn) : a.pending = b.pending := by
  rw [← Hold.noPrn_queue a, h, Hold.noPrn_queue b]
theorem Hold.noFuse_queue (h : Hold) : h.noFuse.pending = h.pending := rfl
theorem Hold.noFuse_to {a b : Hold} (h : a.noFuse = b.noFuse) : a.pending = b.pending := by
  rw [← Hold.noFuse_queue a, h, Hold.noFuse_queue b]
theorem Hold.noSeal_queue (h : Hold) : h.noSeal.pending = h.pending := rfl
theorem Hold.noSeal_to {a b : Hold} (h : a.noSeal = b.noSeal) : a.pending = b.pending := by
  rw [← Hold.noSeal_queue a, h, Hold.noSeal_queue b]
theorem Hold.noBound_queue (h : Hold) : h.noBound.pending = h.pending := rfl
theorem Hold.noBound_to {a b : Hold} (h : a.noBound = b.noBound) : a.pending = b.pending := by
  rw [← Hold.noBound_queue a, h, Hold.noBound_queue b]
theorem Hold.noLatch_queue (h : Hold) : h.noLatch.pending = h.pending := rfl
theorem Hold.noLatch_to {a b : Hold} (h : a.noLatch = b.noLatch) : a.pending = b.pending := by
  rw [← Hold.noLatch_queue a, h, Hold.noLatch_queue b]

end Sys2Proof.Machine
end

