-- ==== Sys2Proof/Laws/HoldOps.lean ====
section
/-! SUPPORT. What the registers, the counters, the shared operations and the rings leave as it was: the held part of State (Hold). -/
namespace Sys2Proof.Machine
open Sys2Proof

@[simp] theorem State.setReg_noRegs (s : State) (a : Nat) (v : Word) : (s.setReg a v).hold.noRegs = s.hold.noRegs := rfl

@[simp] theorem State.setReg_queue (s : State) (a : Nat) (v : Word) :
    (State.setReg s a v).hold.pending = s.hold.pending :=
  Hold.noRegs_to (State.setReg_noRegs s a v)

@[simp] theorem State.setSticky_hold (s : State) (a : Nat) (m : Word) : (State.setSticky s a m).hold = s.hold := by
  simp [State.setSticky]

@[simp] theorem State.clrSticky_hold (s : State) (a : Nat) (m : Word) : (State.clrSticky s a m).hold = s.hold := by
  simp [State.clrSticky]

@[simp] theorem State.setCounter_hold (s : State) (scope : Nat) (obj : Nat) (j : Nat) (c : Counter) :
    (State.setCounter s scope obj j c).hold = s.hold := by
  simp [State.setCounter]

@[simp] theorem State.count_hold (s : State) (scope : Nat) (obj : Nat) (j : Nat) (n : Nat) :
    (State.count s scope obj j n).hold = s.hold := by
  simp [State.count]

@[simp] theorem State.clearCounters_hold (s : State) (scope : Nat) (obj : Nat) :
    (State.clearCounters s scope obj).hold = s.hold := by
  simp [State.clearCounters]

@[simp] theorem State.setLane_hold (s : State) (n : Nat) (l : Lane) : (State.setLane s n l).hold = s.hold := by
  simp [State.setLane]

@[simp] theorem State.setGroup_hold (s : State) (g : Nat) (x : Group) : (State.setGroup s g x).hold = s.hold := by
  simp [State.setGroup]

@[simp] theorem State.setRx_hold (s : State) (n : Nat) (x : RxLane) : (State.setRx s n x).hold = s.hold := by
  simp [State.setRx]

@[simp] theorem State.setTx_hold (s : State) (n : Nat) (x : TxLane) : (State.setTx s n x).hold = s.hold := by
  simp [State.setTx]

@[simp] theorem State.setWheel_hold (s : State) (w : Nat) (x : Wheel) : (State.setWheel s w x).hold = s.hold := by
  simp [State.setWheel]

@[simp] theorem State.setPair_hold (s : State) (p : Nat) (x : Pair) : (State.setPair s p x).hold = s.hold := by
  simp [State.setPair]

@[simp] theorem State.setStack_hold (s : State) (t : Nat) (x : Stack) : (State.setStack s t x).hold = s.hold := by
  simp [State.setStack]

@[simp] theorem State.setPort_hold (s : State) (p : Nat) (x : Port) : (State.setPort s p x).hold = s.hold := by
  simp [State.setPort]

@[simp] theorem State.setQp_hold (s : State) (q : Nat) (x : Qp) : (State.setQp s q x).hold = s.hold := by
  simp [State.setQp]

@[simp] theorem State.setRing_hold (s : State) (r : Nat) (x : Ring) : (State.setRing s r x).hold = s.hold := by
  simp [State.setRing]

@[simp] theorem State.setSrc_hold (s : State) (i : Nat) (x : Src) : (State.setSrc s i x).hold = s.hold := by
  simp [State.setSrc]

@[simp] theorem State.setPart_noPrn (s : State) (p : Nat) (x : Part) : (s.setPart p x).hold.noPrn = s.hold.noPrn := rfl

@[simp] theorem State.setPart_queue (s : State) (p : Nat) (x : Part) :
    (State.setPart s p x).hold.pending = s.hold.pending :=
  Hold.noPrn_to (State.setPart_noPrn s p x)

@[simp] theorem State.setMbox_hold (s : State) (c : Nat) (x : Mbx) : (State.setMbox s c x).hold = s.hold := by
  simp [State.setMbox]

@[simp] theorem State.setWhisk_hold (s : State) (m : Nat) (x : Whisk) : (State.setWhisk s m x).hold = s.hold := by
  simp [State.setWhisk]

@[simp] theorem State.setDump_hold (s : State) (r : Nat) (x : Dump) : (State.setDump s r x).hold = s.hold := by
  simp [State.setDump]

@[simp] theorem State.setPlink_hold (s : State) (l : Link) (x : PeerLink) : (State.setPlink s l x).hold = s.hold := by
  unfold State.setPlink
  split <;> simp

theorem next_phi {β : Type} (φ : Hold → β) {s t : State} (ht : φ t.hold = φ s.hold) :
    ∀ u, (Host.Outcome.next t : Out) = .next u → φ u.hold = φ s.hold := by
  intro u h
  rw [← Host.Outcome.next.inj h, ht]

theorem whenUp_phi {β : Type} (φ : Hold → β) {s t : State} (ht : φ t.hold = φ s.hold) :
    ∀ u, whenUp s t = .next u → φ u.hold = φ s.hold := by
  intro u h
  unfold whenUp at h
  rw [← Host.Outcome.next.inj h]
  split
  · exact ht
  · rfl

theorem whenFw_phi {β : Type} (φ : Hold → β) {s t : State} (ht : φ t.hold = φ s.hold) :
    ∀ u, whenFw s t = .next u → φ u.hold = φ s.hold := by
  intro u h
  unfold whenFw at h
  rw [← Host.Outcome.next.inj h]
  split
  · exact ht
  · rfl

theorem next_hold {s t : State} (ht : t.hold = s.hold) : ∀ u, (Host.Outcome.next t : Out) = .next u → u.hold = s.hold :=
  next_phi id ht
theorem whenUp_hold {s t : State} (ht : t.hold = s.hold) : ∀ u, whenUp s t = .next u → u.hold = s.hold := whenUp_phi id ht
theorem whenFw_hold {s t : State} (ht : t.hold = s.hold) : ∀ u, whenFw s t = .next u → u.hold = s.hold := whenFw_phi id ht



@[simp] theorem State.draw_hold (s : State) : (State.draw s).2.hold = s.hold := by
  simp [State.draw]

@[simp] theorem State.recd_hold (s : State) (f : LRec → LRec) : (State.recd s f).hold = s.hold := by
  simp [State.recd]

@[simp] theorem State.recEvt_hold (s : State) (kind : Nat) (object : Nat) (tick : Nat) (value : Nat) :
    (State.recEvt s kind object tick value).hold = s.hold := by
  simp [State.recEvt]

@[simp] theorem State.issue_hold (s : State) (r : Nat) (op : RdmaOp) : (State.issue s r op).hold = s.hold := by
  simp [State.issue]

@[simp] theorem State.putEvent_hold (s : State) (r : Nat) (e : EvtEntry) : (State.putEvent s r e).hold = s.hold := by
  simp [State.putEvent]

@[simp] theorem State.deliver_hold (s : State) (ps : List Nat) (e : EvtEntry) : (State.deliver s ps e).hold = s.hold := by
  simp only [State.deliver]
  repeat' first
    | (simp; done)
    | (refine (foldl_hold ?_ _ _).trans ?_; intros)
    | split
    | simp

@[simp] theorem State.holdEvent_hold (s : State) (ps : List Nat) (e : EvtEntry) :
    (State.holdEvent s ps e).hold = s.hold := by
  simp only [State.holdEvent]
  repeat' first
    | (simp; done)
    | (refine (foldl_hold ?_ _ _).trans ?_; intros)
    | split
    | simp

@[simp] theorem State.send_hold (s : State) (link : Option Link) (y2 : Nat) (dest : Word) (body : List Byte) :
    (State.send s link y2 dest body).hold = s.hold := by
  simp [State.send]

@[simp] theorem State.emit_hold (s : State) (ps : List Nat) (e : EvtEntry) : (State.emit s ps e).hold = s.hold := by
  simp [State.emit, foldl_hold]

@[simp] theorem State.flushHeld_hold (s : State) : (State.flushHeld s).hold = s.hold := by
  simp [State.flushHeld, foldl_hold]

@[simp] theorem State.event_hold (s : State) (ps : List Nat) (code : Nat) (object : Nat) (value : Nat) :
    (State.event s ps code object value).hold = s.hold := by
  simp [State.event]

@[simp] theorem State.setJob_hold (s : State) (h : Nat) (f : JEntry → JEntry) : (State.setJob s h f).hold = s.hold := by
  simp [State.setJob]

@[simp] theorem State.dropJob_hold (s : State) (h : Nat) : (State.dropJob s h).hold = s.hold := by
  simp [State.dropJob]

@[simp] theorem State.setWcmd_hold (s : State) (m : Nat) (f : WorkerCmd → WorkerCmd) :
    (State.setWcmd s m f).hold = s.hold := by
  simp [State.setWcmd]

@[simp] theorem State.completeEntry_hold (s : State) (h : Nat) (c : CmpEntry) :
    (State.completeEntry s h c).hold = s.hold := by
  unfold State.completeEntry
  dsimp only
  repeat' split
  all_goals simp [foldl_hold]

@[simp] theorem State.complete_hold (s : State) (h : Nat) (status : Nat) (tick : Nat) (result : Nat) :
    (State.complete s h status tick result).hold = s.hold := by
  unfold State.complete
  split <;> simp

@[simp] theorem State.refuse_hold (s : State) (h : Nat) (status : Nat) : (State.refuse s h status).hold = s.hold := by
  simp [State.refuse]

@[simp] theorem State.output_hold (s : State) (h : Nat) (addr : Nat) (hkey : Nat) (off : Nat) (bytes : List Byte) :
    (State.output s h addr hkey off bytes).hold = s.hold := by
  unfold State.output
  repeat' split
  all_goals simp

@[simp] theorem State.setRole_hold (s : State) (r : Role) : (State.setRole s r).hold = s.hold := by
  simp [State.setRole]

@[simp] theorem State.yield_hold (s : State) (cause : Nat) : (State.yield s cause).hold = s.hold := by
  simp [State.yield]

@[simp] theorem State.answer_hold (s : State) (q : Nat) (r : Resp) : (State.answer s q r).hold = s.hold := by
  unfold State.answer
  split <;> simp

theorem State.ownerWrite_phi {β : Type} (φ : Hold → β) (s : State) (q : Nat) (f : State → State)
    (hf : φ (f s).hold = φ s.hold) : φ (s.ownerWrite q f).hold = φ s.hold := by
  unfold State.ownerWrite
  split <;> simp [hf]

theorem State.ownerWrite_hold (s : State) (q : Nat) (f : State → State) (hf : (f s).hold = s.hold) :
    (s.ownerWrite q f).hold = s.hold := State.ownerWrite_phi id s q f hf

@[simp] theorem State.doneOp_hold (s : State) (r : Nat) (k : RdmaOp → Bool) : (State.doneOp s r k).hold = s.hold := by
  simp [State.doneOp]

@[simp] theorem State.moveOps_hold (s : State) (q : Nat) : (State.moveOps s q).hold = s.hold := by
  unfold State.moveOps
  dsimp only
  repeat' split
  all_goals simp

@[simp] theorem State.readDoorbell_hold (s : State) (r : Nat) : (State.readDoorbell s r).hold = s.hold := by
  simp [State.readDoorbell]

@[simp] theorem State.fetchNow_hold (s : State) (r : Nat) : (State.fetchNow s r).hold = s.hold := by
  simp [State.fetchNow]

@[simp] theorem State.fetchMore_hold (s : State) (r : Nat) : (State.fetchMore s r).hold = s.hold := by
  simp [State.fetchMore]

@[simp] theorem State.halt_hold (s : State) (r : Nat) (cause : Nat) : (State.halt s r cause).hold = s.hold := by
  simp [State.halt]

@[simp] theorem State.refreshBusy_hold (s : State) (r : Nat) : (State.refreshBusy s r).hold = s.hold := by
  unfold State.refreshBusy
  dsimp only
  repeat' split
  all_goals simp

@[simp] theorem State.pruneJournal_hold (s : State) (r : Nat) : (State.pruneJournal s r).hold = s.hold := by
  simp [State.pruneJournal]

@[simp] theorem State.kickRing_hold (s : State) (r : Nat) : (State.kickRing s r).hold = s.hold := by
  simp [State.kickRing]

@[simp] theorem State.doorbell_hold (s : State) (q : Nat) (rkey : Word) (addr : Nat) (len : Nat) :
    (State.doorbell s q rkey addr len).hold = s.hold := by
  simp [State.doorbell]

theorem execKick_hold (qp : Fin 16) (rkey : Word) (addr : Nat) (len : Nat) (s : State) : ∀ t,
    (execKick qp rkey addr len s) = .next t → t.hold = s.hold := by
  unfold execKick
  refine whenUp_hold ?_
  simp

theorem execDoorbellPoll_hold (r : Fin 16) (s : State) : ∀ t, (execDoorbellPoll r s) = .next t → t.hold = s.hold := by
  unfold execDoorbellPoll
  refine next_hold ?_
  simp

theorem execDoorbellReadDone_hold (r : Fin 16) (cmdProd : Nat) (cmpCons : Nat) (evtCons : Nat) (s : State) : ∀ t,
    (execDoorbellReadDone r cmdProd cmpCons evtCons s) = .next t → t.hold = s.hold := by
  unfold execDoorbellReadDone
  refine next_hold ?_
  simp

theorem execDescriptorFetchDone_hold (r : Fin 16) (ds : List Desc) (s : State) : ∀ t,
    (execDescriptorFetchDone r ds s) = .next t → t.hold = s.hold := by
  unfold execDescriptorFetchDone
  refine next_hold ?_
  simp

@[simp] theorem State.journalCmd_hold (s : State) (r : Nat) (d : Desc) (b : Option Batch) (ok : Bool) :
    (State.journalCmd s r d b ok).hold = s.hold := by
  simp [State.journalCmd]

@[simp] theorem State.resumeRing_hold (s : State) (r : Nat) : (State.resumeRing s r).hold = s.hold := by
  simp [State.resumeRing]

@[simp] theorem State.takeFrom_hold (s : State) (r : Nat) : (State.takeFrom s r).hold = s.hold := by
  unfold State.takeFrom
  split <;> simp

@[simp] theorem State.takeNext_hold (s : State) : (State.takeNext s).hold = s.hold := by
  unfold State.takeNext
  repeat' split
  all_goals simp

theorem execDescriptorTake_hold (s : State) : ∀ t, execDescriptorTake s = .next t → t.hold = s.hold := by
  unfold execDescriptorTake
  refine next_hold ?_
  rw [State.takeNext_hold]
  exact foldl_hold State.refreshBusy_hold _ _

@[simp] theorem State.attachBatch_hold (s : State) (r : Nat) (b : Batch) : (State.attachBatch s r b).hold = s.hold := by
  unfold State.attachBatch
  split <;> simp

theorem execBatchReadDone_hold (r : Fin 16) (b : Batch) (s : State) : ∀ t,
    (execBatchReadDone r b s) = .next t → t.hold = s.hold := by
  unfold execBatchReadDone
  refine next_hold ?_
  repeat' split
  all_goals simp

@[simp] theorem State.postOne_hold (s : State) (r : Nat) (h : Nat) (e : JEntry) (c : CmpEntry) :
    (State.postOne s r h e c).hold = s.hold := by
  unfold State.postOne
  split <;> simp

@[simp] theorem State.dropOldKey_hold (s : State) (r : Nat) : (State.dropOldKey s r).hold = s.hold := by
  unfold State.dropOldKey
  dsimp only
  repeat' split
  all_goals simp

theorem execCompletionPost_hold (r : Fin 16) (s : State) : ∀ t, (execCompletionPost r s) = .next t → t.hold = s.hold := by
  unfold execCompletionPost
  refine next_hold ?_
  repeat' split
  all_goals simp

@[simp] theorem State.dumpAcked_hold (s : State) (r : Nat) (q : Nat) : (State.dumpAcked s r q).hold = s.hold := by
  unfold State.dumpAcked
  dsimp only
  repeat' split
  all_goals simp

@[simp] theorem State.writeAcked_hold (s : State) (q : Nat) : (State.writeAcked s q).hold = s.hold := by
  unfold State.writeAcked
  dsimp only
  repeat' split
  all_goals simp

theorem execRdmaWriteAck_hold (qp : Fin 16) (s : State) : ∀ t, (execRdmaWriteAck qp s) = .next t → t.hold = s.hold := by
  unfold execRdmaWriteAck
  refine whenUp_hold ?_
  simp

theorem execQpAckTimeout_hold (qp : Fin 16) (s : State) : ∀ t, (execQpAckTimeout qp s) = .next t → t.hold = s.hold := by
  unfold execQpAckTimeout
  refine next_hold ?_
  simp

@[simp] theorem State.accept_hold (s : State) (h : Nat) (e : JEntry) : (State.accept s h e).hold = s.hold := by
  unfold State.accept
  split <;> simp

@[simp] theorem State.sendCmd_hold (s : State) (h : Nat) (e : JEntry) (w : Word) :
    (State.sendCmd s h e w).hold = s.hold := by
  simp [State.sendCmd, foldl_hold]

@[simp] theorem State.remote_hold (s : State) (h : Nat) (e : JEntry) : (State.remote s h e).hold = s.hold := by
  simp [State.remote]

theorem State.runCmd_phi {β : Type} (φ : Hold → β) (s : State) (opc : Nat) (chk : Check) (eff : Effect) (h : Nat)
    (he : ∀ h e s, φ (eff h e s).hold = φ s.hold) : φ (s.runCmd opc chk eff h).hold = φ s.hold := by
  unfold State.runCmd
  dsimp only
  repeat' split
  all_goals simp [he]

theorem State.runCmd_hold (s : State) (opc : Nat) (chk : Check) (eff : Effect) (h : Nat)
    (he : ∀ h e s, (eff h e s).hold = s.hold) : (s.runCmd opc chk eff h).hold = s.hold :=
  State.runCmd_phi id s opc chk eff h he

@[simp] theorem State.completeNext_hold (s : State) (h : Nat) (status : Nat) (tick : Nat) (result : Nat) :
    (State.completeNext s h status tick result).hold = s.hold := by
  simp [State.completeNext]

@[simp] theorem State.ownResult_hold (s : State) (x : Flip) (done : Bool) : (State.ownResult s x done).hold = s.hold := by
  simp [State.ownResult]

@[simp] theorem State.cancelFab_hold (s : State) (x : FabFlip) (failId : Word) (reason : Nat) :
    (State.cancelFab s x failId reason).hold = s.hold := by
  simp only [State.cancelFab]
  repeat' split
  all_goals simp

@[simp] theorem State.fabLinkFailed_hold (s : State) (g : Option Nat) : (State.fabLinkFailed s g).hold = s.hold := by
  simp only [State.fabLinkFailed]
  repeat' first
    | (simp; done)
    | (refine (foldl_hold ?_ _ _).trans ?_; intros)
    | split
    | simp

end Sys2Proof.Machine
end

