-- ==== Sys2Proof/Laws/HoldMap.lean ====
section
/-! SUPPORT. What the map pages and the map commands leave as it was: the held part of State (Hold). -/
namespace Sys2Proof.Machine
open Sys2Proof

@[simp] theorem Page.unref_ent (p : Page) (k : Nat) : (p.unref k).ent = p.ent := rfl
@[simp] theorem Page.free_ent (p : Page) (i : Nat) : (p.free i).ent = p.ent := by
  unfold Page.free
  dsimp only
  split <;> rfl
@[simp] theorem Page.addRef_ent (p : Page) (k i : Nat) : (p.addRef k i).ent = p.ent := rfl
@[simp] theorem Page.swap_ent (p : Page) (a b : Nat) (ks : List Nat) : (p.swap a b ks).ent = p.ent := rfl
theorem Page.place_ent {p q : Page} {k i m : Nat} {keep : List Nat}
    (h : p.place k keep = .at_ q i m) : q.ent = p.ent := by
  unfold Page.place at h
  dsimp only at h
  split at h
  · have h1 := congrArg Page.ent (Place.at_.inj h).1
    exact h1.symm
  · split at h
    · have h1 := congrArg Page.ent (Place.at_.inj h).1
      exact h1.symm
    · cases h

@[simp] theorem State.setPage_noMap (s : State) (i : Nat) (p : Page) : (s.setPage i p).hold.noMap = s.hold.noMap := by
  unfold State.setPage
  split <;> rfl

theorem State.setPage_hold {s : State} {i : Nat} {p : Page} (h : p.ent = (s.page i).ent) :
    (s.setPage i p).hold = s.hold := by
  unfold State.setPage
  unfold State.page at h
  split
  · rename_i hi
    rw [if_pos hi] at h
    simp [h]
  · rename_i hi
    rw [if_neg hi] at h
    simp [h]

theorem State.setStandby_hold {s : State} {p : Page} (h : p.ent = s.standby.ent) : (s.setStandby p).hold = s.hold :=
  State.setPage_hold h

@[simp] theorem State.setPage_queue (s : State) (i : Nat) (p : Page) :
    (State.setPage s i p).hold.pending = s.hold.pending :=
  Hold.noMap_to (State.setPage_noMap s i p)

@[simp] theorem State.setStandby_noMap (s : State) (p : Page) : (State.setStandby s p).hold.noMap = s.hold.noMap := by
  simp [State.setStandby]

@[simp] theorem State.setStandby_queue (s : State) (p : Page) : (State.setStandby s p).hold.pending = s.hold.pending :=
  Hold.noMap_to (State.setStandby_noMap s p)

@[simp] theorem State.noteHigh_hold (s : State) (g : Nat) : (State.noteHigh s g).hold = s.hold := by
  simp [State.noteHigh]

@[simp] theorem State.closeOne_hold (s : State) (h : Nat) (moves : Nat) : (State.closeOne s h moves).hold = s.hold := by
  simp [State.closeOne]

@[simp] theorem State.dropDeferred_hold (s : State) (slot : Nat) (moves : Nat) :
    (State.dropDeferred s slot moves).hold = s.hold := by
  unfold State.dropDeferred
  split <;> simp

@[simp] theorem State.putPage_noMap (s : State) (p : Page) (groups : List Nat) :
    (State.putPage s p groups).hold.noMap = s.hold.noMap := by
  simp [State.putPage, foldl_hold]

@[simp] theorem State.putPage_queue (s : State) (p : Page) (groups : List Nat) :
    (State.putPage s p groups).hold.pending = s.hold.pending :=
  Hold.noMap_to (State.putPage_noMap s p groups)

@[simp] theorem State.putNew_noMap (s : State) (h : Nat) (slot : Nat) (k : Nat) (e : Word) (groups : List Nat)
    (noMove : Bool) : (State.putNew s h slot k e groups noMove).s.hold.noMap = s.hold.noMap := by
  unfold State.putNew
  dsimp only
  repeat' split
  all_goals simp

@[simp] theorem State.mapPut_noMap (s : State) (prin : Nat) (h : Nat) (slot : Nat) (v : Nat) (noMove : Bool) :
    (State.mapPut s prin h slot v noMove).s.hold.noMap = s.hold.noMap := by
  unfold State.mapPut
  dsimp only
  repeat' split
  all_goals simp

@[simp] theorem State.noteLow_hold (s : State) : (State.noteLow s).hold = s.hold := by
  simp [State.noteLow]

@[simp] theorem State.entryFails_hold (s : State) (pg i : Nat) (treat : Bool) : (s.entryFails pg i treat).hold = s.hold := by
  unfold State.entryFails
  dsimp only
  split
  · simp
  · simp only [State.event_hold, State.setSticky_hold]
    split
    · simp only [State.noteLow_hold, State.dropDeferred_hold]
      exact State.setPage_hold (by rw [Page.free_ent])
    · simp

@[simp] theorem State.checkRead_hold (s : State) (slot : Nat) : (s.checkRead slot).hold = s.hold := by
  simp [State.checkRead]

theorem State.placeDeferred_hold (s : State) (slot : Nat) : ∀ t, s.placeDeferred slot = some t → t.1.hold = s.hold := by
  intro t h
  unfold State.placeDeferred at h
  dsimp only at h
  split at h
  · rw [← Option.some.inj h]
    simp
  · split at h
    · rw [← Option.some.inj h]
      simp only [State.dropDeferred_hold]
      refine (State.setStandby_hold ?_).trans (State.checkRead_hold s slot)
      rfl
    · split at h
      · rename_i hp
        rw [← Option.some.inj h]
        simp only [State.dropDeferred_hold]
        have hq := Page.place_ent hp
        refine (State.setStandby_hold ?_).trans (State.checkRead_hold s slot)
        exact hq
      · cases h

@[simp] theorem State.checkEntry_hold (s : State) (n : Nat) : (State.checkEntry s n).hold = s.hold := by
  simp [State.checkEntry]

theorem execMapCheck_hold (s : State) : ∀ t, (execMapCheck s) = .next t → t.hold = s.hold := by
  unfold execMapCheck
  refine whenUp_hold ?_
  simp [foldl_hold]

@[simp] theorem State.setJobs_hold (s : State) (f : MapJob → MapJob) (h : Nat) : (State.setJobs s f h).hold = s.hold := by
  simp [State.setJobs]

@[simp] theorem State.endJobs_hold (s : State) : (State.endJobs s).hold = s.hold := by
  simp [State.endJobs, foldl_hold]

@[simp] theorem State.joinOne_hold (s : State) (j : MapJob) : (State.joinOne s j).hold = s.hold := by
  unfold State.joinOne
  split <;> simp

@[simp] theorem State.joinMany_hold (x0 : Nat) (s : State) : (State.joinMany x0 s).hold = s.hold := by
  fun_induction State.joinMany <;> simp_all

@[simp] theorem State.carry_hold (s : State) (prin : Nat) : (State.carry s prin).hold = s.hold := by
  simp [State.carry]

@[simp] theorem State.noteRun_hold (t : State) (j : MapJob) (idx : Nat) (slot : Nat) (v : Nat) (queued : Bool) (held : Bool)
    (status : Nat) (moves : Nat) (deferred : Bool) (cost : Nat) :
    (State.noteRun t j idx slot v queued held status moves deferred cost).hold = t.hold := by
  simp [State.noteRun]

@[simp] theorem State.runEntry_noMap (s : State) (j : MapJob) (idx : Nat) (slot : Nat) (v : Nat) (queued : Bool)
    (held : Bool) : (State.runEntry s j idx slot v queued held).hold.noMap = s.hold.noMap := by
  simp [State.runEntry]

@[simp] theorem State.runEntry_queue (s : State) (j : MapJob) (idx : Nat) (slot : Nat) (v : Nat) (queued : Bool)
    (held : Bool) : (State.runEntry s j idx slot v queued held).hold.pending = s.hold.pending :=
  Hold.noMap_to (State.runEntry_noMap s j idx slot v queued held)

theorem State.runNext_noMap (s : State) : ∀ t, (State.runNext s) = some t → t.hold.noMap = s.hold.noMap := by
  unfold State.runNext
  repeat' split
  all_goals simp

@[simp] theorem State.runMany_noMap (n : Nat) (s : State) : (State.runMany n s).hold.noMap = s.hold.noMap := by
  induction n generalizing s with
  | zero => rfl
  | succ n ih =>
    unfold State.runMany
    split
    · rfl
    · split
      · rfl
      · rename_i h
        split
        · simp
        · rw [ih, State.runNext_noMap _ _ h]

@[simp] theorem State.runMany_queue (x0 : Nat) (s : State) : (State.runMany x0 s).hold.pending = s.hold.pending :=
  Hold.noMap_to (State.runMany_noMap x0 s)

@[simp] theorem State.mapTick_noMap (s : State) : (State.mapTick s).hold.noMap = s.hold.noMap := by
  simp [State.mapTick]

@[simp] theorem State.mapTick_queue (s : State) : (State.mapTick s).hold.pending = s.hold.pending :=
  Hold.noMap_to (State.mapTick_noMap s)

@[simp] theorem State.mapNow_noMap (s : State) : (State.mapNow s).hold.noMap = s.hold.noMap := by
  simp [State.mapNow]

theorem execDeferredEntryPlace_hold (slot : Fin 524288) (s : State) :
    ∀ t, execDeferredEntryPlace slot s = .next t → t.hold = s.hold := by
  unfold execDeferredEntryPlace
  refine next_hold ?_
  split
  · split
    · rfl
    · rename_i h
      have := State.placeDeferred_hold _ _ _ h
      dsimp only
      split <;> simpa using this
  · rfl

@[simp] theorem effMapWrite_hold (x0 : Nat) (x1 : JEntry) (s : State) : (effMapWrite x0 x1 s).hold = s.hold := by
  simp [effMapWrite]

theorem execMapWrite_hold (h : Nat) (s : State) : ∀ t, (execMapWrite h s) = .next t → t.hold = s.hold := by
  unfold execMapWrite
  refine next_hold ?_
  exact State.runCmd_hold _ _ _ _ _ (by simp)

@[simp] theorem effMapRead_hold (x0 : Nat) (x1 : JEntry) (s : State) : (effMapRead x0 x1 s).hold = s.hold := by
  simp [effMapRead]

theorem execMapRead_hold (h : Nat) (s : State) : ∀ t, (execMapRead h s) = .next t → t.hold = s.hold := by
  unfold execMapRead
  refine next_hold ?_
  exact State.runCmd_hold _ _ _ _ _ (by simp)

end Sys2Proof.Machine
end

