-- ==== Sys2Proof/Laws/HoldLanes.lean ====
section
/-! SUPPORT. What the lanes, the groups, the framers and the Wheels leave as it was: the held part of State (Hold). -/
namespace Sys2Proof.Machine
open Sys2Proof

@[simp] theorem State.noteDefects_hold (s : State) (n : Nat) : (State.noteDefects s n).hold = s.hold := by
  simp [State.noteDefects]

@[simp] theorem State.cutCopies_hold (s : State) (hit : Nat → Bool) : (State.cutCopies s hit).hold = s.hold := by
  simp [State.cutCopies]

@[simp] theorem State.huntWheels_hold (s : State) (n : Nat) : (State.huntWheels s n).hold = s.hold := by
  simp [State.huntWheels]

@[simp] theorem State.enterHunt_hold (s : State) (n : Nat) : (State.enterHunt s n).hold = s.hold := by
  simp [State.enterHunt]

@[simp] theorem State.endScan_hold (s : State) (c : Scan) (status : Nat) (done : Nat) (vstep : Nat)
    (points : List Nat) : (State.endScan s c status done vstep points).hold = s.hold := by
  simp [State.endScan]

@[simp] theorem State.abortScan_hold (s : State) (n : Nat) (status : Nat) : (State.abortScan s n status).hold = s.hold := by
  unfold State.abortScan
  split <;> simp

@[simp] theorem State.setLinkSt_hold (s : State) (l : Link) (st : LinkSt) : (State.setLinkSt s l st).hold = s.hold := by
  unfold State.setLinkSt
  repeat' split
  all_goals simp

@[simp] theorem State.groupLinkDown_hold (s : State) (g : Nat) : (State.groupLinkDown s g).hold = s.hold := by
  unfold State.groupLinkDown
  split <;> simp

@[simp] theorem State.applyTable_hold (s : State) (g : Nat) : (State.applyTable s g).hold = s.hold := by
  simp [State.applyTable]

@[simp] theorem State.calLinkDown_hold (s : State) : (State.calLinkDown s).hold = s.hold := by
  unfold State.calLinkDown
  repeat' split
  all_goals simp

@[simp] theorem State.enterAlign_hold (s : State) (g : Nat) : (State.enterAlign s g).hold = s.hold := by
  simp [State.enterAlign, foldl_hold]

@[simp] theorem State.chooseSeq_hold (s : State) (g : Nat) : (State.chooseSeq s g).1.hold = s.hold := by
  simp [State.chooseSeq]

@[simp] theorem State.inService_hold (s : State) (g : Nat) : (State.inService s g).hold = s.hold := by
  simp [State.inService, foldl_hold]

@[simp] theorem State.announce_hold (s : State) (g : Nat) (target : Nat) (act : Nat) :
    (State.announce s g target act).hold = s.hold := by
  simp [State.announce]

@[simp] theorem State.propose_hold (s : State) (g : Nat) : (State.propose s g).hold = s.hold := by
  simp [State.propose]

@[simp] theorem State.enterNegotiate_hold (s : State) (g : Nat) : (State.enterNegotiate s g).hold = s.hold := by
  simp [State.enterNegotiate]

@[simp] theorem State.fallback_hold (s : State) (g : Nat) (lanes : List Nat) : (State.fallback s g lanes).hold = s.hold := by
  simp [State.fallback, foldl_hold]

@[simp] theorem State.laneFailure_hold (s : State) (g : Nat) (bad : List Nat) :
    (State.laneFailure s g bad).1.hold = s.hold := by
  simp [State.laneFailure, foldl_hold]

@[simp] theorem State.enterVerify_hold (s : State) (g : Nat) : (State.enterVerify s g).hold = s.hold := by
  simp [State.enterVerify, foldl_hold]

@[simp] theorem State.switched_hold (s : State) (g : Nat) : (State.switched s g).hold = s.hold := by
  simp [State.switched]

@[simp] theorem State.tryNegotiate_hold (s : State) (g : Nat) : (State.tryNegotiate s g).hold = s.hold := by
  simp [State.tryNegotiate]

@[simp] theorem State.onFail_hold (s : State) (g : Nat) (n : Nat) (w : BitVec 64) : (State.onFail s g n w).hold =
    s.hold := by
  simp [State.onFail]

@[simp] theorem State.onPropose_hold (s : State) (g : Nat) (n : Nat) (w : BitVec 64) :
    (State.onPropose s g n w).hold = s.hold := by
  simp [State.onPropose]

@[simp] theorem State.onAnswer_hold (s : State) (g : Nat) (n : Nat) (w : BitVec 64) :
    (State.onAnswer s g n w).hold = s.hold := by
  simp [State.onAnswer]

theorem execCapabilityWord_hold (lane : Fin 256) (w : BitVec 64) (s : State) : ∀ t,
    (execCapabilityWord lane w s) = .next t → t.hold = s.hold := by
  unfold execCapabilityWord
  refine whenUp_hold ?_
  simp

theorem execLadderTAlignExpiry_hold (g : Fin 32) (s : State) : ∀ t,
    (execLadderTAlignExpiry g s) = .next t → t.hold = s.hold := by
  unfold execLadderTAlignExpiry
  refine whenUp_hold ?_
  simp [foldl_hold]

theorem execLadderTNegExpiry_hold (g : Fin 32) (s : State) : ∀ t,
    (execLadderTNegExpiry g s) = .next t → t.hold = s.hold := by
  unfold execLadderTNegExpiry
  refine whenUp_hold ?_
  simp

@[simp] theorem State.takeRung_hold (s : State) (g : Nat) (rung : Nat) (own : Bool) :
    (State.takeRung s g rung own).hold = s.hold := by
  simp [State.takeRung, foldl_hold]

theorem execStepSwitch_hold (g : Fin 32) (far : Bool) (s : State) : ∀ t,
    (execStepSwitch g far s) = .next t → t.hold = s.hold := by
  unfold execStepSwitch
  refine whenUp_hold ?_
  repeat' split
  all_goals simp

theorem execLadderTVerifyExpiry_hold (g : Fin 32) (s : State) : ∀ t,
    (execLadderTVerifyExpiry g s) = .next t → t.hold = s.hold := by
  unfold execLadderTVerifyExpiry
  refine whenUp_hold ?_
  simp

theorem execLaneDrop_hold (lane : Fin 256) (s : State) : ∀ t, (execLaneDrop lane s) = .next t → t.hold = s.hold := by
  unfold execLaneDrop
  refine whenUp_hold ?_
  repeat' split
  all_goals simp

theorem execLaneWakeVerifyExpiry_hold (lane : Fin 256) (s : State) : ∀ t,
    (execLaneWakeVerifyExpiry lane s) = .next t → t.hold = s.hold := by
  unfold execLaneWakeVerifyExpiry
  refine whenUp_hold ?_
  repeat' split
  all_goals simp

@[simp] theorem State.clearDefects_hold (s : State) (n : Nat) : (State.clearDefects s n).hold = s.hold := by
  simp [State.clearDefects]

@[simp] theorem State.startWake_hold (s : State) (n : Nat) : (State.startWake s n).hold = s.hold := by
  simp [State.startWake]

@[simp] theorem State.tryAlign_hold (s : State) (g : Nat) : (State.tryAlign s g).hold = s.hold := by
  simp [State.tryAlign]

@[simp] theorem State.settleRx_hold (s : State) (n : Nat) : (State.settleRx s n).hold = s.hold := by
  simp [State.settleRx]

theorem execLaneDirectionSettled_hold (lane : Fin 256) (rx : Bool) (s : State) : ∀ t,
    (execLaneDirectionSettled lane rx s) = .next t → t.hold = s.hold := by
  unfold execLaneDirectionSettled
  refine whenUp_hold ?_
  repeat' split
  all_goals simp

@[simp] theorem State.setLoop_hold (s : State) (n : Nat) (mode : Nat) (maint : Bool) :
    (State.setLoop s n mode maint).hold = s.hold := by
  simp [State.setLoop]

@[simp] theorem State.loopNow_hold (s : State) (lane : Nat) : (State.loopNow s lane).hold = s.hold := by
  unfold State.loopNow
  repeat' split
  all_goals simp

@[simp] theorem State.loopsNow_hold (s : State) : (State.loopsNow s).hold = s.hold := by
  simp [State.loopsNow, foldl_hold]

theorem execLoopGrantRelease_hold (lane : Fin 256) (s : State) : ∀ t,
    (execLoopGrantRelease lane s) = .next t → t.hold = s.hold := by
  unfold execLoopGrantRelease
  refine whenUp_hold ?_
  simp

theorem execEyeScanEnd_hold (lane : Fin 256) (points : List Nat) (vstep : BitVec 16) (s : State) : ∀ t,
    execEyeScanEnd lane points vstep s = .next t → t.hold = s.hold := by
  unfold execEyeScanEnd
  refine whenUp_hold ?_
  repeat' split
  all_goals simp

@[simp] theorem State.setTiming_noRegs (s : State) (g : Nat) (foreign : Bool) :
    (State.setTiming s g foreign).hold.noRegs = s.hold.noRegs := by
  simp [State.setTiming]

@[simp] theorem State.setTiming_queue (s : State) (g : Nat) (foreign : Bool) :
    (State.setTiming s g foreign).hold.pending = s.hold.pending :=
  Hold.noRegs_to (State.setTiming_noRegs s g foreign)

theorem execGroupTimingWrite_noRegs (qp : Fin 16) (g : Fin 32) (foreign : Bool) (s : State) : ∀ t,
    (execGroupTimingWrite qp g foreign s) = .next t → t.hold.noRegs = s.hold.noRegs := by
  unfold execGroupTimingWrite
  refine whenUp_phi Hold.noRegs ?_
  exact State.ownerWrite_phi Hold.noRegs _ _ _ (by simp)

@[simp] theorem State.btLoad_hold (s : State) : (State.btLoad s).hold = s.hold := by
  simp [State.btLoad]

theorem execBoardTableLoad_hold (qp : Fin 16) (s : State) : ∀ t,
    (execBoardTableLoad qp s) = .next t → t.hold = s.hold := by
  unfold execBoardTableLoad
  refine whenUp_hold ?_
  exact State.ownerWrite_hold _ _ _ (by simp)

theorem execBoardTableVerifyDone_hold (ecOk : Bool) (lmsOk : Bool) (s : State) : ∀ t,
    (execBoardTableVerifyDone ecOk lmsOk s) = .next t → t.hold = s.hold := by
  unfold execBoardTableVerifyDone
  refine whenUp_hold ?_
  simp

@[simp] theorem State.takeOverhead_hold (s : State) (n : Nat) (good : Bool) (f : RxFrame) :
    (State.takeOverhead s n good f).hold = s.hold := by
  unfold State.takeOverhead
  dsimp only
  repeat' split
  all_goals simp

@[simp] theorem State.takeCap_hold (s : State) (n : Nat) (good : Bool) (f : RxFrame) :
    (State.takeCap s n good f).hold = s.hold := by
  simp [State.takeCap]

@[simp] theorem State.toInFrame_hold (s : State) (n : Nat) (pos : Nat) : (State.toInFrame s n pos).hold = s.hold :=
    by
  simp [State.toInFrame]

@[simp] theorem State.goodHeader_hold (s : State) (n : Nat) (f : RxFrame) : (State.goodHeader s n f).hold = s.hold
    := by
  simp [State.goodHeader]

@[simp] theorem State.countFrame_hold (s : State) (n : Nat) (f : RxFrame) : (State.countFrame s n f).hold = s.hold
    := by
  simp [State.countFrame]

@[simp] theorem State.holdCells_hold (s : State) (n : Nat) (good : Bool) (f : RxFrame) :
    (State.holdCells s n good f).hold = s.hold := by
  simp [State.holdCells]

@[simp] theorem State.noteHeader_hold (s : State) (n : Nat) (f : RxFrame) : (State.noteHeader s n f).hold = s.hold
    := by
  simp [State.noteHeader]

@[simp] theorem State.atExpected_hold (s : State) (n : Nat) (f : RxFrame) : (State.atExpected s n f).hold = s.hold
    := by
  simp [State.atExpected]

@[simp] theorem State.acceptAt_hold (s : State) (n : Nat) (f : RxFrame) : (State.acceptAt s n f).hold = s.hold := by
  simp [State.acceptAt]

@[simp] theorem State.undoAccept_hold (s : State) (n : Nat) (a : Accept) : (State.undoAccept s n a).hold = s.hold :=
    by
  simp [State.undoAccept]

@[simp] theorem State.noteCand_hold (s : State) (n : Nat) (f : RxFrame) : (State.noteCand s n f).hold = s.hold := by
  simp [State.noteCand]

@[simp] theorem State.atOther_hold (s : State) (n : Nat) (f : RxFrame) : (State.atOther s n f).hold = s.hold := by
  simp [State.atOther]

@[simp] theorem State.inHunt_hold (s : State) (n : Nat) (f : RxFrame) : (State.inHunt s n f).hold = s.hold := by
  simp [State.inHunt]

@[simp] theorem State.afterAccept_hold (s : State) (n : Nat) (a : Accept) (f : RxFrame) :
    (State.afterAccept s n a f).hold = s.hold := by
  simp [State.afterAccept]

@[simp] theorem State.atOff_hold (s : State) (n : Nat) (f : RxFrame) : (State.atOff s n f).hold = s.hold := by
  unfold State.atOff
  repeat' split
  all_goals simp

@[simp] theorem State.examine_hold (s : State) (n : Nat) (f : RxFrame) : (State.examine s n f).hold = s.hold := by
  unfold State.examine
  dsimp only
  repeat' split
  all_goals simp

@[simp] theorem State.startKeying_hold (s : State) (l : Link) : (State.startKeying s l).hold = s.hold := by
  simp [State.startKeying]

@[simp] theorem State.linkCheck_hold (s : State) (g : Nat) : (State.linkCheck s g).hold = s.hold := by
  unfold State.linkCheck
  split <;> simp

@[simp] theorem State.takeFrame_hold (s : State) (n : Nat) (f : RxFrame) : (State.takeFrame s n f).hold = s.hold := by
  unfold State.takeFrame
  dsimp only
  repeat' split
  all_goals simp

@[simp] theorem State.noteSkew_hold (s : State) (n : Nat) : (State.noteSkew s n).hold = s.hold := by
  unfold State.noteSkew
  repeat' split
  all_goals simp

theorem execFrameReceived_hold (lane : Fin 256) (f : RxFrame) (s : State) : ∀ t,
    (execFrameReceived lane f s) = .next t → t.hold = s.hold := by
  unfold execFrameReceived
  refine whenUp_hold ?_
  simp

theorem execOverheadPacket_hold (lane : Fin 256) (s : State) : ∀ t,
    (execOverheadPacket lane s) = .next t → t.hold = s.hold := by
  unfold execOverheadPacket
  refine whenUp_hold ?_
  repeat' split
  all_goals simp

@[simp] theorem State.linkLoss_hold (s : State) (g : Nat) : (State.linkLoss s g).hold = s.hold := by
  simp [State.linkLoss]

@[simp] theorem State.setDeclared_hold (s : State) (n : Nat) (d : Nat) (v : Bool) :
    (State.setDeclared s n d v).hold = s.hold := by
  simp [State.setDeclared]

theorem execLaneDefectDeclare_hold (lane : Fin 256) (d : Fin 4) (held : Nat) (s : State) : ∀ t,
    (execLaneDefectDeclare lane d held s) = .next t → t.hold = s.hold := by
  unfold execLaneDefectDeclare
  refine whenUp_hold ?_
  simp

theorem execLaneDefectClear_hold (lane : Fin 256) (d : Fin 4) (held : Nat) (s : State) : ∀ t,
    (execLaneDefectClear lane d held s) = .next t → t.hold = s.hold := by
  unfold execLaneDefectClear
  refine whenUp_hold ?_
  simp

@[simp] theorem State.laneEvent_hold (s : State) (code : Nat) (n : Nat) (d : Nat) :
    (State.laneEvent s code n d).hold = s.hold := by
  simp [State.laneEvent]

theorem execLaneFail_hold (lane : Fin 256) (d : Fin 4) (s : State) : ∀ t,
    (execLaneFail lane d s) = .next t → t.hold = s.hold := by
  unfold execLaneFail
  refine whenUp_hold ?_
  simp

theorem execLaneClear_hold (lane : Fin 256) (d : Fin 4) (s : State) : ∀ t,
    (execLaneClear lane d s) = .next t → t.hold = s.hold := by
  unfold execLaneClear
  refine whenUp_hold ?_
  simp

@[simp] theorem State.reportPhases_hold (s : State) : (State.reportPhases s).hold = s.hold := by
  simp [State.reportPhases, foldl_hold]

@[simp] theorem State.takeMf_hold (s : State) (n : Nat) (mf : RxMf) : (State.takeMf s n mf).1.hold = s.hold := by
  simp [State.takeMf]

@[simp] theorem State.setWhlDef_hold (s : State) (n : Nat) (d : Nat) (v : Bool) :
    (State.setWhlDef s n d v).hold = s.hold := by
  simp [State.setWhlDef]

theorem execWheelDefectDeclare_hold (w : Fin 65536) (d : Fin 6) (s : State) : ∀ t,
    (execWheelDefectDeclare w d s) = .next t → t.hold = s.hold := by
  unfold execWheelDefectDeclare
  refine whenUp_hold ?_
  simp

theorem execWheelDefectClear_hold (w : Fin 65536) (d : Fin 6) (s : State) : ∀ t,
    (execWheelDefectClear w d s) = .next t → t.hold = s.hold := by
  unfold execWheelDefectClear
  refine whenUp_hold ?_
  simp

@[simp] theorem effWheelDefine_hold (x0 : Nat) (x1 : JEntry) (s : State) : (effWheelDefine x0 x1 s).hold = s.hold := by
  simp [effWheelDefine]

theorem execWheelDefine_hold (h : Nat) (s : State) : ∀ t, (execWheelDefine h s) = .next t → t.hold = s.hold := by
  unfold execWheelDefine
  refine next_hold ?_
  exact State.runCmd_hold _ _ _ _ _ (by simp)

@[simp] theorem effWheelDelete_hold (x0 : Nat) (x1 : JEntry) (s : State) : (effWheelDelete x0 x1 s).hold = s.hold := by
  simp [effWheelDelete]

theorem execWheelDelete_hold (h : Nat) (s : State) : ∀ t, (execWheelDelete h s) = .next t → t.hold = s.hold := by
  unfold execWheelDelete
  refine next_hold ?_
  exact State.runCmd_hold _ _ _ _ _ (by simp)

end Sys2Proof.Machine
end

