-- ==== Sys2Proof/Laws/HoldFlips.lean ====
section
/-! SUPPORT. What Flips and named-tick actions leave as it was: the held part of State (Hold). -/
namespace Sys2Proof.Machine
open Sys2Proof

theorem execFlipFreeze_hold (s : State) : ∀ t, (execFlipFreeze s) = .next t → t.hold = s.hold := by
  unfold execFlipFreeze
  refine whenUp_hold ?_
  repeat' split
  all_goals simp

@[simp] theorem State.sendResult_hold (s : State) (x : Flip) (done : Bool) :
    (State.sendResult s x done).hold = s.hold := by
  simp [State.sendResult]

@[simp] theorem State.swapPages_noMap (s : State) : (State.swapPages s).hold.noMap = s.hold.noMap := by
  simp [State.swapPages]

@[simp] theorem State.swapPages_queue (s : State) : (State.swapPages s).hold.pending = s.hold.pending :=
  Hold.noMap_to (State.swapPages_noMap s)

@[simp] theorem State.flipDone_hold (s : State) (carried : Nat) (x : Flip) :
    (State.flipDone s carried x).hold = s.hold := by
  simp [State.flipDone]

@[simp] theorem State.commit_noMap (s : State) : (State.commit s).hold.noMap = s.hold.noMap := by
  unfold State.commit
  dsimp only
  repeat' split
  all_goals simp [foldl_hold]

@[simp] theorem State.commit_queue (s : State) : (State.commit s).hold.pending = s.hold.pending :=
  Hold.noMap_to (State.commit_noMap s)

@[simp] theorem State.copySlice_noMap (s : State) : (State.copySlice s).hold.noMap = s.hold.noMap := by
  unfold State.copySlice
  dsimp only
  split
  · split
    · refine (foldl_phi Hold.noMap (fun t i => ?_) _ _).trans (State.setStandby_noMap _ _)
      simp
    · rfl
  · rfl

theorem execResyncEnd_hold (s : State) : ∀ t, (execResyncEnd s) = .next t → t.hold = s.hold := by
  unfold execResyncEnd
  refine whenUp_hold ?_
  repeat' split
  all_goals simp [foldl_hold]

@[simp] theorem effFlipAt_hold (x0 : Nat) (x1 : JEntry) (s : State) : (effFlipAt x0 x1 s).hold = s.hold := by
  simp [effFlipAt]

theorem execFlipAt_hold (h : Nat) (s : State) : ∀ t, (execFlipAt h s) = .next t → t.hold = s.hold := by
  unfold execFlipAt
  refine next_hold ?_
  exact State.runCmd_hold _ _ _ _ _ (by simp)

theorem execFabricFlipReadyTimeout_hold (h : Nat) (worker : Word) (s : State) : ∀ t,
    (execFabricFlipReadyTimeout h worker s) = .next t → t.hold = s.hold := by
  unfold execFabricFlipReadyTimeout
  refine next_hold ?_
  repeat' split
  all_goals simp

@[simp] theorem State.tellOutcome_hold (t : State) (o : Option Bool) (id : Word) :
    (State.tellOutcome t o id).hold = t.hold := by
  unfold State.tellOutcome
  split <;> simp

@[simp] theorem State.finishFab_hold (s : State) (x : FabFlip) : (State.finishFab s x).hold = s.hold := by
  simp [State.finishFab, foldl_hold]

@[simp] theorem State.finishReady_hold (s : State) : (State.finishReady s).hold = s.hold := by
  simp [State.finishReady, foldl_hold]

@[simp] theorem State.flipsNow_noMap (s : State) : (State.flipsNow s).hold.noMap = s.hold.noMap := by
  simp [State.flipsNow]

theorem execFlipCommit_noMap (s : State) : ∀ t, (execFlipCommit s) = .next t → t.hold.noMap = s.hold.noMap := by
  unfold execFlipCommit
  refine whenUp_phi Hold.noMap ?_
  simp

theorem execFabricFlipResultTimeout_hold (h : Nat) (s : State) : ∀ t,
    (execFabricFlipResultTimeout h s) = .next t → t.hold = s.hold := by
  unfold execFabricFlipResultTimeout
  refine next_hold ?_
  repeat' split
  all_goals simp

@[simp] theorem State.ownFire_hold (s : State) (h : Nat) (t : Option Nat) : (State.ownFire s h t).hold = s.hold := by
  simp [State.ownFire]

@[simp] theorem State.endSeq_hold (s : State) (f : SeqFlip) (status : Nat) (reason : Nat) (off : Option Int) (late : Bool) :
    (State.endSeq s f status reason off late).hold = s.hold := by
  simp [State.endSeq]

@[simp] theorem State.fireRoll_noMap (s : State) (roll : List Nat) : (State.fireRoll s roll).hold.noMap = s.hold.noMap := by
  simp [State.fireRoll]

@[simp] theorem State.fireRoll_queue (s : State) (roll : List Nat) :
    (State.fireRoll s roll).hold.pending = s.hold.pending :=
  Hold.noMap_to (State.fireRoll_noMap s roll)

@[simp] theorem State.fireNow_noMap (s : State) (h : Nat) : (State.fireNow s h).hold.noMap = s.hold.noMap := by
  unfold State.fireNow
  dsimp only
  repeat' split
  all_goals simp

@[simp] theorem State.firesNow_noMap (s : State) : (State.firesNow s).hold.noMap = s.hold.noMap := by
  unfold State.firesNow
  exact foldl_phi Hold.noMap State.fireNow_noMap _ _

theorem execFlipSeqFire_noMap (h : Nat) (s : State) : ∀ t,
    (execFlipSeqFire h s) = .next t → t.hold.noMap = s.hold.noMap := by
  unfold execFlipSeqFire
  refine whenUp_phi Hold.noMap ?_
  repeat' split
  all_goals simp

theorem execFlipSeqExpire_hold (h : Nat) (s : State) : ∀ t, (execFlipSeqExpire h s) = .next t → t.hold = s.hold := by
  unfold execFlipSeqExpire
  refine whenUp_hold ?_
  repeat' split
  all_goals simp

theorem execFlipSeqDiff_hold (h : Nat) (s : State) : ∀ t, (execFlipSeqDiff h s) = .next t → t.hold = s.hold := by
  unfold execFlipSeqDiff
  refine whenUp_hold ?_
  repeat' split
  all_goals simp

@[simp] theorem State.watchOne_hold (s : State) (x : BitVec 24) (t0 : Nat) (f : SeqFlip) :
    (State.watchOne s x t0 f).hold = s.hold := by
  unfold State.watchOne
  repeat' split
  all_goals simp

@[simp] theorem State.seqWatch_hold (s : State) (w : Nat) (x : BitVec 24) (t0 : Nat) :
    (State.seqWatch s w x t0).hold = s.hold := by
  simp [State.seqWatch, foldl_hold]

theorem fitOne_ent {p q r : Page} {rel : List Nat} {x : Nat} (h : fitOne p rel q x = some r) : r.ent = q.ent := by
  unfold fitOne at h
  dsimp only at h
  split at h
  · have h1 := congrArg Page.ent (Option.some.inj h)
    exact h1.symm
  · obtain ⟨i, _, h1⟩ := Option.map_eq_some_iff.mp h
    have h2 := congrArg Page.ent h1
    exact h2.symm

theorem fitRoll_ent {p q r : Page} {rel roll : List Nat} (h : fitRoll p rel roll q = some r) : r.ent = q.ent := by
  have key : ∀ (l : List Nat) (o : Option Page), (∀ y, o = some y → y.ent = q.ent) →
      ∀ y, l.foldl (fun (o : Option Page) x => o.bind (fun q => fitOne p rel q x)) o = some y → y.ent = q.ent := by
    intro l
    induction l with
    | nil => intro o ho y hy; exact ho y hy
    | cons x t ih =>
      intro o ho y hy
      refine ih (o.bind (fun q => fitOne p rel q x)) (fun z hz => ?_) y hy
      obtain ⟨w, hw, hz⟩ := Option.bind_eq_some_iff.mp hz
      rw [fitOne_ent hz, ho w hw]
  exact key roll (some q) (fun y hy => by rw [Option.some.inj hy]) r h

@[simp] theorem effFlipSeq_hold (h : Nat) (e : JEntry) (s : State) : (effFlipSeq h e s).hold = s.hold := by
  unfold effFlipSeq
  dsimp only
  rw [State.recEvt_hold]
  have hc := foldl_hold State.checkRead_hold (seqSlots e) s
  split
  · rename_i q hq
    exact (State.setStandby_hold (fitRoll_ent hq)).trans hc
  · exact hc

theorem execFlipSeq_hold (h : Nat) (s : State) : ∀ t, (execFlipSeq h s) = .next t → t.hold = s.hold := by
  unfold execFlipSeq
  refine next_hold ?_
  exact State.runCmd_hold _ _ _ _ _ (by simp)

@[simp] theorem effFlipCancel_hold (x0 : Nat) (x1 : JEntry) (s : State) : (effFlipCancel x0 x1 s).hold = s.hold := by
  unfold effFlipCancel
  dsimp only
  repeat' split
  all_goals simp

theorem execFlipCancel_hold (h : Nat) (s : State) : ∀ t, (execFlipCancel h s) = .next t → t.hold = s.hold := by
  unfold execFlipCancel
  refine next_hold ?_
  exact State.runCmd_hold _ _ _ _ _ (by simp)

end Sys2Proof.Machine
end

