-- ==== Sys2Proof/Laws/HoldColander.lean ====
section
/-! SUPPORT. What the pairs, the memories, the Cave and the retimers leave as it was: the held part of State (Hold). -/
namespace Sys2Proof.Machine
open Sys2Proof

@[simp] theorem State.pairEvent_hold (s : State) (n : Nat) (kind : Nat) (value : Nat) :
    (State.pairEvent s n kind value).hold = s.hold := by
  simp [State.pairEvent]

@[simp] theorem State.raiseReq_hold (s : State) (pc : Nat) (r : CavReq) : (State.raiseReq s pc r).hold = s.hold :=
    by
  simp [State.raiseReq]

@[simp] theorem State.raiseWrites_hold (s : State) (n : Nat) (x : Nat) (t0 : Nat) :
    (State.raiseWrites s n x t0).hold = s.hold := by
  unfold State.raiseWrites
  refine foldl_hold (fun s j => ?_) _ _
  exact foldl_hold (fun s i => by simp) _ _

@[simp] theorem State.missRead_hold (s : State) (n : Nat) (x : Nat) (j : Nat) : (State.missRead s n x j).hold =
    s.hold := by
  simp [State.missRead]

@[simp] theorem State.raiseReads_hold (s : State) (n : Nat) (x : Nat) (t : Nat) : (State.raiseReads s n x t).hold =
    s.hold := by
  unfold State.raiseReads
  refine foldl_hold (fun s j => ?_) _ _
  refine foldl_hold (fun s z => ?_) _ _
  dsimp only
  repeat' split
  all_goals simp

@[simp] theorem State.caveWrite_hold (s : State) (n : Nat) (x : Nat) (t0 : Nat) (copyB : Bool) (again : Bool) :
    (State.caveWrite s n x t0 copyB again).hold = s.hold := by
  simp [State.caveWrite]

@[simp] theorem State.setLate_hold (s : State) (n : Nat) (copyB : Bool) : (State.setLate s n copyB).hold = s.hold := by
  simp [State.setLate]

@[simp] theorem State.caveTake_hold (s : State) (n : Nat) (c : Chunk) (copyB : Bool) :
    (State.caveTake s n c copyB).hold = s.hold := by
  unfold State.caveTake
  dsimp only
  repeat' split
  all_goals simp

@[simp] theorem State.feedPair_hold (s : State) (w : Nat) (o : MfOut) (t0 : Nat) : (State.feedPair s w o t0).hold =
    s.hold := by
  unfold State.feedPair
  dsimp only
  repeat' split
  all_goals simp

@[simp] theorem State.lockNow_hold (s : State) (n : Nat) : (State.lockNow s n).hold = s.hold := by
  simp [State.lockNow]

theorem execPairLock_hold (p : Fin 32768) (s : State) : ∀ t, (execPairLock p s) = .next t → t.hold = s.hold := by
  unfold execPairLock
  refine whenUp_hold ?_
  simp

@[simp] theorem State.noteTaken_hold (s : State) (n : Nat) (t : Option Bool) : (State.noteTaken s n t).hold = s.hold := by
  unfold State.noteTaken
  split <;> simp

@[simp] theorem State.sendMf_hold (s : State) (n : Nat) (x : Nat) (t0 : Nat) (cnt : Nat) (taken : Option (Bool × Chunk)) :
    (State.sendMf s n x t0 cnt taken).hold = s.hold := by
  simp [State.sendMf]

@[simp] theorem State.spliceMiss_hold (s : State) (n : Nat) (x : Nat) (t : Nat) : (State.spliceMiss s n x t).hold =
    s.hold := by
  simp only [State.spliceMiss]
  repeat' split
  all_goals simp

@[simp] theorem State.selectorOut_hold (s : State) (n : Nat) : (State.selectorOut s n).hold = s.hold := by
  unfold State.selectorOut
  dsimp only
  repeat' split
  all_goals simp

@[simp] theorem State.playout_hold (s : State) (p : Nat) : (State.playout s p).hold = s.hold := by
  unfold State.playout
  dsimp only
  repeat' split
  all_goals simp

@[simp] theorem State.playouts_hold (s : State) : (State.playouts s).hold = s.hold := by
  simp [State.playouts, foldl_hold]

theorem execColanderPlayout_hold (p : Fin 32768) (s : State) : ∀ t, execColanderPlayout p s = .next t → t.hold =
    s.hold := by
  unfold execColanderPlayout
  refine whenUp_hold ?_
  simp

@[simp] theorem State.evalMate_hold (s : State) (n : Nat) : (State.evalMate s n).hold = s.hold := by
  unfold State.evalMate
  dsimp only
  repeat' split
  all_goals simp

@[simp] theorem State.evalPair_hold (s : State) (n : Nat) (eff : Nat) : (State.evalPair s n eff).hold = s.hold := by
  unfold State.evalPair
  dsimp only
  repeat' split
  all_goals simp

theorem execSelectorEvaluate_hold (p : Fin 32768) (s : State) : ∀ t,
    (execSelectorEvaluate p s) = .next t → t.hold = s.hold := by
  unfold execSelectorEvaluate
  refine whenUp_hold ?_
  simp

theorem execPairWtrExpiry_hold (p : Fin 32768) (s : State) : ∀ t,
    (execPairWtrExpiry p s) = .next t → t.hold = s.hold := by
  unfold execPairWtrExpiry
  refine whenUp_hold ?_
  repeat' split
  all_goals simp

@[simp] theorem State.realignPair_hold (s : State) (n : Nat) : (State.realignPair s n).hold = s.hold := by
  simp [State.realignPair]

@[simp] theorem State.pairNow_hold (s : State) (p : Nat) : (State.pairNow s p).hold = s.hold := by
  unfold State.pairNow
  dsimp only
  repeat' split
  all_goals simp

@[simp] theorem State.pairsNow_hold (s : State) : (State.pairsNow s).hold = s.hold := by
  simp [State.pairsNow, foldl_hold]

theorem execPairCmdApply_noMap (p : Fin 32768) (s : State) : ∀ t, execPairCmdApply p s = .next t → t.hold.noMap =
    s.hold.noMap := by
  unfold execPairCmdApply
  refine whenUp_phi Hold.noMap ?_
  simp

theorem State.withMem_noMem (s : State) (m : Mem) : (State.hold { s with mem := m }).noMem = s.hold.noMem := rfl

@[simp] theorem State.memWrite_noMem (s : State) (k a : Nat) (v : BitVec 128) :
    (s.memWrite k a v).hold.noMem = s.hold.noMem := by
  unfold State.memWrite
  split
  · simp
  · rfl

@[simp] theorem State.memWrite_queue (s : State) (k : Nat) (a : Nat) (v : BitVec 128) :
    (State.memWrite s k a v).hold.pending = s.hold.pending :=
  Hold.noMem_to (State.memWrite_noMem s k a v)

@[simp] theorem State.restoreRegion_noMem (s : State) (m : Nat) : (s.restoreRegion m).hold.noMem = s.hold.noMem := by
  unfold State.restoreRegion
  dsimp only
  split
  · simp
  · split
    · exact (State.withMem_noMem _ _).trans (congrArg Hold.noMem (State.setWhisk_hold s m _))
    · simp

@[simp] theorem State.restoreRegion_queue (s : State) (m : Nat) :
    (State.restoreRegion s m).hold.pending = s.hold.pending :=
  Hold.noMem_to (State.restoreRegion_noMem s m)

@[simp] theorem State.caveTouched_noMem (s : State) (t : Nat) : (s.caveTouched t).hold.noMem = s.hold.noMem := by
  unfold State.caveTouched
  split <;> rfl

@[simp] theorem State.caveTouched_queue (s : State) (t : Nat) : (State.caveTouched s t).hold.pending = s.hold.pending :=
  Hold.noMem_to (State.caveTouched_noMem s t)

@[simp] theorem State.setReqs_hold (s : State) (pc : Nat) (l : List CavReq) : (State.setReqs s pc l).hold = s.hold := by
  simp [State.setReqs]

theorem execCaveBurstComplete_noMem (pc : Fin 192) (uncorr : Bool) (s : State) : ∀ t,
    (execCaveBurstComplete pc uncorr s) = .next t → t.hold.noMem = s.hold.noMem := by
  unfold execCaveBurstComplete
  refine whenUp_phi Hold.noMem ?_
  repeat' split
  all_goals simp

theorem execCaveRequestAbandon_hold (pc : Fin 192) (s : State) : ∀ t,
    (execCaveRequestAbandon pc s) = .next t → t.hold = s.hold := by
  unfold execCaveRequestAbandon
  refine whenUp_hold ?_
  repeat' split
  all_goals simp

@[simp] theorem State.missReads_hold (s : State) (t : Nat) : (State.missReads s t).hold = s.hold := by
  simp [State.missReads, foldl_hold]

@[simp] theorem State.dropWhisk_hold (s : State) (t : Nat) : (State.dropWhisk s t).hold = s.hold := by
  simp [State.dropWhisk, foldl_hold]

@[simp] theorem State.grantAt_hold (s : State) (pc : Nat) : (State.grantAt s pc).hold = s.hold := by
  unfold State.grantAt
  split <;> simp

@[simp] theorem State.grantStack_hold (s : State) (t : Nat) : (s.grantStack t).hold = s.hold := by
  unfold State.grantStack
  apply foldl_hold
  intro s i
  exact State.grantAt_hold s (32 * t + i)

@[simp] theorem State.freezeStack_noRegs (s : State) (t : Nat) : (s.freezeStack t).hold.noRegs = s.hold.noRegs := by
  unfold State.freezeStack
  dsimp only
  rw [State.setReg_noRegs, State.grantStack_hold]

@[simp] theorem State.freezeStack_queue (s : State) (t : Nat) : (State.freezeStack s t).hold.pending = s.hold.pending :=
  Hold.noRegs_to (State.freezeStack_noRegs s t)

@[simp] theorem State.thawStack_noRegs (s : State) (t : Nat) : (State.thawStack s t).hold.noRegs = s.hold.noRegs := by
  simp [State.thawStack]

@[simp] theorem State.thawStack_queue (s : State) (t : Nat) : (State.thawStack s t).hold.pending = s.hold.pending :=
  Hold.noRegs_to (State.thawStack_noRegs s t)

@[simp] theorem State.writeFreeze_noRegs (s : State) (v : Word) : (s.writeFreeze v).hold.noRegs = s.hold.noRegs := by
  unfold State.writeFreeze
  refine foldl_phi Hold.noRegs (fun s t => ?_) _ _
  split
  · rfl
  · split
    · exact State.freezeStack_noRegs s t
    · exact State.thawStack_noRegs s t

@[simp] theorem State.writeFreeze_queue (s : State) (v : Word) :
    (State.writeFreeze s v).hold.pending = s.hold.pending :=
  Hold.noRegs_to (State.writeFreeze_noRegs s v)

theorem execCavArbFreezeWrite_noRegs (qp : Fin 16) (v : Word) (s : State) : ∀ t,
    (execCavArbFreezeWrite qp v s) = .next t → t.hold.noRegs = s.hold.noRegs := by
  unfold execCavArbFreezeWrite
  refine whenUp_phi Hold.noRegs ?_
  exact State.ownerWrite_phi Hold.noRegs _ _ _ (by simp)

theorem execCaveStackFault_noRegs (st : Fin 6) (training : Bool) (s : State) : ∀ t,
    (execCaveStackFault st training s) = .next t → t.hold.noRegs = s.hold.noRegs := by
  unfold execCaveStackFault
  refine whenUp_phi Hold.noRegs ?_
  simp

theorem execStackMoveEnd_hold (p : Fin 32768) (s : State) : ∀ t, execStackMoveEnd p s = .next t → t.hold = s.hold :=
    by
  unfold execStackMoveEnd
  refine whenUp_hold ?_
  repeat' split
  all_goals simp

@[simp] theorem State.noteDiff_hold (s : State) : (State.noteDiff s).hold = s.hold := by
  simp [State.noteDiff]

@[simp] theorem State.wheelOverhead_hold (s : State) (w : Nat) (mf : RxMf) :
    (State.wheelOverhead s w mf).hold = s.hold := by
  simp [State.wheelOverhead]

theorem execWheelOverhead_hold (w : Fin 65536) (mf : RxMf) (s : State) : ∀ t,
    (execWheelOverhead w mf s) = .next t → t.hold = s.hold := by
  unfold execWheelOverhead
  refine whenUp_hold ?_
  simp

theorem execRetimerDecide_hold (w : Fin 65536) (s : State) : ∀ t,
    (execRetimerDecide w s) = .next t → t.hold = s.hold := by
  unfold execRetimerDecide
  refine whenUp_hold ?_
  repeat' split
  all_goals simp

theorem execRetimerCountDeadline_hold (w : Fin 65536) (s : State) : ∀ t,
    (execRetimerCountDeadline w s) = .next t → t.hold = s.hold := by
  unfold execRetimerCountDeadline
  refine whenUp_hold ?_
  repeat' split
  all_goals simp

@[simp] theorem State.retimeTick_hold (s : State) (w : Nat) : (State.retimeTick s w).hold = s.hold := by
  simp [State.retimeTick]

@[simp] theorem State.pullChunk_hold (s : State) (n : Nat) : (State.pullChunk s n).hold = s.hold := by
  simp [State.pullChunk]

@[simp] theorem State.pairTick_hold (s : State) (n : Nat) : (State.pairTick s n).hold = s.hold := by
  simp [State.pairTick]

end Sys2Proof.Machine
end

