-- ==== Sys2Proof/Laws/HoldStarter.lean ====
section
/-! SUPPORT. What the Starter and the Wheel overhead leave as it was: the held part of State (Hold). -/
namespace Sys2Proof.Machine
open Sys2Proof

@[simp] theorem State.onStr_hold (s : State) (f : Str → Str) : (State.onStr s f).hold = s.hold := by
  simp [State.onStr]

@[simp] theorem State.loseRef_hold (s : State) (i : Nat) : (State.loseRef s i).hold = s.hold := by
  simp [State.loseRef]

@[simp] theorem State.disqualify_hold (s : State) (i : Nat) (reason : Nat) : (State.disqualify s i reason).hold = s.hold := by
  simp [State.disqualify]

theorem execSourceActivityLoss_hold (last : LastEdge) (s : State) : ∀ t, execSourceActivityLoss
    last s = .next t → t.hold = s.hold := by
  unfold execSourceActivityLoss
  refine whenUp_hold ?_
  simp

@[simp] theorem State.measure_hold (s : State) (m : PeriodIn) (i : Nat) : (State.measure s m i).hold = s.hold := by
  unfold State.measure
  split <;> simp

theorem execSourceQualified_hold (src : Fin 38) (s : State) : ∀ t,
    (execSourceQualified src s) = .next t → t.hold = s.hold := by
  unfold execSourceQualified
  refine whenUp_hold ?_
  repeat' split
  all_goals simp

@[simp] theorem State.outliers_hold (s : State) : (State.outliers s).hold = s.hold := by
  simp [State.outliers, foldl_hold]

@[simp] theorem State.takeQl_hold (s : State) : (State.takeQl s).hold = s.hold := by
  simp only [State.takeQl]
  repeat' first
    | (simp [foldl_hold]; done)
    | (refine (foldl_hold ?_ _ _).trans ?_; intros)
    | split
    | simp

@[simp] theorem State.noteSelectable_hold (s : State) : (State.noteSelectable s).hold = s.hold := by
  simp [State.noteSelectable, foldl_hold]

theorem execReferenceWtrExpiry_hold (entry : Fin 16) (s : State) : ∀ t,
    (execReferenceWtrExpiry entry s) = .next t → t.hold = s.hold := by
  unfold execReferenceWtrExpiry
  refine whenUp_hold ?_
  simp

@[simp] theorem State.holdSample_hold (s : State) : (State.holdSample s).hold = s.hold := by
  simp [State.holdSample]

@[simp] theorem State.enter_hold (s : State) (st : StrState) : (State.enter s st).hold = s.hold := by
  simp [State.enter]

@[simp] theorem State.selectEntry_hold (s : State) (k : Nat) (phase : Int) : (State.selectEntry s k phase).hold = s.hold := by
  simp [State.selectEntry]

@[simp] theorem State.noRef_hold (s : State) : (State.noRef s).hold = s.hold := by
  unfold State.noRef
  dsimp only
  repeat' split
  all_goals simp

@[simp] theorem State.outcome_hold (s : State) (phase : Int) : (State.outcome s phase).hold = s.hold := by
  unfold State.outcome
  repeat' split
  all_goals simp

@[simp] theorem State.followOutcome_hold (s : State) (phase : Int) : (State.followOutcome s phase).hold = s.hold := by
  simp [State.followOutcome]

@[simp] theorem State.unfollow_hold (s : State) (phase : Int) : (State.unfollow s phase).hold = s.hold := by
  unfold State.unfollow
  dsimp only
  repeat' split
  all_goals simp

@[simp] theorem State.takeWord_hold (s : State) (m : PeriodIn) : (State.takeWord s m).hold = s.hold := by
  simp [State.takeWord]

@[simp] theorem State.starterPeriod_hold (s : State) (m : PeriodIn) : (State.starterPeriod s m).hold = s.hold := by
  simp [State.starterPeriod, foldl_hold]

theorem execStarterLock_hold (s : State) : ∀ t, (execStarterLock s) = .next t → t.hold = s.hold := by
  unfold execStarterLock
  refine whenUp_hold ?_
  repeat' split
  all_goals simp

theorem execAcqTmoExpiry_hold (s : State) : ∀ t, (execAcqTmoExpiry s) = .next t → t.hold = s.hold := by
  unfold execAcqTmoExpiry
  refine whenUp_hold ?_
  repeat' split
  all_goals simp

theorem execLoopBandwidthStep_hold (s : State) : ∀ t, (execLoopBandwidthStep s) = .next t → t.hold = s.hold := by
  unfold execLoopBandwidthStep
  refine whenUp_hold ?_
  simp

theorem execTransitionEnd_hold (s : State) : ∀ t, (execTransitionEnd s) = .next t → t.hold = s.hold := by
  unfold execTransitionEnd
  refine whenUp_hold ?_
  simp

theorem execHoldoverLimitExpiry_hold (s : State) : ∀ t, (execHoldoverLimitExpiry s) = .next t → t.hold = s.hold := by
  unfold execHoldoverLimitExpiry
  refine whenUp_hold ?_
  simp

@[simp] theorem effRefConfig_hold (x0 : Nat) (x1 : JEntry) (s : State) : (effRefConfig x0 x1 s).hold = s.hold := by
  simp [effRefConfig]

theorem execRefConfig_hold (h : Nat) (s : State) : ∀ t, (execRefConfig h s) = .next t → t.hold = s.hold := by
  unfold execRefConfig
  refine next_hold ?_
  exact State.runCmd_hold _ _ _ _ _ (by simp)

@[simp] theorem effRefForce_hold (x0 : Nat) (x1 : JEntry) (s : State) : (effRefForce x0 x1 s).hold = s.hold := by
  simp [effRefForce]

theorem execRefForce_hold (h : Nat) (s : State) : ∀ t, (execRefForce h s) = .next t → t.hold = s.hold := by
  unfold execRefForce
  refine next_hold ?_
  exact State.runCmd_hold _ _ _ _ _ (by simp)

@[simp] theorem effPhaseStep_hold (x0 : Nat) (x1 : JEntry) (s : State) : (effPhaseStep x0 x1 s).hold = s.hold := by
  simp [effPhaseStep]

theorem execPhaseStep_hold (h : Nat) (s : State) : ∀ t, (execPhaseStep h s) = .next t → t.hold = s.hold := by
  unfold execPhaseStep
  refine next_hold ?_
  exact State.runCmd_hold _ _ _ _ _ (by simp)

@[simp] theorem State.cfgNow_noRegs (s : State) : (State.cfgNow s).hold.noRegs = s.hold.noRegs := by
  unfold State.cfgNow
  split
  · rfl
  · dsimp only
    simp only [State.complete_hold]
    refine (ite_phi Hold.noRegs _ _ _).trans ?_
    simp [foldl_phi Hold.noRegs]

@[simp] theorem State.forceNow_hold (s : State) : (State.forceNow s).hold = s.hold := by
  unfold State.forceNow
  dsimp only
  repeat' split
  all_goals simp

@[simp] theorem State.refsNow_noRegs (s : State) : (State.refsNow s).hold.noRegs = s.hold.noRegs := by
  unfold State.refsNow
  dsimp only
  rw [foldl_hold (fun t _ => State.forceNow_hold t)]
  exact foldl_phi Hold.noRegs (fun t _ => State.cfgNow_noRegs t) _ _

@[simp] theorem State.stepNow_hold (s : State) : (State.stepNow s).hold = s.hold := by
  unfold State.stepNow
  dsimp only
  repeat' split
  all_goals simp

theorem execPhaseStepEnd_hold (s : State) : ∀ t, (execPhaseStepEnd s) = .next t → t.hold = s.hold := by
  unfold execPhaseStepEnd
  refine whenUp_hold ?_
  repeat' split
  all_goals simp

@[simp] theorem State.askLoad_hold (s : State) : (State.askLoad s).hold = s.hold := by
  simp [State.askLoad]

theorem execTnLoad_hold (qp : Fin 16) (s : State) : ∀ t, (execTnLoad qp s) = .next t → t.hold = s.hold := by
  unfold execTnLoad
  refine whenUp_hold ?_
  exact State.ownerWrite_hold _ _ _ (by simp)

theorem execTodMessage_hold (bytes : List Byte) (s : State) : ∀ t,
    (execTodMessage bytes s) = .next t → t.hold = s.hold := by
  unfold execTodMessage
  refine whenUp_hold ?_
  repeat' split
  all_goals simp

@[simp] theorem State.missedEdge_hold (s : State) : (State.missedEdge s).hold = s.hold := by
  simp [State.missedEdge]

@[simp] theorem State.edgeWith_hold (s : State) (sec : Nat) (ql : Nat) : (State.edgeWith s sec ql).hold = s.hold := by
  simp [State.edgeWith]

@[simp] theorem State.ppsEdge_hold (s : State) : (State.ppsEdge s).hold = s.hold := by
  simp [State.ppsEdge]

theorem execPpsInEdge_hold (s : State) : ∀ t, execPpsInEdge s = .next t → t.hold = s.hold := by
  unfold execPpsInEdge
  refine whenUp_hold ?_
  dsimp only
  repeat' split
  all_goals simp

theorem execTodOutSend_hold (s : State) : ∀ t, (execTodOutSend s) = .next t → t.hold = s.hold := by
  unfold execTodOutSend
  refine whenUp_hold ?_
  simp

@[simp] theorem State.routeMsgs_hold (s : State) : (State.routeMsgs s).hold = s.hold := by
  simp [State.routeMsgs]

@[simp] theorem State.depart_hold (s : State) (l : Link) (d : Nat) (m : OutMsg) : (State.depart s l d m).hold = s.hold := by
  simp [State.depart]

@[simp] theorem State.takeSend2_hold (s : State) (n : Nat) : (State.takeSend2 s n).hold = s.hold := by
  unfold State.takeSend2
  repeat' split
  all_goals simp

@[simp] theorem State.linkFragment_hold (s : State) (l : Link) (lanes : List Nat) (n : Nat) (tx : Nat) (i : Nat) (d : Nat)
    (cap : Nat) : (State.linkFragment s l lanes n tx i d cap).1.hold = s.hold := by
  unfold State.linkFragment
  dsimp only
  repeat' split
  all_goals simp

end Sys2Proof.Machine
end

