-- ==== Sys2Proof/Laws/HoldCalrin.lean ====
section
/-! SUPPORT. What the Calrin interface and its records leave as it was: the held part of State (Hold). -/
namespace Sys2Proof.Machine
open Sys2Proof

@[simp] theorem State.setLone_hold (s : State) : (State.setLone s).hold = s.hold := by
  simp [State.setLone]

@[simp] theorem State.resumeJournal_hold (s : State) : (State.resumeJournal s).hold = s.hold := by
  simp [State.resumeJournal]

@[simp] theorem State.refillOverflow_hold (s : State) (r : Nat) : (State.refillOverflow s r).hold = s.hold := by
  simp [State.refillOverflow, foldl_hold]

@[simp] theorem State.becomeActive_hold (s : State) : (State.becomeActive s).hold = s.hold := by
  simp [State.becomeActive, foldl_hold]

@[simp] theorem State.enterSyncing_hold (s : State) : (State.enterSyncing s).hold = s.hold := by
  simp [State.enterSyncing]

@[simp] theorem State.recordGap_hold (s : State) : (State.recordGap s).hold = s.hold := by
  simp [State.recordGap]

@[simp] theorem State.resolve_hold (s : State) : (State.resolve s).hold = s.hold := by
  unfold State.resolve
  split <;> simp

@[simp] theorem State.addSnap_hold (s : State) (r : LRec) : (State.addSnap s r).1.hold = s.hold := by
  unfold State.addSnap
  repeat' split
  all_goals simp

@[simp] theorem State.calFrame_hold (s : State) (bytes : List Byte) (l : Nat) :
    (State.calFrame s bytes l).1.hold = s.hold := by
  simp [State.calFrame]

@[simp] theorem State.sealOwn_hold (s : State) : (State.sealOwn s).1.hold = s.hold := by
  simp [State.sealOwn, foldl_hold]

@[simp] theorem State.sealTick_hold (s : State) : (State.sealTick s).hold = s.hold := by
  unfold State.sealTick
  repeat' split
  all_goals simp [foldl_fst_hold]

@[simp] theorem State.sealNow_hold (s : State) : (State.sealNow s).hold = s.hold := by
  unfold State.sealNow
  repeat' split
  all_goals simp

@[simp] theorem State.calAlign_hold (s : State) (lane : Nat) (pos : Nat) (good : Bool) (seq : BitVec 24) :
    (State.calAlign s lane pos good seq).1.hold = s.hold := by
  simp [State.calAlign]

@[simp] theorem State.calLink_hold (s : State) (was : Bool) : (State.calLink s was).hold = s.hold := by
  simp [State.calLink]

@[simp] theorem State.takeAck_hold (s : State) (a : BitVec 24) : (State.takeAck s a).hold = s.hold := by
  simp [State.takeAck]

@[simp] theorem State.dropCave_hold (s : State) : (State.dropCave s).hold = s.hold := by
  simp [State.dropCave]

@[simp] theorem State.storeRec_hold (s : State) (r : LRec) : (State.storeRec s r).hold = s.hold := by
  unfold State.storeRec
  repeat' split
  all_goals simp

@[simp] theorem State.takeShare_hold (s : State) (lane : Nat) (tn : Nat) (thin : Bool) (b : List Byte) :
    (State.takeShare s lane tn thin b).hold = s.hold := by
  unfold State.takeShare
  dsimp only
  repeat' split
  all_goals simp

@[simp] theorem State.takeCalHdr_hold (s : State) (h : BitVec 128) : (State.takeCalHdr s h).hold = s.hold := by
  unfold State.takeCalHdr
  split <;> simp

@[simp] theorem State.takeRecord_hold (s : State) (lane : Nat) (f : CalFrame) :
    (State.takeRecord s lane f).hold = s.hold := by
  unfold State.takeRecord
  dsimp only
  repeat' split
  all_goals simp

theorem execCalrinFrame_hold (lane : Fin 4) (f : CalFrame) (s : State) : ∀ t, execCalrinFrame lane f s = .next t →
    t.hold = s.hold := by
  unfold execCalrinFrame
  refine whenUp_hold ?_
  dsimp only
  repeat' split
  all_goals simp

theorem execAckStall_hold (s : State) : ∀ t, (execAckStall s) = .next t → t.hold = s.hold := by
  unfold execAckStall
  refine whenUp_hold ?_
  simp

theorem execHeartbeatChange_hold (changes : BitVec 8) (s : State) : ∀ t,
    (execHeartbeatChange changes s) = .next t → t.hold = s.hold := by
  unfold execHeartbeatChange
  refine whenUp_hold ?_
  simp

theorem execHeartbeatSilence_hold (s : State) : ∀ t, (execHeartbeatSilence s) = .next t → t.hold = s.hold := by
  unfold execHeartbeatSilence
  refine whenUp_hold ?_
  dsimp only
  repeat' split
  all_goals simp

theorem execSettleDetachedExpiry_hold (s : State) : ∀ t, (execSettleDetachedExpiry s) = .next t → t.hold = s.hold := by
  unfold execSettleDetachedExpiry
  refine whenUp_hold ?_
  simp

theorem execReclaimSettleExpiry_hold (s : State) : ∀ t, (execReclaimSettleExpiry s) = .next t → t.hold = s.hold := by
  unfold execReclaimSettleExpiry
  refine whenUp_hold ?_
  simp

theorem execYieldComplete_hold (s : State) : ∀ t, (execYieldComplete s) = .next t → t.hold = s.hold := by
  unfold execYieldComplete
  refine whenUp_hold ?_
  repeat' split
  all_goals simp

@[simp] theorem State.swap_hold (s : State) : (State.swap s).hold = s.hold := by
  simp [State.swap]

theorem execCalMateCtrlSwap_hold (qp : Fin 16) (s : State) : ∀ t,
    (execCalMateCtrlSwap qp s) = .next t → t.hold = s.hold := by
  unfold execCalMateCtrlSwap
  refine whenUp_hold ?_
  exact State.ownerWrite_hold _ _ _ (by simp)

theorem execSyncComplete_hold (s : State) : ∀ t, (execSyncComplete s) = .next t → t.hold = s.hold := by
  unfold execSyncComplete
  refine whenUp_hold ?_
  simp

theorem execTakeoverHoldEnd_hold (s : State) : ∀ t, (execTakeoverHoldEnd s) = .next t → t.hold = s.hold := by
  unfold execTakeoverHoldEnd
  refine whenUp_hold ?_
  repeat' split
  all_goals simp [foldl_hold]

@[simp] theorem State.repost_hold (s : State) (r : Nat) (slots : List (Nat × CmpEntry)) (h : Nat) :
    (State.repost s r slots h).hold = s.hold := by
  unfold State.repost
  repeat' split
  all_goals simp

theorem execCompletionRingReadDone_hold (r : Fin 16) (slots : List (Nat × CmpEntry)) (s : State) : ∀ t,
    (execCompletionRingReadDone r slots s) = .next t → t.hold = s.hold := by
  unfold execCompletionRingReadDone
  refine whenFw_hold ?_
  simp [foldl_hold]

@[simp] theorem effBudgetSet_hold (x0 : Nat) (x1 : JEntry) (s : State) : (effBudgetSet x0 x1 s).hold = s.hold := by
  simp [effBudgetSet]

theorem execBudgetSet_hold (h : Nat) (s : State) : ∀ t, (execBudgetSet h s) = .next t → t.hold = s.hold := by
  unfold execBudgetSet
  refine next_hold ?_
  exact State.runCmd_hold _ _ _ _ _ (by simp)

@[simp] theorem State.giveWhisk_hold (s : State) (m : Nat) (full : Nat) (cost : Nat) (base : Nat) (h : Nat) :
    (State.giveWhisk s m full cost base h).1.hold = s.hold := by
  simp [State.giveWhisk]

@[simp] theorem State.startScan_hold (s : State) (c : Scan) : (State.startScan s c).hold = s.hold := by
  simp [State.startScan]

@[simp] theorem State.powerStack_hold (s : State) (t : Nat) : (State.powerStack s t).hold = s.hold := by
  simp [State.powerStack]

@[simp] theorem State.plan_hold (s : State) (h : Nat) : (State.plan s h).hold = s.hold := by
  unfold State.plan
  repeat' split
  all_goals simp [foldl_fst_hold, foldl_hold]

@[simp] theorem State.endGrants_hold (s : State) : (State.endGrants s).hold = s.hold := by
  simp [State.endGrants, foldl_hold]

@[simp] theorem State.ledgerPeriod_hold (s : State) (dom : List Nat) : (State.ledgerPeriod s dom).hold = s.hold := by
  simp [State.ledgerPeriod, foldl_hold]

end Sys2Proof.Machine
end

