-- ==== Sys2Proof/Laws/HoldRind.lean ====
section
/-! SUPPORT. What the principals, the messages of peers and the command set leave as it was: the held part of State (Hold). -/
namespace Sys2Proof.Machine
open Sys2Proof

@[simp] theorem State.unbindRing_hold (s : State) (r : Nat) : (State.unbindRing s r).hold = s.hold := by
  simp [State.unbindRing]

@[simp] theorem State.dropRingKey_hold (s : State) (p : Nat) : (State.dropRingKey s p).hold = s.hold := by
  unfold State.dropRingKey
  split <;> simp

@[simp] theorem State.ptTables_noPrn (s : State) (p : Nat) (new : Part) (ch : List (Nat × Block)) :
    (State.ptTables s p new ch).hold.noPrn = s.hold.noPrn := by
  simp only [State.ptTables]
  repeat' first
    | (simp; done)
    | (refine (foldl_phi Hold.noPrn ?_ _ _).trans ?_; intros)
    | split
    | simp

@[simp] theorem State.ptTables_queue (s : State) (p : Nat) (new : Part) (ch : List (Nat × Block)) :
    (State.ptTables s p new ch).hold.pending = s.hold.pending :=
  Hold.noPrn_to (State.ptTables_noPrn s p new ch)

@[simp] theorem State.ptApply_noPrn (s : State) (e : JEntry) : (State.ptApply s e).hold.noPrn = s.hold.noPrn := by
  unfold State.ptApply
  dsimp only
  repeat' split
  all_goals simp

@[simp] theorem State.ptApply_queue (s : State) (e : JEntry) : (State.ptApply s e).hold.pending = s.hold.pending :=
  Hold.noPrn_to (State.ptApply_noPrn s e)

@[simp] theorem effPartitionSet_noPrn (x0 : Nat) (x1 : JEntry) (s : State) :
    (effPartitionSet x0 x1 s).hold.noPrn = s.hold.noPrn := by
  simp [effPartitionSet]

@[simp] theorem effPartitionSet_queue (x0 : Nat) (x1 : JEntry) (s : State) :
    (effPartitionSet x0 x1 s).hold.pending = s.hold.pending :=
  Hold.noPrn_to (effPartitionSet_noPrn x0 x1 s)

theorem execPartitionSet_noPrn (h : Nat) (s : State) : ∀ t,
    (execPartitionSet h s) = .next t → t.hold.noPrn = s.hold.noPrn := by
  unfold execPartitionSet
  refine next_phi Hold.noPrn ?_
  exact State.runCmd_phi Hold.noPrn _ _ _ _ _ (by simp)

@[simp] theorem effRingBind_hold (x0 : Nat) (x1 : JEntry) (s : State) : (effRingBind x0 x1 s).hold = s.hold := by
  simp [effRingBind, foldl_hold]

theorem execRingBind_hold (h : Nat) (s : State) : ∀ t, (execRingBind h s) = .next t → t.hold = s.hold := by
  unfold execRingBind
  refine next_hold ?_
  exact State.runCmd_hold _ _ _ _ _ (by simp)

@[simp] theorem State.authFail_hold (s : State) (l : Link) : (State.authFail s l).hold = s.hold := by
  unfold State.authFail
  split <;> simp

@[simp] theorem State.relayMsg_hold (s : State) (hd : FabHdr) (y2 : Nat) (body : List Byte) :
    (State.relayMsg s hd y2 body).hold = s.hold := by
  unfold State.relayMsg
  split <;> simp

@[simp] theorem State.fabHeard_hold (s : State) (hd : FabHdr) (type : Nat) : (State.fabHeard s hd type).hold =
    s.hold := by
  unfold State.fabHeard
  repeat' split
  all_goals simp

@[simp] theorem State.fabNote_hold (s : State) (hd : FabHdr) (y2 : Nat) (body : List Byte) :
    (State.fabNote s hd y2 body).hold = s.hold := by
  simp [State.fabNote]

/-- A fabric message changes at most what its own bookkeeping changes, and then acts or not. -/
theorem State.fabTake_cases (s : State) (hd : FabHdr) (type : Nat) (body : List Byte) (act : State → State) :
    ∃ u : State, u.hold = s.hold ∧ (s.fabTake hd type body act = u ∨ s.fabTake hd type body act = act u) := by
  unfold State.fabTake
  dsimp only
  repeat' split
  all_goals first
    | exact ⟨_, by simp, Or.inl rfl⟩
    | exact ⟨_, by simp, Or.inr rfl⟩

theorem State.fabTake_phi {β : Type} (φ : Hold → β) (s : State) (hd : FabHdr) (type : Nat) (body : List Byte)
    (act : State → State)
    (ha : ∀ s, φ (act s).hold = φ s.hold) : φ (s.fabTake hd type body act).hold = φ s.hold := by
  obtain ⟨u, hu, h | h⟩ := s.fabTake_cases hd type body act
  · rw [h, hu]
  · rw [h, ha, hu]

theorem State.fabTake_hold (s : State) (hd : FabHdr) (type : Nat) (body : List Byte) (act : State → State)
    (ha : ∀ s, (act s).hold = s.hold) : (s.fabTake hd type body act).hold = s.hold := State.fabTake_phi id s hd type
    body act ha

@[simp] theorem State.advanceLeaf_hold (s : State) : (State.advanceLeaf s).hold = s.hold := by
  simp [State.advanceLeaf]

@[simp] theorem State.takeLeaf_hold (s : State) : (State.takeLeaf s).2.hold = s.hold := by
  unfold State.takeLeaf
  split <;> simp

@[simp] theorem State.giveQuote_hold (s : State) (h : Nat) (e : JEntry) : (State.giveQuote s h e).hold = s.hold := by
  simp [State.giveQuote]

@[simp] theorem State.keyPorts_hold (s : State) (ports : List Nat) (okm : List Byte) (start : Nat) :
    (State.keyPorts s ports okm start).hold = s.hold := by
  simp [State.keyPorts, foldl_hold]

@[simp] theorem State.takeOwnership_noFuse (s : State) (b : List Byte) :
    (State.takeOwnership s b).hold.noFuse = s.hold.noFuse := by
  unfold State.takeOwnership
  split <;> simp

@[simp] theorem State.takeOwnership_queue (s : State) (b : List Byte) :
    (State.takeOwnership s b).hold.pending = s.hold.pending :=
  Hold.noFuse_to (State.takeOwnership_noFuse s b)

@[simp] theorem State.keyRing_hold (s : State) (r : Nat) (key : List Byte) (serial : Nat) :
    (State.keyRing s r key serial).hold = s.hold := by
  simp [State.keyRing]

@[simp] theorem State.kaInstall_noFuse (s : State) (ring : Nat) (b : List Byte) (i : Nat) :
    (State.kaInstall s ring b i).hold.noFuse = s.hold.noFuse := by
  simp [State.kaInstall]

@[simp] theorem State.kaInstall_queue (s : State) (ring : Nat) (b : List Byte) (i : Nat) :
    (State.kaInstall s ring b i).hold.pending = s.hold.pending :=
  Hold.noFuse_to (State.kaInstall_noFuse s ring b i)

@[simp] theorem State.giveKeys_noFuse (s : State) (h : Nat) (e : JEntry) :
    (State.giveKeys s h e).hold.noFuse = s.hold.noFuse := by
  simp [State.giveKeys]

@[simp] theorem State.giveKeys_queue (s : State) (h : Nat) (e : JEntry) :
    (State.giveKeys s h e).hold.pending = s.hold.pending :=
  Hold.noFuse_to (State.giveKeys_noFuse s h e)

@[simp] theorem State.sendPeerQuote_hold (s : State) (n : Nat) : (State.sendPeerQuote s n).hold = s.hold := by
  unfold State.sendPeerQuote
  dsimp only
  repeat' split
  all_goals simp [foldl_hold]

@[simp] theorem State.serveKey_noFuse (s : State) (h : Nat) : (State.serveKey s h).hold.noFuse = s.hold.noFuse := by
  unfold State.serveKey
  split <;> simp

@[simp] theorem State.serveKey_queue (s : State) (h : Nat) : (State.serveKey s h).hold.pending = s.hold.pending :=
  Hold.noFuse_to (State.serveKey_noFuse s h)

@[simp] theorem State.whenKey_noFuse (s : State) (h : Nat) (e : JEntry) :
    (State.whenKey s h e).hold.noFuse = s.hold.noFuse := by
  simp [State.whenKey]

@[simp] theorem State.whenKey_queue (s : State) (h : Nat) (e : JEntry) :
    (State.whenKey s h e).hold.pending = s.hold.pending :=
  Hold.noFuse_to (State.whenKey_noFuse s h e)

@[simp] theorem State.serveJob_noFuse (s : State) (j : QuoteJob) : (State.serveJob s j).hold.noFuse = s.hold.noFuse := by
  simp [State.serveJob]

@[simp] theorem State.serveJob_queue (s : State) (j : QuoteJob) : (State.serveJob s j).hold.pending = s.hold.pending :=
  Hold.noFuse_to (State.serveJob_noFuse s j)

@[simp] theorem State.quotePeer_hold (s : State) (n : Nat) : (State.quotePeer s n).hold = s.hold := by
  simp [State.quotePeer]

@[simp] theorem State.serveQuotes_noFuse (x0 : Nat) (s : State) : (State.serveQuotes x0 s).hold.noFuse = s.hold.noFuse := by
  fun_induction State.serveQuotes <;> simp_all

@[simp] theorem State.serveQuotes_queue (x0 : Nat) (s : State) : (State.serveQuotes x0 s).hold.pending = s.hold.pending :=
  Hold.noFuse_to (State.serveQuotes_noFuse x0 s)

theorem execKeyAgree_noFuse (h : Nat) (s : State) : ∀ t, (execKeyAgree h s) = .next t → t.hold.noFuse = s.hold.noFuse := by
  unfold execKeyAgree
  refine next_phi Hold.noFuse ?_
  exact State.runCmd_phi Hold.noFuse _ _ _ _ _ (by simp)

theorem execMateRingKey_hold (hd : FabHdr) (ring : Fin 16) (key : BitVec 256) (s : State) : ∀ t,
    (execMateRingKey hd ring key s) = .next t → t.hold = s.hold := by
  unfold execMateRingKey
  refine next_hold ?_
  split
  · exact State.fabTake_hold _ _ _ _ _ (by intro s; (try dsimp only); (repeat' split) <;> simp)
  · rfl

theorem execMateKeyAgreeRequest_noFuse (hd : FabHdr) (req : List Byte) (ecOk : Bool) (lmsOk : Bool) (s : State) : ∀ t,
    (execMateKeyAgreeRequest hd req ecOk lmsOk s) = .next t → t.hold.noFuse = s.hold.noFuse := by
  unfold execMateKeyAgreeRequest
  refine next_phi Hold.noFuse ?_
  split
  · exact State.fabTake_phi Hold.noFuse _ _ _ _ _ (by intro s; (try dsimp only); (repeat' split) <;> simp [foldl_phi
    Hold.noFuse])
  · rfl

theorem execMateKeyAgreeResponse_hold (hd : FabHdr) (serial : Nat) (resp : List Byte) (s : State) : ∀ t,
    (execMateKeyAgreeResponse hd serial resp s) = .next t → t.hold = s.hold := by
  unfold execMateKeyAgreeResponse
  refine next_hold ?_
  split
  · exact State.fabTake_hold _ _ _ _ _ (by intro s; (try dsimp only); (repeat' split) <;> simp)
  · rfl

theorem execSaTxSwitch_hold (port : Fin 2) (s : State) : ∀ t, (execSaTxSwitch port s) = .next t → t.hold = s.hold := by
  unfold execSaTxSwitch
  refine next_hold ?_
  repeat' split
  all_goals simp

theorem execAttestQuote_noFuse (h : Nat) (s : State) : ∀ t,
    (execAttestQuote h s) = .next t → t.hold.noFuse = s.hold.noFuse := by
  unfold execAttestQuote
  refine next_phi Hold.noFuse ?_
  exact State.runCmd_phi Hold.noFuse _ _ _ _ _ (by simp)

theorem execEphemeralKeyReady_noFuse (s : State) : ∀ t,
    (execEphemeralKeyReady s) = .next t → t.hold.noFuse = s.hold.noFuse := by
  unfold execEphemeralKeyReady
  refine whenUp_phi Hold.noFuse ?_
  simp

@[simp] theorem State.setSpare_noFuse (s : State) (x : Option FwImage) :
    (State.setSpare s x).hold.noFuse = s.hold.noFuse := by
  simp [State.setSpare]

@[simp] theorem State.setSpare_queue (s : State) (x : Option FwImage) :
    (State.setSpare s x).hold.pending = s.hold.pending :=
  Hold.noFuse_to (State.setSpare_noFuse s x)

@[simp] theorem effFwStage_noFuse (x0 : Nat) (x1 : JEntry) (s : State) :
    (effFwStage x0 x1 s).hold.noFuse = s.hold.noFuse := by
  simp [effFwStage]

@[simp] theorem effFwStage_queue (x0 : Nat) (x1 : JEntry) (s : State) :
    (effFwStage x0 x1 s).hold.pending = s.hold.pending :=
  Hold.noFuse_to (effFwStage_noFuse x0 x1 s)

theorem execFwStage_noFuse (h : Nat) (s : State) : ∀ t, (execFwStage h s) = .next t → t.hold.noFuse = s.hold.noFuse := by
  unfold execFwStage
  refine next_phi Hold.noFuse ?_
  exact State.runCmd_phi Hold.noFuse _ _ _ _ _ (by simp)

@[simp] theorem effFwActivate_noFuse (x0 : Nat) (x1 : JEntry) (s : State) :
    (effFwActivate x0 x1 s).hold.noFuse = s.hold.noFuse := by
  simp [effFwActivate]

@[simp] theorem effFwActivate_queue (x0 : Nat) (x1 : JEntry) (s : State) :
    (effFwActivate x0 x1 s).hold.pending = s.hold.pending :=
  Hold.noFuse_to (effFwActivate_noFuse x0 x1 s)

theorem execFwActivate_noFuse (h : Nat) (s : State) : ∀ t,
    (execFwActivate h s) = .next t → t.hold.noFuse = s.hold.noFuse := by
  unfold execFwActivate
  refine next_phi Hold.noFuse ?_
  exact State.runCmd_phi Hold.noFuse _ _ _ _ _ (by simp)

@[simp] theorem State.resumeSealed_hold (s : State) : (State.resumeSealed s).hold = s.hold := by
  simp [State.resumeSealed, foldl_hold]

@[simp] theorem effSeal_noSeal (x0 : Nat) (x1 : JEntry) (s : State) : (effSeal x0 x1 s).hold.noSeal = s.hold.noSeal := by
  simp [effSeal]

@[simp] theorem effSeal_queue (x0 : Nat) (x1 : JEntry) (s : State) : (effSeal x0 x1 s).hold.pending = s.hold.pending :=
  Hold.noSeal_to (effSeal_noSeal x0 x1 s)

theorem execSeal_noSeal (h : Nat) (s : State) : ∀ t, (execSeal h s) = .next t → t.hold.noSeal = s.hold.noSeal := by
  unfold execSeal
  refine next_phi Hold.noSeal ?_
  exact State.runCmd_phi Hold.noSeal _ _ _ _ _ (by simp)

@[simp] theorem effControlRestart_hold (x0 : Nat) (x1 : JEntry) (s : State) :
    (effControlRestart x0 x1 s).hold = s.hold := by
  simp [effControlRestart]

theorem execControlRestart_hold (h : Nat) (s : State) : ∀ t, (execControlRestart h s) = .next t → t.hold = s.hold := by
  unfold execControlRestart
  refine next_hold ?_
  exact State.runCmd_hold _ _ _ _ _ (by simp)

theorem execNop_hold (h : Nat) (s : State) : ∀ t, (execNop h s) = .next t → t.hold = s.hold := by
  unfold execNop
  refine next_hold ?_
  exact State.runCmd_hold _ _ _ _ _ (by simp)

end Sys2Proof.Machine
end

