-- ==== Sys2Proof/Laws/HoldCounters.lean ====
section
/-! SUPPORT. What the counters, register reads and the mailboxes leave as it was: the held part of State (Hold). -/
namespace Sys2Proof.Machine
open Sys2Proof

@[simp] theorem effCounterRead_hold (x0 : Nat) (x1 : JEntry) (s : State) : (effCounterRead x0 x1 s).hold = s.hold := by
  simp [effCounterRead]

theorem execCounterRead_hold (h : Nat) (s : State) : ∀ t, (execCounterRead h s) = .next t → t.hold = s.hold := by
  unfold execCounterRead
  refine next_hold ?_
  split
  · exact State.runCmd_hold _ _ _ _ _ (by simp)
  · rfl

@[simp] theorem effCounterPreset_hold (x0 : Nat) (x1 : JEntry) (s : State) : (effCounterPreset x0 x1 s).hold = s.hold := by
  simp [effCounterPreset]

theorem execCounterPreset_hold (h : Nat) (s : State) : ∀ t, (execCounterPreset h s) = .next t → t.hold = s.hold := by
  unfold execCounterPreset
  refine next_hold ?_
  exact State.runCmd_hold _ _ _ _ _ (by simp)

@[simp] theorem State.presetCounter_hold (s : State) (scope : Nat) (obj : Nat) (j : Nat) (v : Nat) :
    (State.presetCounter s scope obj j v).hold = s.hold := by
  simp [State.presetCounter]

@[simp] theorem State.applyPreset_hold (s : State) (p : Preset) : (State.applyPreset s p).hold = s.hold := by
  simp [State.applyPreset, foldl_hold]

@[simp] theorem State.presetsNow_hold (s : State) : (State.presetsNow s).hold = s.hold := by
  simp [State.presetsNow, foldl_hold]

@[simp] theorem State.countEdge_hold (s : State) : (State.countEdge s).hold = s.hold := by
  simp [State.countEdge]

@[simp] theorem State.latch_noLatch (s : State) : (State.latch s).hold.noLatch = s.hold.noLatch := by
  simp [State.latch]

@[simp] theorem State.latch_queue (s : State) : (State.latch s).hold.pending = s.hold.pending :=
  Hold.noLatch_to (State.latch_noLatch s)

@[simp] theorem State.writeImage_hold (s : State) (r : Nat) (src : Nat) (latch : Nat) (flags : Nat) (dev : Word)
    (secs : List Section) : (State.writeImage s r src latch flags dev secs).hold = s.hold := by
  simp [State.writeImage]

@[simp] theorem State.dropDumpOps_hold (s : State) (q : Nat) (r : Nat) (seq : Nat) :
    (State.dropDumpOps s q r seq).hold = s.hold := by
  simp [State.dropDumpOps]

@[simp] theorem State.abandonImg_hold (s : State) (r : Nat) (i : DumpImg) : (State.abandonImg s r i).hold = s.hold := by
  simp [State.abandonImg]

@[simp] theorem State.abandonDumps_hold (s : State) (r : Nat) : (State.abandonDumps s r).hold = s.hold := by
  simp only [State.abandonDumps]
  repeat' first
    | (simp; done)
    | (refine (foldl_hold ?_ _ _).trans ?_; intros)
    | split
    | simp

@[simp] theorem State.startImage_hold (s : State) (p : Nat) (r : Nat) : (State.startImage s p r).hold = s.hold := by
  simp [State.startImage, foldl_hold]

theorem execDumpImageStart_hold (principal : Fin 65) (s : State) : ∀ t,
    (execDumpImageStart principal s) = .next t → t.hold = s.hold := by
  unfold execDumpImageStart
  refine whenFw_hold ?_
  repeat' split
  all_goals simp [foldl_hold]

@[simp] theorem State.takeDump_hold (s : State) (src : Nat) (flags : Nat) (dev : Word) (p : Nat) (latch : Nat) (off : Nat)
    (data : List Byte) : (State.takeDump s src flags dev p latch off data).hold = s.hold := by
  unfold State.takeDump
  dsimp only
  repeat' split
  all_goals simp

theorem execMateDump_hold (hd : FabHdr) (principal : Nat) (latchTn : Nat) (offset : Nat) (data : List Byte)
    (s : State) : ∀ t, (execMateDump hd principal latchTn offset data s) = .next t → t.hold = s.hold := by
  unfold execMateDump
  refine whenFw_hold ?_
  split
  · exact State.fabTake_hold _ _ _ _ _ (by intro s; (try dsimp only); (repeat' split) <;> simp)
  · rfl

@[simp] theorem effDumpConfig_hold (x0 : Nat) (x1 : JEntry) (s : State) : (effDumpConfig x0 x1 s).hold = s.hold := by
  simp [effDumpConfig]

theorem execDumpConfig_hold (h : Nat) (s : State) : ∀ t, (execDumpConfig h s) = .next t → t.hold = s.hold := by
  unfold execDumpConfig
  refine next_hold ?_
  exact State.runCmd_hold _ _ _ _ _ (by simp)

@[simp] theorem State.setDumpCfg_hold (s : State) (r : Nat) (c : DumpCfg) : (State.setDumpCfg s r c).hold = s.hold := by
  simp [State.setDumpCfg]

@[simp] theorem State.applyDumpCfg_hold (s : State) (c : DumpCfg) : (State.applyDumpCfg s c).hold = s.hold := by
  unfold State.applyDumpCfg
  split <;> simp

@[simp] theorem State.dumpsNow_hold (s : State) : (State.dumpsNow s).hold = s.hold := by
  simp [State.dumpsNow, foldl_hold]

@[simp] theorem State.dumpSkip_hold (s : State) (r : Nat) : (State.dumpSkip s r).hold = s.hold := by
  simp [State.dumpSkip]

@[simp] theorem State.capture_hold (s : State) (a : Nat) : (State.capture s a).hold = s.hold := by
  unfold State.capture
  split <;> simp

@[simp] theorem State.readReg_hold (s : State) (a : Nat) : (State.readReg s a).2.hold = s.hold := by
  simp [State.readReg]

@[simp] theorem State.readRegs_hold (n : Nat) (s : State) (a : Nat) : (State.readRegs s n a).2.hold = s.hold := by
  induction n generalizing s a with
  | zero => rfl
  | succ n ih => simp [State.readRegs, ih]

theorem execLoRegisterRead_hold (qp : Fin 16) (addr : Nat) (s : State) : ∀ t,
    (execLoRegisterRead qp addr s) = .next t → t.hold = s.hold := by
  unfold execLoRegisterRead
  refine whenFw_hold ?_
  dsimp only
  repeat' split
  all_goals simp

@[simp] theorem State.wake_hold (s : State) (m : Nat) : (State.wake s m).hold = s.hold := by
  simp [State.wake]

@[simp] theorem State.mbSend_hold (s : State) (c : Nat) (ack : Bool) : (State.mbSend s c ack).hold = s.hold := by
  simp [State.mbSend]

@[simp] theorem State.mbPost_hold (s : State) (c : Nat) (us : Nat) (h : Option Nat) :
    (State.mbPost s c us h).hold = s.hold := by
  simp [State.mbPost]

@[simp] theorem State.mbTaken_hold (s : State) (c : Nat) : (State.mbTaken s c).hold = s.hold := by
  unfold State.mbTaken
  dsimp only
  repeat' split
  all_goals simp

@[simp] theorem State.mbAck_hold (s : State) (m : Nat) (c : Nat) : (State.mbAck s m c).hold = s.hold := by
  simp [State.mbAck]

@[simp] theorem State.mbCtrlPost_hold (s : State) (m : Nat) (c : Nat) : (State.mbCtrlPost s m c).hold = s.hold := by
  simp [State.mbCtrlPost]

@[simp] theorem State.mbWithdraw_hold (s : State) (m : Nat) (c : Nat) : (State.mbWithdraw s m c).hold = s.hold := by
  unfold State.mbWithdraw
  dsimp only
  repeat' split
  all_goals simp

@[simp] theorem State.setCross_hold (s : State) (c : Nat) : (State.setCross s c).hold = s.hold := by
  simp [State.setCross]

@[simp] theorem State.crossCheck_hold (s : State) (c : Nat) : (State.crossCheck s c).hold = s.hold := by
  unfold State.crossCheck
  dsimp only
  repeat' split
  all_goals simp

@[simp] theorem State.mbWait_hold (s : State) (m : Nat) (c : Nat) : (State.mbWait s m c).hold = s.hold := by
  simp [State.mbWait]

@[simp] theorem State.mbCtrl_hold (s : State) (m : Nat) (c : Nat) (v : Word) : (State.mbCtrl s m c v).hold = s.hold := by
  simp [State.mbCtrl]

@[simp] theorem State.mbSlot_hold (s : State) (m : Nat) (c : Nat) (w : Nat) (v : Word) :
    (State.mbSlot s m c w v).hold = s.hold := by
  simp [State.mbSlot]

@[simp] theorem State.mbReset_hold (s : State) (ms : List Nat) : (State.mbReset s ms).hold = s.hold := by
  simp [State.mbReset, foldl_hold]

@[simp] theorem State.mbBlockReset_hold (s : State) : (State.mbBlockReset s).hold = s.hold := by
  simp [State.mbBlockReset, foldl_hold]

@[simp] theorem State.mbxMsg_hold (s : State) (origin : Word) (c : Nat) (fl : Byte) (msg : List Byte) :
    (State.mbxMsg s origin c fl msg).hold = s.hold := by
  simp [State.mbxMsg]

@[simp] theorem effMbxPost_hold (x0 : Nat) (x1 : JEntry) (s : State) : (effMbxPost x0 x1 s).hold = s.hold := by
  simp [effMbxPost]

theorem execMbxPost_hold (h : Nat) (s : State) : ∀ t, (execMbxPost h s) = .next t → t.hold = s.hold := by
  unfold execMbxPost
  refine next_hold ?_
  exact State.runCmd_hold _ _ _ _ _ (by simp)

theorem execMbxCtrlPost_hold (master : Nat) (c : Fin 64) (s : State) : ∀ t,
    (execMbxCtrlPost master c s) = .next t → t.hold = s.hold := by
  unfold execMbxCtrlPost
  refine whenUp_hold ?_
  simp

theorem execMbxCtrlAck_hold (master : Nat) (c : Fin 64) (s : State) : ∀ t,
    (execMbxCtrlAck master c s) = .next t → t.hold = s.hold := by
  unfold execMbxCtrlAck
  refine whenUp_hold ?_
  simp

theorem execMbxCtrlWait_hold (master : Nat) (c : Fin 64) (s : State) : ∀ t,
    (execMbxCtrlWait master c s) = .next t → t.hold = s.hold := by
  unfold execMbxCtrlWait
  refine whenUp_hold ?_
  simp

theorem execMbxCtrlWithdraw_hold (master : Nat) (c : Fin 64) (s : State) : ∀ t,
    (execMbxCtrlWithdraw master c s) = .next t → t.hold = s.hold := by
  unfold execMbxCtrlWithdraw
  refine whenUp_hold ?_
  simp

theorem execMbxTimeout_hold (c : Fin 64) (s : State) : ∀ t, (execMbxTimeout c s) = .next t → t.hold = s.hold := by
  unfold execMbxTimeout
  refine whenUp_hold ?_
  repeat' split
  all_goals simp

theorem execMbxRemoteRetry_hold (c : Fin 64) (s : State) : ∀ t, (execMbxRemoteRetry c s) = .next t → t.hold = s.hold := by
  unfold execMbxRemoteRetry
  refine whenUp_hold ?_
  repeat' split
  all_goals simp

end Sys2Proof.Machine
end

