-- ==== Sys2Proof/Laws/HoldFabric.lean ====
section
/-! SUPPORT. What the fabric commands and the commands of lanes leave as it was: the held part of State (Hold). -/
namespace Sys2Proof.Machine
open Sys2Proof

@[simp] theorem State.keyingFailed_hold (s : State) (l : Link) : (State.keyingFailed s l).hold = s.hold := by
  simp [State.keyingFailed]

@[simp] theorem State.takeHello_hold (s : State) (l : Link) (n : BitVec 256) (e : BitVec 768) :
    (State.takeHello s l n e).hold = s.hold := by
  unfold State.takeHello
  repeat' split
  all_goals simp

@[simp] theorem State.takePeerQuote_hold (s : State) (l : Link) (dcertOk : Bool) (bcertOk : Bool) (quoteOk : Bool)
    (id : Digest) (lc : Nat) (owner : Digest) (fw : Digest) (nonce : BitVec 256) :
    (State.takePeerQuote s l dcertOk bcertOk quoteOk id lc owner fw nonce).hold = s.hold := by
  unfold State.takePeerQuote
  dsimp only
  repeat' split
  all_goals simp

theorem execPeerKeyingMessage_hold (hd : FabHdr) (m : PeerMsg) (s : State) : ∀ t,
    (execPeerKeyingMessage hd m s) = .next t → t.hold = s.hold := by
  unfold execPeerKeyingMessage
  refine whenUp_hold ?_
  repeat' split
  all_goals simp

theorem execPeerKeyingRetry_hold (link : Link) (s : State) : ∀ t,
    (execPeerKeyingRetry link s) = .next t → t.hold = s.hold := by
  unfold execPeerKeyingRetry
  refine whenUp_hold ?_
  repeat' split
  all_goals simp

theorem execDelayReq_hold (hd : FabHdr) (t2Tick : Nat) (t2Ps : Nat) (s : State) : ∀ t,
    (execDelayReq hd t2Tick t2Ps s) = .next t → t.hold = s.hold := by
  unfold execDelayReq
  refine next_hold ?_
  exact State.fabTake_hold _ _ _ _ _ (by intro s; (try dsimp only); (repeat' split) <;> simp)

@[simp] theorem State.addSample_hold (s : State) (l : Link) (d : Nat) : (State.addSample s l d).hold = s.hold := by
  unfold State.addSample
  split <;> simp

theorem execDelayResp_hold (hd : FabHdr) (reqSerial : Nat) (t2Tick : Nat) (t2Ps : Nat) (t3Tick : Nat) (t4Tick : Nat) (t4Ps : Nat)
    (s : State) : ∀ t, (execDelayResp hd reqSerial t2Tick t2Ps t3Tick t4Tick t4Ps s) = .next t → t.hold = s.hold := by
  unfold execDelayResp
  refine next_hold ?_
  exact State.fabTake_hold _ _ _ _ _ (by intro s; (try dsimp only); (repeat' split) <;> simp)

theorem execDelaySampleTimeout_hold (link : Link) (s : State) : ∀ t,
    (execDelaySampleTimeout link s) = .next t → t.hold = s.hold := by
  unfold execDelaySampleTimeout
  refine whenUp_hold ?_
  simp

@[simp] theorem State.takeTn_hold (s : State) (v : Nat) : (State.takeTn s v).hold = s.hold := by
  simp [State.takeTn]

theorem execTnAnnounce_hold (hd : FabHdr) (tn : Nat) (arrPs : Int) (s : State) : ∀ t,
    (execTnAnnounce hd tn arrPs s) = .next t → t.hold = s.hold := by
  unfold execTnAnnounce
  refine next_hold ?_
  exact State.fabTake_hold _ _ _ _ _ (by intro s; (try dsimp only); (repeat' split) <;> simp)

theorem execFlipPropose_hold (hd : FabHdr) (flipId : Word) (f : Nat) (s : State) : ∀ t,
    (execFlipPropose hd flipId f s) = .next t → t.hold = s.hold := by
  unfold execFlipPropose
  refine next_hold ?_
  exact State.fabTake_hold _ _ _ _ _ (by intro s; (try dsimp only); (repeat' split) <;> simp)

theorem execFlipReady_hold (hd : FabHdr) (flipId : Word) (status : Nat) (reason : Nat) (s : State) : ∀ t,
    (execFlipReady hd flipId status reason s) = .next t → t.hold = s.hold := by
  unfold execFlipReady
  refine next_hold ?_
  exact State.fabTake_hold _ _ _ _ _ (by intro s; (try dsimp only); (repeat' split) <;> simp)

theorem execFabFlipCancel_hold (hd : FabHdr) (flipId : Word) (failId : Word) (s : State) : ∀ t,
    (execFabFlipCancel hd flipId failId s) = .next t → t.hold = s.hold := by
  unfold execFabFlipCancel
  refine next_hold ?_
  exact State.fabTake_hold _ _ _ _ _ (by intro s; (try dsimp only); (repeat' split) <;> simp)

theorem execFlipResult_hold (hd : FabHdr) (flipId : Word) (committed : Bool) (s : State) : ∀ t,
    (execFlipResult hd flipId committed s) = .next t → t.hold = s.hold := by
  unfold execFlipResult
  refine next_hold ?_
  exact State.fabTake_hold _ _ _ _ _ (by intro s; (try dsimp only); (repeat' split) <;> simp)

@[simp] theorem State.resendResult_hold (s : State) (w : WorkerCmd) (c : CmpEntry) :
    (State.resendResult s w c).hold = s.hold := by
  simp [State.resendResult, foldl_hold]

@[simp] theorem State.needWcmd_hold (s : State) (m : Nat) : (State.needWcmd s m).hold = s.hold := by
  simp [State.needWcmd]

@[simp] theorem State.journalRemote_hold (s : State) (m : Nat) (prin : Nat) (d : Desc) (b : Option Batch) :
    (State.journalRemote s m prin d b).hold = s.hold := by
  simp [State.journalRemote]

theorem execFabCmd_hold (hd : FabHdr) (mserial : Nat) (principal : Nat) (d : Desc) (sigs : FwSigs) (s : State) : ∀ t,
    (execFabCmd hd mserial principal d sigs s) = .next t → t.hold = s.hold := by
  unfold execFabCmd
  refine next_hold ?_
  exact State.fabTake_hold _ _ _ _ _ (by intro s; (try dsimp only); (repeat' split) <;> simp)

theorem execCmdData_hold (hd : FabHdr) (mserial : Nat) (offset : Nat) (data : List Byte) (s : State) : ∀ t,
    (execCmdData hd mserial offset data s) = .next t → t.hold = s.hold := by
  unfold execCmdData
  refine next_hold ?_
  exact State.fabTake_hold _ _ _ _ _ (by intro s; (try dsimp only); (repeat' split) <;> simp)

theorem execOutData_hold (hd : FabHdr) (mserial : Nat) (offset : Nat) (data : List Byte) (s : State) : ∀ t,
    (execOutData hd mserial offset data s) = .next t → t.hold = s.hold := by
  unfold execOutData
  refine next_hold ?_
  exact State.fabTake_hold _ _ _ _ _ (by intro s; (try dsimp only); (repeat' split) <;> simp)

@[simp] theorem State.noteHolds_hold (s : State) (w : Word) (e : JEntry) : (State.noteHolds s w e).hold = s.hold := by
  simp [State.noteHolds]

theorem execFabResult_hold (hd : FabHdr) (mserial : Nat) (c : CmpEntry) (s : State) : ∀ t,
    (execFabResult hd mserial c s) = .next t → t.hold = s.hold := by
  unfold execFabResult
  refine next_hold ?_
  exact State.fabTake_hold _ _ _ _ _ (by intro s; (try dsimp only); (repeat' split) <;> simp)

theorem execFabEvent_hold (hd : FabHdr) (principal : Nat) (e : EvtEntry) (s : State) : ∀ t,
    (execFabEvent hd principal e s) = .next t → t.hold = s.hold := by
  unfold execFabEvent
  refine next_hold ?_
  exact State.fabTake_hold _ _ _ _ _ (by intro s; (try dsimp only); (repeat' split) <;> simp)

theorem execFabDump_hold (hd : FabHdr) (principal : Nat) (latchTn : Nat) (offset : Nat) (data : List Byte)
    (s : State) : ∀ t, (execFabDump hd principal latchTn offset data s) = .next t → t.hold = s.hold := by
  unfold execFabDump
  refine next_hold ?_
  exact State.fabTake_hold _ _ _ _ _ (by intro s; (try dsimp only); (repeat' split) <;> simp)

theorem execFabMbx_hold (hd : FabHdr) (channel : Fin 64) (flags : Byte) (msg : List Byte) (s : State) : ∀ t,
    (execFabMbx hd channel flags msg s) = .next t → t.hold = s.hold := by
  unfold execFabMbx
  refine next_hold ?_
  exact State.fabTake_hold _ _ _ _ _ (by intro s; (try dsimp only); (repeat' split) <;> simp)

theorem execFabStatus_hold (hd : FabHdr) (tn : Nat) (st : Nat) (defects : BitVec 56) (s : State) : ∀ t,
    (execFabStatus hd tn st defects s) = .next t → t.hold = s.hold := by
  unfold execFabStatus
  refine next_hold ?_
  exact State.fabTake_hold _ _ _ _ _ (by intro s; (try dsimp only); (repeat' split) <;> simp)

theorem execFabCmdRetry_hold (h : Nat) (s : State) : ∀ t, (execFabCmdRetry h s) = .next t → t.hold = s.hold := by
  unfold execFabCmdRetry
  refine whenFw_hold ?_
  repeat' split
  all_goals simp

theorem execFabWorkerLost_hold (worker : Word) (s : State) : ∀ t,
    (execFabWorkerLost worker s) = .next t → t.hold = s.hold := by
  unfold execFabWorkerLost
  refine whenUp_hold ?_
  repeat' split
  all_goals simp

theorem execFabCmdAbandon_hold (h : Nat) (s : State) : ∀ t, (execFabCmdAbandon h s) = .next t → t.hold = s.hold := by
  unfold execFabCmdAbandon
  refine whenFw_hold ?_
  repeat' split
  all_goals simp

@[simp] theorem State.lsBook_hold (s : State) (e : JEntry) (g : Nat) : (State.lsBook s e g).hold = s.hold := by
  simp [State.lsBook, foldl_hold]

@[simp] theorem State.moveLane_hold (s : State) (was : Lane) (e : JEntry) (n : Nat) :
    (State.moveLane s was e n).hold = s.hold := by
  unfold State.moveLane
  repeat' split
  all_goals simp

@[simp] theorem effLaneState_hold (x0 : Nat) (x1 : JEntry) (s : State) : (effLaneState x0 x1 s).hold = s.hold := by
  simp [effLaneState, foldl_hold]

theorem execLaneState_hold (h : Nat) (s : State) : ∀ t, (execLaneState h s) = .next t → t.hold = s.hold := by
  unfold execLaneState
  refine next_hold ?_
  exact State.runCmd_hold _ _ _ _ _ (by simp)

@[simp] theorem effLaneLoop_hold (x0 : Nat) (x1 : JEntry) (s : State) : (effLaneLoop x0 x1 s).hold = s.hold := by
  simp [effLaneLoop]

theorem execLaneLoop_hold (h : Nat) (s : State) : ∀ t, (execLaneLoop h s) = .next t → t.hold = s.hold := by
  unfold execLaneLoop
  refine next_hold ?_
  exact State.runCmd_hold _ _ _ _ _ (by simp)

@[simp] theorem effEyeScan_hold (x0 : Nat) (x1 : JEntry) (s : State) : (effEyeScan x0 x1 s).hold = s.hold := by
  simp [effEyeScan]

theorem execEyeScan_hold (h : Nat) (s : State) : ∀ t, (execEyeScan h s) = .next t → t.hold = s.hold := by
  unfold execEyeScan
  refine next_hold ?_
  exact State.runCmd_hold _ _ _ _ _ (by simp)

end Sys2Proof.Machine
end

