-- ==== Sys2Proof/Laws/HoldPower.lean ====
section
/-! SUPPORT. What resets, the boot, restarts and the commands of pairs leave as it was: the held part of State (Hold). -/
namespace Sys2Proof.Machine
open Sys2Proof

@[simp] theorem State.warmReset_queue (s : State) (last : Nat) :
    (State.warmReset s last).hold.pending = s.hold.pending := by
  unfold State.warmReset
  split <;> simp [State.pending_hold]

theorem execColdPowerUp_queue (orderErr : Bool) (s : State) : ∀ t,
    (execColdPowerUp orderErr s) = .next t → t.hold.pending = s.hold.pending := by
  unfold execColdPowerUp
  refine next_phi Hold.pending ?_
  simp [State.pending_hold]

@[simp] theorem State.checkTap_hold (s : State) : (State.checkTap s).hold = s.hold := by
  simp [State.checkTap]

@[simp] theorem State.applyMove_queue (s : State) (lc : Lifecycle) :
    (State.applyMove s lc).hold.pending = s.hold.pending := by
  unfold State.applyMove
  split <;> simp [State.pending_hold]

@[simp] theorem State.bootToken_queue (s : State) : (State.bootToken s).hold.pending = s.hold.pending := by
  unfold State.bootToken
  repeat' split
  all_goals simp [State.pending_hold]

@[simp] theorem State.bootNet_noRegs (s : State) : (State.bootNet s).hold.noRegs = s.hold.noRegs := by
  simp [State.bootNet]

@[simp] theorem State.bootNet_queue (s : State) : (State.bootNet s).hold.pending = s.hold.pending :=
  Hold.noRegs_to (State.bootNet_noRegs s)

@[simp] theorem State.runImage_noMem (s : State) (x : Option FwImage) :
    (State.runImage s x).hold.noMem = s.hold.noMem := by
  unfold State.runImage
  split <;> rfl

@[simp] theorem State.runImage_queue (s : State) (x : Option FwImage) :
    (State.runImage s x).hold.pending = s.hold.pending :=
  Hold.noMem_to (State.runImage_noMem s x)

@[simp] theorem State.bootKeys_hold (s : State) : (State.bootKeys s).hold = s.hold := by
  simp [State.bootKeys]

@[simp] theorem State.bootLanes_hold (s : State) : (State.bootLanes s).hold = s.hold := by
  simp [State.bootLanes]

@[simp] theorem State.bootFw_queue (s : State) : (State.bootFw s).hold.pending = s.hold.pending := by
  unfold State.bootFw
  repeat' split
  all_goals simp [foldl_hold, State.pending_hold]

@[simp] theorem State.bootRom_hold (s : State) : (State.bootRom s).hold = s.hold := by
  simp [State.bootRom]

@[simp] theorem State.bootImage_queue (s : State) : (State.bootImage s).hold.pending = s.hold.pending := by
  simp [State.bootImage]

@[simp] theorem State.boot_queue (s : State) : (State.boot s).hold.pending = s.hold.pending := by
  simp [State.boot]

@[simp] theorem State.provision_noFuse (s : State) (fused : Option (BitVec 64 × Bool)) :
    (State.provision s fused).hold.noFuse = s.hold.noFuse := by
  unfold State.provision
  split <;> simp

@[simp] theorem State.provision_queue (s : State) (fused : Option (BitVec 64 × Bool)) :
    (State.provision s fused).hold.pending = s.hold.pending :=
  Hold.noFuse_to (State.provision_noFuse s fused)

theorem execResetNRise_queue (flash : Option Flash) (pwrGood : Bool) (a0 : Bool) (fused : Option (BitVec 64 × Bool))
    (s : State) : ∀ t, (execResetNRise flash pwrGood a0 fused s) = .next t → t.hold.pending = s.hold.pending := by
  unfold execResetNRise
  refine next_phi Hold.pending ?_
  dsimp only
  repeat' split
  all_goals simp [State.pending_hold]

theorem execResetNFall_queue (ns : Nat) (s : State) : ∀ t,
    (execResetNFall ns s) = .next t → t.hold.pending = s.hold.pending := by
  unfold execResetNFall
  refine next_phi Hold.pending ?_
  simp [State.pending_hold]

theorem execPwrGoodFall_queue (s : State) : ∀ t, (execPwrGoodFall s) = .next t → t.hold.pending = s.hold.pending := by
  unfold execPwrGoodFall
  refine next_phi Hold.pending ?_
  simp [State.pending_hold]

theorem execPwrGoodRise_queue (s : State) : ∀ t, (execPwrGoodRise s) = .next t → t.hold.pending = s.hold.pending := by
  unfold execPwrGoodRise
  refine next_phi Hold.pending ?_
  simp [State.pending_hold]

@[simp] theorem State.warmBoot_queue (s : State) (last : Nat) :
    (State.warmBoot s last).hold.pending = s.hold.pending := by
  simp [State.warmBoot]

theorem execGlbRstCtrlWarm_queue (qp : Fin 16)
    (s : State) : ∀ t, execGlbRstCtrlWarm qp s = .next t → t.hold.pending = s.hold.pending := by
  intro t hh
  unfold execGlbRstCtrlWarm whenFw at hh
  rw [← Host.Outcome.next.inj hh]
  split
  · exact State.ownerWrite_phi Hold.pending _ _ _ (by simp)
  · rfl

@[simp] theorem State.stopEngine_hold (s : State) : (State.stopEngine s).hold = s.hold := by
  simp [State.stopEngine]

@[simp] theorem State.stopCores_noMem (s : State) : s.stopCores.hold.noMem = s.hold.noMem := rfl

@[simp] theorem State.stopCores_queue (s : State) : (State.stopCores s).hold.pending = s.hold.pending :=
  Hold.noMem_to (State.stopCores_noMem s)

@[simp] theorem State.takeStaged_queue (s : State) : (State.takeStaged s).hold.pending = s.hold.pending := by
  simp [State.takeStaged]

@[simp] theorem State.beginRestart_queue (s : State) (b : Bool) : (s.beginRestart b).hold.pending = s.hold.pending := by
  unfold State.beginRestart
  dsimp only
  have h : ∀ u : State, u.hold.pending = s.hold.pending → (u.mbReset [0, 1, 2, 3, 4]).hold.pending = s.hold.pending := by
    intro u hu
    rw [State.mbReset_hold, hu]
  have h0 := h { s.stopEngine.stopCores with pwr := { s.stopEngine.stopCores.pwr with restart := some ⟨b,
    s.stopEngine.stopCores.clk.tick⟩ } }
    (by
      have h1 := State.stopCores_queue s.stopEngine
      have h2 := congrArg Hold.pending (State.stopEngine_hold s)
      exact h1.trans h2)
  split
  · rw [State.takeStaged_queue]
    exact h0
  · exact h0

theorem execControlRestartStart_queue (s : State) : ∀ t,
    (execControlRestartStart s) = .next t → t.hold.pending = s.hold.pending := by
  unfold execControlRestartStart
  refine whenUp_phi Hold.pending ?_
  repeat' split
  all_goals simp [State.pending_hold]

theorem execControlRestartEnd_queue (formatOk : Bool) (s : State) : ∀ t,
    (execControlRestartEnd formatOk s) = .next t → t.hold.pending = s.hold.pending := by
  unfold execControlRestartEnd
  refine whenUp_phi Hold.pending ?_
  simp [State.pending_hold]

theorem execWatchdogExpiry_queue (core : Fin 4) (s : State) : ∀ t,
    (execWatchdogExpiry core s) = .next t → t.hold.pending = s.hold.pending := by
  unfold execWatchdogExpiry
  refine whenUp_phi Hold.pending ?_
  simp [State.pending_hold]

theorem execTickFault_hold (unit : Fin 8) (s : State) : ∀ t, (execTickFault unit s) = .next t → t.hold = s.hold := by
  unfold execTickFault
  refine whenUp_hold ?_
  simp

@[simp] theorem State.askBlock_hold (s : State) (i : Nat) : (State.askBlock s i).hold = s.hold := by
  simp [State.askBlock]

@[simp] theorem State.askGroup_hold (s : State) (g : Nat) : (State.askGroup s g).hold = s.hold := by
  simp [State.askGroup]

@[simp] theorem State.resetPort_hold (s : State) (p : Nat) : (State.resetPort s p).hold = s.hold := by
  simp [State.resetPort, foldl_hold]

@[simp] theorem State.resetDumps_hold (s : State) : (State.resetDumps s).hold = s.hold := by
  simp [State.resetDumps, foldl_hold]

@[simp] theorem State.restartWhisk_noMem (s : State) (m : Nat) : (State.restartWhisk s m).hold.noMem = s.hold.noMem := by
  simp [State.restartWhisk]

@[simp] theorem State.restartWhisk_queue (s : State) (m : Nat) : (State.restartWhisk s m).hold.pending = s.hold.pending :=
  Hold.noMem_to (State.restartWhisk_noMem s m)

@[simp] theorem State.resetWhisk_noMem (s : State) : s.resetWhisk.hold.noMem = s.hold.noMem := by
  unfold State.resetWhisk
  apply foldl_phi Hold.noMem
  exact State.restartWhisk_noMem

@[simp] theorem State.resetWhisk_queue (s : State) : (State.resetWhisk s).hold.pending = s.hold.pending :=
  Hold.noMem_to (State.resetWhisk_noMem s)

@[simp] theorem State.resetCalrin_hold (s : State) : (State.resetCalrin s).hold = s.hold := by
  simp [State.resetCalrin]

@[simp] theorem State.clearRetimers_hold (s : State) (n : Nat) : (State.clearRetimers s n).hold = s.hold := by
  simp [State.clearRetimers]

@[simp] theorem State.resetGroup_hold (s : State) (g : Nat) : (State.resetGroup s g).hold = s.hold := by
  simp [State.resetGroup, foldl_hold]

@[simp] theorem State.resetBlock_queue (s : State) (i : Nat) : (State.resetBlock s i).hold.pending = s.hold.pending := by
  unfold State.resetBlock
  split <;> simp

@[simp] theorem State.blockResets_queue (s : State) : (State.blockResets s).hold.pending = s.hold.pending := by
  unfold State.blockResets
  repeat' split
  all_goals simp [foldl_phi Hold.pending, foldl_hold, State.pending_hold]

theorem execMailboxBlockReset_hold (qp : Fin 16) (s : State) : ∀ t,
    (execMailboxBlockReset qp s) = .next t → t.hold = s.hold := by
  unfold execMailboxBlockReset
  refine whenFw_hold ?_
  exact State.ownerWrite_hold _ _ _ (by simp)

theorem execMgmtPortBlockReset_hold (qp : Fin 16) (port : Fin 2) (s : State) : ∀ t,
    (execMgmtPortBlockReset qp port s) = .next t → t.hold = s.hold := by
  unfold execMgmtPortBlockReset
  refine whenFw_hold ?_
  exact State.ownerWrite_hold _ _ _ (by simp)

theorem execDumpEngineReset_hold (qp : Fin 16) (s : State) : ∀ t,
    (execDumpEngineReset qp s) = .next t → t.hold = s.hold := by
  unfold execDumpEngineReset
  refine whenFw_hold ?_
  exact State.ownerWrite_hold _ _ _ (by simp)

theorem execWhiskBlockReset_hold (qp : Fin 16) (s : State) : ∀ t,
    (execWhiskBlockReset qp s) = .next t → t.hold = s.hold := by
  unfold execWhiskBlockReset
  refine whenFw_hold ?_
  exact State.ownerWrite_hold _ _ _ (by simp)

theorem execCalrinBlockReset_hold (qp : Fin 16) (s : State) : ∀ t,
    (execCalrinBlockReset qp s) = .next t → t.hold = s.hold := by
  unfold execCalrinBlockReset
  refine whenFw_hold ?_
  exact State.ownerWrite_hold _ _ _ (by simp)

theorem execLaneGroupReset_hold (qp : Fin 16) (g : Fin 32) (s : State) : ∀ t,
    (execLaneGroupReset qp g s) = .next t → t.hold = s.hold := by
  unfold execLaneGroupReset
  refine whenFw_hold ?_
  exact State.ownerWrite_hold _ _ _ (by simp)

theorem execAlertCauseChange_hold (cause : AlertCause) (on : Bool) (rails : Byte) (tDie : Byte) (tHbm : Byte)
    (s : State) : ∀ t, (execAlertCauseChange cause on rails tDie tHbm s) = .next t → t.hold = s.hold := by
  unfold execAlertCauseChange
  refine next_hold ?_
  simp

theorem execI2cAccess_hold (addr : BitVec 7) (wr : List Byte) (rd : Nat) (s : State) : ∀ t,
    (execI2cAccess addr wr rd s) = .next t → t.hold = s.hold := by
  unfold execI2cAccess
  refine next_hold ?_
  simp

theorem execJtagInstruction_hold (instr : TapInstr) (s : State) : ∀ t,
    (execJtagInstruction instr s) = .next t → t.hold = s.hold := by
  unfold execJtagInstruction
  refine next_hold ?_
  simp

@[simp] theorem State.dropReqs_hold (s : State) (n : Nat) : (State.dropReqs s n).hold = s.hold := by
  simp [State.dropReqs]

@[simp] theorem State.freshRetimers_hold (s : State) (ws : List Nat) : (State.freshRetimers s ws).hold = s.hold :=
    by
  simp [State.freshRetimers, foldl_hold]

@[simp] theorem State.removePair_hold (s : State) (n : Nat) : (State.removePair s n).hold = s.hold := by
  simp [State.removePair, foldl_hold]

@[simp] theorem effPairSet_hold (x0 : Nat) (x1 : JEntry) (s : State) : (effPairSet x0 x1 s).hold = s.hold := by
  simp [effPairSet]

theorem execPairSet_hold (h : Nat) (s : State) : ∀ t, (execPairSet h s) = .next t → t.hold = s.hold := by
  unfold execPairSet
  refine next_hold ?_
  exact State.runCmd_hold _ _ _ _ _ (by simp)

@[simp] theorem effPairCmd_hold (x0 : Nat) (x1 : JEntry) (s : State) : (effPairCmd x0 x1 s).hold = s.hold := by
  simp [effPairCmd]

theorem execPairCmd_hold (h : Nat) (s : State) : ∀ t, (execPairCmd h s) = .next t → t.hold = s.hold := by
  unfold execPairCmd
  refine next_hold ?_
  exact State.runCmd_hold _ _ _ _ _ (by simp)

end Sys2Proof.Machine
end

