-- ==== Sys2Proof/Laws/HoldMate.lean ====
section
/-! SUPPORT. What the standby device and the periods leave as it was: the held part of State (Hold). -/
namespace Sys2Proof.Machine
open Sys2Proof

theorem State.asOf_hold (s : State) (tn : Nat) (f : State → State) (hf : ∀ s, (f s).hold = s.hold) :
    (s.asOf tn f).hold = s.hold := by
  unfold State.asOf
  simp [hf]

theorem State.asOf_queue (s : State) (tn : Nat) (f : State → State) (hf : ∀ s, (f s).hold.pending = s.hold.pending) :
    (s.asOf tn f).hold.pending = s.hold.pending := by
  unfold State.asOf
  exact hf _

@[simp] theorem State.mateStr_hold (s : State) (x : LStr) : (State.mateStr s x).hold = s.hold := by
  simp [State.mateStr]

@[simp] theorem State.mateCons_hold (s : State) (r : Nat) (idx : Nat) : (State.mateCons s r idx).hold = s.hold := by
  simp [State.mateCons]

@[simp] theorem State.mateProd_hold (s : State) (r : Nat) (idx : Nat) : (State.mateProd s r idx).hold = s.hold := by
  simp [State.mateProd]

@[simp] theorem State.mateRing_hold (s : State) (x : LRing) : (State.mateRing s x).hold = s.hold := by
  simp [State.mateRing]

@[simp] theorem State.mateAcc_hold (s : State) (a : LAcc) : (State.mateAcc s a).hold = s.hold := by
  simp [State.mateAcc]

@[simp] theorem mateDumpConfig_hold (x0 : Nat) (x1 : JEntry) (s : State) : (mateDumpConfig x0 x1 s).hold = s.hold := by
  unfold mateDumpConfig
  split <;> simp

@[simp] theorem mateMbxPost_hold (x0 : Nat) (x1 : JEntry) (s : State) : (mateMbxPost x0 x1 s).hold = s.hold := by
  simp [mateMbxPost]

@[simp] theorem State.mateBatch_hold (s : State) (h : Nat) (e : JEntry) : (State.mateBatch s h e).hold = s.hold := by
  unfold State.mateBatch
  repeat' split
  all_goals simp

theorem effectAt_queue {opc : Nat} {f : Effect} (hf : effectAt opc = some f) (h : Nat) (e : JEntry) (s : State) :
    (f h e s).hold.pending = s.hold.pending := by
  unfold effectAt at hf
  split at hf <;> first
    | (cases hf; done)
    | (rw [← Option.some.inj hf]; simp; done)
    | (rw [← Option.some.inj hf]; rfl)

theorem scheduleOf_queue {opc : Nat} {f : Effect} (hf : scheduleOf opc = some f) (h : Nat) (e : JEntry) (s : State) :
    (f h e s).hold.pending = s.hold.pending := by
  unfold scheduleOf at hf
  split at hf <;> first
    | (cases hf; done)
    | (rw [← Option.some.inj hf]; simp; done)
    | (rw [← Option.some.inj hf]; rfl)

@[simp] theorem State.mateEffect_queue (s : State) (o : Owed) : (s.mateEffect o).hold.pending = s.hold.pending := by
  unfold State.mateEffect
  split
  · rfl
  · split
    · rfl
    · split
      · rfl
      · rename_i hf
        refine State.asOf_queue _ _ _ (fun u => ?_)
        split at hf
        · exact scheduleOf_queue hf _ _ _
        · exact effectAt_queue hf _ _ _

@[simp] theorem State.owedBatch_hold (s : State) (h : Nat) : (State.owedBatch s h).hold = s.hold := by
  unfold State.owedBatch
  split <;> simp

@[simp] theorem payOwed_queue (n : Nat) (s : State) : (payOwed n s).hold.pending = s.hold.pending := by
  induction n generalizing s with
  | zero => rfl
  | succ n ih =>
    unfold payOwed
    split
    · rfl
    · dsimp only
      repeat' split
      all_goals simp [ih]

@[simp] theorem State.owe_queue (s : State) (o : Owed) : (State.owe s o).hold.pending = s.hold.pending := by
  simp [State.owe]

@[simp] theorem State.mateCmp_queue (s : State) (tn : Nat) (c : LCmp) :
    (State.mateCmp s tn c).hold.pending = s.hold.pending := by
  unfold State.mateCmp
  repeat' split
  all_goals simp [State.pending_hold]

@[simp] theorem State.mateJob_hold (s : State) (h : Nat) : (State.mateJob s h).hold = s.hold := by
  unfold State.mateJob
  repeat' split
  all_goals simp

@[simp] theorem State.mateMap_noMap (s : State) (tn : Nat) (m : LMap) :
    (State.mateMap s tn m).hold.noMap = s.hold.noMap := by
  unfold State.mateMap
  dsimp only
  repeat' split
  all_goals simp

@[simp] theorem State.mateMap_queue (s : State) (tn : Nat) (m : LMap) :
    (State.mateMap s tn m).hold.pending = s.hold.pending :=
  Hold.noMap_to (State.mateMap_noMap s tn m)

@[simp] theorem State.mateArm_hold (s : State) (f : Nat) (id : Word) : (State.mateArm s f id).hold = s.hold := by
  simp [State.mateArm]

@[simp] theorem State.mateCancel_hold (s : State) (h : Nat) : (State.mateCancel s h).hold = s.hold := by
  unfold State.mateCancel
  dsimp only
  repeat' split
  all_goals simp

@[simp] theorem State.pairDiff_hold (s : State) (n : Nat) (differs : Bool) :
    (State.pairDiff s n differs).hold = s.hold := by
  simp [State.pairDiff]

@[simp] theorem State.mateLock_hold (s : State) (n : Nat) (p0 : Nat) (x0 : Nat) : (State.mateLock s n p0 x0).hold = s.hold := by
  simp [State.mateLock]

@[simp] theorem State.mateLag_hold (s : State) (n : Nat) (l : Nat) : (State.mateLag s n l).hold = s.hold := by
  simp [State.mateLag]

@[simp] theorem State.matePref_hold (s : State) (n : Nat) (tick : Nat) (b : Bool) :
    (State.matePref s n tick b).hold = s.hold := by
  simp [State.matePref]

@[simp] theorem State.mateQuiet_hold (s : State) (tn : Nat) : (State.mateQuiet s tn).hold = s.hold := by
  unfold State.mateQuiet
  refine foldl_hold (fun t n => ?_) _ _
  dsimp only
  split
  · simp
  · rfl

@[simp] theorem State.mateEvt_queue (s : State) (tn : Nat) (e : LEvt) :
    (State.mateEvt s tn e).hold.pending = s.hold.pending := by
  unfold State.mateEvt
  repeat' split
  all_goals simp [State.pending_hold]

@[simp] theorem State.mateCount_hold (s : State) (x : (Bool × Nat) × Nat) : (State.mateCount s x).hold = s.hold := by
  simp [State.mateCount]

@[simp] theorem State.mateRemote_hold (s : State) (old : List Nat) : (State.mateRemote s old).hold = s.hold := by
  simp [State.mateRemote, foldl_hold]

@[simp] theorem State.applyRec_queue (s : State) (r : LRec) : (s.applyRec r).hold.pending = s.hold.pending := by
  have h1 : ∀ u : State, u.hold.pending = s.hold.pending →
      (if r.yield_ ∧ u.cal.role = .standby then u.becomeActive else u).hold.pending = s.hold.pending := by
    intro u hu
    split
    · rw [State.becomeActive_hold, hu]
    · exact hu
  unfold State.applyRec
  dsimp only
  apply h1
  rw [State.mateRemote_hold, foldl_phi Hold.pending (fun t x => by rw [State.mateCount_hold]), State.mateQuiet_hold,
    foldl_phi Hold.pending (fun t e => State.mateEvt_queue t r.tn e),
    foldl_phi Hold.pending (fun t m => State.asOf_queue t r.tn _ (fun u => State.mateMap_queue u r.tn m)),
    foldl_phi Hold.pending (fun t c => State.mateCmp_queue t r.tn c),
    foldl_phi Hold.pending (fun t x => State.asOf_queue t r.tn _ (fun u => by rw [State.mateRing_hold])),
    foldl_phi Hold.pending (fun t a => State.asOf_queue t r.tn _ (fun u => by rw [State.mateAcc_hold])),
    State.mateStr_hold]

@[simp] theorem State.takeControl_queue (s : State) (c : Control) : (State.takeControl s c).hold.pending =
    s.hold.pending := by
  rfl

@[simp] theorem State.applySnap_queue (s : State) : (State.applySnap s).hold.pending = s.hold.pending := by
  unfold State.applySnap
  split
  · rfl
  · dsimp only
    split <;> rfl

@[simp] theorem applyDue_queue (n : Nat) (s : State) : (applyDue n s).hold.pending = s.hold.pending := by
  induction n generalizing s with
  | zero => rfl
  | succ n ih =>
    unfold applyDue
    split
    · rfl
    · split
      · rw [ih, State.applyRec_queue]
        rfl
      · rfl

theorem execLadleRecordApply_queue (s : State) : ∀ t,
    (execLadleRecordApply s) = .next t → t.hold.pending = s.hold.pending := by
  unfold execLadleRecordApply
  refine whenUp_phi Hold.pending ?_
  simp

theorem execSilenceTakeover_queue (s : State) : ∀ t,
    (execSilenceTakeover s) = .next t → t.hold.pending = s.hold.pending := by
  unfold execSilenceTakeover
  refine whenUp_phi Hold.pending ?_
  simp

@[simp] theorem State.sendOn_hold (s : State) (ls : List Link) (y2 : Nat) : (State.sendOn s ls y2).hold = s.hold := by
  simp [State.sendOn, foldl_hold]

@[simp] theorem State.announceTn_hold (s : State) : (State.announceTn s).hold = s.hold := by
  simp [State.announceTn]

@[simp] theorem State.second_noLatch (s : State) : (State.second s).hold.noLatch = s.hold.noLatch := by
  simp [State.second, foldl_hold]

@[simp] theorem State.second_queue (s : State) : (State.second s).hold.pending = s.hold.pending :=
  Hold.noLatch_to (State.second_noLatch s)

@[simp] theorem State.secondNow_noLatch (s : State) : (State.secondNow s).hold.noLatch = s.hold.noLatch := by
  simp [State.secondNow]

@[simp] theorem State.sleepCores_hold (s : State) : (State.sleepCores s).hold = s.hold := by
  simp [State.sleepCores]

@[simp] theorem State.fabPeriod_hold (s : State) : (State.fabPeriod s).hold = s.hold := by
  simp [State.fabPeriod]

@[simp] theorem State.diffPeriod_hold (s : State) : (State.diffPeriod s).hold = s.hold := by
  simp [State.diffPeriod]

@[simp] theorem State.period_hold (s : State) (m : PeriodIn) : (State.period s m).hold = s.hold := by
  simp [State.period]

end Sys2Proof.Machine
end

