-- ==== Sys2Proof/Laws/HoldBoundary.lean ====
section
/-! SUPPORT. What the boundary actions, slot processing, map writes and the seal of a tick leave as it was: the held part of
State (Hold) without map entries, set-up registers and latched counters. -/
namespace Sys2Proof.Machine
open Sys2Proof

@[simp] theorem State.startFrame_hold (s : State) (n : Nat) : (s.startFrame n).hold = s.hold := by
  unfold State.startFrame
  exact (State.setTx_hold _ _ _).trans (State.linkFragment_hold _ _ _ _ _ _ _ _)

@[simp] theorem State.txTick_hold (s : State) (n : Nat) : (State.txTick s n).hold = s.hold := by
  simp [State.txTick]

@[simp] theorem State.loopTick_hold (s : State) (n : Nat) : (State.loopTick s n).hold = s.hold := by
  unfold State.loopTick
  repeat' split
  all_goals simp [-List.reduceReplicate]

@[simp] theorem State.wheelTick_hold (s : State) (w : Nat) : (State.wheelTick s w).hold = s.hold := by
  simp [State.wheelTick]

@[simp] theorem State.retimeAll_hold (s : State) : (State.retimeAll s).hold = s.hold := by
  simp [State.retimeAll, foldl_hold]

@[simp] theorem State.slots_hold (s : State) : (State.slots s).hold = s.hold := by
  simp [State.slots, foldl_hold]

@[simp] theorem State.slotsNow_hold (s : State) : (State.slotsNow s).hold = s.hold := by
  simp [State.slotsNow]

@[simp] theorem State.cycle0_noMap (s : State) : (State.cycle0 s).hold.noMap = s.hold.noMap := by
  simp [State.cycle0]

@[simp] theorem State.cycle0_noBound (s : State) : (State.cycle0 s).hold.noBound = s.hold.noBound :=
  Hold.noBound_of_noMap (State.cycle0_noMap s)

@[simp] theorem State.cycle1_noBound (s : State) : (State.cycle1 s).hold.noBound = s.hold.noBound := by
  unfold State.cycle1
  rw [State.dumpsNow_hold, State.presetsNow_hold, Hold.noBound_of_noLatch (State.secondNow_noLatch _),
    State.cycle0_noBound]

@[simp] theorem State.boundary_noBound (s : State) : (State.boundary s).hold.noBound = s.hold.noBound := by
  have h : s.cycle1.refsNow.hold.noBound = s.hold.noBound :=
    (Hold.noBound_of_noRegs (State.refsNow_noRegs _)).trans (State.cycle1_noBound s)
  unfold State.boundary
  dsimp only
  split
  · exact h
  · rw [State.stepNow_hold, h]

@[simp] theorem State.finish_noBound (s : State) : (State.finish s).hold.noBound = s.hold.noBound := by
  unfold State.finish
  rw [Hold.noBound_of_noMap (State.copySlice_noMap _), State.slotsNow_hold, State.stepNow_hold,
    Hold.noBound_of_noRegs (State.refsNow_noRegs _), State.cycle1_noBound]

theorem execLaneLoopApply_noMap (lane : Fin 256) (s : State) : ∀ t,
    execLaneLoopApply lane s = .next t → t.hold.noMap = s.hold.noMap := by
  unfold execLaneLoopApply
  refine whenUp_phi Hold.noMap ?_
  simp

theorem execSecondBoundary_noBound (s : State) : ∀ t,
    execSecondBoundary s = .next t → t.hold.noBound = s.hold.noBound := by
  unfold execSecondBoundary
  refine whenUp_phi Hold.noBound ?_
  split
  · rw [Hold.noBound_of_noLatch (State.secondNow_noLatch _), State.cycle0_noBound]
  · rfl

theorem execCounterPresetApply_noBound (s : State) : ∀ t,
    execCounterPresetApply s = .next t → t.hold.noBound = s.hold.noBound := by
  unfold execCounterPresetApply
  refine whenUp_phi Hold.noBound ?_
  split
  · rfl
  · rw [State.presetsNow_hold, Hold.noBound_of_noLatch (State.secondNow_noLatch _), State.cycle0_noBound]

theorem execDumpConfigApply_noBound (s : State) : ∀ t,
    execDumpConfigApply s = .next t → t.hold.noBound = s.hold.noBound := by
  unfold execDumpConfigApply
  refine whenUp_phi Hold.noBound ?_
  split <;> simp

theorem execRefConfigApply_noBound (s : State) : ∀ t,
    execRefConfigApply s = .next t → t.hold.noBound = s.hold.noBound := by
  unfold execRefConfigApply
  refine whenUp_phi Hold.noBound ?_
  split
  · rw [Hold.noBound_of_noRegs (State.cfgNow_noRegs _), State.cycle1_noBound]
  · rfl

theorem execRefForceApply_noBound (s : State) : ∀ t,
    execRefForceApply s = .next t → t.hold.noBound = s.hold.noBound := by
  unfold execRefForceApply
  refine whenUp_phi Hold.noBound ?_
  split <;> simp

theorem execSelectionPeriodBoundary_noBound (m : PeriodIn) (s : State) : ∀ t,
    execSelectionPeriodBoundary m s = .next t → t.hold.noBound = s.hold.noBound := by
  unfold execSelectionPeriodBoundary
  refine whenUp_phi Hold.noBound ?_
  split
  · rw [State.period_hold, Hold.noBound_of_noRegs (State.refsNow_noRegs _), State.cycle1_noBound]
  · rfl

theorem execPhaseStepApply_noBound (s : State) : ∀ t,
    execPhaseStepApply s = .next t → t.hold.noBound = s.hold.noBound := by
  unfold execPhaseStepApply
  refine whenUp_phi Hold.noBound ?_
  split <;> simp

theorem execSlotProcessing_noBound (s : State) : ∀ t,
    execSlotProcessing s = .next t → t.hold.noBound = s.hold.noBound := by
  unfold execSlotProcessing
  refine whenUp_phi Hold.noBound ?_
  split <;> simp

theorem execMapWriteExecute_noBound (s : State) : ∀ t,
    execMapWriteExecute s = .next t → t.hold.noBound = s.hold.noBound := by
  unfold execMapWriteExecute
  refine next_phi Hold.noBound ?_
  split
  · rw [Hold.noBound_of_noMap (State.mapNow_noMap _), State.boundary_noBound]
  · rfl

theorem execLadleRecordSeal_noBound (s : State) : ∀ t,
    execLadleRecordSeal s = .next t → t.hold.noBound = s.hold.noBound := by
  unfold execLadleRecordSeal
  refine whenUp_phi Hold.noBound ?_
  split <;> simp

end Sys2Proof.Machine
end

