-- ==== Sys2Proof/Laws/HoldTick.lean ====
section
/-! SUPPORT. What register windows, the Rack, ring slots and the tick leave as it was: the held part of State (Hold). -/
namespace Sys2Proof.Machine
open Sys2Proof

@[simp] theorem State.linkBroken_hold (s : State) (g : Nat) : (State.linkBroken s g).hold = s.hold := by
  simp [State.linkBroken]

@[simp] theorem State.writeFields_noRegs (s : State) (a : Nat) (v : Word) :
    (State.writeFields s a v).hold.noRegs = s.hold.noRegs := by
  simp [State.writeFields]

@[simp] theorem State.writeFields_queue (s : State) (a : Nat) (v : Word) :
    (State.writeFields s a v).hold.pending = s.hold.pending :=
  Hold.noRegs_to (State.writeFields_noRegs s a v)

@[simp] theorem State.askBlocks_hold (s : State) (v : Word) : (State.askBlocks s v).hold = s.hold := by
  simp [State.askBlocks, foldl_hold]

@[simp] theorem State.askGroups_hold (s : State) (v : Word) : (State.askGroups s v).hold = s.hold := by
  simp [State.askGroups, foldl_hold]

@[simp] theorem State.writeWord_queue (s : State) (a : Nat) (v : Word) :
    (s.writeWord a v).hold.pending = s.hold.pending := by
  have hb : ∀ y : Sds, (State.hold { s with sds := y }).pending = s.hold.pending := fun _ => rfl
  unfold State.writeWord
  simp only [ite_hold, Hold.pending_ite, hb, ite_self, State.askLoad_hold, State.writeFields_queue,
    State.btLoad_hold, State.setTiming_queue, State.linkBroken_hold,
        State.writeFreeze_queue, State.swap_hold, State.askBlocks_hold, State.askGroups_hold, State.mbSlot_hold,
    State.mbCtrl_hold]

@[simp] theorem State.writeWords_queue (s : State) (n a : Nat) (l : List Byte) :
    (s.writeWords n a l).hold.pending = s.hold.pending := by
  induction n generalizing s a l with
  | zero => rfl
  | succ n ih =>
    unfold State.writeWords
    dsimp only
    split
    · rw [State.warmBoot_queue, ih]
    · rw [ih, State.writeWord_queue]

@[simp] theorem State.writePiece_queue (s : State) (x : Access) : (s.writePiece x).1.hold.pending = s.hold.pending := by
  unfold State.writePiece
  dsimp only
  split <;> simp

@[simp] theorem State.readPiece_hold (s : State) (x : Access) : (s.readPiece x).1.hold = s.hold := by
  unfold State.readPiece
  dsimp only
  repeat' split
  all_goals simp

@[simp] theorem keepPiece_hold (r : State × Option Access) : (keepPiece r).hold = r.1.hold := by
  unfold keepPiece
  split <;> rfl

@[simp] theorem State.serveAccess_queue (s : State) (x : Access) : (s.serveAccess x).hold.pending = s.hold.pending := by
  unfold State.serveAccess
  rw [keepPiece_hold]
  split
  · exact State.writePiece_queue s x
  · rw [State.readPiece_hold]

@[simp] theorem State.morePieces_queue (s : State) : s.morePieces.hold.pending = s.hold.pending := by
  unfold State.morePieces
  exact foldl_phi Hold.pending State.serveAccess_queue _ _

@[simp] theorem State.hostWrite_queue (s : State) (q : Nat) (rkey : Word) (addr : Nat) (data : List Byte) :
    (State.hostWrite s q rkey addr data).hold.pending = s.hold.pending := by
  simp [State.hostWrite]

@[simp] theorem State.hostRead_hold (s : State) (q : Nat) (rkey : Word) (addr n : Nat) :
    (s.hostRead q rkey addr n).hold = s.hold := by
  unfold State.hostRead
  split
  · rfl
  · split
    · split
      · simp
      · rw [keepPiece_hold, State.readPiece_hold]
    · simp

theorem execRdmaReadRequest_hold (qp : Fin 16) (rkey : Word) (addr : Nat) (len : Nat) (s : State) : ∀ t,
    (execRdmaReadRequest qp rkey addr len s) = .next t → t.hold = s.hold := by
  unfold execRdmaReadRequest
  refine whenFw_hold ?_
  simp

theorem execRegisterWrite_queue (qp : Fin 16) (rkey : Word) (addr : Nat) (data : List Byte) (s : State) : ∀ t,
    (execRegisterWrite qp rkey addr data s) = .next t → t.hold.pending = s.hold.pending := by
  unfold execRegisterWrite
  refine whenFw_phi Hold.pending ?_
  simp

@[simp] theorem State.rocv_queue (s : State) (p : Nat) (o : Roce) : (State.rocv s p o).hold.pending = s.hold.pending := by
  unfold State.rocv
  split <;> simp

theorem execMgmtFrameReceived_queue (port : Fin 2) (f : EthFrame) (s : State) : ∀ t,
    (execMgmtFrameReceived port f s) = .next t → t.hold.pending = s.hold.pending := by
  unfold execMgmtFrameReceived
  refine whenFw_phi Hold.pending ?_
  repeat' split
  all_goals simp

theorem execMgmtLinkChange_hold (port : Fin 2) (up : Bool) (s : State) :
    ∀ t, execMgmtLinkChange port up s = .next t → t.hold = s.hold := by
  unfold execMgmtLinkChange
  refine whenUp_hold ?_
  dsimp only
  refine (foldl_hold (fun t q => ?_) _ _).trans (State.setPort_hold _ _ _)
  split
  · exact State.moveOps_hold _ _
  · rfl

@[simp] theorem State.rackError_hold (s : State) (master : Nat) (target : Nat) (write : Bool) :
    (State.rackError s master target write).hold = s.hold := by
  simp [State.rackError]

@[simp] theorem State.rackOk_hold (s : State) (d : List Byte) : (State.rackOk s d).hold = s.hold := by
  simp [State.rackOk]

@[simp] theorem State.memAccess_noMem (s : State) (q : RackReq) : (s.memAccess q).hold.noMem = s.hold.noMem := by
  have hm : ∀ y : Mem, (State.hold { s with mem := y }).noMem = s.hold.noMem := fun _ => rfl
  unfold State.memAccess
  simp only [ite_hold, Hold.noMem_ite, hm, ite_self, State.rackOk_hold, State.rackError_hold, State.memWrite_noMem]

@[simp] theorem State.memAccess_queue (s : State) (q : RackReq) : (State.memAccess s q).hold.pending = s.hold.pending :=
  Hold.noMem_to (State.memAccess_noMem s q)

@[simp] theorem State.masterWrite_queue (s : State) (m a : Nat) (v : Word) :
    (s.masterWrite m a v).hold.pending = s.hold.pending := by
  unfold State.masterWrite
  simp only [ite_hold, Hold.pending_ite, ite_self, State.writeFields_queue, State.mbSlot_hold, State.mbCtrl_hold,
    State.writeWord_queue]

@[simp] theorem State.masterWrites_queue (s : State) (m : Nat) (x2 : Nat) (x3 : Nat) (x4 : List Byte) :
    (State.masterWrites s m x2 x3 x4).hold.pending = s.hold.pending := by
  fun_induction State.masterWrites <;> simp_all

@[simp] theorem State.regAccess_queue (s : State) (q : RackReq) :
    (State.regAccess s q).hold.pending = s.hold.pending := by
  simp [State.regAccess]

@[simp] theorem State.diagAccess_noMem (s : State) (q : RackReq) : (State.diagAccess s q).hold.noMem = s.hold.noMem := by
  simp [State.diagAccess]

@[simp] theorem State.diagAccess_queue (s : State) (q : RackReq) :
    (State.diagAccess s q).hold.pending = s.hold.pending :=
  Hold.noMem_to (State.diagAccess_noMem s q)

theorem execRackAccess_queue (a : RackReq) (s : State) : ∀ t,
    (execRackAccess a s) = .next t → t.hold.pending = s.hold.pending := by
  unfold execRackAccess
  refine whenUp_phi Hold.pending ?_
  dsimp only
  repeat' split
  all_goals simp

theorem execPantryOwnerWrite_noMem (master : Nat) (bank : Fin 64) (newOwner : Nat) (s : State) :
    ∀ t, execPantryOwnerWrite master bank newOwner s = .next t → t.hold.noMem = s.hold.noMem := by
  unfold execPantryOwnerWrite
  refine whenUp_phi Hold.noMem ?_
  split
  · rw [State.rackOk_hold]
    rfl
  · rw [State.rackError_hold]

theorem execPantryAtomic_noMem (master : Nat) (bank : Fin 64) (off : Nat) (swap : Bool) (v : Word64) (stall : Nat)
    (whisk : Nat) (s : State) : ∀ t, (execPantryAtomic master bank off swap v stall whisk s) = .next t → t.hold.noMem =
    s.hold.noMem := by
  unfold execPantryAtomic
  refine whenUp_phi Hold.noMem ?_
  simp

theorem execWhiskRegionStart_hold (m : Fin 9) (s : State) : ∀ t,
    (execWhiskRegionStart m s) = .next t → t.hold = s.hold := by
  unfold execWhiskRegionStart
  refine whenUp_hold ?_
  simp

@[simp] theorem State.passEnd_hold (s : State) (m : Nat) : (State.passEnd s m).hold = s.hold := by
  simp [State.passEnd]

@[simp] theorem State.whiskFault_hold (s : State) (m : Nat) (r : Nat) : (State.whiskFault s m r).hold = s.hold := by
  simp [State.whiskFault]

theorem execWhiskRegionEnd_noMem (m : Fin 9) (failed : Bool) (s : State) : ∀ t,
    (execWhiskRegionEnd m failed s) = .next t → t.hold.noMem = s.hold.noMem := by
  unfold execWhiskRegionEnd
  refine whenUp_phi Hold.noMem ?_
  repeat' split
  all_goals simp

@[simp] theorem State.advance_hold (s : State) : (State.advance s).hold = s.hold := by
  simp [State.advance]

@[simp] theorem State.publish_hold (s : State) (r : Nat) : (State.publish s r).hold = s.hold := by
  simp [State.publish]

@[simp] theorem State.answerKick_hold (s : State) (r : Nat) : (State.answerKick s r).hold = s.hold := by
  simp [State.answerKick]

@[simp] theorem State.heartbeat_hold (s : State) : (State.heartbeat s).hold = s.hold := by
  simp [State.heartbeat]

@[simp] theorem State.wdogRestart_queue (s : State) : (State.wdogRestart s).hold.pending = s.hold.pending := by
  simp [State.wdogRestart]

@[simp] theorem State.tick_queue (s : State) : s.tick.hold.pending = s.hold.pending := by
  unfold State.tick
  split
  · dsimp only
    rw [State.morePieces_queue, foldl_hold State.answerKick_hold, State.flushHeld_hold, State.blockResets_queue,
      State.wdogRestart_queue, State.heartbeat_hold, State.countEdge_hold, State.advance_hold,
      foldl_hold State.publish_hold, Hold.noBound_to (State.finish_noBound s)]
  · rw [State.advance_hold]

end Sys2Proof.Machine
end

