-- ==== Sys2Proof/Laws/State.lean ====
section
/-! SUPPORT. What each shared operation leaves as it was, one lemma per field of State, and what a changed element of a
table reads as. -/
namespace Sys2Proof.Machine

theorem foldl_keep {α β : Type} {p : State → β} {g : State → α → State} (hg : ∀ s a, p (g s a) = p s) (l : List α) (s : State) :
    p (l.foldl g s) = p s := by
  induction l generalizing s with
  | nil => rfl
  | cons a t ih => rw [List.foldl_cons, ih, hg]

section
variable (s : State) (a : Nat) (v : Word)
@[simp] theorem State.setReg_pending : (s.setReg a v).pending = s.pending := rfl
@[simp] theorem State.setReg_clk : (s.setReg a v).clk = s.clk := rfl
@[simp] theorem State.setReg_pwr : (s.setReg a v).pwr = s.pwr := rfl
@[simp] theorem State.setReg_sticky : (s.setReg a v).sticky = s.sticky := rfl
@[simp] theorem State.setReg_sealed : (s.setReg a v).sealed = s.sealed := rfl
@[simp] theorem State.setReg_sealImg : (s.setReg a v).sealImg = s.sealImg := rfl
@[simp] theorem State.setReg_flash : (s.setReg a v).flash = s.flash := rfl
@[simp] theorem State.setReg_rnd : (s.setReg a v).rnd = s.rnd := rfl
@[simp] theorem State.setReg_str : (s.setReg a v).str = s.str := rfl
@[simp] theorem State.setReg_sds : (s.setReg a v).sds = s.sds := rfl
@[simp] theorem State.setReg_frm : (s.setReg a v).frm = s.frm := rfl
@[simp] theorem State.setReg_whl : (s.setReg a v).whl = s.whl := rfl
@[simp] theorem State.setReg_hrp : (s.setReg a v).hrp = s.hrp := rfl
@[simp] theorem State.setReg_flp : (s.setReg a v).flp = s.flp := rfl
@[simp] theorem State.setReg_col : (s.setReg a v).col = s.col := rfl
@[simp] theorem State.setReg_cal : (s.setReg a v).cal = s.cal := rfl
@[simp] theorem State.setReg_fab : (s.setReg a v).fab = s.fab := rfl
@[simp] theorem State.setReg_mgp : (s.setReg a v).mgp = s.mgp := rfl
@[simp] theorem State.setReg_prn : (s.setReg a v).prn = s.prn := rfl
@[simp] theorem State.setReg_mbx : (s.setReg a v).mbx = s.mbx := rfl
@[simp] theorem State.setReg_mem : (s.setReg a v).mem = s.mem := rfl
@[simp] theorem State.setReg_rck : (s.setReg a v).rck = s.rck := rfl
@[simp] theorem State.setReg_cnt : (s.setReg a v).cnt = s.cnt := rfl
@[simp] theorem State.setReg_nrg : (s.setReg a v).nrg = s.nrg := rfl
@[simp] theorem State.setReg_restarts : (s.setReg a v).restarts = s.restarts := rfl
@[simp] theorem State.setReg_fresh : (s.setReg a v).fresh = s.fresh := rfl
end

section
variable (s : State) (a : Nat) (m : Word)
@[simp] theorem State.setSticky_pending : (s.setSticky a m).pending = s.pending := rfl
@[simp] theorem State.setSticky_clk : (s.setSticky a m).clk = s.clk := rfl
@[simp] theorem State.setSticky_pwr : (s.setSticky a m).pwr = s.pwr := rfl
@[simp] theorem State.setSticky_regs : (s.setSticky a m).regs = s.regs := rfl
@[simp] theorem State.setSticky_sealed : (s.setSticky a m).sealed = s.sealed := rfl
@[simp] theorem State.setSticky_sealImg : (s.setSticky a m).sealImg = s.sealImg := rfl
@[simp] theorem State.setSticky_flash : (s.setSticky a m).flash = s.flash := rfl
@[simp] theorem State.setSticky_rnd : (s.setSticky a m).rnd = s.rnd := rfl
@[simp] theorem State.setSticky_str : (s.setSticky a m).str = s.str := rfl
@[simp] theorem State.setSticky_sds : (s.setSticky a m).sds = s.sds := rfl
@[simp] theorem State.setSticky_frm : (s.setSticky a m).frm = s.frm := rfl
@[simp] theorem State.setSticky_whl : (s.setSticky a m).whl = s.whl := rfl
@[simp] theorem State.setSticky_hrp : (s.setSticky a m).hrp = s.hrp := rfl
@[simp] theorem State.setSticky_flp : (s.setSticky a m).flp = s.flp := rfl
@[simp] theorem State.setSticky_col : (s.setSticky a m).col = s.col := rfl
@[simp] theorem State.setSticky_cal : (s.setSticky a m).cal = s.cal := rfl
@[simp] theorem State.setSticky_fab : (s.setSticky a m).fab = s.fab := rfl
@[simp] theorem State.setSticky_mgp : (s.setSticky a m).mgp = s.mgp := rfl
@[simp] theorem State.setSticky_prn : (s.setSticky a m).prn = s.prn := rfl
@[simp] theorem State.setSticky_mbx : (s.setSticky a m).mbx = s.mbx := rfl
@[simp] theorem State.setSticky_mem : (s.setSticky a m).mem = s.mem := rfl
@[simp] theorem State.setSticky_rck : (s.setSticky a m).rck = s.rck := rfl
@[simp] theorem State.setSticky_cnt : (s.setSticky a m).cnt = s.cnt := rfl
@[simp] theorem State.setSticky_nrg : (s.setSticky a m).nrg = s.nrg := rfl
@[simp] theorem State.setSticky_restarts : (s.setSticky a m).restarts = s.restarts := rfl
@[simp] theorem State.setSticky_fresh : (s.setSticky a m).fresh = s.fresh := rfl
end

section
variable (s : State) (a : Nat) (m : Word)
@[simp] theorem State.clrSticky_pending : (s.clrSticky a m).pending = s.pending := rfl
@[simp] theorem State.clrSticky_clk : (s.clrSticky a m).clk = s.clk := rfl
@[simp] theorem State.clrSticky_pwr : (s.clrSticky a m).pwr = s.pwr := rfl
@[simp] theorem State.clrSticky_regs : (s.clrSticky a m).regs = s.regs := rfl
@[simp] theorem State.clrSticky_sealed : (s.clrSticky a m).sealed = s.sealed := rfl
@[simp] theorem State.clrSticky_sealImg : (s.clrSticky a m).sealImg = s.sealImg := rfl
@[simp] theorem State.clrSticky_flash : (s.clrSticky a m).flash = s.flash := rfl
@[simp] theorem State.clrSticky_rnd : (s.clrSticky a m).rnd = s.rnd := rfl
@[simp] theorem State.clrSticky_str : (s.clrSticky a m).str = s.str := rfl
@[simp] theorem State.clrSticky_sds : (s.clrSticky a m).sds = s.sds := rfl
@[simp] theorem State.clrSticky_frm : (s.clrSticky a m).frm = s.frm := rfl
@[simp] theorem State.clrSticky_whl : (s.clrSticky a m).whl = s.whl := rfl
@[simp] theorem State.clrSticky_hrp : (s.clrSticky a m).hrp = s.hrp := rfl
@[simp] theorem State.clrSticky_flp : (s.clrSticky a m).flp = s.flp := rfl
@[simp] theorem State.clrSticky_col : (s.clrSticky a m).col = s.col := rfl
@[simp] theorem State.clrSticky_cal : (s.clrSticky a m).cal = s.cal := rfl
@[simp] theorem State.clrSticky_fab : (s.clrSticky a m).fab = s.fab := rfl
@[simp] theorem State.clrSticky_mgp : (s.clrSticky a m).mgp = s.mgp := rfl
@[simp] theorem State.clrSticky_prn : (s.clrSticky a m).prn = s.prn := rfl
@[simp] theorem State.clrSticky_mbx : (s.clrSticky a m).mbx = s.mbx := rfl
@[simp] theorem State.clrSticky_mem : (s.clrSticky a m).mem = s.mem := rfl
@[simp] theorem State.clrSticky_rck : (s.clrSticky a m).rck = s.rck := rfl
@[simp] theorem State.clrSticky_cnt : (s.clrSticky a m).cnt = s.cnt := rfl
@[simp] theorem State.clrSticky_nrg : (s.clrSticky a m).nrg = s.nrg := rfl
@[simp] theorem State.clrSticky_restarts : (s.clrSticky a m).restarts = s.restarts := rfl
@[simp] theorem State.clrSticky_fresh : (s.clrSticky a m).fresh = s.fresh := rfl
end

section
variable (s : State) (scope : Nat) (obj : Nat) (j : Nat) (c : Counter)
@[simp] theorem State.setCounter_pending : (s.setCounter scope obj j c).pending = s.pending := rfl
@[simp] theorem State.setCounter_clk : (s.setCounter scope obj j c).clk = s.clk := rfl
@[simp] theorem State.setCounter_pwr : (s.setCounter scope obj j c).pwr = s.pwr := rfl
@[simp] theorem State.setCounter_regs : (s.setCounter scope obj j c).regs = s.regs := rfl
@[simp] theorem State.setCounter_sticky : (s.setCounter scope obj j c).sticky = s.sticky := rfl
@[simp] theorem State.setCounter_sealed : (s.setCounter scope obj j c).sealed = s.sealed := rfl
@[simp] theorem State.setCounter_sealImg : (s.setCounter scope obj j c).sealImg = s.sealImg := rfl
@[simp] theorem State.setCounter_flash : (s.setCounter scope obj j c).flash = s.flash := rfl
@[simp] theorem State.setCounter_rnd : (s.setCounter scope obj j c).rnd = s.rnd := rfl
@[simp] theorem State.setCounter_str : (s.setCounter scope obj j c).str = s.str := rfl
@[simp] theorem State.setCounter_sds : (s.setCounter scope obj j c).sds = s.sds := rfl
@[simp] theorem State.setCounter_frm : (s.setCounter scope obj j c).frm = s.frm := rfl
@[simp] theorem State.setCounter_whl : (s.setCounter scope obj j c).whl = s.whl := rfl
@[simp] theorem State.setCounter_hrp : (s.setCounter scope obj j c).hrp = s.hrp := rfl
@[simp] theorem State.setCounter_flp : (s.setCounter scope obj j c).flp = s.flp := rfl
@[simp] theorem State.setCounter_col : (s.setCounter scope obj j c).col = s.col := rfl
@[simp] theorem State.setCounter_cal : (s.setCounter scope obj j c).cal = s.cal := rfl
@[simp] theorem State.setCounter_fab : (s.setCounter scope obj j c).fab = s.fab := rfl
@[simp] theorem State.setCounter_mgp : (s.setCounter scope obj j c).mgp = s.mgp := rfl
@[simp] theorem State.setCounter_prn : (s.setCounter scope obj j c).prn = s.prn := rfl
@[simp] theorem State.setCounter_mbx : (s.setCounter scope obj j c).mbx = s.mbx := rfl
@[simp] theorem State.setCounter_mem : (s.setCounter scope obj j c).mem = s.mem := rfl
@[simp] theorem State.setCounter_rck : (s.setCounter scope obj j c).rck = s.rck := rfl
@[simp] theorem State.setCounter_nrg : (s.setCounter scope obj j c).nrg = s.nrg := rfl
@[simp] theorem State.setCounter_restarts : (s.setCounter scope obj j c).restarts = s.restarts := rfl
@[simp] theorem State.setCounter_fresh : (s.setCounter scope obj j c).fresh = s.fresh := rfl
end

section
variable (s : State) (scope : Nat) (obj : Nat) (j : Nat) (n : Nat)
@[simp] theorem State.count_pending : (s.count scope obj j n).pending = s.pending := by unfold State.count; split <;> rfl
@[simp] theorem State.count_clk : (s.count scope obj j n).clk = s.clk := by unfold State.count; split <;> rfl
@[simp] theorem State.count_pwr : (s.count scope obj j n).pwr = s.pwr := by unfold State.count; split <;> rfl
@[simp] theorem State.count_regs : (s.count scope obj j n).regs = s.regs := by unfold State.count; split <;> rfl
@[simp] theorem State.count_sticky : (s.count scope obj j n).sticky = s.sticky := by unfold State.count; split <;> rfl
@[simp] theorem State.count_sealed : (s.count scope obj j n).sealed = s.sealed := by unfold State.count; split <;> rfl
@[simp] theorem State.count_sealImg : (s.count scope obj j n).sealImg = s.sealImg := by unfold State.count; split <;> rfl
@[simp] theorem State.count_flash : (s.count scope obj j n).flash = s.flash := by unfold State.count; split <;> rfl
@[simp] theorem State.count_rnd : (s.count scope obj j n).rnd = s.rnd := by unfold State.count; split <;> rfl
@[simp] theorem State.count_str : (s.count scope obj j n).str = s.str := by unfold State.count; split <;> rfl
@[simp] theorem State.count_sds : (s.count scope obj j n).sds = s.sds := by unfold State.count; split <;> rfl
@[simp] theorem State.count_frm : (s.count scope obj j n).frm = s.frm := by unfold State.count; split <;> rfl
@[simp] theorem State.count_whl : (s.count scope obj j n).whl = s.whl := by unfold State.count; split <;> rfl
@[simp] theorem State.count_hrp : (s.count scope obj j n).hrp = s.hrp := by unfold State.count; split <;> rfl
@[simp] theorem State.count_flp : (s.count scope obj j n).flp = s.flp := by unfold State.count; split <;> rfl
@[simp] theorem State.count_col : (s.count scope obj j n).col = s.col := by unfold State.count; split <;> rfl
@[simp] theorem State.count_cal : (s.count scope obj j n).cal = s.cal := by unfold State.count; split <;> rfl
@[simp] theorem State.count_fab : (s.count scope obj j n).fab = s.fab := by unfold State.count; split <;> rfl
@[simp] theorem State.count_mgp : (s.count scope obj j n).mgp = s.mgp := by unfold State.count; split <;> rfl
@[simp] theorem State.count_prn : (s.count scope obj j n).prn = s.prn := by unfold State.count; split <;> rfl
@[simp] theorem State.count_mbx : (s.count scope obj j n).mbx = s.mbx := by unfold State.count; split <;> rfl
@[simp] theorem State.count_mem : (s.count scope obj j n).mem = s.mem := by unfold State.count; split <;> rfl
@[simp] theorem State.count_rck : (s.count scope obj j n).rck = s.rck := by unfold State.count; split <;> rfl
@[simp] theorem State.count_nrg : (s.count scope obj j n).nrg = s.nrg := by unfold State.count; split <;> rfl
@[simp] theorem State.count_restarts : (s.count scope obj j n).restarts = s.restarts := by unfold State.count; split <;> rfl
@[simp] theorem State.count_fresh : (s.count scope obj j n).fresh = s.fresh := by unfold State.count; split <;> rfl
end

section
variable (s : State) (scope : Nat) (obj : Nat)
@[simp] theorem State.clearCounters_pending : (s.clearCounters scope obj).pending = s.pending := rfl
@[simp] theorem State.clearCounters_clk : (s.clearCounters scope obj).clk = s.clk := rfl
@[simp] theorem State.clearCounters_pwr : (s.clearCounters scope obj).pwr = s.pwr := rfl
@[simp] theorem State.clearCounters_regs : (s.clearCounters scope obj).regs = s.regs := rfl
@[simp] theorem State.clearCounters_sticky : (s.clearCounters scope obj).sticky = s.sticky := rfl
@[simp] theorem State.clearCounters_sealed : (s.clearCounters scope obj).sealed = s.sealed := rfl
@[simp] theorem State.clearCounters_sealImg : (s.clearCounters scope obj).sealImg = s.sealImg := rfl
@[simp] theorem State.clearCounters_flash : (s.clearCounters scope obj).flash = s.flash := rfl
@[simp] theorem State.clearCounters_rnd : (s.clearCounters scope obj).rnd = s.rnd := rfl
@[simp] theorem State.clearCounters_str : (s.clearCounters scope obj).str = s.str := rfl
@[simp] theorem State.clearCounters_sds : (s.clearCounters scope obj).sds = s.sds := rfl
@[simp] theorem State.clearCounters_frm : (s.clearCounters scope obj).frm = s.frm := rfl
@[simp] theorem State.clearCounters_whl : (s.clearCounters scope obj).whl = s.whl := rfl
@[simp] theorem State.clearCounters_hrp : (s.clearCounters scope obj).hrp = s.hrp := rfl
@[simp] theorem State.clearCounters_flp : (s.clearCounters scope obj).flp = s.flp := rfl
@[simp] theorem State.clearCounters_col : (s.clearCounters scope obj).col = s.col := rfl
@[simp] theorem State.clearCounters_cal : (s.clearCounters scope obj).cal = s.cal := rfl
@[simp] theorem State.clearCounters_fab : (s.clearCounters scope obj).fab = s.fab := rfl
@[simp] theorem State.clearCounters_mgp : (s.clearCounters scope obj).mgp = s.mgp := rfl
@[simp] theorem State.clearCounters_prn : (s.clearCounters scope obj).prn = s.prn := rfl
@[simp] theorem State.clearCounters_mbx : (s.clearCounters scope obj).mbx = s.mbx := rfl
@[simp] theorem State.clearCounters_mem : (s.clearCounters scope obj).mem = s.mem := rfl
@[simp] theorem State.clearCounters_rck : (s.clearCounters scope obj).rck = s.rck := rfl
@[simp] theorem State.clearCounters_nrg : (s.clearCounters scope obj).nrg = s.nrg := rfl
@[simp] theorem State.clearCounters_restarts : (s.clearCounters scope obj).restarts = s.restarts := rfl
@[simp] theorem State.clearCounters_fresh : (s.clearCounters scope obj).fresh = s.fresh := rfl
end

section
variable (s : State) (n : Nat) (l : Lane)
@[simp] theorem State.setLane_pending : (s.setLane n l).pending = s.pending := rfl
@[simp] theorem State.setLane_clk : (s.setLane n l).clk = s.clk := rfl
@[simp] theorem State.setLane_pwr : (s.setLane n l).pwr = s.pwr := rfl
@[simp] theorem State.setLane_regs : (s.setLane n l).regs = s.regs := rfl
@[simp] theorem State.setLane_sticky : (s.setLane n l).sticky = s.sticky := rfl
@[simp] theorem State.setLane_sealed : (s.setLane n l).sealed = s.sealed := rfl
@[simp] theorem State.setLane_sealImg : (s.setLane n l).sealImg = s.sealImg := rfl
@[simp] theorem State.setLane_flash : (s.setLane n l).flash = s.flash := rfl
@[simp] theorem State.setLane_rnd : (s.setLane n l).rnd = s.rnd := rfl
@[simp] theorem State.setLane_str : (s.setLane n l).str = s.str := rfl
@[simp] theorem State.setLane_frm : (s.setLane n l).frm = s.frm := rfl
@[simp] theorem State.setLane_whl : (s.setLane n l).whl = s.whl := rfl
@[simp] theorem State.setLane_hrp : (s.setLane n l).hrp = s.hrp := rfl
@[simp] theorem State.setLane_flp : (s.setLane n l).flp = s.flp := rfl
@[simp] theorem State.setLane_col : (s.setLane n l).col = s.col := rfl
@[simp] theorem State.setLane_cal : (s.setLane n l).cal = s.cal := rfl
@[simp] theorem State.setLane_fab : (s.setLane n l).fab = s.fab := rfl
@[simp] theorem State.setLane_mgp : (s.setLane n l).mgp = s.mgp := rfl
@[simp] theorem State.setLane_prn : (s.setLane n l).prn = s.prn := rfl
@[simp] theorem State.setLane_mbx : (s.setLane n l).mbx = s.mbx := rfl
@[simp] theorem State.setLane_mem : (s.setLane n l).mem = s.mem := rfl
@[simp] theorem State.setLane_rck : (s.setLane n l).rck = s.rck := rfl
@[simp] theorem State.setLane_cnt : (s.setLane n l).cnt = s.cnt := rfl
@[simp] theorem State.setLane_nrg : (s.setLane n l).nrg = s.nrg := rfl
@[simp] theorem State.setLane_restarts : (s.setLane n l).restarts = s.restarts := rfl
@[simp] theorem State.setLane_fresh : (s.setLane n l).fresh = s.fresh := rfl
end

section
variable (s : State) (g : Nat) (x : Group)
@[simp] theorem State.setGroup_pending : (s.setGroup g x).pending = s.pending := rfl
@[simp] theorem State.setGroup_clk : (s.setGroup g x).clk = s.clk := rfl
@[simp] theorem State.setGroup_pwr : (s.setGroup g x).pwr = s.pwr := rfl
@[simp] theorem State.setGroup_regs : (s.setGroup g x).regs = s.regs := rfl
@[simp] theorem State.setGroup_sticky : (s.setGroup g x).sticky = s.sticky := rfl
@[simp] theorem State.setGroup_sealed : (s.setGroup g x).sealed = s.sealed := rfl
@[simp] theorem State.setGroup_sealImg : (s.setGroup g x).sealImg = s.sealImg := rfl
@[simp] theorem State.setGroup_flash : (s.setGroup g x).flash = s.flash := rfl
@[simp] theorem State.setGroup_rnd : (s.setGroup g x).rnd = s.rnd := rfl
@[simp] theorem State.setGroup_str : (s.setGroup g x).str = s.str := rfl
@[simp] theorem State.setGroup_frm : (s.setGroup g x).frm = s.frm := rfl
@[simp] theorem State.setGroup_whl : (s.setGroup g x).whl = s.whl := rfl
@[simp] theorem State.setGroup_hrp : (s.setGroup g x).hrp = s.hrp := rfl
@[simp] theorem State.setGroup_flp : (s.setGroup g x).flp = s.flp := rfl
@[simp] theorem State.setGroup_col : (s.setGroup g x).col = s.col := rfl
@[simp] theorem State.setGroup_cal : (s.setGroup g x).cal = s.cal := rfl
@[simp] theorem State.setGroup_fab : (s.setGroup g x).fab = s.fab := rfl
@[simp] theorem State.setGroup_mgp : (s.setGroup g x).mgp = s.mgp := rfl
@[simp] theorem State.setGroup_prn : (s.setGroup g x).prn = s.prn := rfl
@[simp] theorem State.setGroup_mbx : (s.setGroup g x).mbx = s.mbx := rfl
@[simp] theorem State.setGroup_mem : (s.setGroup g x).mem = s.mem := rfl
@[simp] theorem State.setGroup_rck : (s.setGroup g x).rck = s.rck := rfl
@[simp] theorem State.setGroup_cnt : (s.setGroup g x).cnt = s.cnt := rfl
@[simp] theorem State.setGroup_nrg : (s.setGroup g x).nrg = s.nrg := rfl
@[simp] theorem State.setGroup_restarts : (s.setGroup g x).restarts = s.restarts := rfl
@[simp] theorem State.setGroup_fresh : (s.setGroup g x).fresh = s.fresh := rfl
end

section
variable (s : State) (n : Nat) (x : RxLane)
@[simp] theorem State.setRx_pending : (s.setRx n x).pending = s.pending := rfl
@[simp] theorem State.setRx_clk : (s.setRx n x).clk = s.clk := rfl
@[simp] theorem State.setRx_pwr : (s.setRx n x).pwr = s.pwr := rfl
@[simp] theorem State.setRx_regs : (s.setRx n x).regs = s.regs := rfl
@[simp] theorem State.setRx_sticky : (s.setRx n x).sticky = s.sticky := rfl
@[simp] theorem State.setRx_sealed : (s.setRx n x).sealed = s.sealed := rfl
@[simp] theorem State.setRx_sealImg : (s.setRx n x).sealImg = s.sealImg := rfl
@[simp] theorem State.setRx_flash : (s.setRx n x).flash = s.flash := rfl
@[simp] theorem State.setRx_rnd : (s.setRx n x).rnd = s.rnd := rfl
@[simp] theorem State.setRx_str : (s.setRx n x).str = s.str := rfl
@[simp] theorem State.setRx_sds : (s.setRx n x).sds = s.sds := rfl
@[simp] theorem State.setRx_whl : (s.setRx n x).whl = s.whl := rfl
@[simp] theorem State.setRx_hrp : (s.setRx n x).hrp = s.hrp := rfl
@[simp] theorem State.setRx_flp : (s.setRx n x).flp = s.flp := rfl
@[simp] theorem State.setRx_col : (s.setRx n x).col = s.col := rfl
@[simp] theorem State.setRx_cal : (s.setRx n x).cal = s.cal := rfl
@[simp] theorem State.setRx_fab : (s.setRx n x).fab = s.fab := rfl
@[simp] theorem State.setRx_mgp : (s.setRx n x).mgp = s.mgp := rfl
@[simp] theorem State.setRx_prn : (s.setRx n x).prn = s.prn := rfl
@[simp] theorem State.setRx_mbx : (s.setRx n x).mbx = s.mbx := rfl
@[simp] theorem State.setRx_mem : (s.setRx n x).mem = s.mem := rfl
@[simp] theorem State.setRx_rck : (s.setRx n x).rck = s.rck := rfl
@[simp] theorem State.setRx_cnt : (s.setRx n x).cnt = s.cnt := rfl
@[simp] theorem State.setRx_nrg : (s.setRx n x).nrg = s.nrg := rfl
@[simp] theorem State.setRx_restarts : (s.setRx n x).restarts = s.restarts := rfl
@[simp] theorem State.setRx_fresh : (s.setRx n x).fresh = s.fresh := rfl
end

section
variable (s : State) (n : Nat) (x : TxLane)
@[simp] theorem State.setTx_pending : (s.setTx n x).pending = s.pending := rfl
@[simp] theorem State.setTx_clk : (s.setTx n x).clk = s.clk := rfl
@[simp] theorem State.setTx_pwr : (s.setTx n x).pwr = s.pwr := rfl
@[simp] theorem State.setTx_regs : (s.setTx n x).regs = s.regs := rfl
@[simp] theorem State.setTx_sticky : (s.setTx n x).sticky = s.sticky := rfl
@[simp] theorem State.setTx_sealed : (s.setTx n x).sealed = s.sealed := rfl
@[simp] theorem State.setTx_sealImg : (s.setTx n x).sealImg = s.sealImg := rfl
@[simp] theorem State.setTx_flash : (s.setTx n x).flash = s.flash := rfl
@[simp] theorem State.setTx_rnd : (s.setTx n x).rnd = s.rnd := rfl
@[simp] theorem State.setTx_str : (s.setTx n x).str = s.str := rfl
@[simp] theorem State.setTx_sds : (s.setTx n x).sds = s.sds := rfl
@[simp] theorem State.setTx_whl : (s.setTx n x).whl = s.whl := rfl
@[simp] theorem State.setTx_hrp : (s.setTx n x).hrp = s.hrp := rfl
@[simp] theorem State.setTx_flp : (s.setTx n x).flp = s.flp := rfl
@[simp] theorem State.setTx_col : (s.setTx n x).col = s.col := rfl
@[simp] theorem State.setTx_cal : (s.setTx n x).cal = s.cal := rfl
@[simp] theorem State.setTx_fab : (s.setTx n x).fab = s.fab := rfl
@[simp] theorem State.setTx_mgp : (s.setTx n x).mgp = s.mgp := rfl
@[simp] theorem State.setTx_prn : (s.setTx n x).prn = s.prn := rfl
@[simp] theorem State.setTx_mbx : (s.setTx n x).mbx = s.mbx := rfl
@[simp] theorem State.setTx_mem : (s.setTx n x).mem = s.mem := rfl
@[simp] theorem State.setTx_rck : (s.setTx n x).rck = s.rck := rfl
@[simp] theorem State.setTx_cnt : (s.setTx n x).cnt = s.cnt := rfl
@[simp] theorem State.setTx_nrg : (s.setTx n x).nrg = s.nrg := rfl
@[simp] theorem State.setTx_restarts : (s.setTx n x).restarts = s.restarts := rfl
@[simp] theorem State.setTx_fresh : (s.setTx n x).fresh = s.fresh := rfl
end

section
variable (s : State) (w : Nat) (x : Wheel)
@[simp] theorem State.setWheel_pending : (s.setWheel w x).pending = s.pending := rfl
@[simp] theorem State.setWheel_clk : (s.setWheel w x).clk = s.clk := rfl
@[simp] theorem State.setWheel_pwr : (s.setWheel w x).pwr = s.pwr := rfl
@[simp] theorem State.setWheel_regs : (s.setWheel w x).regs = s.regs := rfl
@[simp] theorem State.setWheel_sticky : (s.setWheel w x).sticky = s.sticky := rfl
@[simp] theorem State.setWheel_sealed : (s.setWheel w x).sealed = s.sealed := rfl
@[simp] theorem State.setWheel_sealImg : (s.setWheel w x).sealImg = s.sealImg := rfl
@[simp] theorem State.setWheel_flash : (s.setWheel w x).flash = s.flash := rfl
@[simp] theorem State.setWheel_rnd : (s.setWheel w x).rnd = s.rnd := rfl
@[simp] theorem State.setWheel_str : (s.setWheel w x).str = s.str := rfl
@[simp] theorem State.setWheel_sds : (s.setWheel w x).sds = s.sds := rfl
@[simp] theorem State.setWheel_frm : (s.setWheel w x).frm = s.frm := rfl
@[simp] theorem State.setWheel_hrp : (s.setWheel w x).hrp = s.hrp := rfl
@[simp] theorem State.setWheel_flp : (s.setWheel w x).flp = s.flp := rfl
@[simp] theorem State.setWheel_col : (s.setWheel w x).col = s.col := rfl
@[simp] theorem State.setWheel_cal : (s.setWheel w x).cal = s.cal := rfl
@[simp] theorem State.setWheel_fab : (s.setWheel w x).fab = s.fab := rfl
@[simp] theorem State.setWheel_mgp : (s.setWheel w x).mgp = s.mgp := rfl
@[simp] theorem State.setWheel_prn : (s.setWheel w x).prn = s.prn := rfl
@[simp] theorem State.setWheel_mbx : (s.setWheel w x).mbx = s.mbx := rfl
@[simp] theorem State.setWheel_mem : (s.setWheel w x).mem = s.mem := rfl
@[simp] theorem State.setWheel_rck : (s.setWheel w x).rck = s.rck := rfl
@[simp] theorem State.setWheel_cnt : (s.setWheel w x).cnt = s.cnt := rfl
@[simp] theorem State.setWheel_nrg : (s.setWheel w x).nrg = s.nrg := rfl
@[simp] theorem State.setWheel_restarts : (s.setWheel w x).restarts = s.restarts := rfl
@[simp] theorem State.setWheel_fresh : (s.setWheel w x).fresh = s.fresh := rfl
end

section
variable (s : State) (p : Nat) (x : Pair)
@[simp] theorem State.setPair_pending : (s.setPair p x).pending = s.pending := rfl
@[simp] theorem State.setPair_clk : (s.setPair p x).clk = s.clk := rfl
@[simp] theorem State.setPair_pwr : (s.setPair p x).pwr = s.pwr := rfl
@[simp] theorem State.setPair_regs : (s.setPair p x).regs = s.regs := rfl
@[simp] theorem State.setPair_sticky : (s.setPair p x).sticky = s.sticky := rfl
@[simp] theorem State.setPair_sealed : (s.setPair p x).sealed = s.sealed := rfl
@[simp] theorem State.setPair_sealImg : (s.setPair p x).sealImg = s.sealImg := rfl
@[simp] theorem State.setPair_flash : (s.setPair p x).flash = s.flash := rfl
@[simp] theorem State.setPair_rnd : (s.setPair p x).rnd = s.rnd := rfl
@[simp] theorem State.setPair_str : (s.setPair p x).str = s.str := rfl
@[simp] theorem State.setPair_sds : (s.setPair p x).sds = s.sds := rfl
@[simp] theorem State.setPair_frm : (s.setPair p x).frm = s.frm := rfl
@[simp] theorem State.setPair_whl : (s.setPair p x).whl = s.whl := rfl
@[simp] theorem State.setPair_hrp : (s.setPair p x).hrp = s.hrp := rfl
@[simp] theorem State.setPair_flp : (s.setPair p x).flp = s.flp := rfl
@[simp] theorem State.setPair_cal : (s.setPair p x).cal = s.cal := rfl
@[simp] theorem State.setPair_fab : (s.setPair p x).fab = s.fab := rfl
@[simp] theorem State.setPair_mgp : (s.setPair p x).mgp = s.mgp := rfl
@[simp] theorem State.setPair_prn : (s.setPair p x).prn = s.prn := rfl
@[simp] theorem State.setPair_mbx : (s.setPair p x).mbx = s.mbx := rfl
@[simp] theorem State.setPair_mem : (s.setPair p x).mem = s.mem := rfl
@[simp] theorem State.setPair_rck : (s.setPair p x).rck = s.rck := rfl
@[simp] theorem State.setPair_cnt : (s.setPair p x).cnt = s.cnt := rfl
@[simp] theorem State.setPair_nrg : (s.setPair p x).nrg = s.nrg := rfl
@[simp] theorem State.setPair_restarts : (s.setPair p x).restarts = s.restarts := rfl
@[simp] theorem State.setPair_fresh : (s.setPair p x).fresh = s.fresh := rfl
end

section
variable (s : State) (t : Nat) (x : Stack)
@[simp] theorem State.setStack_pending : (s.setStack t x).pending = s.pending := rfl
@[simp] theorem State.setStack_clk : (s.setStack t x).clk = s.clk := rfl
@[simp] theorem State.setStack_pwr : (s.setStack t x).pwr = s.pwr := rfl
@[simp] theorem State.setStack_regs : (s.setStack t x).regs = s.regs := rfl
@[simp] theorem State.setStack_sticky : (s.setStack t x).sticky = s.sticky := rfl
@[simp] theorem State.setStack_sealed : (s.setStack t x).sealed = s.sealed := rfl
@[simp] theorem State.setStack_sealImg : (s.setStack t x).sealImg = s.sealImg := rfl
@[simp] theorem State.setStack_flash : (s.setStack t x).flash = s.flash := rfl
@[simp] theorem State.setStack_rnd : (s.setStack t x).rnd = s.rnd := rfl
@[simp] theorem State.setStack_str : (s.setStack t x).str = s.str := rfl
@[simp] theorem State.setStack_sds : (s.setStack t x).sds = s.sds := rfl
@[simp] theorem State.setStack_frm : (s.setStack t x).frm = s.frm := rfl
@[simp] theorem State.setStack_whl : (s.setStack t x).whl = s.whl := rfl
@[simp] theorem State.setStack_hrp : (s.setStack t x).hrp = s.hrp := rfl
@[simp] theorem State.setStack_flp : (s.setStack t x).flp = s.flp := rfl
@[simp] theorem State.setStack_cal : (s.setStack t x).cal = s.cal := rfl
@[simp] theorem State.setStack_fab : (s.setStack t x).fab = s.fab := rfl
@[simp] theorem State.setStack_mgp : (s.setStack t x).mgp = s.mgp := rfl
@[simp] theorem State.setStack_prn : (s.setStack t x).prn = s.prn := rfl
@[simp] theorem State.setStack_mbx : (s.setStack t x).mbx = s.mbx := rfl
@[simp] theorem State.setStack_mem : (s.setStack t x).mem = s.mem := rfl
@[simp] theorem State.setStack_rck : (s.setStack t x).rck = s.rck := rfl
@[simp] theorem State.setStack_cnt : (s.setStack t x).cnt = s.cnt := rfl
@[simp] theorem State.setStack_nrg : (s.setStack t x).nrg = s.nrg := rfl
@[simp] theorem State.setStack_restarts : (s.setStack t x).restarts = s.restarts := rfl
@[simp] theorem State.setStack_fresh : (s.setStack t x).fresh = s.fresh := rfl
end

section
variable (s : State) (p : Nat) (x : Port)
@[simp] theorem State.setPort_pending : (s.setPort p x).pending = s.pending := rfl
@[simp] theorem State.setPort_clk : (s.setPort p x).clk = s.clk := rfl
@[simp] theorem State.setPort_pwr : (s.setPort p x).pwr = s.pwr := rfl
@[simp] theorem State.setPort_regs : (s.setPort p x).regs = s.regs := rfl
@[simp] theorem State.setPort_sticky : (s.setPort p x).sticky = s.sticky := rfl
@[simp] theorem State.setPort_sealed : (s.setPort p x).sealed = s.sealed := rfl
@[simp] theorem State.setPort_sealImg : (s.setPort p x).sealImg = s.sealImg := rfl
@[simp] theorem State.setPort_flash : (s.setPort p x).flash = s.flash := rfl
@[simp] theorem State.setPort_rnd : (s.setPort p x).rnd = s.rnd := rfl
@[simp] theorem State.setPort_str : (s.setPort p x).str = s.str := rfl
@[simp] theorem State.setPort_sds : (s.setPort p x).sds = s.sds := rfl
@[simp] theorem State.setPort_frm : (s.setPort p x).frm = s.frm := rfl
@[simp] theorem State.setPort_whl : (s.setPort p x).whl = s.whl := rfl
@[simp] theorem State.setPort_hrp : (s.setPort p x).hrp = s.hrp := rfl
@[simp] theorem State.setPort_flp : (s.setPort p x).flp = s.flp := rfl
@[simp] theorem State.setPort_col : (s.setPort p x).col = s.col := rfl
@[simp] theorem State.setPort_cal : (s.setPort p x).cal = s.cal := rfl
@[simp] theorem State.setPort_fab : (s.setPort p x).fab = s.fab := rfl
@[simp] theorem State.setPort_prn : (s.setPort p x).prn = s.prn := rfl
@[simp] theorem State.setPort_mbx : (s.setPort p x).mbx = s.mbx := rfl
@[simp] theorem State.setPort_mem : (s.setPort p x).mem = s.mem := rfl
@[simp] theorem State.setPort_rck : (s.setPort p x).rck = s.rck := rfl
@[simp] theorem State.setPort_cnt : (s.setPort p x).cnt = s.cnt := rfl
@[simp] theorem State.setPort_nrg : (s.setPort p x).nrg = s.nrg := rfl
@[simp] theorem State.setPort_restarts : (s.setPort p x).restarts = s.restarts := rfl
@[simp] theorem State.setPort_fresh : (s.setPort p x).fresh = s.fresh := rfl
end

section
variable (s : State) (q : Nat) (x : Qp)
@[simp] theorem State.setQp_pending : (s.setQp q x).pending = s.pending := rfl
@[simp] theorem State.setQp_clk : (s.setQp q x).clk = s.clk := rfl
@[simp] theorem State.setQp_pwr : (s.setQp q x).pwr = s.pwr := rfl
@[simp] theorem State.setQp_regs : (s.setQp q x).regs = s.regs := rfl
@[simp] theorem State.setQp_sticky : (s.setQp q x).sticky = s.sticky := rfl
@[simp] theorem State.setQp_sealed : (s.setQp q x).sealed = s.sealed := rfl
@[simp] theorem State.setQp_sealImg : (s.setQp q x).sealImg = s.sealImg := rfl
@[simp] theorem State.setQp_flash : (s.setQp q x).flash = s.flash := rfl
@[simp] theorem State.setQp_rnd : (s.setQp q x).rnd = s.rnd := rfl
@[simp] theorem State.setQp_str : (s.setQp q x).str = s.str := rfl
@[simp] theorem State.setQp_sds : (s.setQp q x).sds = s.sds := rfl
@[simp] theorem State.setQp_frm : (s.setQp q x).frm = s.frm := rfl
@[simp] theorem State.setQp_whl : (s.setQp q x).whl = s.whl := rfl
@[simp] theorem State.setQp_hrp : (s.setQp q x).hrp = s.hrp := rfl
@[simp] theorem State.setQp_flp : (s.setQp q x).flp = s.flp := rfl
@[simp] theorem State.setQp_col : (s.setQp q x).col = s.col := rfl
@[simp] theorem State.setQp_cal : (s.setQp q x).cal = s.cal := rfl
@[simp] theorem State.setQp_fab : (s.setQp q x).fab = s.fab := rfl
@[simp] theorem State.setQp_prn : (s.setQp q x).prn = s.prn := rfl
@[simp] theorem State.setQp_mbx : (s.setQp q x).mbx = s.mbx := rfl
@[simp] theorem State.setQp_mem : (s.setQp q x).mem = s.mem := rfl
@[simp] theorem State.setQp_rck : (s.setQp q x).rck = s.rck := rfl
@[simp] theorem State.setQp_cnt : (s.setQp q x).cnt = s.cnt := rfl
@[simp] theorem State.setQp_nrg : (s.setQp q x).nrg = s.nrg := rfl
@[simp] theorem State.setQp_restarts : (s.setQp q x).restarts = s.restarts := rfl
@[simp] theorem State.setQp_fresh : (s.setQp q x).fresh = s.fresh := rfl
end

section
variable (s : State) (r : Nat) (x : Ring)
@[simp] theorem State.setRing_pending : (s.setRing r x).pending = s.pending := rfl
@[simp] theorem State.setRing_clk : (s.setRing r x).clk = s.clk := rfl
@[simp] theorem State.setRing_pwr : (s.setRing r x).pwr = s.pwr := rfl
@[simp] theorem State.setRing_regs : (s.setRing r x).regs = s.regs := rfl
@[simp] theorem State.setRing_sticky : (s.setRing r x).sticky = s.sticky := rfl
@[simp] theorem State.setRing_sealed : (s.setRing r x).sealed = s.sealed := rfl
@[simp] theorem State.setRing_sealImg : (s.setRing r x).sealImg = s.sealImg := rfl
@[simp] theorem State.setRing_flash : (s.setRing r x).flash = s.flash := rfl
@[simp] theorem State.setRing_rnd : (s.setRing r x).rnd = s.rnd := rfl
@[simp] theorem State.setRing_str : (s.setRing r x).str = s.str := rfl
@[simp] theorem State.setRing_sds : (s.setRing r x).sds = s.sds := rfl
@[simp] theorem State.setRing_frm : (s.setRing r x).frm = s.frm := rfl
@[simp] theorem State.setRing_whl : (s.setRing r x).whl = s.whl := rfl
@[simp] theorem State.setRing_hrp : (s.setRing r x).hrp = s.hrp := rfl
@[simp] theorem State.setRing_flp : (s.setRing r x).flp = s.flp := rfl
@[simp] theorem State.setRing_col : (s.setRing r x).col = s.col := rfl
@[simp] theorem State.setRing_cal : (s.setRing r x).cal = s.cal := rfl
@[simp] theorem State.setRing_fab : (s.setRing r x).fab = s.fab := rfl
@[simp] theorem State.setRing_prn : (s.setRing r x).prn = s.prn := rfl
@[simp] theorem State.setRing_mbx : (s.setRing r x).mbx = s.mbx := rfl
@[simp] theorem State.setRing_mem : (s.setRing r x).mem = s.mem := rfl
@[simp] theorem State.setRing_rck : (s.setRing r x).rck = s.rck := rfl
@[simp] theorem State.setRing_cnt : (s.setRing r x).cnt = s.cnt := rfl
@[simp] theorem State.setRing_nrg : (s.setRing r x).nrg = s.nrg := rfl
@[simp] theorem State.setRing_restarts : (s.setRing r x).restarts = s.restarts := rfl
@[simp] theorem State.setRing_fresh : (s.setRing r x).fresh = s.fresh := rfl
end

section
variable (s : State) (i : Nat) (x : Src)
@[simp] theorem State.setSrc_pending : (s.setSrc i x).pending = s.pending := rfl
@[simp] theorem State.setSrc_clk : (s.setSrc i x).clk = s.clk := rfl
@[simp] theorem State.setSrc_pwr : (s.setSrc i x).pwr = s.pwr := rfl
@[simp] theorem State.setSrc_regs : (s.setSrc i x).regs = s.regs := rfl
@[simp] theorem State.setSrc_sticky : (s.setSrc i x).sticky = s.sticky := rfl
@[simp] theorem State.setSrc_sealed : (s.setSrc i x).sealed = s.sealed := rfl
@[simp] theorem State.setSrc_sealImg : (s.setSrc i x).sealImg = s.sealImg := rfl
@[simp] theorem State.setSrc_flash : (s.setSrc i x).flash = s.flash := rfl
@[simp] theorem State.setSrc_rnd : (s.setSrc i x).rnd = s.rnd := rfl
@[simp] theorem State.setSrc_sds : (s.setSrc i x).sds = s.sds := rfl
@[simp] theorem State.setSrc_frm : (s.setSrc i x).frm = s.frm := rfl
@[simp] theorem State.setSrc_whl : (s.setSrc i x).whl = s.whl := rfl
@[simp] theorem State.setSrc_hrp : (s.setSrc i x).hrp = s.hrp := rfl
@[simp] theorem State.setSrc_flp : (s.setSrc i x).flp = s.flp := rfl
@[simp] theorem State.setSrc_col : (s.setSrc i x).col = s.col := rfl
@[simp] theorem State.setSrc_cal : (s.setSrc i x).cal = s.cal := rfl
@[simp] theorem State.setSrc_fab : (s.setSrc i x).fab = s.fab := rfl
@[simp] theorem State.setSrc_mgp : (s.setSrc i x).mgp = s.mgp := rfl
@[simp] theorem State.setSrc_prn : (s.setSrc i x).prn = s.prn := rfl
@[simp] theorem State.setSrc_mbx : (s.setSrc i x).mbx = s.mbx := rfl
@[simp] theorem State.setSrc_mem : (s.setSrc i x).mem = s.mem := rfl
@[simp] theorem State.setSrc_rck : (s.setSrc i x).rck = s.rck := rfl
@[simp] theorem State.setSrc_cnt : (s.setSrc i x).cnt = s.cnt := rfl
@[simp] theorem State.setSrc_nrg : (s.setSrc i x).nrg = s.nrg := rfl
@[simp] theorem State.setSrc_restarts : (s.setSrc i x).restarts = s.restarts := rfl
@[simp] theorem State.setSrc_fresh : (s.setSrc i x).fresh = s.fresh := rfl
end

section
variable (s : State) (p : Nat) (x : Part)
@[simp] theorem State.setPart_pending : (s.setPart p x).pending = s.pending := rfl
@[simp] theorem State.setPart_clk : (s.setPart p x).clk = s.clk := rfl
@[simp] theorem State.setPart_pwr : (s.setPart p x).pwr = s.pwr := rfl
@[simp] theorem State.setPart_regs : (s.setPart p x).regs = s.regs := rfl
@[simp] theorem State.setPart_sticky : (s.setPart p x).sticky = s.sticky := rfl
@[simp] theorem State.setPart_sealed : (s.setPart p x).sealed = s.sealed := rfl
@[simp] theorem State.setPart_sealImg : (s.setPart p x).sealImg = s.sealImg := rfl
@[simp] theorem State.setPart_flash : (s.setPart p x).flash = s.flash := rfl
@[simp] theorem State.setPart_rnd : (s.setPart p x).rnd = s.rnd := rfl
@[simp] theorem State.setPart_str : (s.setPart p x).str = s.str := rfl
@[simp] theorem State.setPart_sds : (s.setPart p x).sds = s.sds := rfl
@[simp] theorem State.setPart_frm : (s.setPart p x).frm = s.frm := rfl
@[simp] theorem State.setPart_whl : (s.setPart p x).whl = s.whl := rfl
@[simp] theorem State.setPart_hrp : (s.setPart p x).hrp = s.hrp := rfl
@[simp] theorem State.setPart_flp : (s.setPart p x).flp = s.flp := rfl
@[simp] theorem State.setPart_col : (s.setPart p x).col = s.col := rfl
@[simp] theorem State.setPart_cal : (s.setPart p x).cal = s.cal := rfl
@[simp] theorem State.setPart_fab : (s.setPart p x).fab = s.fab := rfl
@[simp] theorem State.setPart_mgp : (s.setPart p x).mgp = s.mgp := rfl
@[simp] theorem State.setPart_mbx : (s.setPart p x).mbx = s.mbx := rfl
@[simp] theorem State.setPart_mem : (s.setPart p x).mem = s.mem := rfl
@[simp] theorem State.setPart_rck : (s.setPart p x).rck = s.rck := rfl
@[simp] theorem State.setPart_cnt : (s.setPart p x).cnt = s.cnt := rfl
@[simp] theorem State.setPart_nrg : (s.setPart p x).nrg = s.nrg := rfl
@[simp] theorem State.setPart_restarts : (s.setPart p x).restarts = s.restarts := rfl
@[simp] theorem State.setPart_fresh : (s.setPart p x).fresh = s.fresh := rfl
end

section
variable (s : State) (c : Nat) (x : Mbx)
@[simp] theorem State.setMbox_pending : (s.setMbox c x).pending = s.pending := rfl
@[simp] theorem State.setMbox_clk : (s.setMbox c x).clk = s.clk := rfl
@[simp] theorem State.setMbox_pwr : (s.setMbox c x).pwr = s.pwr := rfl
@[simp] theorem State.setMbox_regs : (s.setMbox c x).regs = s.regs := rfl
@[simp] theorem State.setMbox_sticky : (s.setMbox c x).sticky = s.sticky := rfl
@[simp] theorem State.setMbox_sealed : (s.setMbox c x).sealed = s.sealed := rfl
@[simp] theorem State.setMbox_sealImg : (s.setMbox c x).sealImg = s.sealImg := rfl
@[simp] theorem State.setMbox_flash : (s.setMbox c x).flash = s.flash := rfl
@[simp] theorem State.setMbox_rnd : (s.setMbox c x).rnd = s.rnd := rfl
@[simp] theorem State.setMbox_str : (s.setMbox c x).str = s.str := rfl
@[simp] theorem State.setMbox_sds : (s.setMbox c x).sds = s.sds := rfl
@[simp] theorem State.setMbox_frm : (s.setMbox c x).frm = s.frm := rfl
@[simp] theorem State.setMbox_whl : (s.setMbox c x).whl = s.whl := rfl
@[simp] theorem State.setMbox_hrp : (s.setMbox c x).hrp = s.hrp := rfl
@[simp] theorem State.setMbox_flp : (s.setMbox c x).flp = s.flp := rfl
@[simp] theorem State.setMbox_col : (s.setMbox c x).col = s.col := rfl
@[simp] theorem State.setMbox_cal : (s.setMbox c x).cal = s.cal := rfl
@[simp] theorem State.setMbox_fab : (s.setMbox c x).fab = s.fab := rfl
@[simp] theorem State.setMbox_mgp : (s.setMbox c x).mgp = s.mgp := rfl
@[simp] theorem State.setMbox_prn : (s.setMbox c x).prn = s.prn := rfl
@[simp] theorem State.setMbox_mem : (s.setMbox c x).mem = s.mem := rfl
@[simp] theorem State.setMbox_rck : (s.setMbox c x).rck = s.rck := rfl
@[simp] theorem State.setMbox_cnt : (s.setMbox c x).cnt = s.cnt := rfl
@[simp] theorem State.setMbox_nrg : (s.setMbox c x).nrg = s.nrg := rfl
@[simp] theorem State.setMbox_restarts : (s.setMbox c x).restarts = s.restarts := rfl
@[simp] theorem State.setMbox_fresh : (s.setMbox c x).fresh = s.fresh := rfl
end

section
variable (s : State) (m : Nat) (x : Whisk)
@[simp] theorem State.setWhisk_pending : (s.setWhisk m x).pending = s.pending := rfl
@[simp] theorem State.setWhisk_clk : (s.setWhisk m x).clk = s.clk := rfl
@[simp] theorem State.setWhisk_pwr : (s.setWhisk m x).pwr = s.pwr := rfl
@[simp] theorem State.setWhisk_regs : (s.setWhisk m x).regs = s.regs := rfl
@[simp] theorem State.setWhisk_sticky : (s.setWhisk m x).sticky = s.sticky := rfl
@[simp] theorem State.setWhisk_sealed : (s.setWhisk m x).sealed = s.sealed := rfl
@[simp] theorem State.setWhisk_sealImg : (s.setWhisk m x).sealImg = s.sealImg := rfl
@[simp] theorem State.setWhisk_flash : (s.setWhisk m x).flash = s.flash := rfl
@[simp] theorem State.setWhisk_rnd : (s.setWhisk m x).rnd = s.rnd := rfl
@[simp] theorem State.setWhisk_str : (s.setWhisk m x).str = s.str := rfl
@[simp] theorem State.setWhisk_sds : (s.setWhisk m x).sds = s.sds := rfl
@[simp] theorem State.setWhisk_frm : (s.setWhisk m x).frm = s.frm := rfl
@[simp] theorem State.setWhisk_whl : (s.setWhisk m x).whl = s.whl := rfl
@[simp] theorem State.setWhisk_hrp : (s.setWhisk m x).hrp = s.hrp := rfl
@[simp] theorem State.setWhisk_flp : (s.setWhisk m x).flp = s.flp := rfl
@[simp] theorem State.setWhisk_col : (s.setWhisk m x).col = s.col := rfl
@[simp] theorem State.setWhisk_cal : (s.setWhisk m x).cal = s.cal := rfl
@[simp] theorem State.setWhisk_fab : (s.setWhisk m x).fab = s.fab := rfl
@[simp] theorem State.setWhisk_mgp : (s.setWhisk m x).mgp = s.mgp := rfl
@[simp] theorem State.setWhisk_prn : (s.setWhisk m x).prn = s.prn := rfl
@[simp] theorem State.setWhisk_mbx : (s.setWhisk m x).mbx = s.mbx := rfl
@[simp] theorem State.setWhisk_mem : (s.setWhisk m x).mem = s.mem := rfl
@[simp] theorem State.setWhisk_cnt : (s.setWhisk m x).cnt = s.cnt := rfl
@[simp] theorem State.setWhisk_nrg : (s.setWhisk m x).nrg = s.nrg := rfl
@[simp] theorem State.setWhisk_restarts : (s.setWhisk m x).restarts = s.restarts := rfl
@[simp] theorem State.setWhisk_fresh : (s.setWhisk m x).fresh = s.fresh := rfl
end

section
variable (s : State) (r : Nat) (x : Dump)
@[simp] theorem State.setDump_pending : (s.setDump r x).pending = s.pending := rfl
@[simp] theorem State.setDump_clk : (s.setDump r x).clk = s.clk := rfl
@[simp] theorem State.setDump_pwr : (s.setDump r x).pwr = s.pwr := rfl
@[simp] theorem State.setDump_regs : (s.setDump r x).regs = s.regs := rfl
@[simp] theorem State.setDump_sticky : (s.setDump r x).sticky = s.sticky := rfl
@[simp] theorem State.setDump_sealed : (s.setDump r x).sealed = s.sealed := rfl
@[simp] theorem State.setDump_sealImg : (s.setDump r x).sealImg = s.sealImg := rfl
@[simp] theorem State.setDump_flash : (s.setDump r x).flash = s.flash := rfl
@[simp] theorem State.setDump_rnd : (s.setDump r x).rnd = s.rnd := rfl
@[simp] theorem State.setDump_str : (s.setDump r x).str = s.str := rfl
@[simp] theorem State.setDump_sds : (s.setDump r x).sds = s.sds := rfl
@[simp] theorem State.setDump_frm : (s.setDump r x).frm = s.frm := rfl
@[simp] theorem State.setDump_whl : (s.setDump r x).whl = s.whl := rfl
@[simp] theorem State.setDump_hrp : (s.setDump r x).hrp = s.hrp := rfl
@[simp] theorem State.setDump_flp : (s.setDump r x).flp = s.flp := rfl
@[simp] theorem State.setDump_col : (s.setDump r x).col = s.col := rfl
@[simp] theorem State.setDump_cal : (s.setDump r x).cal = s.cal := rfl
@[simp] theorem State.setDump_fab : (s.setDump r x).fab = s.fab := rfl
@[simp] theorem State.setDump_mgp : (s.setDump r x).mgp = s.mgp := rfl
@[simp] theorem State.setDump_prn : (s.setDump r x).prn = s.prn := rfl
@[simp] theorem State.setDump_mbx : (s.setDump r x).mbx = s.mbx := rfl
@[simp] theorem State.setDump_mem : (s.setDump r x).mem = s.mem := rfl
@[simp] theorem State.setDump_rck : (s.setDump r x).rck = s.rck := rfl
@[simp] theorem State.setDump_nrg : (s.setDump r x).nrg = s.nrg := rfl
@[simp] theorem State.setDump_restarts : (s.setDump r x).restarts = s.restarts := rfl
@[simp] theorem State.setDump_fresh : (s.setDump r x).fresh = s.fresh := rfl
end

section
variable (s : State) (l : Link) (x : PeerLink)
@[simp] theorem State.setPlink_pending : (s.setPlink l x).pending = s.pending := by unfold State.setPlink; split <;> rfl
@[simp] theorem State.setPlink_clk : (s.setPlink l x).clk = s.clk := by unfold State.setPlink; split <;> rfl
@[simp] theorem State.setPlink_pwr : (s.setPlink l x).pwr = s.pwr := by unfold State.setPlink; split <;> rfl
@[simp] theorem State.setPlink_regs : (s.setPlink l x).regs = s.regs := by unfold State.setPlink; split <;> rfl
@[simp] theorem State.setPlink_sticky : (s.setPlink l x).sticky = s.sticky := by unfold State.setPlink; split <;> rfl
@[simp] theorem State.setPlink_sealed : (s.setPlink l x).sealed = s.sealed := by unfold State.setPlink; split <;> rfl
@[simp] theorem State.setPlink_sealImg : (s.setPlink l x).sealImg = s.sealImg := by unfold State.setPlink; split <;> rfl
@[simp] theorem State.setPlink_flash : (s.setPlink l x).flash = s.flash := by unfold State.setPlink; split <;> rfl
@[simp] theorem State.setPlink_rnd : (s.setPlink l x).rnd = s.rnd := by unfold State.setPlink; split <;> rfl
@[simp] theorem State.setPlink_str : (s.setPlink l x).str = s.str := by unfold State.setPlink; split <;> rfl
@[simp] theorem State.setPlink_sds : (s.setPlink l x).sds = s.sds := by unfold State.setPlink; split <;> rfl
@[simp] theorem State.setPlink_frm : (s.setPlink l x).frm = s.frm := by unfold State.setPlink; split <;> rfl
@[simp] theorem State.setPlink_whl : (s.setPlink l x).whl = s.whl := by unfold State.setPlink; split <;> rfl
@[simp] theorem State.setPlink_hrp : (s.setPlink l x).hrp = s.hrp := by unfold State.setPlink; split <;> rfl
@[simp] theorem State.setPlink_flp : (s.setPlink l x).flp = s.flp := by unfold State.setPlink; split <;> rfl
@[simp] theorem State.setPlink_col : (s.setPlink l x).col = s.col := by unfold State.setPlink; split <;> rfl
@[simp] theorem State.setPlink_cal : (s.setPlink l x).cal = s.cal := by unfold State.setPlink; split <;> rfl
@[simp] theorem State.setPlink_mgp : (s.setPlink l x).mgp = s.mgp := by unfold State.setPlink; split <;> rfl
@[simp] theorem State.setPlink_prn : (s.setPlink l x).prn = s.prn := by unfold State.setPlink; split <;> rfl
@[simp] theorem State.setPlink_mbx : (s.setPlink l x).mbx = s.mbx := by unfold State.setPlink; split <;> rfl
@[simp] theorem State.setPlink_mem : (s.setPlink l x).mem = s.mem := by unfold State.setPlink; split <;> rfl
@[simp] theorem State.setPlink_rck : (s.setPlink l x).rck = s.rck := by unfold State.setPlink; split <;> rfl
@[simp] theorem State.setPlink_cnt : (s.setPlink l x).cnt = s.cnt := by unfold State.setPlink; split <;> rfl
@[simp] theorem State.setPlink_nrg : (s.setPlink l x).nrg = s.nrg := by unfold State.setPlink; split <;> rfl
@[simp] theorem State.setPlink_restarts : (s.setPlink l x).restarts = s.restarts := by unfold State.setPlink; split <;> rfl
@[simp] theorem State.setPlink_fresh : (s.setPlink l x).fresh = s.fresh := by unfold State.setPlink; split <;> rfl
end

section
variable (s : State) (f : LRec → LRec)
@[simp] theorem State.recd_pending : (s.recd f).pending = s.pending := by unfold State.recd; split <;> rfl
@[simp] theorem State.recd_clk : (s.recd f).clk = s.clk := by unfold State.recd; split <;> rfl
@[simp] theorem State.recd_pwr : (s.recd f).pwr = s.pwr := by unfold State.recd; split <;> rfl
@[simp] theorem State.recd_regs : (s.recd f).regs = s.regs := by unfold State.recd; split <;> rfl
@[simp] theorem State.recd_sticky : (s.recd f).sticky = s.sticky := by unfold State.recd; split <;> rfl
@[simp] theorem State.recd_sealed : (s.recd f).sealed = s.sealed := by unfold State.recd; split <;> rfl
@[simp] theorem State.recd_sealImg : (s.recd f).sealImg = s.sealImg := by unfold State.recd; split <;> rfl
@[simp] theorem State.recd_flash : (s.recd f).flash = s.flash := by unfold State.recd; split <;> rfl
@[simp] theorem State.recd_rnd : (s.recd f).rnd = s.rnd := by unfold State.recd; split <;> rfl
@[simp] theorem State.recd_str : (s.recd f).str = s.str := by unfold State.recd; split <;> rfl
@[simp] theorem State.recd_sds : (s.recd f).sds = s.sds := by unfold State.recd; split <;> rfl
@[simp] theorem State.recd_frm : (s.recd f).frm = s.frm := by unfold State.recd; split <;> rfl
@[simp] theorem State.recd_whl : (s.recd f).whl = s.whl := by unfold State.recd; split <;> rfl
@[simp] theorem State.recd_hrp : (s.recd f).hrp = s.hrp := by unfold State.recd; split <;> rfl
@[simp] theorem State.recd_flp : (s.recd f).flp = s.flp := by unfold State.recd; split <;> rfl
@[simp] theorem State.recd_col : (s.recd f).col = s.col := by unfold State.recd; split <;> rfl
@[simp] theorem State.recd_fab : (s.recd f).fab = s.fab := by unfold State.recd; split <;> rfl
@[simp] theorem State.recd_mgp : (s.recd f).mgp = s.mgp := by unfold State.recd; split <;> rfl
@[simp] theorem State.recd_prn : (s.recd f).prn = s.prn := by unfold State.recd; split <;> rfl
@[simp] theorem State.recd_mbx : (s.recd f).mbx = s.mbx := by unfold State.recd; split <;> rfl
@[simp] theorem State.recd_mem : (s.recd f).mem = s.mem := by unfold State.recd; split <;> rfl
@[simp] theorem State.recd_rck : (s.recd f).rck = s.rck := by unfold State.recd; split <;> rfl
@[simp] theorem State.recd_cnt : (s.recd f).cnt = s.cnt := by unfold State.recd; split <;> rfl
@[simp] theorem State.recd_nrg : (s.recd f).nrg = s.nrg := by unfold State.recd; split <;> rfl
@[simp] theorem State.recd_restarts : (s.recd f).restarts = s.restarts := by unfold State.recd; split <;> rfl
@[simp] theorem State.recd_fresh : (s.recd f).fresh = s.fresh := by unfold State.recd; split <;> rfl
end

section
variable (s : State) (kind : Nat) (object : Nat) (tick : Nat) (value : Nat)
@[simp] theorem State.recEvt_pending : (s.recEvt kind object tick value).pending = s.pending := State.recd_pending _ _
@[simp] theorem State.recEvt_clk : (s.recEvt kind object tick value).clk = s.clk := State.recd_clk _ _
@[simp] theorem State.recEvt_pwr : (s.recEvt kind object tick value).pwr = s.pwr := State.recd_pwr _ _
@[simp] theorem State.recEvt_regs : (s.recEvt kind object tick value).regs = s.regs := State.recd_regs _ _
@[simp] theorem State.recEvt_sticky : (s.recEvt kind object tick value).sticky = s.sticky := State.recd_sticky _ _
@[simp] theorem State.recEvt_sealed : (s.recEvt kind object tick value).sealed = s.sealed := State.recd_sealed _ _
@[simp] theorem State.recEvt_sealImg : (s.recEvt kind object tick value).sealImg = s.sealImg := State.recd_sealImg _ _
@[simp] theorem State.recEvt_flash : (s.recEvt kind object tick value).flash = s.flash := State.recd_flash _ _
@[simp] theorem State.recEvt_rnd : (s.recEvt kind object tick value).rnd = s.rnd := State.recd_rnd _ _
@[simp] theorem State.recEvt_str : (s.recEvt kind object tick value).str = s.str := State.recd_str _ _
@[simp] theorem State.recEvt_sds : (s.recEvt kind object tick value).sds = s.sds := State.recd_sds _ _
@[simp] theorem State.recEvt_frm : (s.recEvt kind object tick value).frm = s.frm := State.recd_frm _ _
@[simp] theorem State.recEvt_whl : (s.recEvt kind object tick value).whl = s.whl := State.recd_whl _ _
@[simp] theorem State.recEvt_hrp : (s.recEvt kind object tick value).hrp = s.hrp := State.recd_hrp _ _
@[simp] theorem State.recEvt_flp : (s.recEvt kind object tick value).flp = s.flp := State.recd_flp _ _
@[simp] theorem State.recEvt_col : (s.recEvt kind object tick value).col = s.col := State.recd_col _ _
@[simp] theorem State.recEvt_fab : (s.recEvt kind object tick value).fab = s.fab := State.recd_fab _ _
@[simp] theorem State.recEvt_mgp : (s.recEvt kind object tick value).mgp = s.mgp := State.recd_mgp _ _
@[simp] theorem State.recEvt_prn : (s.recEvt kind object tick value).prn = s.prn := State.recd_prn _ _
@[simp] theorem State.recEvt_mbx : (s.recEvt kind object tick value).mbx = s.mbx := State.recd_mbx _ _
@[simp] theorem State.recEvt_mem : (s.recEvt kind object tick value).mem = s.mem := State.recd_mem _ _
@[simp] theorem State.recEvt_rck : (s.recEvt kind object tick value).rck = s.rck := State.recd_rck _ _
@[simp] theorem State.recEvt_cnt : (s.recEvt kind object tick value).cnt = s.cnt := State.recd_cnt _ _
@[simp] theorem State.recEvt_nrg : (s.recEvt kind object tick value).nrg = s.nrg := State.recd_nrg _ _
@[simp] theorem State.recEvt_restarts : (s.recEvt kind object tick value).restarts = s.restarts := State.recd_restarts _ _
@[simp] theorem State.recEvt_fresh : (s.recEvt kind object tick value).fresh = s.fresh := State.recd_fresh _ _
end

section
variable (s : State) (r : Nat) (op : RdmaOp)
@[simp] theorem State.issue_pending : (s.issue r op).pending = s.pending := by simp [State.issue]
@[simp] theorem State.issue_clk : (s.issue r op).clk = s.clk := by simp [State.issue]
@[simp] theorem State.issue_pwr : (s.issue r op).pwr = s.pwr := by simp [State.issue]
@[simp] theorem State.issue_regs : (s.issue r op).regs = s.regs := by simp [State.issue]
@[simp] theorem State.issue_sticky : (s.issue r op).sticky = s.sticky := by simp [State.issue]
@[simp] theorem State.issue_sealed : (s.issue r op).sealed = s.sealed := by simp [State.issue]
@[simp] theorem State.issue_sealImg : (s.issue r op).sealImg = s.sealImg := by simp [State.issue]
@[simp] theorem State.issue_flash : (s.issue r op).flash = s.flash := by simp [State.issue]
@[simp] theorem State.issue_rnd : (s.issue r op).rnd = s.rnd := by simp [State.issue]
@[simp] theorem State.issue_str : (s.issue r op).str = s.str := by simp [State.issue]
@[simp] theorem State.issue_sds : (s.issue r op).sds = s.sds := by simp [State.issue]
@[simp] theorem State.issue_frm : (s.issue r op).frm = s.frm := by simp [State.issue]
@[simp] theorem State.issue_whl : (s.issue r op).whl = s.whl := by simp [State.issue]
@[simp] theorem State.issue_hrp : (s.issue r op).hrp = s.hrp := by simp [State.issue]
@[simp] theorem State.issue_flp : (s.issue r op).flp = s.flp := by simp [State.issue]
@[simp] theorem State.issue_col : (s.issue r op).col = s.col := by simp [State.issue]
@[simp] theorem State.issue_cal : (s.issue r op).cal = s.cal := by simp [State.issue]
@[simp] theorem State.issue_fab : (s.issue r op).fab = s.fab := by simp [State.issue]
@[simp] theorem State.issue_prn : (s.issue r op).prn = s.prn := by simp [State.issue]
@[simp] theorem State.issue_mbx : (s.issue r op).mbx = s.mbx := by simp [State.issue]
@[simp] theorem State.issue_mem : (s.issue r op).mem = s.mem := by simp [State.issue]
@[simp] theorem State.issue_rck : (s.issue r op).rck = s.rck := by simp [State.issue]
@[simp] theorem State.issue_nrg : (s.issue r op).nrg = s.nrg := by simp [State.issue]
@[simp] theorem State.issue_restarts : (s.issue r op).restarts = s.restarts := by simp [State.issue]
@[simp] theorem State.issue_fresh : (s.issue r op).fresh = s.fresh := by simp [State.issue]
end

section
variable (s : State) (r : Nat) (e : EvtEntry)
@[simp] theorem State.putEvent_pending : (s.putEvent r e).pending = s.pending := by simp [State.putEvent, apply_ite State.pending]
@[simp] theorem State.putEvent_clk : (s.putEvent r e).clk = s.clk := by simp [State.putEvent, apply_ite State.clk]
@[simp] theorem State.putEvent_pwr : (s.putEvent r e).pwr = s.pwr := by simp [State.putEvent, apply_ite State.pwr]
@[simp] theorem State.putEvent_regs : (s.putEvent r e).regs = s.regs := by simp [State.putEvent, apply_ite State.regs]
@[simp] theorem State.putEvent_sticky : (s.putEvent r e).sticky = s.sticky := by simp [State.putEvent, apply_ite State.sticky]
@[simp] theorem State.putEvent_sealed : (s.putEvent r e).sealed = s.sealed := by simp [State.putEvent, apply_ite State.sealed]
@[simp] theorem State.putEvent_sealImg : (s.putEvent r e).sealImg = s.sealImg := by simp [State.putEvent, apply_ite State.sealImg]
@[simp] theorem State.putEvent_flash : (s.putEvent r e).flash = s.flash := by simp [State.putEvent, apply_ite State.flash]
@[simp] theorem State.putEvent_rnd : (s.putEvent r e).rnd = s.rnd := by simp [State.putEvent, apply_ite State.rnd]
@[simp] theorem State.putEvent_str : (s.putEvent r e).str = s.str := by simp [State.putEvent, apply_ite State.str]
@[simp] theorem State.putEvent_sds : (s.putEvent r e).sds = s.sds := by simp [State.putEvent, apply_ite State.sds]
@[simp] theorem State.putEvent_frm : (s.putEvent r e).frm = s.frm := by simp [State.putEvent, apply_ite State.frm]
@[simp] theorem State.putEvent_whl : (s.putEvent r e).whl = s.whl := by simp [State.putEvent, apply_ite State.whl]
@[simp] theorem State.putEvent_hrp : (s.putEvent r e).hrp = s.hrp := by simp [State.putEvent, apply_ite State.hrp]
@[simp] theorem State.putEvent_flp : (s.putEvent r e).flp = s.flp := by simp [State.putEvent, apply_ite State.flp]
@[simp] theorem State.putEvent_col : (s.putEvent r e).col = s.col := by simp [State.putEvent, apply_ite State.col]
@[simp] theorem State.putEvent_fab : (s.putEvent r e).fab = s.fab := by simp [State.putEvent, apply_ite State.fab]
@[simp] theorem State.putEvent_prn : (s.putEvent r e).prn = s.prn := by simp [State.putEvent, apply_ite State.prn]
@[simp] theorem State.putEvent_mbx : (s.putEvent r e).mbx = s.mbx := by simp [State.putEvent, apply_ite State.mbx]
@[simp] theorem State.putEvent_mem : (s.putEvent r e).mem = s.mem := by simp [State.putEvent, apply_ite State.mem]
@[simp] theorem State.putEvent_rck : (s.putEvent r e).rck = s.rck := by simp [State.putEvent, apply_ite State.rck]
@[simp] theorem State.putEvent_nrg : (s.putEvent r e).nrg = s.nrg := by simp [State.putEvent, apply_ite State.nrg]
@[simp] theorem State.putEvent_restarts : (s.putEvent r e).restarts = s.restarts := by simp [State.putEvent, apply_ite State.restarts]
@[simp] theorem State.putEvent_fresh : (s.putEvent r e).fresh = s.fresh := by simp [State.putEvent, apply_ite State.fresh]
end

section
variable (s : State) (ps : List Nat) (e : EvtEntry)
@[simp] theorem State.deliver_pending : (s.deliver ps e).pending = s.pending := foldl_keep (p := State.pending) (fun s a => by split <;> simp) _ _
@[simp] theorem State.deliver_clk : (s.deliver ps e).clk = s.clk := foldl_keep (p := State.clk) (fun s a => by split <;> simp) _ _
@[simp] theorem State.deliver_pwr : (s.deliver ps e).pwr = s.pwr := foldl_keep (p := State.pwr) (fun s a => by split <;> simp) _ _
@[simp] theorem State.deliver_regs : (s.deliver ps e).regs = s.regs := foldl_keep (p := State.regs) (fun s a => by split <;> simp) _ _
@[simp] theorem State.deliver_sticky : (s.deliver ps e).sticky = s.sticky := foldl_keep (p := State.sticky) (fun s a => by split <;> simp) _ _
@[simp] theorem State.deliver_sealed : (s.deliver ps e).sealed = s.sealed := foldl_keep (p := State.sealed) (fun s a => by split <;> simp) _ _
@[simp] theorem State.deliver_sealImg : (s.deliver ps e).sealImg = s.sealImg := foldl_keep (p := State.sealImg) (fun s a => by split <;> simp) _ _
@[simp] theorem State.deliver_flash : (s.deliver ps e).flash = s.flash := foldl_keep (p := State.flash) (fun s a => by split <;> simp) _ _
@[simp] theorem State.deliver_rnd : (s.deliver ps e).rnd = s.rnd := foldl_keep (p := State.rnd) (fun s a => by split <;> simp) _ _
@[simp] theorem State.deliver_str : (s.deliver ps e).str = s.str := foldl_keep (p := State.str) (fun s a => by split <;> simp) _ _
@[simp] theorem State.deliver_sds : (s.deliver ps e).sds = s.sds := foldl_keep (p := State.sds) (fun s a => by split <;> simp) _ _
@[simp] theorem State.deliver_frm : (s.deliver ps e).frm = s.frm := foldl_keep (p := State.frm) (fun s a => by split <;> simp) _ _
@[simp] theorem State.deliver_whl : (s.deliver ps e).whl = s.whl := foldl_keep (p := State.whl) (fun s a => by split <;> simp) _ _
@[simp] theorem State.deliver_hrp : (s.deliver ps e).hrp = s.hrp := foldl_keep (p := State.hrp) (fun s a => by split <;> simp) _ _
@[simp] theorem State.deliver_flp : (s.deliver ps e).flp = s.flp := foldl_keep (p := State.flp) (fun s a => by split <;> simp) _ _
@[simp] theorem State.deliver_col : (s.deliver ps e).col = s.col := foldl_keep (p := State.col) (fun s a => by split <;> simp) _ _
@[simp] theorem State.deliver_fab : (s.deliver ps e).fab = s.fab := foldl_keep (p := State.fab) (fun s a => by split <;> simp) _ _
@[simp] theorem State.deliver_prn : (s.deliver ps e).prn = s.prn := foldl_keep (p := State.prn) (fun s a => by split <;> simp) _ _
@[simp] theorem State.deliver_mbx : (s.deliver ps e).mbx = s.mbx := foldl_keep (p := State.mbx) (fun s a => by split <;> simp) _ _
@[simp] theorem State.deliver_mem : (s.deliver ps e).mem = s.mem := foldl_keep (p := State.mem) (fun s a => by split <;> simp) _ _
@[simp] theorem State.deliver_rck : (s.deliver ps e).rck = s.rck := foldl_keep (p := State.rck) (fun s a => by split <;> simp) _ _
@[simp] theorem State.deliver_nrg : (s.deliver ps e).nrg = s.nrg := foldl_keep (p := State.nrg) (fun s a => by split <;> simp) _ _
@[simp] theorem State.deliver_restarts : (s.deliver ps e).restarts = s.restarts := foldl_keep (p := State.restarts) (fun s a => by split <;> simp) _ _
@[simp] theorem State.deliver_fresh : (s.deliver ps e).fresh = s.fresh := foldl_keep (p := State.fresh) (fun s a => by split <;> simp) _ _
end

section
variable (s : State) (ps : List Nat) (e : EvtEntry)
@[simp] theorem State.holdEvent_pending : (s.holdEvent ps e).pending = s.pending := by
  unfold State.holdEvent
  split
  · rfl
  · split
    · exact foldl_keep (p := State.pending) (fun s a => by split <;> simp) _ _
    · rfl
@[simp] theorem State.holdEvent_clk : (s.holdEvent ps e).clk = s.clk := by
  unfold State.holdEvent
  split
  · rfl
  · split
    · exact foldl_keep (p := State.clk) (fun s a => by split <;> simp) _ _
    · rfl
@[simp] theorem State.holdEvent_pwr : (s.holdEvent ps e).pwr = s.pwr := by
  unfold State.holdEvent
  split
  · rfl
  · split
    · exact foldl_keep (p := State.pwr) (fun s a => by split <;> simp) _ _
    · rfl
@[simp] theorem State.holdEvent_regs : (s.holdEvent ps e).regs = s.regs := by
  unfold State.holdEvent
  split
  · rfl
  · split
    · exact foldl_keep (p := State.regs) (fun s a => by split <;> simp) _ _
    · rfl
@[simp] theorem State.holdEvent_sticky : (s.holdEvent ps e).sticky = s.sticky := by
  unfold State.holdEvent
  split
  · rfl
  · split
    · exact foldl_keep (p := State.sticky) (fun s a => by split <;> simp) _ _
    · rfl
@[simp] theorem State.holdEvent_sealed : (s.holdEvent ps e).sealed = s.sealed := by
  unfold State.holdEvent
  split
  · rfl
  · split
    · exact foldl_keep (p := State.sealed) (fun s a => by split <;> simp) _ _
    · rfl
@[simp] theorem State.holdEvent_sealImg : (s.holdEvent ps e).sealImg = s.sealImg := by
  unfold State.holdEvent
  split
  · rfl
  · split
    · exact foldl_keep (p := State.sealImg) (fun s a => by split <;> simp) _ _
    · rfl
@[simp] theorem State.holdEvent_flash : (s.holdEvent ps e).flash = s.flash := by
  unfold State.holdEvent
  split
  · rfl
  · split
    · exact foldl_keep (p := State.flash) (fun s a => by split <;> simp) _ _
    · rfl
@[simp] theorem State.holdEvent_rnd : (s.holdEvent ps e).rnd = s.rnd := by
  unfold State.holdEvent
  split
  · rfl
  · split
    · exact foldl_keep (p := State.rnd) (fun s a => by split <;> simp) _ _
    · rfl
@[simp] theorem State.holdEvent_str : (s.holdEvent ps e).str = s.str := by
  unfold State.holdEvent
  split
  · rfl
  · split
    · exact foldl_keep (p := State.str) (fun s a => by split <;> simp) _ _
    · rfl
@[simp] theorem State.holdEvent_sds : (s.holdEvent ps e).sds = s.sds := by
  unfold State.holdEvent
  split
  · rfl
  · split
    · exact foldl_keep (p := State.sds) (fun s a => by split <;> simp) _ _
    · rfl
@[simp] theorem State.holdEvent_frm : (s.holdEvent ps e).frm = s.frm := by
  unfold State.holdEvent
  split
  · rfl
  · split
    · exact foldl_keep (p := State.frm) (fun s a => by split <;> simp) _ _
    · rfl
@[simp] theorem State.holdEvent_whl : (s.holdEvent ps e).whl = s.whl := by
  unfold State.holdEvent
  split
  · rfl
  · split
    · exact foldl_keep (p := State.whl) (fun s a => by split <;> simp) _ _
    · rfl
@[simp] theorem State.holdEvent_hrp : (s.holdEvent ps e).hrp = s.hrp := by
  unfold State.holdEvent
  split
  · rfl
  · split
    · exact foldl_keep (p := State.hrp) (fun s a => by split <;> simp) _ _
    · rfl
@[simp] theorem State.holdEvent_flp : (s.holdEvent ps e).flp = s.flp := by
  unfold State.holdEvent
  split
  · rfl
  · split
    · exact foldl_keep (p := State.flp) (fun s a => by split <;> simp) _ _
    · rfl
@[simp] theorem State.holdEvent_col : (s.holdEvent ps e).col = s.col := by
  unfold State.holdEvent
  split
  · rfl
  · split
    · exact foldl_keep (p := State.col) (fun s a => by split <;> simp) _ _
    · rfl
@[simp] theorem State.holdEvent_cal : (s.holdEvent ps e).cal = s.cal := by
  unfold State.holdEvent
  split
  · rfl
  · split
    · exact foldl_keep (p := State.cal) (fun s a => by split <;> simp) _ _
    · rfl
@[simp] theorem State.holdEvent_fab : (s.holdEvent ps e).fab = s.fab := by
  unfold State.holdEvent
  split
  · rfl
  · split
    · exact foldl_keep (p := State.fab) (fun s a => by split <;> simp) _ _
    · rfl
@[simp] theorem State.holdEvent_prn : (s.holdEvent ps e).prn = s.prn := by
  unfold State.holdEvent
  split
  · rfl
  · split
    · exact foldl_keep (p := State.prn) (fun s a => by split <;> simp) _ _
    · rfl
@[simp] theorem State.holdEvent_mbx : (s.holdEvent ps e).mbx = s.mbx := by
  unfold State.holdEvent
  split
  · rfl
  · split
    · exact foldl_keep (p := State.mbx) (fun s a => by split <;> simp) _ _
    · rfl
@[simp] theorem State.holdEvent_mem : (s.holdEvent ps e).mem = s.mem := by
  unfold State.holdEvent
  split
  · rfl
  · split
    · exact foldl_keep (p := State.mem) (fun s a => by split <;> simp) _ _
    · rfl
@[simp] theorem State.holdEvent_rck : (s.holdEvent ps e).rck = s.rck := by
  unfold State.holdEvent
  split
  · rfl
  · split
    · exact foldl_keep (p := State.rck) (fun s a => by split <;> simp) _ _
    · rfl
@[simp] theorem State.holdEvent_cnt : (s.holdEvent ps e).cnt = s.cnt := by
  unfold State.holdEvent
  split
  · rfl
  · split
    · exact foldl_keep (p := State.cnt) (fun s a => by split <;> simp) _ _
    · rfl
@[simp] theorem State.holdEvent_nrg : (s.holdEvent ps e).nrg = s.nrg := by
  unfold State.holdEvent
  split
  · rfl
  · split
    · exact foldl_keep (p := State.nrg) (fun s a => by split <;> simp) _ _
    · rfl
@[simp] theorem State.holdEvent_restarts : (s.holdEvent ps e).restarts = s.restarts := by
  unfold State.holdEvent
  split
  · rfl
  · split
    · exact foldl_keep (p := State.restarts) (fun s a => by split <;> simp) _ _
    · rfl
@[simp] theorem State.holdEvent_fresh : (s.holdEvent ps e).fresh = s.fresh := by
  unfold State.holdEvent
  split
  · rfl
  · split
    · exact foldl_keep (p := State.fresh) (fun s a => by split <;> simp) _ _
    · rfl
end

section
variable (s : State) (link : Option Link) (y2 : Nat) (dest : Word) (body : List Byte)
@[simp] theorem State.send_pending : (s.send link y2 dest body).pending = s.pending := rfl
@[simp] theorem State.send_clk : (s.send link y2 dest body).clk = s.clk := rfl
@[simp] theorem State.send_pwr : (s.send link y2 dest body).pwr = s.pwr := rfl
@[simp] theorem State.send_regs : (s.send link y2 dest body).regs = s.regs := rfl
@[simp] theorem State.send_sticky : (s.send link y2 dest body).sticky = s.sticky := rfl
@[simp] theorem State.send_sealed : (s.send link y2 dest body).sealed = s.sealed := rfl
@[simp] theorem State.send_sealImg : (s.send link y2 dest body).sealImg = s.sealImg := rfl
@[simp] theorem State.send_flash : (s.send link y2 dest body).flash = s.flash := rfl
@[simp] theorem State.send_rnd : (s.send link y2 dest body).rnd = s.rnd := rfl
@[simp] theorem State.send_str : (s.send link y2 dest body).str = s.str := rfl
@[simp] theorem State.send_sds : (s.send link y2 dest body).sds = s.sds := rfl
@[simp] theorem State.send_frm : (s.send link y2 dest body).frm = s.frm := rfl
@[simp] theorem State.send_whl : (s.send link y2 dest body).whl = s.whl := rfl
@[simp] theorem State.send_hrp : (s.send link y2 dest body).hrp = s.hrp := rfl
@[simp] theorem State.send_flp : (s.send link y2 dest body).flp = s.flp := rfl
@[simp] theorem State.send_col : (s.send link y2 dest body).col = s.col := rfl
@[simp] theorem State.send_cal : (s.send link y2 dest body).cal = s.cal := rfl
@[simp] theorem State.send_mgp : (s.send link y2 dest body).mgp = s.mgp := rfl
@[simp] theorem State.send_prn : (s.send link y2 dest body).prn = s.prn := rfl
@[simp] theorem State.send_mbx : (s.send link y2 dest body).mbx = s.mbx := rfl
@[simp] theorem State.send_mem : (s.send link y2 dest body).mem = s.mem := rfl
@[simp] theorem State.send_rck : (s.send link y2 dest body).rck = s.rck := rfl
@[simp] theorem State.send_cnt : (s.send link y2 dest body).cnt = s.cnt := rfl
@[simp] theorem State.send_nrg : (s.send link y2 dest body).nrg = s.nrg := rfl
@[simp] theorem State.send_restarts : (s.send link y2 dest body).restarts = s.restarts := rfl
@[simp] theorem State.send_fresh : (s.send link y2 dest body).fresh = s.fresh := rfl
end

section
variable (s : State) (ps : List Nat) (e : EvtEntry)
@[simp] theorem State.emit_pending : (s.emit ps e).pending = s.pending := by
  unfold State.emit
  split
  · exact foldl_keep (p := State.pending) (fun s a => State.send_pending s _ _ _ _) _ _
  · split <;> simp
@[simp] theorem State.emit_clk : (s.emit ps e).clk = s.clk := by
  unfold State.emit
  split
  · exact foldl_keep (p := State.clk) (fun s a => State.send_clk s _ _ _ _) _ _
  · split <;> simp
@[simp] theorem State.emit_pwr : (s.emit ps e).pwr = s.pwr := by
  unfold State.emit
  split
  · exact foldl_keep (p := State.pwr) (fun s a => State.send_pwr s _ _ _ _) _ _
  · split <;> simp
@[simp] theorem State.emit_regs : (s.emit ps e).regs = s.regs := by
  unfold State.emit
  split
  · exact foldl_keep (p := State.regs) (fun s a => State.send_regs s _ _ _ _) _ _
  · split <;> simp
@[simp] theorem State.emit_sticky : (s.emit ps e).sticky = s.sticky := by
  unfold State.emit
  split
  · exact foldl_keep (p := State.sticky) (fun s a => State.send_sticky s _ _ _ _) _ _
  · split <;> simp
@[simp] theorem State.emit_sealed : (s.emit ps e).sealed = s.sealed := by
  unfold State.emit
  split
  · exact foldl_keep (p := State.sealed) (fun s a => State.send_sealed s _ _ _ _) _ _
  · split <;> simp
@[simp] theorem State.emit_sealImg : (s.emit ps e).sealImg = s.sealImg := by
  unfold State.emit
  split
  · exact foldl_keep (p := State.sealImg) (fun s a => State.send_sealImg s _ _ _ _) _ _
  · split <;> simp
@[simp] theorem State.emit_flash : (s.emit ps e).flash = s.flash := by
  unfold State.emit
  split
  · exact foldl_keep (p := State.flash) (fun s a => State.send_flash s _ _ _ _) _ _
  · split <;> simp
@[simp] theorem State.emit_rnd : (s.emit ps e).rnd = s.rnd := by
  unfold State.emit
  split
  · exact foldl_keep (p := State.rnd) (fun s a => State.send_rnd s _ _ _ _) _ _
  · split <;> simp
@[simp] theorem State.emit_str : (s.emit ps e).str = s.str := by
  unfold State.emit
  split
  · exact foldl_keep (p := State.str) (fun s a => State.send_str s _ _ _ _) _ _
  · split <;> simp
@[simp] theorem State.emit_sds : (s.emit ps e).sds = s.sds := by
  unfold State.emit
  split
  · exact foldl_keep (p := State.sds) (fun s a => State.send_sds s _ _ _ _) _ _
  · split <;> simp
@[simp] theorem State.emit_frm : (s.emit ps e).frm = s.frm := by
  unfold State.emit
  split
  · exact foldl_keep (p := State.frm) (fun s a => State.send_frm s _ _ _ _) _ _
  · split <;> simp
@[simp] theorem State.emit_whl : (s.emit ps e).whl = s.whl := by
  unfold State.emit
  split
  · exact foldl_keep (p := State.whl) (fun s a => State.send_whl s _ _ _ _) _ _
  · split <;> simp
@[simp] theorem State.emit_hrp : (s.emit ps e).hrp = s.hrp := by
  unfold State.emit
  split
  · exact foldl_keep (p := State.hrp) (fun s a => State.send_hrp s _ _ _ _) _ _
  · split <;> simp
@[simp] theorem State.emit_flp : (s.emit ps e).flp = s.flp := by
  unfold State.emit
  split
  · exact foldl_keep (p := State.flp) (fun s a => State.send_flp s _ _ _ _) _ _
  · split <;> simp
@[simp] theorem State.emit_col : (s.emit ps e).col = s.col := by
  unfold State.emit
  split
  · exact foldl_keep (p := State.col) (fun s a => State.send_col s _ _ _ _) _ _
  · split <;> simp
@[simp] theorem State.emit_prn : (s.emit ps e).prn = s.prn := by
  unfold State.emit
  split
  · exact foldl_keep (p := State.prn) (fun s a => State.send_prn s _ _ _ _) _ _
  · split <;> simp
@[simp] theorem State.emit_mbx : (s.emit ps e).mbx = s.mbx := by
  unfold State.emit
  split
  · exact foldl_keep (p := State.mbx) (fun s a => State.send_mbx s _ _ _ _) _ _
  · split <;> simp
@[simp] theorem State.emit_mem : (s.emit ps e).mem = s.mem := by
  unfold State.emit
  split
  · exact foldl_keep (p := State.mem) (fun s a => State.send_mem s _ _ _ _) _ _
  · split <;> simp
@[simp] theorem State.emit_rck : (s.emit ps e).rck = s.rck := by
  unfold State.emit
  split
  · exact foldl_keep (p := State.rck) (fun s a => State.send_rck s _ _ _ _) _ _
  · split <;> simp
@[simp] theorem State.emit_nrg : (s.emit ps e).nrg = s.nrg := by
  unfold State.emit
  split
  · exact foldl_keep (p := State.nrg) (fun s a => State.send_nrg s _ _ _ _) _ _
  · split <;> simp
@[simp] theorem State.emit_restarts : (s.emit ps e).restarts = s.restarts := by
  unfold State.emit
  split
  · exact foldl_keep (p := State.restarts) (fun s a => State.send_restarts s _ _ _ _) _ _
  · split <;> simp
@[simp] theorem State.emit_fresh : (s.emit ps e).fresh = s.fresh := by
  unfold State.emit
  split
  · exact foldl_keep (p := State.fresh) (fun s a => State.send_fresh s _ _ _ _) _ _
  · split <;> simp
end

section
variable (s : State)
@[simp] theorem State.flushHeld_pending : (s.flushHeld).pending = s.pending := by
  unfold State.flushHeld
  split
  · exact foldl_keep (p := State.pending) (fun s a => State.deliver_pending _ _ _) _ _
  · rfl
@[simp] theorem State.flushHeld_clk : (s.flushHeld).clk = s.clk := by
  unfold State.flushHeld
  split
  · exact foldl_keep (p := State.clk) (fun s a => State.deliver_clk _ _ _) _ _
  · rfl
@[simp] theorem State.flushHeld_pwr : (s.flushHeld).pwr = s.pwr := by
  unfold State.flushHeld
  split
  · exact foldl_keep (p := State.pwr) (fun s a => State.deliver_pwr _ _ _) _ _
  · rfl
@[simp] theorem State.flushHeld_regs : (s.flushHeld).regs = s.regs := by
  unfold State.flushHeld
  split
  · exact foldl_keep (p := State.regs) (fun s a => State.deliver_regs _ _ _) _ _
  · rfl
@[simp] theorem State.flushHeld_sticky : (s.flushHeld).sticky = s.sticky := by
  unfold State.flushHeld
  split
  · exact foldl_keep (p := State.sticky) (fun s a => State.deliver_sticky _ _ _) _ _
  · rfl
@[simp] theorem State.flushHeld_sealed : (s.flushHeld).sealed = s.sealed := by
  unfold State.flushHeld
  split
  · exact foldl_keep (p := State.sealed) (fun s a => State.deliver_sealed _ _ _) _ _
  · rfl
@[simp] theorem State.flushHeld_sealImg : (s.flushHeld).sealImg = s.sealImg := by
  unfold State.flushHeld
  split
  · exact foldl_keep (p := State.sealImg) (fun s a => State.deliver_sealImg _ _ _) _ _
  · rfl
@[simp] theorem State.flushHeld_flash : (s.flushHeld).flash = s.flash := by
  unfold State.flushHeld
  split
  · exact foldl_keep (p := State.flash) (fun s a => State.deliver_flash _ _ _) _ _
  · rfl
@[simp] theorem State.flushHeld_rnd : (s.flushHeld).rnd = s.rnd := by
  unfold State.flushHeld
  split
  · exact foldl_keep (p := State.rnd) (fun s a => State.deliver_rnd _ _ _) _ _
  · rfl
@[simp] theorem State.flushHeld_str : (s.flushHeld).str = s.str := by
  unfold State.flushHeld
  split
  · exact foldl_keep (p := State.str) (fun s a => State.deliver_str _ _ _) _ _
  · rfl
@[simp] theorem State.flushHeld_sds : (s.flushHeld).sds = s.sds := by
  unfold State.flushHeld
  split
  · exact foldl_keep (p := State.sds) (fun s a => State.deliver_sds _ _ _) _ _
  · rfl
@[simp] theorem State.flushHeld_frm : (s.flushHeld).frm = s.frm := by
  unfold State.flushHeld
  split
  · exact foldl_keep (p := State.frm) (fun s a => State.deliver_frm _ _ _) _ _
  · rfl
@[simp] theorem State.flushHeld_whl : (s.flushHeld).whl = s.whl := by
  unfold State.flushHeld
  split
  · exact foldl_keep (p := State.whl) (fun s a => State.deliver_whl _ _ _) _ _
  · rfl
@[simp] theorem State.flushHeld_hrp : (s.flushHeld).hrp = s.hrp := by
  unfold State.flushHeld
  split
  · exact foldl_keep (p := State.hrp) (fun s a => State.deliver_hrp _ _ _) _ _
  · rfl
@[simp] theorem State.flushHeld_flp : (s.flushHeld).flp = s.flp := by
  unfold State.flushHeld
  split
  · exact foldl_keep (p := State.flp) (fun s a => State.deliver_flp _ _ _) _ _
  · rfl
@[simp] theorem State.flushHeld_col : (s.flushHeld).col = s.col := by
  unfold State.flushHeld
  split
  · exact foldl_keep (p := State.col) (fun s a => State.deliver_col _ _ _) _ _
  · rfl
@[simp] theorem State.flushHeld_fab : (s.flushHeld).fab = s.fab := by
  unfold State.flushHeld
  split
  · exact foldl_keep (p := State.fab) (fun s a => State.deliver_fab _ _ _) _ _
  · rfl
@[simp] theorem State.flushHeld_prn : (s.flushHeld).prn = s.prn := by
  unfold State.flushHeld
  split
  · exact foldl_keep (p := State.prn) (fun s a => State.deliver_prn _ _ _) _ _
  · rfl
@[simp] theorem State.flushHeld_mbx : (s.flushHeld).mbx = s.mbx := by
  unfold State.flushHeld
  split
  · exact foldl_keep (p := State.mbx) (fun s a => State.deliver_mbx _ _ _) _ _
  · rfl
@[simp] theorem State.flushHeld_mem : (s.flushHeld).mem = s.mem := by
  unfold State.flushHeld
  split
  · exact foldl_keep (p := State.mem) (fun s a => State.deliver_mem _ _ _) _ _
  · rfl
@[simp] theorem State.flushHeld_rck : (s.flushHeld).rck = s.rck := by
  unfold State.flushHeld
  split
  · exact foldl_keep (p := State.rck) (fun s a => State.deliver_rck _ _ _) _ _
  · rfl
@[simp] theorem State.flushHeld_nrg : (s.flushHeld).nrg = s.nrg := by
  unfold State.flushHeld
  split
  · exact foldl_keep (p := State.nrg) (fun s a => State.deliver_nrg _ _ _) _ _
  · rfl
@[simp] theorem State.flushHeld_restarts : (s.flushHeld).restarts = s.restarts := by
  unfold State.flushHeld
  split
  · exact foldl_keep (p := State.restarts) (fun s a => State.deliver_restarts _ _ _) _ _
  · rfl
@[simp] theorem State.flushHeld_fresh : (s.flushHeld).fresh = s.fresh := by
  unfold State.flushHeld
  split
  · exact foldl_keep (p := State.fresh) (fun s a => State.deliver_fresh _ _ _) _ _
  · rfl
end

section
variable (s : State) (ps : List Nat) (code : Nat) (object : Nat) (value : Nat)
@[simp] theorem State.event_pending : (s.event ps code object value).pending = s.pending := State.emit_pending _ _ _
@[simp] theorem State.event_clk : (s.event ps code object value).clk = s.clk := State.emit_clk _ _ _
@[simp] theorem State.event_pwr : (s.event ps code object value).pwr = s.pwr := State.emit_pwr _ _ _
@[simp] theorem State.event_regs : (s.event ps code object value).regs = s.regs := State.emit_regs _ _ _
@[simp] theorem State.event_sticky : (s.event ps code object value).sticky = s.sticky := State.emit_sticky _ _ _
@[simp] theorem State.event_sealed : (s.event ps code object value).sealed = s.sealed := State.emit_sealed _ _ _
@[simp] theorem State.event_sealImg : (s.event ps code object value).sealImg = s.sealImg := State.emit_sealImg _ _ _
@[simp] theorem State.event_flash : (s.event ps code object value).flash = s.flash := State.emit_flash _ _ _
@[simp] theorem State.event_rnd : (s.event ps code object value).rnd = s.rnd := State.emit_rnd _ _ _
@[simp] theorem State.event_str : (s.event ps code object value).str = s.str := State.emit_str _ _ _
@[simp] theorem State.event_sds : (s.event ps code object value).sds = s.sds := State.emit_sds _ _ _
@[simp] theorem State.event_frm : (s.event ps code object value).frm = s.frm := State.emit_frm _ _ _
@[simp] theorem State.event_whl : (s.event ps code object value).whl = s.whl := State.emit_whl _ _ _
@[simp] theorem State.event_hrp : (s.event ps code object value).hrp = s.hrp := State.emit_hrp _ _ _
@[simp] theorem State.event_flp : (s.event ps code object value).flp = s.flp := State.emit_flp _ _ _
@[simp] theorem State.event_col : (s.event ps code object value).col = s.col := State.emit_col _ _ _
@[simp] theorem State.event_prn : (s.event ps code object value).prn = s.prn := State.emit_prn _ _ _
@[simp] theorem State.event_mbx : (s.event ps code object value).mbx = s.mbx := State.emit_mbx _ _ _
@[simp] theorem State.event_mem : (s.event ps code object value).mem = s.mem := State.emit_mem _ _ _
@[simp] theorem State.event_rck : (s.event ps code object value).rck = s.rck := State.emit_rck _ _ _
@[simp] theorem State.event_nrg : (s.event ps code object value).nrg = s.nrg := State.emit_nrg _ _ _
@[simp] theorem State.event_restarts : (s.event ps code object value).restarts = s.restarts := State.emit_restarts _ _ _
@[simp] theorem State.event_fresh : (s.event ps code object value).fresh = s.fresh := State.emit_fresh _ _ _
end

section
variable (s : State) (h : Nat) (f : JEntry → JEntry)
@[simp] theorem State.setJob_pending : (s.setJob h f).pending = s.pending := rfl
@[simp] theorem State.setJob_clk : (s.setJob h f).clk = s.clk := rfl
@[simp] theorem State.setJob_pwr : (s.setJob h f).pwr = s.pwr := rfl
@[simp] theorem State.setJob_regs : (s.setJob h f).regs = s.regs := rfl
@[simp] theorem State.setJob_sticky : (s.setJob h f).sticky = s.sticky := rfl
@[simp] theorem State.setJob_sealed : (s.setJob h f).sealed = s.sealed := rfl
@[simp] theorem State.setJob_sealImg : (s.setJob h f).sealImg = s.sealImg := rfl
@[simp] theorem State.setJob_flash : (s.setJob h f).flash = s.flash := rfl
@[simp] theorem State.setJob_rnd : (s.setJob h f).rnd = s.rnd := rfl
@[simp] theorem State.setJob_str : (s.setJob h f).str = s.str := rfl
@[simp] theorem State.setJob_sds : (s.setJob h f).sds = s.sds := rfl
@[simp] theorem State.setJob_frm : (s.setJob h f).frm = s.frm := rfl
@[simp] theorem State.setJob_whl : (s.setJob h f).whl = s.whl := rfl
@[simp] theorem State.setJob_hrp : (s.setJob h f).hrp = s.hrp := rfl
@[simp] theorem State.setJob_flp : (s.setJob h f).flp = s.flp := rfl
@[simp] theorem State.setJob_col : (s.setJob h f).col = s.col := rfl
@[simp] theorem State.setJob_cal : (s.setJob h f).cal = s.cal := rfl
@[simp] theorem State.setJob_fab : (s.setJob h f).fab = s.fab := rfl
@[simp] theorem State.setJob_prn : (s.setJob h f).prn = s.prn := rfl
@[simp] theorem State.setJob_mbx : (s.setJob h f).mbx = s.mbx := rfl
@[simp] theorem State.setJob_mem : (s.setJob h f).mem = s.mem := rfl
@[simp] theorem State.setJob_rck : (s.setJob h f).rck = s.rck := rfl
@[simp] theorem State.setJob_cnt : (s.setJob h f).cnt = s.cnt := rfl
@[simp] theorem State.setJob_nrg : (s.setJob h f).nrg = s.nrg := rfl
@[simp] theorem State.setJob_restarts : (s.setJob h f).restarts = s.restarts := rfl
@[simp] theorem State.setJob_fresh : (s.setJob h f).fresh = s.fresh := rfl
end

section
variable (s : State) (h : Nat)
@[simp] theorem State.dropJob_pending : (s.dropJob h).pending = s.pending := rfl
@[simp] theorem State.dropJob_clk : (s.dropJob h).clk = s.clk := rfl
@[simp] theorem State.dropJob_pwr : (s.dropJob h).pwr = s.pwr := rfl
@[simp] theorem State.dropJob_regs : (s.dropJob h).regs = s.regs := rfl
@[simp] theorem State.dropJob_sticky : (s.dropJob h).sticky = s.sticky := rfl
@[simp] theorem State.dropJob_sealed : (s.dropJob h).sealed = s.sealed := rfl
@[simp] theorem State.dropJob_sealImg : (s.dropJob h).sealImg = s.sealImg := rfl
@[simp] theorem State.dropJob_flash : (s.dropJob h).flash = s.flash := rfl
@[simp] theorem State.dropJob_rnd : (s.dropJob h).rnd = s.rnd := rfl
@[simp] theorem State.dropJob_str : (s.dropJob h).str = s.str := rfl
@[simp] theorem State.dropJob_sds : (s.dropJob h).sds = s.sds := rfl
@[simp] theorem State.dropJob_frm : (s.dropJob h).frm = s.frm := rfl
@[simp] theorem State.dropJob_whl : (s.dropJob h).whl = s.whl := rfl
@[simp] theorem State.dropJob_hrp : (s.dropJob h).hrp = s.hrp := rfl
@[simp] theorem State.dropJob_flp : (s.dropJob h).flp = s.flp := rfl
@[simp] theorem State.dropJob_col : (s.dropJob h).col = s.col := rfl
@[simp] theorem State.dropJob_cal : (s.dropJob h).cal = s.cal := rfl
@[simp] theorem State.dropJob_fab : (s.dropJob h).fab = s.fab := rfl
@[simp] theorem State.dropJob_prn : (s.dropJob h).prn = s.prn := rfl
@[simp] theorem State.dropJob_mbx : (s.dropJob h).mbx = s.mbx := rfl
@[simp] theorem State.dropJob_mem : (s.dropJob h).mem = s.mem := rfl
@[simp] theorem State.dropJob_rck : (s.dropJob h).rck = s.rck := rfl
@[simp] theorem State.dropJob_cnt : (s.dropJob h).cnt = s.cnt := rfl
@[simp] theorem State.dropJob_nrg : (s.dropJob h).nrg = s.nrg := rfl
@[simp] theorem State.dropJob_restarts : (s.dropJob h).restarts = s.restarts := rfl
@[simp] theorem State.dropJob_fresh : (s.dropJob h).fresh = s.fresh := rfl
end

section
variable (s : State) (m : Nat) (f : WorkerCmd → WorkerCmd)
@[simp] theorem State.setWcmd_pending : (s.setWcmd m f).pending = s.pending := rfl
@[simp] theorem State.setWcmd_clk : (s.setWcmd m f).clk = s.clk := rfl
@[simp] theorem State.setWcmd_pwr : (s.setWcmd m f).pwr = s.pwr := rfl
@[simp] theorem State.setWcmd_regs : (s.setWcmd m f).regs = s.regs := rfl
@[simp] theorem State.setWcmd_sticky : (s.setWcmd m f).sticky = s.sticky := rfl
@[simp] theorem State.setWcmd_sealed : (s.setWcmd m f).sealed = s.sealed := rfl
@[simp] theorem State.setWcmd_sealImg : (s.setWcmd m f).sealImg = s.sealImg := rfl
@[simp] theorem State.setWcmd_flash : (s.setWcmd m f).flash = s.flash := rfl
@[simp] theorem State.setWcmd_rnd : (s.setWcmd m f).rnd = s.rnd := rfl
@[simp] theorem State.setWcmd_str : (s.setWcmd m f).str = s.str := rfl
@[simp] theorem State.setWcmd_sds : (s.setWcmd m f).sds = s.sds := rfl
@[simp] theorem State.setWcmd_frm : (s.setWcmd m f).frm = s.frm := rfl
@[simp] theorem State.setWcmd_whl : (s.setWcmd m f).whl = s.whl := rfl
@[simp] theorem State.setWcmd_hrp : (s.setWcmd m f).hrp = s.hrp := rfl
@[simp] theorem State.setWcmd_flp : (s.setWcmd m f).flp = s.flp := rfl
@[simp] theorem State.setWcmd_col : (s.setWcmd m f).col = s.col := rfl
@[simp] theorem State.setWcmd_cal : (s.setWcmd m f).cal = s.cal := rfl
@[simp] theorem State.setWcmd_mgp : (s.setWcmd m f).mgp = s.mgp := rfl
@[simp] theorem State.setWcmd_prn : (s.setWcmd m f).prn = s.prn := rfl
@[simp] theorem State.setWcmd_mbx : (s.setWcmd m f).mbx = s.mbx := rfl
@[simp] theorem State.setWcmd_mem : (s.setWcmd m f).mem = s.mem := rfl
@[simp] theorem State.setWcmd_rck : (s.setWcmd m f).rck = s.rck := rfl
@[simp] theorem State.setWcmd_cnt : (s.setWcmd m f).cnt = s.cnt := rfl
@[simp] theorem State.setWcmd_nrg : (s.setWcmd m f).nrg = s.nrg := rfl
@[simp] theorem State.setWcmd_restarts : (s.setWcmd m f).restarts = s.restarts := rfl
@[simp] theorem State.setWcmd_fresh : (s.setWcmd m f).fresh = s.fresh := rfl
end

section
variable (s : State) (h : Nat) (c : CmpEntry)
@[simp] theorem State.completeEntry_pending : (s.completeEntry h c).pending = s.pending := by
  unfold State.completeEntry
  split
  · rfl
  · split
    · rfl
    · split
      · dsimp only
        refine (State.send_pending _ _ _ _ _).trans ?_
        split
        · refine (foldl_keep (p := State.pending) (fun s a => State.send_pending s _ _ _ _) _ _).trans ?_
          simp
        · simp
      · simp [apply_ite State.pending]
@[simp] theorem State.completeEntry_clk : (s.completeEntry h c).clk = s.clk := by
  unfold State.completeEntry
  split
  · rfl
  · split
    · rfl
    · split
      · dsimp only
        refine (State.send_clk _ _ _ _ _).trans ?_
        split
        · refine (foldl_keep (p := State.clk) (fun s a => State.send_clk s _ _ _ _) _ _).trans ?_
          simp
        · simp
      · simp [apply_ite State.clk]
@[simp] theorem State.completeEntry_pwr : (s.completeEntry h c).pwr = s.pwr := by
  unfold State.completeEntry
  split
  · rfl
  · split
    · rfl
    · split
      · dsimp only
        refine (State.send_pwr _ _ _ _ _).trans ?_
        split
        · refine (foldl_keep (p := State.pwr) (fun s a => State.send_pwr s _ _ _ _) _ _).trans ?_
          simp
        · simp
      · simp [apply_ite State.pwr]
@[simp] theorem State.completeEntry_regs : (s.completeEntry h c).regs = s.regs := by
  unfold State.completeEntry
  split
  · rfl
  · split
    · rfl
    · split
      · dsimp only
        refine (State.send_regs _ _ _ _ _).trans ?_
        split
        · refine (foldl_keep (p := State.regs) (fun s a => State.send_regs s _ _ _ _) _ _).trans ?_
          simp
        · simp
      · simp [apply_ite State.regs]
@[simp] theorem State.completeEntry_sticky : (s.completeEntry h c).sticky = s.sticky := by
  unfold State.completeEntry
  split
  · rfl
  · split
    · rfl
    · split
      · dsimp only
        refine (State.send_sticky _ _ _ _ _).trans ?_
        split
        · refine (foldl_keep (p := State.sticky) (fun s a => State.send_sticky s _ _ _ _) _ _).trans ?_
          simp
        · simp
      · simp [apply_ite State.sticky]
@[simp] theorem State.completeEntry_sealed : (s.completeEntry h c).sealed = s.sealed := by
  unfold State.completeEntry
  split
  · rfl
  · split
    · rfl
    · split
      · dsimp only
        refine (State.send_sealed _ _ _ _ _).trans ?_
        split
        · refine (foldl_keep (p := State.sealed) (fun s a => State.send_sealed s _ _ _ _) _ _).trans ?_
          simp
        · simp
      · simp [apply_ite State.sealed]
@[simp] theorem State.completeEntry_sealImg : (s.completeEntry h c).sealImg = s.sealImg := by
  unfold State.completeEntry
  split
  · rfl
  · split
    · rfl
    · split
      · dsimp only
        refine (State.send_sealImg _ _ _ _ _).trans ?_
        split
        · refine (foldl_keep (p := State.sealImg) (fun s a => State.send_sealImg s _ _ _ _) _ _).trans ?_
          simp
        · simp
      · simp [apply_ite State.sealImg]
@[simp] theorem State.completeEntry_flash : (s.completeEntry h c).flash = s.flash := by
  unfold State.completeEntry
  split
  · rfl
  · split
    · rfl
    · split
      · dsimp only
        refine (State.send_flash _ _ _ _ _).trans ?_
        split
        · refine (foldl_keep (p := State.flash) (fun s a => State.send_flash s _ _ _ _) _ _).trans ?_
          simp
        · simp
      · simp [apply_ite State.flash]
@[simp] theorem State.completeEntry_rnd : (s.completeEntry h c).rnd = s.rnd := by
  unfold State.completeEntry
  split
  · rfl
  · split
    · rfl
    · split
      · dsimp only
        refine (State.send_rnd _ _ _ _ _).trans ?_
        split
        · refine (foldl_keep (p := State.rnd) (fun s a => State.send_rnd s _ _ _ _) _ _).trans ?_
          simp
        · simp
      · simp [apply_ite State.rnd]
@[simp] theorem State.completeEntry_str : (s.completeEntry h c).str = s.str := by
  unfold State.completeEntry
  split
  · rfl
  · split
    · rfl
    · split
      · dsimp only
        refine (State.send_str _ _ _ _ _).trans ?_
        split
        · refine (foldl_keep (p := State.str) (fun s a => State.send_str s _ _ _ _) _ _).trans ?_
          simp
        · simp
      · simp [apply_ite State.str]
@[simp] theorem State.completeEntry_sds : (s.completeEntry h c).sds = s.sds := by
  unfold State.completeEntry
  split
  · rfl
  · split
    · rfl
    · split
      · dsimp only
        refine (State.send_sds _ _ _ _ _).trans ?_
        split
        · refine (foldl_keep (p := State.sds) (fun s a => State.send_sds s _ _ _ _) _ _).trans ?_
          simp
        · simp
      · simp [apply_ite State.sds]
@[simp] theorem State.completeEntry_frm : (s.completeEntry h c).frm = s.frm := by
  unfold State.completeEntry
  split
  · rfl
  · split
    · rfl
    · split
      · dsimp only
        refine (State.send_frm _ _ _ _ _).trans ?_
        split
        · refine (foldl_keep (p := State.frm) (fun s a => State.send_frm s _ _ _ _) _ _).trans ?_
          simp
        · simp
      · simp [apply_ite State.frm]
@[simp] theorem State.completeEntry_whl : (s.completeEntry h c).whl = s.whl := by
  unfold State.completeEntry
  split
  · rfl
  · split
    · rfl
    · split
      · dsimp only
        refine (State.send_whl _ _ _ _ _).trans ?_
        split
        · refine (foldl_keep (p := State.whl) (fun s a => State.send_whl s _ _ _ _) _ _).trans ?_
          simp
        · simp
      · simp [apply_ite State.whl]
@[simp] theorem State.completeEntry_hrp : (s.completeEntry h c).hrp = s.hrp := by
  unfold State.completeEntry
  split
  · rfl
  · split
    · rfl
    · split
      · dsimp only
        refine (State.send_hrp _ _ _ _ _).trans ?_
        split
        · refine (foldl_keep (p := State.hrp) (fun s a => State.send_hrp s _ _ _ _) _ _).trans ?_
          simp
        · simp
      · simp [apply_ite State.hrp]
@[simp] theorem State.completeEntry_flp : (s.completeEntry h c).flp = s.flp := by
  unfold State.completeEntry
  split
  · rfl
  · split
    · rfl
    · split
      · dsimp only
        refine (State.send_flp _ _ _ _ _).trans ?_
        split
        · refine (foldl_keep (p := State.flp) (fun s a => State.send_flp s _ _ _ _) _ _).trans ?_
          simp
        · simp
      · simp [apply_ite State.flp]
@[simp] theorem State.completeEntry_col : (s.completeEntry h c).col = s.col := by
  unfold State.completeEntry
  split
  · rfl
  · split
    · rfl
    · split
      · dsimp only
        refine (State.send_col _ _ _ _ _).trans ?_
        split
        · refine (foldl_keep (p := State.col) (fun s a => State.send_col s _ _ _ _) _ _).trans ?_
          simp
        · simp
      · simp [apply_ite State.col]
@[simp] theorem State.completeEntry_prn : (s.completeEntry h c).prn = s.prn := by
  unfold State.completeEntry
  split
  · rfl
  · split
    · rfl
    · split
      · dsimp only
        refine (State.send_prn _ _ _ _ _).trans ?_
        split
        · refine (foldl_keep (p := State.prn) (fun s a => State.send_prn s _ _ _ _) _ _).trans ?_
          simp
        · simp
      · simp [apply_ite State.prn]
@[simp] theorem State.completeEntry_mbx : (s.completeEntry h c).mbx = s.mbx := by
  unfold State.completeEntry
  split
  · rfl
  · split
    · rfl
    · split
      · dsimp only
        refine (State.send_mbx _ _ _ _ _).trans ?_
        split
        · refine (foldl_keep (p := State.mbx) (fun s a => State.send_mbx s _ _ _ _) _ _).trans ?_
          simp
        · simp
      · simp [apply_ite State.mbx]
@[simp] theorem State.completeEntry_mem : (s.completeEntry h c).mem = s.mem := by
  unfold State.completeEntry
  split
  · rfl
  · split
    · rfl
    · split
      · dsimp only
        refine (State.send_mem _ _ _ _ _).trans ?_
        split
        · refine (foldl_keep (p := State.mem) (fun s a => State.send_mem s _ _ _ _) _ _).trans ?_
          simp
        · simp
      · simp [apply_ite State.mem]
@[simp] theorem State.completeEntry_rck : (s.completeEntry h c).rck = s.rck := by
  unfold State.completeEntry
  split
  · rfl
  · split
    · rfl
    · split
      · dsimp only
        refine (State.send_rck _ _ _ _ _).trans ?_
        split
        · refine (foldl_keep (p := State.rck) (fun s a => State.send_rck s _ _ _ _) _ _).trans ?_
          simp
        · simp
      · simp [apply_ite State.rck]
@[simp] theorem State.completeEntry_nrg : (s.completeEntry h c).nrg = s.nrg := by
  unfold State.completeEntry
  split
  · rfl
  · split
    · rfl
    · split
      · dsimp only
        refine (State.send_nrg _ _ _ _ _).trans ?_
        split
        · refine (foldl_keep (p := State.nrg) (fun s a => State.send_nrg s _ _ _ _) _ _).trans ?_
          simp
        · simp
      · simp [apply_ite State.nrg]
@[simp] theorem State.completeEntry_restarts : (s.completeEntry h c).restarts = s.restarts := by
  unfold State.completeEntry
  split
  · rfl
  · split
    · rfl
    · split
      · dsimp only
        refine (State.send_restarts _ _ _ _ _).trans ?_
        split
        · refine (foldl_keep (p := State.restarts) (fun s a => State.send_restarts s _ _ _ _) _ _).trans ?_
          simp
        · simp
      · simp [apply_ite State.restarts]
@[simp] theorem State.completeEntry_fresh : (s.completeEntry h c).fresh = s.fresh := by
  unfold State.completeEntry
  split
  · rfl
  · split
    · rfl
    · split
      · dsimp only
        refine (State.send_fresh _ _ _ _ _).trans ?_
        split
        · refine (foldl_keep (p := State.fresh) (fun s a => State.send_fresh s _ _ _ _) _ _).trans ?_
          simp
        · simp
      · simp [apply_ite State.fresh]
end

section
variable (s : State) (h : Nat) (status : Nat) (tick : Nat) (result : Nat)
@[simp] theorem State.complete_pending : (s.complete h status tick result).pending = s.pending := by unfold State.complete; split <;> simp
@[simp] theorem State.complete_clk : (s.complete h status tick result).clk = s.clk := by unfold State.complete; split <;> simp
@[simp] theorem State.complete_pwr : (s.complete h status tick result).pwr = s.pwr := by unfold State.complete; split <;> simp
@[simp] theorem State.complete_regs : (s.complete h status tick result).regs = s.regs := by unfold State.complete; split <;> simp
@[simp] theorem State.complete_sticky : (s.complete h status tick result).sticky = s.sticky := by unfold State.complete; split <;> simp
@[simp] theorem State.complete_sealed : (s.complete h status tick result).sealed = s.sealed := by unfold State.complete; split <;> simp
@[simp] theorem State.complete_sealImg : (s.complete h status tick result).sealImg = s.sealImg := by unfold State.complete; split <;> simp
@[simp] theorem State.complete_flash : (s.complete h status tick result).flash = s.flash := by unfold State.complete; split <;> simp
@[simp] theorem State.complete_rnd : (s.complete h status tick result).rnd = s.rnd := by unfold State.complete; split <;> simp
@[simp] theorem State.complete_str : (s.complete h status tick result).str = s.str := by unfold State.complete; split <;> simp
@[simp] theorem State.complete_sds : (s.complete h status tick result).sds = s.sds := by unfold State.complete; split <;> simp
@[simp] theorem State.complete_frm : (s.complete h status tick result).frm = s.frm := by unfold State.complete; split <;> simp
@[simp] theorem State.complete_whl : (s.complete h status tick result).whl = s.whl := by unfold State.complete; split <;> simp
@[simp] theorem State.complete_hrp : (s.complete h status tick result).hrp = s.hrp := by unfold State.complete; split <;> simp
@[simp] theorem State.complete_flp : (s.complete h status tick result).flp = s.flp := by unfold State.complete; split <;> simp
@[simp] theorem State.complete_col : (s.complete h status tick result).col = s.col := by unfold State.complete; split <;> simp
@[simp] theorem State.complete_prn : (s.complete h status tick result).prn = s.prn := by unfold State.complete; split <;> simp
@[simp] theorem State.complete_mbx : (s.complete h status tick result).mbx = s.mbx := by unfold State.complete; split <;> simp
@[simp] theorem State.complete_mem : (s.complete h status tick result).mem = s.mem := by unfold State.complete; split <;> simp
@[simp] theorem State.complete_rck : (s.complete h status tick result).rck = s.rck := by unfold State.complete; split <;> simp
@[simp] theorem State.complete_nrg : (s.complete h status tick result).nrg = s.nrg := by unfold State.complete; split <;> simp
@[simp] theorem State.complete_restarts : (s.complete h status tick result).restarts = s.restarts := by unfold State.complete; split <;> simp
@[simp] theorem State.complete_fresh : (s.complete h status tick result).fresh = s.fresh := by unfold State.complete; split <;> simp
end

section
variable (s : State) (h : Nat) (status : Nat)
@[simp] theorem State.refuse_pending : (s.refuse h status).pending = s.pending := State.complete_pending _ _ _ _ _
@[simp] theorem State.refuse_clk : (s.refuse h status).clk = s.clk := State.complete_clk _ _ _ _ _
@[simp] theorem State.refuse_pwr : (s.refuse h status).pwr = s.pwr := State.complete_pwr _ _ _ _ _
@[simp] theorem State.refuse_regs : (s.refuse h status).regs = s.regs := State.complete_regs _ _ _ _ _
@[simp] theorem State.refuse_sticky : (s.refuse h status).sticky = s.sticky := State.complete_sticky _ _ _ _ _
@[simp] theorem State.refuse_sealed : (s.refuse h status).sealed = s.sealed := State.complete_sealed _ _ _ _ _
@[simp] theorem State.refuse_sealImg : (s.refuse h status).sealImg = s.sealImg := State.complete_sealImg _ _ _ _ _
@[simp] theorem State.refuse_flash : (s.refuse h status).flash = s.flash := State.complete_flash _ _ _ _ _
@[simp] theorem State.refuse_rnd : (s.refuse h status).rnd = s.rnd := State.complete_rnd _ _ _ _ _
@[simp] theorem State.refuse_str : (s.refuse h status).str = s.str := State.complete_str _ _ _ _ _
@[simp] theorem State.refuse_sds : (s.refuse h status).sds = s.sds := State.complete_sds _ _ _ _ _
@[simp] theorem State.refuse_frm : (s.refuse h status).frm = s.frm := State.complete_frm _ _ _ _ _
@[simp] theorem State.refuse_whl : (s.refuse h status).whl = s.whl := State.complete_whl _ _ _ _ _
@[simp] theorem State.refuse_hrp : (s.refuse h status).hrp = s.hrp := State.complete_hrp _ _ _ _ _
@[simp] theorem State.refuse_flp : (s.refuse h status).flp = s.flp := State.complete_flp _ _ _ _ _
@[simp] theorem State.refuse_col : (s.refuse h status).col = s.col := State.complete_col _ _ _ _ _
@[simp] theorem State.refuse_prn : (s.refuse h status).prn = s.prn := State.complete_prn _ _ _ _ _
@[simp] theorem State.refuse_mbx : (s.refuse h status).mbx = s.mbx := State.complete_mbx _ _ _ _ _
@[simp] theorem State.refuse_mem : (s.refuse h status).mem = s.mem := State.complete_mem _ _ _ _ _
@[simp] theorem State.refuse_rck : (s.refuse h status).rck = s.rck := State.complete_rck _ _ _ _ _
@[simp] theorem State.refuse_nrg : (s.refuse h status).nrg = s.nrg := State.complete_nrg _ _ _ _ _
@[simp] theorem State.refuse_restarts : (s.refuse h status).restarts = s.restarts := State.complete_restarts _ _ _ _ _
@[simp] theorem State.refuse_fresh : (s.refuse h status).fresh = s.fresh := State.complete_fresh _ _ _ _ _
end

section
variable (s : State) (h : Nat) (addr : Nat) (hkey : Nat) (off : Nat) (bytes : List Byte)
@[simp] theorem State.output_pending : (s.output h addr hkey off bytes).pending = s.pending := by
  unfold State.output
  split
  · rfl
  · split <;> simp
@[simp] theorem State.output_clk : (s.output h addr hkey off bytes).clk = s.clk := by
  unfold State.output
  split
  · rfl
  · split <;> simp
@[simp] theorem State.output_pwr : (s.output h addr hkey off bytes).pwr = s.pwr := by
  unfold State.output
  split
  · rfl
  · split <;> simp
@[simp] theorem State.output_regs : (s.output h addr hkey off bytes).regs = s.regs := by
  unfold State.output
  split
  · rfl
  · split <;> simp
@[simp] theorem State.output_sticky : (s.output h addr hkey off bytes).sticky = s.sticky := by
  unfold State.output
  split
  · rfl
  · split <;> simp
@[simp] theorem State.output_sealed : (s.output h addr hkey off bytes).sealed = s.sealed := by
  unfold State.output
  split
  · rfl
  · split <;> simp
@[simp] theorem State.output_sealImg : (s.output h addr hkey off bytes).sealImg = s.sealImg := by
  unfold State.output
  split
  · rfl
  · split <;> simp
@[simp] theorem State.output_flash : (s.output h addr hkey off bytes).flash = s.flash := by
  unfold State.output
  split
  · rfl
  · split <;> simp
@[simp] theorem State.output_rnd : (s.output h addr hkey off bytes).rnd = s.rnd := by
  unfold State.output
  split
  · rfl
  · split <;> simp
@[simp] theorem State.output_str : (s.output h addr hkey off bytes).str = s.str := by
  unfold State.output
  split
  · rfl
  · split <;> simp
@[simp] theorem State.output_sds : (s.output h addr hkey off bytes).sds = s.sds := by
  unfold State.output
  split
  · rfl
  · split <;> simp
@[simp] theorem State.output_frm : (s.output h addr hkey off bytes).frm = s.frm := by
  unfold State.output
  split
  · rfl
  · split <;> simp
@[simp] theorem State.output_whl : (s.output h addr hkey off bytes).whl = s.whl := by
  unfold State.output
  split
  · rfl
  · split <;> simp
@[simp] theorem State.output_hrp : (s.output h addr hkey off bytes).hrp = s.hrp := by
  unfold State.output
  split
  · rfl
  · split <;> simp
@[simp] theorem State.output_flp : (s.output h addr hkey off bytes).flp = s.flp := by
  unfold State.output
  split
  · rfl
  · split <;> simp
@[simp] theorem State.output_col : (s.output h addr hkey off bytes).col = s.col := by
  unfold State.output
  split
  · rfl
  · split <;> simp
@[simp] theorem State.output_cal : (s.output h addr hkey off bytes).cal = s.cal := by
  unfold State.output
  split
  · rfl
  · split <;> simp
@[simp] theorem State.output_prn : (s.output h addr hkey off bytes).prn = s.prn := by
  unfold State.output
  split
  · rfl
  · split <;> simp
@[simp] theorem State.output_mbx : (s.output h addr hkey off bytes).mbx = s.mbx := by
  unfold State.output
  split
  · rfl
  · split <;> simp
@[simp] theorem State.output_mem : (s.output h addr hkey off bytes).mem = s.mem := by
  unfold State.output
  split
  · rfl
  · split <;> simp
@[simp] theorem State.output_rck : (s.output h addr hkey off bytes).rck = s.rck := by
  unfold State.output
  split
  · rfl
  · split <;> simp
@[simp] theorem State.output_nrg : (s.output h addr hkey off bytes).nrg = s.nrg := by
  unfold State.output
  split
  · rfl
  · split <;> simp
@[simp] theorem State.output_restarts : (s.output h addr hkey off bytes).restarts = s.restarts := by
  unfold State.output
  split
  · rfl
  · split <;> simp
@[simp] theorem State.output_fresh : (s.output h addr hkey off bytes).fresh = s.fresh := by
  unfold State.output
  split
  · rfl
  · split <;> simp
end

section
variable (s : State) (r : Role)
@[simp] theorem State.setRole_pending : (s.setRole r).pending = s.pending := by simp [State.setRole, apply_ite State.pending]
@[simp] theorem State.setRole_clk : (s.setRole r).clk = s.clk := by simp [State.setRole, apply_ite State.clk]
@[simp] theorem State.setRole_pwr : (s.setRole r).pwr = s.pwr := by simp [State.setRole, apply_ite State.pwr]
@[simp] theorem State.setRole_regs : (s.setRole r).regs = s.regs := by simp [State.setRole, apply_ite State.regs]
@[simp] theorem State.setRole_sticky : (s.setRole r).sticky = s.sticky := by simp [State.setRole, apply_ite State.sticky]
@[simp] theorem State.setRole_sealed : (s.setRole r).sealed = s.sealed := by simp [State.setRole, apply_ite State.sealed]
@[simp] theorem State.setRole_sealImg : (s.setRole r).sealImg = s.sealImg := by simp [State.setRole, apply_ite State.sealImg]
@[simp] theorem State.setRole_flash : (s.setRole r).flash = s.flash := by simp [State.setRole, apply_ite State.flash]
@[simp] theorem State.setRole_rnd : (s.setRole r).rnd = s.rnd := by simp [State.setRole, apply_ite State.rnd]
@[simp] theorem State.setRole_str : (s.setRole r).str = s.str := by simp [State.setRole, apply_ite State.str]
@[simp] theorem State.setRole_sds : (s.setRole r).sds = s.sds := by simp [State.setRole, apply_ite State.sds]
@[simp] theorem State.setRole_frm : (s.setRole r).frm = s.frm := by simp [State.setRole, apply_ite State.frm]
@[simp] theorem State.setRole_whl : (s.setRole r).whl = s.whl := by simp [State.setRole, apply_ite State.whl]
@[simp] theorem State.setRole_hrp : (s.setRole r).hrp = s.hrp := by simp [State.setRole, apply_ite State.hrp]
@[simp] theorem State.setRole_flp : (s.setRole r).flp = s.flp := by simp [State.setRole, apply_ite State.flp]
@[simp] theorem State.setRole_col : (s.setRole r).col = s.col := by simp [State.setRole, apply_ite State.col]
@[simp] theorem State.setRole_prn : (s.setRole r).prn = s.prn := by simp [State.setRole, apply_ite State.prn]
@[simp] theorem State.setRole_mbx : (s.setRole r).mbx = s.mbx := by simp [State.setRole, apply_ite State.mbx]
@[simp] theorem State.setRole_mem : (s.setRole r).mem = s.mem := by simp [State.setRole, apply_ite State.mem]
@[simp] theorem State.setRole_rck : (s.setRole r).rck = s.rck := by simp [State.setRole, apply_ite State.rck]
@[simp] theorem State.setRole_nrg : (s.setRole r).nrg = s.nrg := by simp [State.setRole, apply_ite State.nrg]
@[simp] theorem State.setRole_restarts : (s.setRole r).restarts = s.restarts := by simp [State.setRole, apply_ite State.restarts]
@[simp] theorem State.setRole_fresh : (s.setRole r).fresh = s.fresh := by simp [State.setRole, apply_ite State.fresh]
end

section
variable (s : State) (cause : Nat)
@[simp] theorem State.yield_pending : (s.yield cause).pending = s.pending := by simp [State.yield, apply_ite State.pending]
@[simp] theorem State.yield_clk : (s.yield cause).clk = s.clk := by simp [State.yield, apply_ite State.clk]
@[simp] theorem State.yield_pwr : (s.yield cause).pwr = s.pwr := by simp [State.yield, apply_ite State.pwr]
@[simp] theorem State.yield_regs : (s.yield cause).regs = s.regs := by simp [State.yield, apply_ite State.regs]
@[simp] theorem State.yield_sticky : (s.yield cause).sticky = s.sticky := by simp [State.yield, apply_ite State.sticky]
@[simp] theorem State.yield_sealed : (s.yield cause).sealed = s.sealed := by simp [State.yield, apply_ite State.sealed]
@[simp] theorem State.yield_sealImg : (s.yield cause).sealImg = s.sealImg := by simp [State.yield, apply_ite State.sealImg]
@[simp] theorem State.yield_flash : (s.yield cause).flash = s.flash := by simp [State.yield, apply_ite State.flash]
@[simp] theorem State.yield_rnd : (s.yield cause).rnd = s.rnd := by simp [State.yield, apply_ite State.rnd]
@[simp] theorem State.yield_str : (s.yield cause).str = s.str := by simp [State.yield, apply_ite State.str]
@[simp] theorem State.yield_sds : (s.yield cause).sds = s.sds := by simp [State.yield, apply_ite State.sds]
@[simp] theorem State.yield_frm : (s.yield cause).frm = s.frm := by simp [State.yield, apply_ite State.frm]
@[simp] theorem State.yield_whl : (s.yield cause).whl = s.whl := by simp [State.yield, apply_ite State.whl]
@[simp] theorem State.yield_hrp : (s.yield cause).hrp = s.hrp := by simp [State.yield, apply_ite State.hrp]
@[simp] theorem State.yield_flp : (s.yield cause).flp = s.flp := by simp [State.yield, apply_ite State.flp]
@[simp] theorem State.yield_col : (s.yield cause).col = s.col := by simp [State.yield, apply_ite State.col]
@[simp] theorem State.yield_fab : (s.yield cause).fab = s.fab := by simp [State.yield, apply_ite State.fab]
@[simp] theorem State.yield_mgp : (s.yield cause).mgp = s.mgp := by simp [State.yield, apply_ite State.mgp]
@[simp] theorem State.yield_prn : (s.yield cause).prn = s.prn := by simp [State.yield, apply_ite State.prn]
@[simp] theorem State.yield_mbx : (s.yield cause).mbx = s.mbx := by simp [State.yield, apply_ite State.mbx]
@[simp] theorem State.yield_mem : (s.yield cause).mem = s.mem := by simp [State.yield, apply_ite State.mem]
@[simp] theorem State.yield_rck : (s.yield cause).rck = s.rck := by simp [State.yield, apply_ite State.rck]
@[simp] theorem State.yield_cnt : (s.yield cause).cnt = s.cnt := by simp [State.yield, apply_ite State.cnt]
@[simp] theorem State.yield_nrg : (s.yield cause).nrg = s.nrg := by simp [State.yield, apply_ite State.nrg]
@[simp] theorem State.yield_restarts : (s.yield cause).restarts = s.restarts := by simp [State.yield, apply_ite State.restarts]
@[simp] theorem State.yield_fresh : (s.yield cause).fresh = s.fresh := by simp [State.yield, apply_ite State.fresh]
end

section
variable (s : State) (q : Nat) (r : Resp)
@[simp] theorem State.answer_pending : (s.answer q r).pending = s.pending := by unfold State.answer; dsimp only; split <;> simp
@[simp] theorem State.answer_clk : (s.answer q r).clk = s.clk := by unfold State.answer; dsimp only; split <;> simp
@[simp] theorem State.answer_pwr : (s.answer q r).pwr = s.pwr := by unfold State.answer; dsimp only; split <;> simp
@[simp] theorem State.answer_regs : (s.answer q r).regs = s.regs := by unfold State.answer; dsimp only; split <;> simp
@[simp] theorem State.answer_sticky : (s.answer q r).sticky = s.sticky := by unfold State.answer; dsimp only; split <;> simp
@[simp] theorem State.answer_sealed : (s.answer q r).sealed = s.sealed := by unfold State.answer; dsimp only; split <;> simp
@[simp] theorem State.answer_sealImg : (s.answer q r).sealImg = s.sealImg := by unfold State.answer; dsimp only; split <;> simp
@[simp] theorem State.answer_flash : (s.answer q r).flash = s.flash := by unfold State.answer; dsimp only; split <;> simp
@[simp] theorem State.answer_rnd : (s.answer q r).rnd = s.rnd := by unfold State.answer; dsimp only; split <;> simp
@[simp] theorem State.answer_str : (s.answer q r).str = s.str := by unfold State.answer; dsimp only; split <;> simp
@[simp] theorem State.answer_sds : (s.answer q r).sds = s.sds := by unfold State.answer; dsimp only; split <;> simp
@[simp] theorem State.answer_frm : (s.answer q r).frm = s.frm := by unfold State.answer; dsimp only; split <;> simp
@[simp] theorem State.answer_whl : (s.answer q r).whl = s.whl := by unfold State.answer; dsimp only; split <;> simp
@[simp] theorem State.answer_hrp : (s.answer q r).hrp = s.hrp := by unfold State.answer; dsimp only; split <;> simp
@[simp] theorem State.answer_flp : (s.answer q r).flp = s.flp := by unfold State.answer; dsimp only; split <;> simp
@[simp] theorem State.answer_col : (s.answer q r).col = s.col := by unfold State.answer; dsimp only; split <;> simp
@[simp] theorem State.answer_cal : (s.answer q r).cal = s.cal := by unfold State.answer; dsimp only; split <;> simp
@[simp] theorem State.answer_fab : (s.answer q r).fab = s.fab := by unfold State.answer; dsimp only; split <;> simp
@[simp] theorem State.answer_prn : (s.answer q r).prn = s.prn := by unfold State.answer; dsimp only; split <;> simp
@[simp] theorem State.answer_mbx : (s.answer q r).mbx = s.mbx := by unfold State.answer; dsimp only; split <;> simp
@[simp] theorem State.answer_mem : (s.answer q r).mem = s.mem := by unfold State.answer; dsimp only; split <;> simp
@[simp] theorem State.answer_rck : (s.answer q r).rck = s.rck := by unfold State.answer; dsimp only; split <;> simp
@[simp] theorem State.answer_nrg : (s.answer q r).nrg = s.nrg := by unfold State.answer; dsimp only; split <;> simp
@[simp] theorem State.answer_restarts : (s.answer q r).restarts = s.restarts := by unfold State.answer; dsimp only; split <;> simp
@[simp] theorem State.answer_fresh : (s.answer q r).fresh = s.fresh := by unfold State.answer; dsimp only; split <;> simp
end

section
variable (s : State) (scope obj j v : Nat)
@[simp] theorem State.presetCounter_pending : (s.presetCounter scope obj j v).pending = s.pending := rfl
@[simp] theorem State.presetCounter_pwr : (s.presetCounter scope obj j v).pwr = s.pwr := rfl
@[simp] theorem State.presetCounter_regs : (s.presetCounter scope obj j v).regs = s.regs := rfl
@[simp] theorem State.presetCounter_sticky : (s.presetCounter scope obj j v).sticky = s.sticky := rfl
@[simp] theorem State.presetCounter_sealed : (s.presetCounter scope obj j v).sealed = s.sealed := rfl
@[simp] theorem State.presetCounter_sealImg : (s.presetCounter scope obj j v).sealImg = s.sealImg := rfl
@[simp] theorem State.presetCounter_flash : (s.presetCounter scope obj j v).flash = s.flash := rfl
@[simp] theorem State.presetCounter_rnd : (s.presetCounter scope obj j v).rnd = s.rnd := rfl
@[simp] theorem State.presetCounter_str : (s.presetCounter scope obj j v).str = s.str := rfl
@[simp] theorem State.presetCounter_sds : (s.presetCounter scope obj j v).sds = s.sds := rfl
@[simp] theorem State.presetCounter_frm : (s.presetCounter scope obj j v).frm = s.frm := rfl
@[simp] theorem State.presetCounter_whl : (s.presetCounter scope obj j v).whl = s.whl := rfl
@[simp] theorem State.presetCounter_hrp : (s.presetCounter scope obj j v).hrp = s.hrp := rfl
@[simp] theorem State.presetCounter_flp : (s.presetCounter scope obj j v).flp = s.flp := rfl
@[simp] theorem State.presetCounter_col : (s.presetCounter scope obj j v).col = s.col := rfl
@[simp] theorem State.presetCounter_cal : (s.presetCounter scope obj j v).cal = s.cal := rfl
@[simp] theorem State.presetCounter_fab : (s.presetCounter scope obj j v).fab = s.fab := rfl
@[simp] theorem State.presetCounter_mgp : (s.presetCounter scope obj j v).mgp = s.mgp := rfl
@[simp] theorem State.presetCounter_prn : (s.presetCounter scope obj j v).prn = s.prn := rfl
@[simp] theorem State.presetCounter_mbx : (s.presetCounter scope obj j v).mbx = s.mbx := rfl
@[simp] theorem State.presetCounter_mem : (s.presetCounter scope obj j v).mem = s.mem := rfl
@[simp] theorem State.presetCounter_rck : (s.presetCounter scope obj j v).rck = s.rck := rfl
@[simp] theorem State.presetCounter_clk : (s.presetCounter scope obj j v).clk = s.clk := rfl
@[simp] theorem State.presetCounter_nrg : (s.presetCounter scope obj j v).nrg = s.nrg := rfl
@[simp] theorem State.presetCounter_restarts : (s.presetCounter scope obj j v).restarts = s.restarts := rfl
@[simp] theorem State.presetCounter_fresh : (s.presetCounter scope obj j v).fresh = s.fresh := rfl
end

/-! ### Outcomes -/

theorem whenUp_of_up {s t : State} (h : s.up = true) : whenUp s t = .next t := by simp [whenUp, h]
theorem whenFw_of_fw {s t : State} (h : s.fw = true) : whenFw s t = .next t := by simp [whenFw, h]
theorem whenUp_of_down {s t : State} (h : s.up = false) : whenUp s t = .next s := by simp [whenUp, h]
theorem whenFw_of_stopped {s t : State} (h : s.fw = false) : whenFw s t = .next s := by simp [whenFw, h]
theorem State.ownerWrite_of_owner {s : State} {q : Nat} {f : State → State} (h : s.accessor q = some 0) :
    s.ownerWrite q f = (f s).answer q .ack := by simp [State.ownerWrite, h]
theorem State.ownerWrite_of_other {s : State} {q : Nat} {f : State → State} (h : s.accessor q ≠ some 0) :
    s.ownerWrite q f = s.answer q .nak := by simp [State.ownerWrite, h]
@[simp] theorem State.answer_resp (s : State) (q : Nat) (r : Resp) : (s.answer q r).mgp.resp = some r := by
  unfold State.answer State.count State.setCounter
  dsimp only
  repeat' split
  all_goals rfl

/-! ### A changed element reads back, and the others stand -/

@[simp] theorem State.setLane_self (s : State) (i : Nat) (x : Lane) : (s.setLane i x).lane i = x := Tab.look_put_self _ _ _ _
theorem State.setLane_of_ne (s : State) {i j : Nat} (x : Lane) (h : j ≠ i) : (s.setLane i x).lane j = s.lane j := Tab.look_put_of_ne _ _ _ _ h

@[simp] theorem State.setGroup_self (s : State) (i : Nat) (x : Group) : (s.setGroup i x).group i = x := Tab.look_put_self _ _ _ _
theorem State.setGroup_of_ne (s : State) {i j : Nat} (x : Group) (h : j ≠ i) : (s.setGroup i x).group j = s.group j := Tab.look_put_of_ne _ _ _ _ h

@[simp] theorem State.setRx_self (s : State) (i : Nat) (x : RxLane) : (s.setRx i x).rx i = x := Tab.look_put_self _ _ _ _
theorem State.setRx_of_ne (s : State) {i j : Nat} (x : RxLane) (h : j ≠ i) : (s.setRx i x).rx j = s.rx j := Tab.look_put_of_ne _ _ _ _ h

@[simp] theorem State.setTx_self (s : State) (i : Nat) (x : TxLane) : (s.setTx i x).tx i = x := Tab.look_put_self _ _ _ _
theorem State.setTx_of_ne (s : State) {i j : Nat} (x : TxLane) (h : j ≠ i) : (s.setTx i x).tx j = s.tx j := Tab.look_put_of_ne _ _ _ _ h

@[simp] theorem State.setWheel_self (s : State) (i : Nat) (x : Wheel) : (s.setWheel i x).wheel i = x := Tab.look_put_self _ _ _ _
theorem State.setWheel_of_ne (s : State) {i j : Nat} (x : Wheel) (h : j ≠ i) : (s.setWheel i x).wheel j = s.wheel j := Tab.look_put_of_ne _ _ _ _ h

@[simp] theorem State.setPair_self (s : State) (i : Nat) (x : Pair) : (s.setPair i x).pair i = x := Tab.look_put_self _ _ _ _
theorem State.setPair_of_ne (s : State) {i j : Nat} (x : Pair) (h : j ≠ i) : (s.setPair i x).pair j = s.pair j := Tab.look_put_of_ne _ _ _ _ h

@[simp] theorem State.setStack_self (s : State) (i : Nat) (x : Stack) : (s.setStack i x).stack i = x := Tab.look_put_self _ _ _ _
theorem State.setStack_of_ne (s : State) {i j : Nat} (x : Stack) (h : j ≠ i) : (s.setStack i x).stack j = s.stack j := Tab.look_put_of_ne _ _ _ _ h

@[simp] theorem State.setPort_self (s : State) (i : Nat) (x : Port) : (s.setPort i x).port i = x := Tab.look_put_self _ _ _ _
theorem State.setPort_of_ne (s : State) {i j : Nat} (x : Port) (h : j ≠ i) : (s.setPort i x).port j = s.port j := Tab.look_put_of_ne _ _ _ _ h

@[simp] theorem State.setQp_self (s : State) (i : Nat) (x : Qp) : (s.setQp i x).qp i = x := Tab.look_put_self _ _ _ _
theorem State.setQp_of_ne (s : State) {i j : Nat} (x : Qp) (h : j ≠ i) : (s.setQp i x).qp j = s.qp j := Tab.look_put_of_ne _ _ _ _ h

@[simp] theorem State.setRing_self (s : State) (i : Nat) (x : Ring) : (s.setRing i x).ring i = x := Tab.look_put_self _ _ _ _
theorem State.setRing_of_ne (s : State) {i j : Nat} (x : Ring) (h : j ≠ i) : (s.setRing i x).ring j = s.ring j := Tab.look_put_of_ne _ _ _ _ h

@[simp] theorem State.setSrc_self (s : State) (i : Nat) (x : Src) : (s.setSrc i x).src i = x := Tab.look_put_self _ _ _ _
theorem State.setSrc_of_ne (s : State) {i j : Nat} (x : Src) (h : j ≠ i) : (s.setSrc i x).src j = s.src j := Tab.look_put_of_ne _ _ _ _ h

@[simp] theorem State.setPart_self (s : State) (i : Nat) (x : Part) : (s.setPart i x).part i = x := Tab.look_put_self _ _ _ _
theorem State.setPart_of_ne (s : State) {i j : Nat} (x : Part) (h : j ≠ i) : (s.setPart i x).part j = s.part j := Tab.look_put_of_ne _ _ _ _ h

@[simp] theorem State.setMbox_self (s : State) (i : Nat) (x : Mbx) : (s.setMbox i x).mbox i = x := Tab.look_put_self _ _ _ _
theorem State.setMbox_of_ne (s : State) {i j : Nat} (x : Mbx) (h : j ≠ i) : (s.setMbox i x).mbox j = s.mbox j := Tab.look_put_of_ne _ _ _ _ h

@[simp] theorem State.setWhisk_self (s : State) (i : Nat) (x : Whisk) : (s.setWhisk i x).whisk i = x := Tab.look_put_self _ _ _ _
theorem State.setWhisk_of_ne (s : State) {i j : Nat} (x : Whisk) (h : j ≠ i) : (s.setWhisk i x).whisk j = s.whisk j := Tab.look_put_of_ne _ _ _ _ h

@[simp] theorem State.setDump_self (s : State) (i : Nat) (x : Dump) : (s.setDump i x).dump i = x := Tab.look_put_self _ _ _ _
theorem State.setDump_of_ne (s : State) {i j : Nat} (x : Dump) (h : j ≠ i) : (s.setDump i x).dump j = s.dump j := Tab.look_put_of_ne _ _ _ _ h

/-! ### The record under construction is all that reporting changes in the mate-pair state -/

/-- The mate-pair state without the record under construction. -/
def State.calRest (s : State) : Cal := { s.cal with cur := {} }

theorem State.calRest_of {s t : State} (h : t.cal = s.cal) : t.calRest = s.calRest := by unfold State.calRest; rw [h]
theorem State.role_of {s t : State} (h : t.calRest = s.calRest) : t.cal.role = s.cal.role := by
  have h := congrArg Cal.role h
  exact h
theorem State.yieldAt_of {s t : State} (h : t.calRest = s.calRest) : t.cal.yieldAt = s.cal.yieldAt := by
  have h := congrArg Cal.yieldAt h
  exact h
@[simp] theorem State.recd_calRest (s : State) (f : LRec → LRec) : (s.recd f).calRest = s.calRest := by
  unfold State.recd; split <;> rfl
@[simp] theorem State.putEvent_calRest (s : State) (r : Nat) (e : EvtEntry) : (s.putEvent r e).calRest = s.calRest := by
  unfold State.putEvent
  dsimp only
  split
  · rfl
  · refine (State.calRest_of (State.count_cal _ _ _ _ _)).trans ((State.recd_calRest _ _).trans (State.calRest_of ?_))
    simp
@[simp] theorem State.deliver_calRest (s : State) (ps : List Nat) (e : EvtEntry) : (s.deliver ps e).calRest = s.calRest :=
  foldl_keep (p := State.calRest) (fun s a => by split <;> simp) _ _
@[simp] theorem State.emit_calRest (s : State) (ps : List Nat) (e : EvtEntry) : (s.emit ps e).calRest = s.calRest := by
  unfold State.emit
  split
  · exact State.calRest_of (foldl_keep (p := State.cal) (fun s a => State.send_cal s _ _ _ _) _ _)
  · split
    · simp
    · exact State.calRest_of (State.holdEvent_cal _ _ _)
@[simp] theorem State.event_calRest (s : State) (ps : List Nat) (code object value : Nat) :
    (s.event ps code object value).calRest = s.calRest := State.emit_calRest _ _ _
@[simp] theorem State.completeEntry_calRest (s : State) (h : Nat) (c : CmpEntry) : (s.completeEntry h c).calRest = s.calRest := by
  unfold State.completeEntry
  split
  · rfl
  · split
    · rfl
    · split
      · dsimp only
        refine (State.calRest_of (State.send_cal _ _ _ _ _)).trans ?_
        split
        · refine (State.calRest_of (foldl_keep (p := State.cal) (fun s a => State.send_cal s _ _ _ _) _ _)).trans ?_
          exact (State.calRest_of (State.setWcmd_cal _ _ _)).trans ((State.recd_calRest _ _).trans (State.calRest_of (by simp)))
        · exact (State.calRest_of (State.setWcmd_cal _ _ _)).trans ((State.recd_calRest _ _).trans (State.calRest_of (by simp)))
      · split
        · exact State.calRest_of (by simp)
        · dsimp only
          split
          · exact State.calRest_of (by simp [apply_ite State.cal])
          · exact (State.recd_calRest _ _).trans (State.calRest_of (by simp [apply_ite State.cal]))
@[simp] theorem State.complete_calRest (s : State) (h status tick result : Nat) :
    (s.complete h status tick result).calRest = s.calRest := by
  unfold State.complete; split <;> simp
@[simp] theorem State.event_role (s : State) (ps : List Nat) (code object value : Nat) :
    (s.event ps code object value).cal.role = s.cal.role := State.role_of (by simp)
@[simp] theorem State.event_yieldAt (s : State) (ps : List Nat) (code object value : Nat) :
    (s.event ps code object value).cal.yieldAt = s.cal.yieldAt := State.yieldAt_of (by simp)
theorem State.yield_of_active {s : State} (c : Nat) (ha : s.cal.role = .active) (hy : s.cal.yieldAt = none) :
    (s.yield c).cal.yieldAt = some (s.clk.tick + 4) ∧ (s.yield c).cal.lastYield = c := by
  simp [State.yield, ha, hy]
@[simp] theorem State.complete_role (s : State) (h status tick result : Nat) :
    (s.complete h status tick result).cal.role = s.cal.role := State.role_of (by simp)

end Sys2Proof.Machine
end

