-- ==== Sys2Proof/Laws/Wf.lean ====
section
/-! SUPPORT. The canonical form of the held tables (Hold.wf) and the operations that keep it. -/
namespace Sys2Proof.Machine

structure Hold.wf (h : Hold) : Prop where
  mem : h.mem.wf
  regs : Tab.wfOn (fun a => (regSpec a).rst) h.regs
  img : Tab.wfOn (fun a => (regSpec a).rst) (h.sealImg.getD [])
  ent0 : Tab.wf entryReset h.map.ent0
  ent1 : Tab.wf entryReset h.map.ent1
  block : Tab.wf {} h.prn.block
  part : Tab.wf {} h.prn.part
  slots : Tab.wf {} h.fuses.slots

theorem foldl_wf {α : Type} {g : State → α → State} (hg : ∀ s a, s.hold.wf → (g s a).hold.wf) (l : List α) (s : State)
    (h : s.hold.wf) : (l.foldl g s).hold.wf := by
  induction l generalizing s with
  | nil => exact h
  | cons a t ih => exact ih _ (hg s a h)

theorem next_wf {s t : State} (ht : s.hold.wf → t.hold.wf) : ∀ u, (Host.Outcome.next t : Out) = .next u → s.hold.wf → u.hold.wf := by
  intro u h hs
  rw [← Host.Outcome.next.inj h]
  exact ht hs

theorem whenUp_wf {s t : State} (ht : s.hold.wf → t.hold.wf) : ∀ u, whenUp s t = .next u → s.hold.wf → u.hold.wf := by
  intro u h hs
  unfold whenUp at h
  rw [← Host.Outcome.next.inj h]
  split
  · exact ht hs
  · exact hs

theorem whenFw_wf {s t : State} (ht : s.hold.wf → t.hold.wf) : ∀ u, whenFw s t = .next u → s.hold.wf → u.hold.wf := by
  intro u h hs
  unfold whenFw at h
  rw [← Host.Outcome.next.inj h]
  split
  · exact ht hs
  · exact hs

theorem State.ownerWrite_wf (s : State) (q : Nat) (f : State → State) (hf : s.hold.wf → (f s).hold.wf)
    (hw : s.hold.wf) : (s.ownerWrite q f).hold.wf := by
  unfold State.ownerWrite
  split
  · rw [State.answer_hold]
    exact hf hw
  · rw [State.answer_hold]
    exact hw

theorem State.runCmd_wf (s : State) (opc : Nat) (chk : Check) (eff : Effect) (h : Nat)
    (he : ∀ h e s, s.hold.wf → (eff h e s).hold.wf) (hw : s.hold.wf) : (s.runCmd opc chk eff h).hold.wf := by
  unfold State.runCmd
  dsimp only
  repeat' split
  all_goals first
    | exact hw
    | (simp; exact hw)
    | (apply he; rw [State.accept_hold]; exact hw)

theorem State.fabTake_wf (s : State) (hd : FabHdr) (type : Nat) (body : List Byte) (act : State → State)
    (ha : ∀ s, s.hold.wf → (act s).hold.wf) (hw : s.hold.wf) : (s.fabTake hd type body act).hold.wf := by
  obtain ⟨u, hu, h | h⟩ := s.fabTake_cases hd type body act
  · rw [h, hu]; exact hw
  · rw [h]
    apply ha
    rw [hu]
    exact hw

/-! ### Changes of one part -/

theorem State.setReg_wf (s : State) (a : Nat) (v : Word) (hw : s.hold.wf) : (s.setReg a v).hold.wf :=
  { hw with regs := Tab.put_wfOn rfl hw.regs }

theorem State.setPart_wf (s : State) (p : Nat) (x : Part) (hw : s.hold.wf) : (s.setPart p x).hold.wf :=
  { hw with part := Tab.put_wf hw.part }

theorem State.page_wf (s : State) (i : Nat) (hw : s.hold.wf) : Tab.wf entryReset (s.page i).ent := by
  unfold State.page
  split
  · exact hw.ent0
  · exact hw.ent1

theorem State.setPage_wf (s : State) (i : Nat) (p : Page) (hp : Tab.wf entryReset p.ent) (hw : s.hold.wf) : (s.setPage i p).hold.wf := by
  unfold State.setPage
  split
  · exact { hw with ent0 := hp }
  · exact { hw with ent1 := hp }

theorem State.setStandby_wf (s : State) (p : Page) (hp : Tab.wf entryReset p.ent) (hw : s.hold.wf) : (s.setStandby p).hold.wf :=
  State.setPage_wf s _ p hp hw

theorem State.putPage_wf (s : State) (p : Page) (gs : List Nat) (hp : Tab.wf entryReset p.ent) (hw : s.hold.wf) :
    (s.putPage p gs).hold.wf := by
  unfold State.putPage
  rw [foldl_hold State.noteHigh_hold]
  exact State.setStandby_wf s p hp hw

theorem Page.store_wf (p : Page) (i : Nat) (e : Word) (o : EgOut) (hp : Tab.wf entryReset p.ent) :
    Tab.wf entryReset (p.store i e o).ent := Tab.put_wf hp

theorem State.standby_wf (s : State) (hw : s.hold.wf) : Tab.wf entryReset s.standby.ent := State.page_wf s _ hw

theorem State.withMem_wf (s : State) (m : Mem) (hm : m.wf) (hw : s.hold.wf) : (State.hold { s with mem := m }).wf :=
  { hw with mem := hm }

theorem Hold.wf_mem (s : State) (hw : s.hold.wf) : s.mem.wf := hw.mem

/-- A table of a memory is written. -/
theorem Mem.setTabOf_wf (m : Mem) (k : Nat) (t : Tab (BitVec 128)) (hk : k = 1 ∨ k = 2 ∨ k = 3 ∨ k = 5)
    (ht : Tab.wfOn (m.dflt k) t) (hm : m.wf) : (m.setTabOf k t).wf := by
  obtain ⟨h1, h2, h3, h5, h0⟩ := hm
  rcases hk with hk | hk | hk | hk <;> subst hk
  · exact ⟨ht, h2, h3, h5, h0⟩
  · exact ⟨h1, ht, h3, h5, h0⟩
  · exact ⟨h1, h2, ht, h5, h0⟩
  · exact ⟨h1, h2, h3, ht, h0⟩

theorem Mem.tabOf_wf (m : Mem) (k : Nat) (hk : k = 1 ∨ k = 2 ∨ k = 3 ∨ k = 5) (hm : m.wf) : Tab.wfOn (m.dflt k) (m.tabOf k) := by
  obtain ⟨h1, h2, h3, h5, h0⟩ := hm
  rcases hk with hk | hk | hk | hk <;> subst hk
  · exact h1
  · exact h2
  · exact h3
  · exact h5

end Sys2Proof.Machine
end

