-- ==== Sys2Proof/Laws/WfCmds.lean ====
section
/-! SUPPORT. Every operation and every command that changes a held table keeps the canonical form. -/
namespace Sys2Proof.Machine
open Sys2Proof

theorem State.putNew_wf (s : State) (h slot k : Nat) (e : Word) (gs : List Nat) (nm : Bool) (hw : s.hold.wf) :
    (s.putNew h slot k e gs nm).s.hold.wf := by
  have ht : (s.dropDeferred slot 0).hold.wf := by rw [State.dropDeferred_hold]; exact hw
  have hq : Tab.wf entryReset (s.standby.free slot).ent := by rw [Page.free_ent]; exact s.standby_wf hw
  unfold State.putNew
  dsimp only
  split
  · exact hw
  · split
    · rename_i hp
      split
      · exact hw
      · refine State.putPage_wf _ _ _ (Page.store_wf _ _ _ _ ?_) ht
        rw [Page.addRef_ent, Page.place_ent hp]
        exact hq
    · split
      · exact hw
      · exact State.putPage_wf _ _ _ (Page.store_wf _ _ _ _ hq) (by simpa using ht)

theorem State.mapPut_wf (s : State) (prin h slot v : Nat) (nm : Bool) (hw : s.hold.wf) :
    (s.mapPut prin h slot v nm).s.hold.wf := by
  have ht : (s.dropDeferred slot 0).hold.wf := by rw [State.dropDeferred_hold]; exact hw
  unfold State.mapPut
  dsimp only
  split
  · exact hw
  · split
    · refine State.putPage_wf _ _ _ (Page.store_wf _ _ _ _ ?_) ht
      rw [Page.free_ent]
      exact s.standby_wf hw
    · split
      · refine State.putPage_wf _ _ _ (Page.store_wf _ _ _ _ ?_) ht
        rw [Page.free_ent, Page.addRef_ent]
        exact s.standby_wf hw
      · exact State.putNew_wf _ _ _ _ _ _ _ hw

theorem State.runEntry_wf (s : State) (j : MapJob) (idx slot v : Nat) (queued held : Bool) (hw : s.hold.wf) :
    (s.runEntry j idx slot v queued held).hold.wf := by
  have h1 : ∀ (b : Bool), (State.hold { s with clk := { s.clk with wrStop := b } }).wf := fun _ => hw
  have h2 := State.mapPut_wf (s.checkRead slot) j.prin j.h slot v j.noMove (by rw [State.checkRead_hold]; exact hw)
  unfold State.runEntry
  extract_lets r cost
  by_cases hc : s.clk.wrUsed + s.clk.joinUsed + cost > 32
  · rw [if_pos hc]; exact h1 _
  · rw [if_neg hc, State.noteRun_hold]; exact h2

theorem State.runNext_wf (s : State) : ∀ t, s.runNext = some t → s.hold.wf → t.hold.wf := by
  intro t h hw
  unfold State.runNext at h
  dsimp only at h
  repeat' split at h
  all_goals first
    | (cases h; done)
    | (rw [← Option.some.inj h]; apply State.runEntry_wf; simpa using hw)
    | (rw [← Option.some.inj h]; simpa using hw)

theorem State.runMany_wf (n : Nat) (s : State) (hw : s.hold.wf) : (State.runMany n s).hold.wf := by
  induction n generalizing s with
  | zero => exact hw
  | succ n ih =>
    unfold State.runMany
    split
    · exact hw
    · split
      · exact hw
      · rename_i h
        split
        · simpa using hw
        · exact ih _ (State.runNext_wf _ _ h hw)

theorem State.mapTick_wf (s : State) : s.hold.wf → (State.mapTick s).hold.wf := by
  intro hw
  unfold State.mapTick
  try dsimp only
  repeat' first
    | (with_reducible exact hw)
    | (with_reducible apply State.runMany_wf)
    | (refine foldl_wf ?_ _ _ ?_; intros)
    | split
    | (with_reducible assumption)
    | simp

theorem State.mapNow_wf (s : State) (hw : s.hold.wf) : s.mapNow.hold.wf := by
  unfold State.mapNow
  split
  · exact hw
  · exact State.mapTick_wf _ hw

theorem State.setTiming_wf (s : State) (g : Nat) (foreign : Bool) : s.hold.wf → (State.setTiming s g foreign).hold.wf := by
  intro hw
  unfold State.setTiming
  try dsimp only
  repeat' first
    | (with_reducible exact hw)
    | (with_reducible apply State.setReg_wf)
    | split

theorem execGroupTimingWrite_wf (qp : Fin 16) (g : Fin 32) (foreign : Bool) (s : State) : ∀ t,
    (execGroupTimingWrite qp g foreign s) = .next t → s.hold.wf → t.hold.wf := by
  unfold execGroupTimingWrite
  refine whenUp_wf (fun hw => ?_)
  refine State.ownerWrite_wf _ _ _ (fun hw => ?_) hw
  repeat' first
    | (with_reducible exact hw)
    | (with_reducible apply State.setTiming_wf)

theorem State.swapPages_wf (s : State) (hw : s.hold.wf) : s.swapPages.hold.wf := by
  have h1 : (State.hold { s with hrp := { s.hrp with active := !s.hrp.active } }).wf :=
    ⟨hw.mem, hw.regs, hw.img, hw.ent0, hw.ent1, hw.block, hw.part, hw.slots⟩
  exact State.setStandby_wf _ _ (State.page_wf _ _ h1) h1

theorem State.commit_wf (s : State) : s.hold.wf → (State.commit s).hold.wf := by
  intro hw
  unfold State.commit
  try dsimp only
  repeat' first
    | (with_reducible exact hw)
    | (with_reducible apply State.swapPages_wf)
    | (refine foldl_wf ?_ _ _ ?_; intros)
    | split
    | (with_reducible assumption)
    | simp

theorem State.flipsNow_wf (s : State) (hw : s.hold.wf) : s.flipsNow.hold.wf := by
  unfold State.flipsNow
  rw [State.finishReady_hold]
  exact State.commit_wf _ hw

theorem execFlipCommit_wf (s : State) : ∀ t, (execFlipCommit s) = .next t → s.hold.wf → t.hold.wf := by
  unfold execFlipCommit
  exact whenUp_wf (State.flipsNow_wf s)

theorem copyEnts_wf (q : Page) (l : List Nat) (t : Tab Word) (h : Tab.wf entryReset t) : Tab.wf entryReset (copyEnts q l t) := by
  unfold copyEnts
  induction l generalizing t with
  | nil => exact h
  | cons i l ih => exact ih _ (Tab.put_wf h)

theorem State.copySlice_wf (s : State) (hw : s.hold.wf) : s.copySlice.hold.wf := by
  unfold State.copySlice
  dsimp only
  split
  · split
    · generalize List.map _ (List.range 4096) = l
      rw [foldl_hold (fun t i => State.entryFails_hold t t.standbyNo i true)]
      refine State.setStandby_wf _ _ ?_ hw
      exact copyEnts_wf _ _ _ (State.standby_wf _ hw)
    · exact hw
  · exact hw

theorem foldl_ent {g : Page → Nat → Page} (hg : ∀ p x, Tab.wf entryReset p.ent → Tab.wf entryReset (g p x).ent)
    (l : List Nat) (p : Page)
    (h : Tab.wf entryReset p.ent) : Tab.wf entryReset (l.foldl g p).ent := by
  induction l generalizing p with
  | nil => exact h
  | cons a t ih => exact ih _ (hg p a h)

theorem State.fireRoll_wf (s : State) (roll : List Nat) (hw : s.hold.wf) : (s.fireRoll roll).hold.wf := by
  unfold State.fireRoll
  refine State.setPage_wf _ _ _ ?_ hw
  refine foldl_ent (fun p x hp => ?_) _ _ (foldl_ent (fun p x hp => ?_) _ _ (State.page_wf _ _ hw))
  · dsimp only
    split
    · exact Tab.put_wf hp
    · exact Tab.put_wf hp
  · rw [Page.free_ent]
    exact hp

theorem State.fireNow_wf (s : State) (h : Nat) (hw : s.hold.wf) : (s.fireNow h).hold.wf := by
  unfold State.fireNow
  repeat' first
    | (with_reducible exact hw)
    | (with_reducible apply State.fireRoll_wf)
    | split
    | (with_reducible assumption)
    | simp

theorem State.firesNow_wf (s : State) (hw : s.hold.wf) : s.firesNow.hold.wf :=
  foldl_wf State.fireNow_wf _ _ hw

theorem execFlipSeqFire_wf (h : Nat) (s : State) : ∀ t, (execFlipSeqFire h s) = .next t → s.hold.wf → t.hold.wf := by
  unfold execFlipSeqFire
  refine whenUp_wf (fun hw => ?_)
  split
  · exact State.fireNow_wf _ _ (State.flipsNow_wf _ hw)
  · exact hw

theorem execPairCmdApply_wf (p : Fin 32768) (s : State) : ∀ t, execPairCmdApply p s = .next t → s.hold.wf → t.hold.wf := by
  unfold execPairCmdApply
  refine whenUp_wf (fun hw => ?_)
  split
  · rw [State.pairNow_hold]
    exact State.firesNow_wf _ (State.flipsNow_wf _ hw)
  · exact hw

theorem State.memWrite_wf (s : State) (k a : Nat) (v : BitVec 128) (hk : k = 1 ∨ k = 2 ∨ k = 3 ∨ k = 5) (hw : s.hold.wf) :
    (s.memWrite k a v).hold.wf := by
  unfold State.memWrite
  split
  · simpa using hw
  · exact State.withMem_wf _ _ (Mem.setTabOf_wf _ _ _ hk (Tab.put_wfOn rfl (Mem.tabOf_wf _ _ hk hw.mem)) hw.mem) hw

theorem State.restoreRegion_wf (s : State) (m : Nat) (hw : s.hold.wf) : (s.restoreRegion m).hold.wf := by
  have key : ∀ (k : Nat) (l : List Nat) (sv t : Tab (BitVec 128)), Tab.wfOn (s.mem.dflt k) t →
      Tab.wfOn (s.mem.dflt k) (l.foldl (fun (t : Tab (BitVec 128)) a =>
        Tab.put (s.memDflt k a) t a (sv.look (s.memDflt k a) a)) t) := by
    intro k l sv
    induction l with
    | nil => intro t ht; exact ht
    | cons a l ih => intro t ht; exact ih _ (Tab.put_wfOn rfl ht)
  unfold State.restoreRegion
  dsimp only
  split
  · simpa using hw
  · split
    · rename_i hm
      have hk : m + 1 = 1 ∨ m + 1 = 2 ∨ m + 1 = 3 ∨ m + 1 = 5 := by omega
      refine State.withMem_wf _ _ (Mem.setTabOf_wf _ _ _ hk ?_ hw.mem) (by simpa using hw)
      exact key _ _ _ _ (Mem.tabOf_wf _ _ hk hw.mem)
    · simpa using hw

theorem State.caveTouched_wf (s : State) (t : Nat) (hw : s.hold.wf) : (s.caveTouched t).hold.wf := by
  unfold State.caveTouched
  split
  · exact hw
  · obtain ⟨h1, h2, h3, h5, h0⟩ := hw.mem
    exact { hw with mem := ⟨h1, h2, h3, Tab.filter_wfOn _ h5.1 (fun p _ hp => of_decide_eq_true hp), h0⟩ }

theorem execCaveBurstComplete_wf (pc : Fin 192) (uncorr : Bool) (s : State) :
    ∀ t, execCaveBurstComplete pc uncorr s = .next t → s.hold.wf → t.hold.wf := by
  unfold execCaveBurstComplete
  dsimp only
  refine whenUp_wf (fun hw => ?_)
  generalize (if s.frozen (pc.val / 32) = true then (s.reqsAt pc).find? (fun r => r.granted) else served (s.reqsAt pc))
    = o
  cases o with
  | none => exact hw
  | some r =>
    dsimp only
    have hi : ∀ (c : Prop) [Decidable c] (x y : State), x.hold.wf → y.hold.wf → (if c then x else y).hold.wf := by
      intro c _ x y hx hy
      split
      · exact hx
      · exact hy
    have key : ∀ u : State, u.hold.wf → ∀ t, (if r.who = 0 then u.caveTouched t else u).hold.wf := by
      intro u hu t
      split
      · exact State.caveTouched_wf _ _ hu
      · exact hu
    refine hi _ _ _ ?_ ?_
    · rw [State.setStack_hold, State.count_hold]
      refine key _ ?_ _
      rw [State.count_hold, State.setReqs_hold]
      refine hi _ _ _ ?_ hw
      rw [State.count_hold]
      exact hw
    · refine key _ ?_ _
      rw [State.count_hold, State.setReqs_hold]
      refine hi _ _ _ ?_ hw
      rw [State.count_hold]
      exact hw

theorem State.freezeStack_wf (s : State) (t : Nat) : s.hold.wf → (State.freezeStack s t).hold.wf := by
  intro hw
  unfold State.freezeStack
  try dsimp only
  repeat' first
    | (with_reducible exact hw)
    | (with_reducible apply State.setReg_wf)
    | (refine foldl_wf ?_ _ _ ?_; intros)
    | split
    | (with_reducible assumption)
    | simp

theorem State.thawStack_wf (s : State) (t : Nat) (hw : s.hold.wf) : (s.thawStack t).hold.wf := by
  have hd : ∀ (b : Bool) (u : State) (w : Whisk), u.hold.wf → (if b then (u.dropWhisk t).setWhisk (3 + t) w else
    u).hold.wf := by
    intro b u w hu
    split
    · rw [State.setWhisk_hold, State.dropWhisk_hold]; exact hu
    · exact hu
  unfold State.thawStack
  refine State.setReg_wf _ _ _ (hd _ _ _ ?_)
  rw [State.setStack_hold]
  exact hw

theorem State.writeFreeze_wf (s : State) (v : Word) (hw : s.hold.wf) : (s.writeFreeze v).hold.wf := by
  unfold State.writeFreeze
  refine foldl_wf (fun s t hw => ?_) _ _ hw
  split
  · exact hw
  · split
    · exact State.freezeStack_wf _ _ hw
    · exact State.thawStack_wf _ _ hw

theorem execCavArbFreezeWrite_wf (qp : Fin 16) (v : Word) (s : State) : ∀ t,
    (execCavArbFreezeWrite qp v s) = .next t → s.hold.wf → t.hold.wf := by
  unfold execCavArbFreezeWrite
  refine whenUp_wf (fun hw => ?_)
  refine State.ownerWrite_wf _ _ _ (fun hw => ?_) hw
  repeat' first
    | (with_reducible exact hw)
    | (with_reducible apply State.writeFreeze_wf)

theorem execCaveStackFault_wf (st : Fin 6) (training : Bool) (s : State) : ∀ t,
    (execCaveStackFault st training s) = .next t → s.hold.wf → t.hold.wf := by
  unfold execCaveStackFault
  refine whenUp_wf (fun hw => ?_)
  repeat' first
    | (with_reducible exact hw)
    | (with_reducible apply State.setReg_wf)
    | split
    | (with_reducible assumption)
    | simp

theorem State.cfgNow_wf (s : State) (hw : s.hold.wf) : s.cfgNow.hold.wf := by
  unfold State.cfgNow
  dsimp only
  repeat' first
    | (with_reducible exact hw)
    | (with_reducible apply State.setReg_wf)
    | (refine foldl_wf ?_ _ _ ?_; intros)
    | split
    | (with_reducible assumption)
    | simp

theorem State.refsNow_wf (s : State) (hw : s.hold.wf) : s.refsNow.hold.wf := by
  unfold State.refsNow
  dsimp only
  rw [foldl_hold (fun t _ => State.forceNow_hold t)]
  exact foldl_wf (fun t _ => State.cfgNow_wf t) _ _ hw

theorem State.ptTables_wf (s : State) (p : Nat) (new : Part) (ch : List (Nat × Block)) (hw : s.hold.wf) :
    (s.ptTables p new ch).hold.wf := by
  have hb : ∀ (l : List (Nat × Block)) (t : Tab Block), Tab.wf {} t →
      Tab.wf {} (l.foldl (fun (t : Tab Block) x => Tab.put {} t x.1 x.2) t) := by
    intro l
    induction l with
    | nil => intro t ht; exact ht
    | cons a l ih => intro t ht; exact ih _ (Tab.put_wf ht)
  unfold State.ptTables
  refine foldl_wf (fun u q hu => State.setPart_wf _ _ _ hu) _ _ (State.setPart_wf _ _ _ ?_)
  exact { hw with block := hb _ _ hw.block }

theorem State.ptApply_wf (s : State) (e : JEntry) (hw : s.hold.wf) : (s.ptApply e).hold.wf := by
  unfold State.ptApply
  dsimp only
  split
  · split
    · rw [State.unbindRing_hold]
      exact State.ptTables_wf _ _ _ _ hw
    · exact State.ptTables_wf _ _ _ _ hw
  · split
    · rw [State.dropRingKey_hold]
      exact State.ptTables_wf _ _ _ _ hw
    · exact State.ptTables_wf _ _ _ _ hw

theorem effPartitionSet_wf (h : Nat) (e : JEntry) (s : State) (hw : s.hold.wf) : (effPartitionSet h e s).hold.wf := by
  unfold effPartitionSet
  dsimp only
  rw [State.complete_hold]
  exact State.ptApply_wf _ _ hw

theorem execPartitionSet_wf (h : Nat) (s : State) : ∀ t, (execPartitionSet h s) = .next t → s.hold.wf → t.hold.wf := by
  unfold execPartitionSet
  refine next_wf (fun hw => ?_)
  refine State.runCmd_wf _ _ _ _ _ (fun h e s hw => ?_) hw
  repeat' first
    | (with_reducible exact hw)
    | (with_reducible apply effPartitionSet_wf)

theorem State.takeOwnership_wf (s : State) (b : List Byte) (hw : s.hold.wf) : (s.takeOwnership b).hold.wf := by
  unfold State.takeOwnership
  split
  · exact hw
  · exact { hw with slots := Tab.put_wf hw.slots }

theorem State.kaInstall_wf (s : State) (ring : Nat) (b : List Byte) (i : Nat) : s.hold.wf →
    (State.kaInstall s ring b i).hold.wf := by
  intro hw
  unfold State.kaInstall
  try dsimp only
  repeat' first
    | (with_reducible exact hw)
    | (with_reducible apply State.takeOwnership_wf)
    | (refine foldl_wf ?_ _ _ ?_; intros)
    | split
    | (with_reducible assumption)
    | simp

theorem State.giveKeys_wf (s : State) (h : Nat) (e : JEntry) : s.hold.wf → (State.giveKeys s h e).hold.wf := by
  intro hw
  unfold State.giveKeys
  try dsimp only
  repeat' first
    | (with_reducible exact hw)
    | (with_reducible apply State.kaInstall_wf)
    | split
    | (with_reducible assumption)
    | simp

theorem State.serveKey_wf (s : State) (h : Nat) : s.hold.wf → (State.serveKey s h).hold.wf := by
  intro hw
  unfold State.serveKey
  try dsimp only
  repeat' first
    | (with_reducible exact hw)
    | (with_reducible apply State.giveKeys_wf)
    | split
    | (with_reducible assumption)
    | simp

theorem State.whenKey_wf (s : State) (h : Nat) (e : JEntry) : s.hold.wf → (State.whenKey s h e).hold.wf := by
  intro hw
  unfold State.whenKey
  try dsimp only
  repeat' first
    | (with_reducible exact hw)
    | (with_reducible apply State.serveKey_wf)
    | split
    | (with_reducible assumption)
    | simp

theorem State.serveJob_wf (s : State) (j : QuoteJob) : s.hold.wf → (State.serveJob s j).hold.wf := by
  intro hw
  unfold State.serveJob
  try dsimp only
  repeat' first
    | (with_reducible exact hw)
    | (with_reducible apply State.serveKey_wf)
    | split
    | (with_reducible assumption)
    | simp

theorem State.serveQuotes_wf (n : Nat) (s : State) (hw : s.hold.wf) : (State.serveQuotes n s).hold.wf := by
  induction n generalizing s with
  | zero => exact hw
  | succ n ih =>
    unfold State.serveQuotes
    split
    · exact hw
    · split
      · exact hw
      · exact ih _ (State.serveJob_wf _ _ (by simpa using hw))

theorem execKeyAgree_wf (h : Nat) (s : State) : ∀ t, (execKeyAgree h s) = .next t → s.hold.wf → t.hold.wf := by
  unfold execKeyAgree
  refine next_wf (fun hw => ?_)
  refine State.runCmd_wf _ _ _ _ _ (fun h e s hw => ?_) hw
  repeat' first
    | (with_reducible exact hw)
    | (with_reducible apply State.whenKey_wf)

theorem execMateKeyAgreeRequest_wf (hd : FabHdr) (req : List Byte) (ecOk lmsOk : Bool) (s : State) :
    ∀ t, execMateKeyAgreeRequest hd req ecOk lmsOk s = .next t → s.hold.wf → t.hold.wf := by
  unfold execMateKeyAgreeRequest
  refine next_wf (fun hw => ?_)
  split
  · refine State.fabTake_wf _ _ _ _ _ (fun s hw => ?_) hw
    dsimp only
    split
    · rw [State.send_hold]
      refine State.kaInstall_wf _ _ _ _ ?_
      simpa using hw
    · rw [State.send_hold]
      exact hw
  · exact hw

theorem execAttestQuote_wf (h : Nat) (s : State) : ∀ t, (execAttestQuote h s) = .next t → s.hold.wf → t.hold.wf := by
  unfold execAttestQuote
  refine next_wf (fun hw => ?_)
  refine State.runCmd_wf _ _ _ _ _ (fun h e s hw => ?_) hw
  repeat' first
    | (with_reducible exact hw)
    | (with_reducible apply State.whenKey_wf)

theorem execEphemeralKeyReady_wf (s : State) : ∀ t, (execEphemeralKeyReady s) = .next t → s.hold.wf → t.hold.wf := by
  unfold execEphemeralKeyReady
  refine whenUp_wf (fun hw => ?_)
  repeat' first
    | (with_reducible exact hw)
    | (with_reducible apply State.serveQuotes_wf)
    | split
    | (with_reducible assumption)
    | simp

theorem State.setSpare_wf (s : State) (x : Option FwImage) (hw : s.hold.wf) : (s.setSpare x).hold.wf := by
  unfold State.setSpare
  split <;> exact ⟨hw.mem, hw.regs, hw.img, hw.ent0, hw.ent1, hw.block, hw.part, hw.slots⟩

theorem effFwStage_wf (x0 : Nat) (x1 : JEntry) (s : State) : s.hold.wf → (effFwStage x0 x1 s).hold.wf := by
  intro hw
  unfold effFwStage
  try dsimp only
  repeat' first
    | (with_reducible exact hw)
    | (with_reducible apply State.setSpare_wf)
    | split
    | (with_reducible assumption)
    | simp

theorem execFwStage_wf (h : Nat) (s : State) : ∀ t, (execFwStage h s) = .next t → s.hold.wf → t.hold.wf := by
  unfold execFwStage
  refine next_wf (fun hw => ?_)
  refine State.runCmd_wf _ _ _ _ _ (fun h e s hw => ?_) hw
  repeat' first
    | (with_reducible exact hw)
    | (with_reducible apply effFwStage_wf)

theorem effFwActivate_wf (h : Nat) (e : JEntry) (s : State) (hw : s.hold.wf) : (effFwActivate h e s).hold.wf := by
  unfold effFwActivate
  dsimp only
  rw [State.complete_hold]
  split <;> split <;> exact ⟨hw.mem, hw.regs, hw.img, hw.ent0, hw.ent1, hw.block, hw.part, hw.slots⟩

theorem execFwActivate_wf (h : Nat) (s : State) : ∀ t, (execFwActivate h s) = .next t → s.hold.wf → t.hold.wf := by
  unfold execFwActivate
  refine next_wf (fun hw => ?_)
  refine State.runCmd_wf _ _ _ _ _ (fun h e s hw => ?_) hw
  repeat' first
    | (with_reducible exact hw)
    | (with_reducible apply effFwActivate_wf)

theorem State.rwsImage_wf (s : State) (h : Tab.wfOn (fun a => (regSpec a).rst) s.regs) :
    Tab.wfOn (fun a => (regSpec a).rst) s.rwsImage := by
  have key : ∀ (f : Nat × Word → Option (Nat × Word)), (∀ p q, f p = some q → q.1 = p.1 ∧ q.2 ≠ (regSpec q.1).rst) →
      ∀ t : Tab Word, List.Pairwise (fun p q => p.1 < q.1) t → Tab.wfOn (fun a => (regSpec a).rst) (t.filterMap f) := by
    intro f hf t ht
    constructor
    · refine ht.filterMap f ?_
      intro a b hab c hc d hd
      rw [(hf _ _ hc).1, (hf _ _ hd).1]
      exact hab
    · intro p hp
      obtain ⟨q, _, hq⟩ := List.mem_filterMap.mp hp
      exact (hf _ _ hq).2
  refine key _ ?_ _ h.1
  intro p q hq
  dsimp only at hq
  split at hq
  · cases hq
  · rename_i hn
    rw [← Option.some.inj hq]
    exact ⟨rfl, fun he => hn (Or.inr he)⟩

theorem effSeal_wf (h : Nat) (e : JEntry) (s : State) (hw : s.hold.wf) : (effSeal h e s).hold.wf := by
  have h1 : ∀ (u : State) (d : BitVec 384), u.hold.wf →
      (State.hold { u with sealed := true, sealImg := some u.rwsImage, rnd := { u.rnd with mSetup := d } }).wf := fun u
    d hu =>
    { hu with img := State.rwsImage_wf u hu.regs }
  unfold effSeal
  dsimp only
  split
  · rw [State.resolve_hold, State.setRole_hold, State.complete_hold, State.resumeSealed_hold]
    exact h1 _ _ hw
  · rw [State.complete_hold, State.resumeSealed_hold]
    exact h1 _ _ hw

theorem execSeal_wf (h : Nat) (s : State) : ∀ t, (execSeal h s) = .next t → s.hold.wf → t.hold.wf := by
  unfold execSeal
  refine next_wf (fun hw => ?_)
  refine State.runCmd_wf _ _ _ _ _ (fun h e s hw => ?_) hw
  repeat' first
    | (with_reducible exact hw)
    | (with_reducible apply effSeal_wf)

theorem State.latch_wf (s : State) (hw : s.hold.wf) : s.latch.hold.wf := by
  have h := State.latch_noLatch s
  have g : ∀ a b : Hold, a.noLatch = b.noLatch → b.wf → a.wf := by
    intro a b hab hb
    cases a
    cases b
    simp only [Hold.noLatch, Hold.mk.injEq] at hab
    obtain ⟨h1, h2, h3, h4, h5, h6, h7, h8, _⟩ := hab
    subst h1 h2 h3 h4 h5 h6 h7 h8
    exact ⟨hb.mem, hb.regs, hb.img, hb.ent0, hb.ent1, hb.block, hb.part, hb.slots⟩
  exact g _ _ h hw

theorem State.keepRegs_wf (s : State) (hw : s.hold.wf) : Tab.wfOn (fun a => (regSpec a).rst) s.keepRegs := by
  have key : ∀ (l t : Tab Word), Tab.wfOn (fun a => (regSpec a).rst) t →
      Tab.wfOn (fun a => (regSpec a).rst)
        (l.foldl (fun (t : Tab Word) (p : Nat × Word) => Tab.put (regSpec p.1).rst t p.1 p.2) t) := by
    intro l
    induction l with
    | nil => intro t ht; exact ht
    | cons a l ih => intro t ht; exact ih _ (Tab.put_wfOn rfl ht)
  exact key _ _ hw.img

theorem State.warmReset_wf (s : State) (last : Nat) (hw : s.hold.wf) : (s.warmReset last).hold.wf := by
  obtain ⟨h1, h2, h3, h5, h0⟩ := hw.mem
  exact ⟨⟨Tab.wfOn_nil _, h2, Tab.wfOn_nil _, h5, Tab.wfOn_nil _⟩, s.keepRegs_wf hw, hw.img, Tab.wfOn_nil _,
    Tab.wfOn_nil _, hw.block, hw.part, hw.slots⟩

theorem execColdPowerUp_wf (orderErr : Bool)
    (s : State) : ∀ t, execColdPowerUp orderErr s = .next t → s.hold.wf → t.hold.wf := by
  intro t h hw
  unfold execColdPowerUp at h
  rw [← Host.Outcome.next.inj h]
  exact ⟨⟨Tab.wfOn_nil _, Tab.wfOn_nil _, Tab.wfOn_nil _, Tab.wfOn_nil _, Tab.wfOn_nil _⟩, Tab.wfOn_nil _, Tab.wfOn_nil
    _, Tab.wfOn_nil _,
    Tab.wfOn_nil _, Tab.wfOn_nil _, Tab.wfOn_nil _, hw.slots⟩

theorem State.applyMove_wf (s : State) (lc : Lifecycle) (hw : s.hold.wf) : (s.applyMove lc).hold.wf := by
  have hr : ∀ (r : Rnd) (o : Option Nat), Tab.wf {} r.slots → Tab.wf {} (r.retire o).slots := by
    intro r o h
    unfold Rnd.retire
    first
      | exact h
      | (split <;> first | exact h | exact Tab.put_wf h)
  cases lc with
  | provisioned => exact { hw with slots := hr _ _ hw.slots }
  | rma => exact { hw with mem := ⟨Tab.wfOn_nil _, Tab.wfOn_nil _, Tab.wfOn_nil _, Tab.wfOn_nil _, Tab.wfOn_nil _⟩ }
  | scrapped => exact { hw with slots := hw.slots }
  | _ => exact { hw with slots := hw.slots }

theorem State.bootToken_wf (s : State) : s.hold.wf → (State.bootToken s).hold.wf := by
  intro hw
  unfold State.bootToken
  try dsimp only
  repeat' first
    | (with_reducible exact hw)
    | (with_reducible apply State.applyMove_wf)
    | split
    | (with_reducible assumption)
    | simp

theorem State.bootNet_wf (s : State) : s.hold.wf → (State.bootNet s).hold.wf := by
  intro hw
  unfold State.bootNet
  try dsimp only
  repeat' first
    | (with_reducible exact hw)
    | (with_reducible apply State.setReg_wf)
    | (refine foldl_wf ?_ _ _ ?_; intros)
    | split
    | (with_reducible assumption)
    | simp

theorem State.runImage_wf (s : State) (x : Option FwImage) (hw : s.hold.wf) : (s.runImage x).hold.wf := by
  unfold State.runImage
  split
  · obtain ⟨h1, h2, _, h5, h0⟩ := hw.mem
    exact { hw with mem := ⟨h1, h2, Tab.wfOn_nil _, h5, h0⟩ }
  · exact hw

theorem State.bootFw_wf (s : State) (hw : s.hold.wf) : s.bootFw.hold.wf := by
  have h1 : ∀ u : State, u.hold.wf → (State.hold { u with mem := { u.mem with owner := Tab.put 0 u.mem.owner 63 7 }
    }).wf :=
    fun u hu => { hu with mem := ⟨hu.mem.1, hu.mem.2.1, hu.mem.2.2.1, hu.mem.2.2.2.1, Tab.put_wf (d := 0) (t :=
    u.mem.owner) (i := 63) (v := 7) hu.mem.2.2.2.2⟩ }
  unfold State.bootFw
  refine foldl_wf (fun t r ht => ?_) _ _ ?_
  · split
    · exact ht
    · rw [State.refillOverflow_hold]; exact ht
  · rw [State.bootLanes_hold]
    exact State.bootNet_wf _ (h1 _ hw)

theorem State.bootImage_wf (s : State) : s.hold.wf → (State.bootImage s).hold.wf := by
  intro hw
  have key : ∀ (u : State) (x : Option FwImage), u.hold = s.hold → ((u.runImage x).bootKeys).bootFw.hold.wf := by
    intro u x hu
    refine State.bootFw_wf _ ?_
    rw [State.bootKeys_hold]
    exact State.runImage_wf _ _ (by rw [hu]; exact hw)
  unfold State.bootImage
  extract_lets
  split
  · exact hw
  · exact key _ _ rfl

theorem State.boot_wf (s : State) : s.hold.wf → (State.boot s).hold.wf := by
  intro hw
  unfold State.boot
  try dsimp only
  repeat' first
    | (with_reducible exact hw)
    | (with_reducible apply State.bootToken_wf)
    | (with_reducible apply State.bootImage_wf)
    | split
    | (with_reducible assumption)
    | simp

theorem State.provision_wf (s : State) (x : Option (BitVec 64 × Bool)) (hw : s.hold.wf) : (s.provision x).hold.wf := by
  unfold State.provision
  split
  · split
    · exact ⟨hw.mem, hw.regs, hw.img, hw.ent0, hw.ent1, hw.block, hw.part, hw.slots⟩
    · exact hw
  · exact hw

theorem execResetNRise_wf (flash : Option Flash) (pwrGood a0 : Bool) (fused : Option (BitVec 64 × Bool)) (s : State) :
    ∀ t, execResetNRise flash pwrGood a0 fused s = .next t → s.hold.wf → t.hold.wf := by
  have h1 : ∀ (u : State) (f : Flash) (p : Pwr), u.hold.wf → (State.hold { u with flash := f, pwr := p }).wf := fun u f
    p hu =>
    ⟨hu.mem, hu.regs, hu.img, hu.ent0, hu.ent1, hu.block, hu.part, hu.slots⟩
  unfold execResetNRise
  refine next_wf (fun hw => ?_)
  split
  · exact hw
  · dsimp only
    split
    · refine State.boot_wf _ ?_
      rw [State.checkTap_hold]
      exact State.provision_wf _ _ (h1 _ _ _ hw)
    · rw [State.checkTap_hold]
      exact State.provision_wf _ _ (h1 _ _ _ hw)

theorem execResetNFall_wf (ns : Nat) (s : State) : ∀ t, (execResetNFall ns s) = .next t → s.hold.wf → t.hold.wf := by
  unfold execResetNFall
  refine next_wf (fun hw => ?_)
  repeat' first
    | (with_reducible exact hw)
    | (with_reducible apply State.warmReset_wf)
    | split
    | (with_reducible assumption)
    | simp

theorem execPwrGoodFall_wf (s : State) : ∀ t, (execPwrGoodFall s) = .next t → s.hold.wf → t.hold.wf := by
  unfold execPwrGoodFall
  refine next_wf (fun hw => ?_)
  repeat' first
    | (with_reducible exact hw)
    | (with_reducible apply State.warmReset_wf)
    | split
    | (with_reducible assumption)
    | simp

theorem execPwrGoodRise_wf (s : State) : ∀ t, (execPwrGoodRise s) = .next t → s.hold.wf → t.hold.wf := by
  unfold execPwrGoodRise
  refine next_wf (fun hw => ?_)
  repeat' first
    | (with_reducible exact hw)
    | (with_reducible apply State.boot_wf)
    | split
    | (with_reducible assumption)
    | simp

theorem State.warmBoot_wf (s : State) (last : Nat) : s.hold.wf → (State.warmBoot s last).hold.wf := by
  intro hw
  unfold State.warmBoot
  try dsimp only
  repeat' first
    | (with_reducible exact hw)
    | (with_reducible apply State.warmReset_wf)
    | (with_reducible apply State.boot_wf)

theorem execGlbRstCtrlWarm_wf (qp : Fin 16) (s : State) : ∀ t,
    (execGlbRstCtrlWarm qp s) = .next t → s.hold.wf → t.hold.wf := by
  unfold execGlbRstCtrlWarm
  refine whenFw_wf (fun hw => ?_)
  refine State.ownerWrite_wf _ _ _ (fun hw => ?_) hw
  repeat' first
    | (with_reducible exact hw)
    | (with_reducible apply State.warmBoot_wf)

theorem State.stopCores_wf (s : State) (hw : s.hold.wf) : s.stopCores.hold.wf := by
  obtain ⟨h1, h2, h3, h5, h0⟩ := hw.mem
  exact { hw with mem := ⟨h1, h2, Tab.wfOn_nil _, h5, Tab.filter_wfOn _ h0.1 (fun p hp _ => h0.2 p hp)⟩ }

theorem State.takeStaged_wf (s : State) : s.hold.wf → (State.takeStaged s).hold.wf := by
  intro hw
  unfold State.takeStaged
  dsimp only
  split
  · refine State.runImage_wf _ _ ?_
    exact hw
  · simpa using hw

theorem State.beginRestart_wf (s : State) (staged : Bool) : s.hold.wf → (State.beginRestart s staged).hold.wf := by
  intro hw
  unfold State.beginRestart
  try dsimp only
  repeat' first
    | (with_reducible exact hw)
    | (with_reducible apply State.stopCores_wf)
    | (with_reducible apply State.takeStaged_wf)
    | (refine foldl_wf ?_ _ _ ?_; intros)
    | split
    | (with_reducible assumption)
    | simp

theorem execControlRestartStart_wf (s : State) : ∀ t, (execControlRestartStart s) = .next t → s.hold.wf → t.hold.wf := by
  unfold execControlRestartStart
  refine whenUp_wf (fun hw => ?_)
  repeat' first
    | (with_reducible exact hw)
    | (with_reducible apply State.beginRestart_wf)
    | split
    | (with_reducible assumption)
    | simp

theorem execControlRestartEnd_wf (formatOk : Bool) (s : State) : ∀ t,
    (execControlRestartEnd formatOk s) = .next t → s.hold.wf → t.hold.wf := by
  unfold execControlRestartEnd
  refine whenUp_wf (fun hw => ?_)
  repeat' first
    | (with_reducible exact hw)
    | (with_reducible apply State.warmBoot_wf)
    | split
    | (with_reducible assumption)
    | simp

theorem execWatchdogExpiry_wf (core : Fin 4) (s : State) : ∀ t,
    (execWatchdogExpiry core s) = .next t → s.hold.wf → t.hold.wf := by
  unfold execWatchdogExpiry
  refine whenUp_wf (fun hw => ?_)
  repeat' first
    | (with_reducible exact hw)
    | (with_reducible apply State.warmBoot_wf)
    | split
    | (with_reducible assumption)
    | simp

theorem State.restartWhisk_wf (s : State) (m : Nat) : s.hold.wf → (State.restartWhisk s m).hold.wf := by
  intro hw
  unfold State.restartWhisk
  try dsimp only
  repeat' first
    | (with_reducible exact hw)
    | (with_reducible apply State.restoreRegion_wf)
    | split
    | (with_reducible assumption)
    | simp

theorem State.resetWhisk_wf (s : State) : s.hold.wf → (State.resetWhisk s).hold.wf := by
  intro hw
  unfold State.resetWhisk
  try dsimp only
  repeat' first
    | (with_reducible exact hw)
    | (with_reducible apply State.restartWhisk_wf)
    | (refine foldl_wf ?_ _ _ ?_; intros)
    | split
    | (with_reducible assumption)

theorem State.resetBlock_wf (s : State) (i : Nat) (hw : s.hold.wf) : (s.resetBlock i).hold.wf := by
  unfold State.resetBlock
  split
  · rw [State.mbBlockReset_hold]; exact hw
  · rw [State.resetPort_hold]; exact hw
  · rw [State.resetPort_hold]; exact hw
  · rw [State.resetDumps_hold]; exact hw
  · exact State.resetWhisk_wf _ hw
  · rw [State.resetCalrin_hold]; exact hw

theorem State.blockResets_wf (s : State) : s.hold.wf → (State.blockResets s).hold.wf := by
  intro hw
  unfold State.blockResets
  try dsimp only
  repeat' first
    | (with_reducible exact hw)
    | (with_reducible apply State.resetBlock_wf)
    | (refine foldl_wf ?_ _ _ ?_; intros)
    | split
    | (with_reducible assumption)
    | simp

theorem effectAt_wf {opc : Nat} {f : Effect} (hf : effectAt opc = some f) (h : Nat) (e : JEntry) (s : State)
    (hw : s.hold.wf) :
    (f h e s).hold.wf := by
  unfold effectAt at hf
  split at hf <;> first
    | (cases hf; done)
    | (rw [← Option.some.inj hf]; first
        | with_reducible exact effPartitionSet_wf _ _ _ hw
        | with_reducible exact effFwActivate_wf _ _ _ hw
        | with_reducible exact effFwStage_wf _ _ _ hw
        | (simp; with_reducible exact hw))

theorem scheduleOf_wf {opc : Nat} {f : Effect} (hf : scheduleOf opc = some f) (h : Nat) (e : JEntry) (s : State)
    (hw : s.hold.wf) :
    (f h e s).hold.wf := by
  unfold scheduleOf at hf
  split at hf <;> first
    | (cases hf; done)
    | (rw [← Option.some.inj hf]; simp; with_reducible exact hw)

theorem State.asOf_wf (s : State) (tn : Nat) (f : State → State) (hf : ∀ s, s.hold.wf → (f s).hold.wf) (hw : s.hold.wf) :
    (s.asOf tn f).hold.wf := by
  unfold State.asOf
  exact hf _ hw

theorem State.mateEffect_wf (s : State) (o : Owed) (hw : s.hold.wf) : (s.mateEffect o).hold.wf := by
  unfold State.mateEffect
  split
  · exact hw
  · split
    · exact hw
    · split
      · exact hw
      · rename_i hf
        refine State.asOf_wf _ _ _ (fun u hu => ?_) hw
        split at hf
        · exact scheduleOf_wf hf _ _ _ hu
        · exact effectAt_wf hf _ _ _ hu

theorem payOwed_wf (n : Nat) (s : State) (hw : s.hold.wf) : (payOwed n s).hold.wf := by
  induction n generalizing s with
  | zero => exact hw
  | succ n ih =>
    have hr : ∀ (u : State) (r : List Owed), u.hold.wf → (State.hold { u with cal := { u.cal with owed := r } }).wf :=
    fun _ _ h => h
    unfold payOwed
    split
    · exact hw
    · rename_i o rest _
      have hb : (s.owedBatch o.h).hold.wf := by rw [State.owedBatch_hold]; exact hw
      generalize s.owedBatch o.h = u at hb ⊢
      dsimp only
      split
      · exact ih _ (hr _ _ hb)
      · split
        · exact hb
        · split
          · rw [State.recordGap_hold]; exact hb
          · exact ih _ (State.mateEffect_wf _ _ (hr _ _ hb))

theorem State.owe_wf (s : State) (o : Owed) : s.hold.wf → (State.owe s o).hold.wf := by
  intro hw
  unfold State.owe
  try dsimp only
  repeat' first
    | (with_reducible exact hw)
    | (with_reducible apply payOwed_wf)
    | split
    | (with_reducible assumption)
    | simp

theorem State.mateCmp_wf (s : State) (tn : Nat) (c : LCmp) : s.hold.wf → (State.mateCmp s tn c).hold.wf := by
  intro hw
  unfold State.mateCmp
  try dsimp only
  repeat' first
    | (with_reducible exact hw)
    | (with_reducible apply State.owe_wf)
    | split
    | (with_reducible assumption)
    | simp

theorem State.mateMap_wf (s : State) (tn : Nat) (m : LMap) (hw : s.hold.wf) : (s.mateMap tn m).hold.wf := by
  have hj : (s.mateJob m.h).hold.wf := by rw [State.mateJob_hold]; exact hw
  unfold State.mateMap
  generalize s.mateJob m.h = u at hj ⊢
  have hq : ∀ (c : Bool) (x : List QWrite) (f : MapJob → MapJob) (h : Nat),
      ((if c then { u with flp := { u.flp with queue := x } } else u).setJobs f h).hold.wf := by
    intro c x f h
    rw [State.setJobs_hold]
    split <;> exact hj
  have hp : ∀ (c : Prop) (_ : Decidable c) (v : State) (a b c' d : Nat) (e : Bool) (w : Nat), v.hold.wf →
      (if c then (v.checkRead c').mapPut a b c' d e else ({ s := v, status := w } : Put)).s.hold.wf := by
    intro c _ v a b c' d e w hv
    split
    · exact State.mapPut_wf _ _ _ _ _ _ (by rw [State.checkRead_hold]; exact hv)
    · exact hv
  dsimp only
  split
  · split
    · exact State.mapPut_wf _ _ _ _ _ _ (by rw [State.checkRead_hold]; exact hj)
    · exact hj
  · split
    · rw [State.setJobs_hold]; exact hj
    · rw [State.setJobs_hold, State.count_hold, State.count_hold, ite_hold]
      by_cases hm : m.outcome = 0
      · rw [if_pos hm, State.carry_hold]
        exact hp _ _ _ _ _ _ _ _ _ (hq _ _ _ _)
      · rw [if_neg hm]
        exact hp _ _ _ _ _ _ _ _ _ (hq _ _ _ _)

theorem State.mateEvt_wf (s : State) (tn : Nat) (e : LEvt) : s.hold.wf → (State.mateEvt s tn e).hold.wf := by
  intro hw
  unfold State.mateEvt
  try dsimp only
  repeat' first
    | (with_reducible exact hw)
    | (with_reducible apply State.mateEffect_wf)
    | (with_reducible apply State.owe_wf)
    | split
    | (with_reducible assumption)
    | simp

theorem State.applyRec_wf (s : State) (r : LRec) (hw : s.hold.wf) : (s.applyRec r).hold.wf := by
  have h1 : ∀ u : State, u.hold.wf → (if r.yield_ ∧ u.cal.role = .standby then u.becomeActive else u).hold.wf := by
    intro u hu
    split
    · rw [State.becomeActive_hold]; exact hu
    · exact hu
  unfold State.applyRec
  dsimp only
  apply h1
  rw [State.mateRemote_hold]
  refine foldl_wf (fun t x ht => by rw [State.mateCount_hold]; exact ht) _ _ ?_
  rw [State.mateQuiet_hold]
  refine foldl_wf (fun t e ht => State.mateEvt_wf t r.tn e ht) _ _ ?_
  refine foldl_wf (fun t m ht => State.asOf_wf t r.tn _ (fun u hu => State.mateMap_wf u r.tn m hu) ht) _ _ ?_
  refine foldl_wf (fun t c ht => State.mateCmp_wf t r.tn c ht) _ _ ?_
  refine foldl_wf (fun t x ht => State.asOf_wf t r.tn _ (fun u hu => by rw [State.mateRing_hold]; exact hu) ht) _ _ ?_
  refine foldl_wf (fun t a ht => State.asOf_wf t r.tn _ (fun u hu => by rw [State.mateAcc_hold]; exact hu) ht) _ _ ?_
  rw [State.mateStr_hold]
  exact hw

theorem applyDue_wf (n : Nat) (s : State) (hw : s.hold.wf) : (applyDue n s).hold.wf := by
  induction n generalizing s with
  | zero => exact hw
  | succ n ih =>
    unfold applyDue
    split
    · exact hw
    · split
      · exact ih _ (State.applyRec_wf _ _ hw)
      · exact hw

theorem State.takeControl_wf (s : State) (c : Control) (hw : s.hold.wf) : (s.takeControl c).hold.wf where
  mem := hw.mem
  regs := hw.regs
  img := hw.img
  ent0 := Tab.tidy_wf _ _
  ent1 := Tab.tidy_wf _ _
  block := Tab.tidy_wf _ _
  part := Tab.tidy_wf _ _
  slots := hw.slots

theorem State.applySnap_wf (s : State) (hw : s.hold.wf) : s.applySnap.hold.wf := by
  unfold State.applySnap
  split
  · exact hw
  · dsimp only
    split
    · exact State.takeControl_wf s _ hw
    · exact hw

theorem execLadleRecordApply_wf (s : State) : ∀ t, (execLadleRecordApply s) = .next t → s.hold.wf → t.hold.wf := by
  unfold execLadleRecordApply
  refine whenUp_wf (fun hw => ?_)
  repeat' first
    | (with_reducible exact hw)
    | (with_reducible apply payOwed_wf)
    | (with_reducible apply applyDue_wf)
    | (with_reducible apply State.applySnap_wf)

theorem execSilenceTakeover_wf (s : State) : ∀ t, (execSilenceTakeover s) = .next t → s.hold.wf → t.hold.wf := by
  unfold execSilenceTakeover
  refine whenUp_wf (fun hw => ?_)
  repeat' first
    | (with_reducible exact hw)
    | (with_reducible apply applyDue_wf)
    | split
    | (with_reducible assumption)
    | simp

theorem State.second_wf (s : State) : s.hold.wf → (State.second s).hold.wf := by
  intro hw
  unfold State.second
  try dsimp only
  repeat' first
    | (with_reducible exact hw)
    | (with_reducible apply State.latch_wf)
    | (refine foldl_wf ?_ _ _ ?_; intros)
    | split
    | (with_reducible assumption)
    | simp

theorem State.secondNow_wf (s : State) (hw : s.hold.wf) : s.secondNow.hold.wf := by
  unfold State.secondNow
  split
  · exact State.second_wf _ hw
  · exact hw

/-! ### The boundary actions of a tick -/

theorem State.cycle0_wf (s : State) (hw : s.hold.wf) : s.cycle0.hold.wf := by
  unfold State.cycle0
  rw [State.loopsNow_hold, State.pairsNow_hold]
  exact State.firesNow_wf _ (State.flipsNow_wf _ hw)

theorem State.cycle1_wf (s : State) (hw : s.hold.wf) : s.cycle1.hold.wf := by
  unfold State.cycle1
  rw [State.dumpsNow_hold, State.presetsNow_hold]
  exact State.secondNow_wf _ (State.cycle0_wf _ hw)

theorem State.boundary_wf (s : State) (hw : s.hold.wf) : s.boundary.hold.wf := by
  have h := State.refsNow_wf _ (State.cycle1_wf _ hw)
  unfold State.boundary
  dsimp only
  split
  · exact h
  · rw [State.stepNow_hold]; exact h

theorem State.finish_wf (s : State) (hw : s.hold.wf) : s.finish.hold.wf := by
  unfold State.finish
  refine State.copySlice_wf _ ?_
  rw [State.slotsNow_hold, State.stepNow_hold]
  exact State.refsNow_wf _ (State.cycle1_wf _ hw)

theorem execLaneLoopApply_wf (lane : Fin 256) (s : State) : ∀ t, execLaneLoopApply lane s = .next t → s.hold.wf → t.hold.wf := by
  unfold execLaneLoopApply
  refine whenUp_wf (fun hw => ?_)
  split
  · rw [State.loopNow_hold, State.pairsNow_hold]
    exact State.firesNow_wf _ (State.flipsNow_wf _ hw)
  · exact hw

theorem execSecondBoundary_wf (s : State) : ∀ t, (execSecondBoundary s) = .next t → s.hold.wf → t.hold.wf := by
  unfold execSecondBoundary
  refine whenUp_wf (fun hw => ?_)
  split
  · exact State.secondNow_wf _ (State.cycle0_wf _ hw)
  · exact hw

theorem execCounterPresetApply_wf (s : State) : ∀ t, execCounterPresetApply s = .next t → s.hold.wf → t.hold.wf := by
  unfold execCounterPresetApply
  refine whenUp_wf (fun hw => ?_)
  split
  · exact hw
  · rw [State.presetsNow_hold]
    exact State.secondNow_wf _ (State.cycle0_wf _ hw)

theorem execDumpConfigApply_wf (s : State) : ∀ t, execDumpConfigApply s = .next t → s.hold.wf → t.hold.wf := by
  unfold execDumpConfigApply
  refine whenUp_wf (fun hw => ?_)
  split
  · exact hw
  · exact State.cycle1_wf _ hw

theorem execRefConfigApply_wf (s : State) : ∀ t, (execRefConfigApply s) = .next t → s.hold.wf → t.hold.wf := by
  unfold execRefConfigApply
  refine whenUp_wf (fun hw => ?_)
  split
  · exact State.cfgNow_wf _ (State.cycle1_wf _ hw)
  · exact hw

theorem execRefForceApply_wf (s : State) : ∀ t, execRefForceApply s = .next t → s.hold.wf → t.hold.wf := by
  unfold execRefForceApply
  refine whenUp_wf (fun hw => ?_)
  split
  · rw [State.forceNow_hold]; exact State.cycle1_wf _ hw
  · exact hw

theorem execSelectionPeriodBoundary_wf (m : PeriodIn) (s : State) : ∀ t,
    execSelectionPeriodBoundary m s = .next t → s.hold.wf → t.hold.wf := by
  unfold execSelectionPeriodBoundary
  refine whenUp_wf (fun hw => ?_)
  split
  · rw [State.period_hold]; exact State.refsNow_wf _ (State.cycle1_wf _ hw)
  · exact hw

theorem execPhaseStepApply_wf (s : State) : ∀ t, execPhaseStepApply s = .next t → s.hold.wf → t.hold.wf := by
  unfold execPhaseStepApply
  refine whenUp_wf (fun hw => ?_)
  split
  · exact State.boundary_wf _ hw
  · exact hw

theorem execSlotProcessing_wf (s : State) : ∀ t, execSlotProcessing s = .next t → s.hold.wf → t.hold.wf := by
  unfold execSlotProcessing
  refine whenUp_wf (fun hw => ?_)
  split
  · exact hw
  · rw [State.slotsNow_hold]; exact State.boundary_wf _ hw

theorem execMapWriteExecute_wf (s : State) : ∀ t, (execMapWriteExecute s) = .next t → s.hold.wf → t.hold.wf := by
  unfold execMapWriteExecute
  refine next_wf (fun hw => ?_)
  split
  · exact State.mapNow_wf _ (State.boundary_wf _ hw)
  · exact hw

theorem execLadleRecordSeal_wf (s : State) : ∀ t, execLadleRecordSeal s = .next t → s.hold.wf → t.hold.wf := by
  unfold execLadleRecordSeal
  refine whenUp_wf (fun hw => ?_)
  split
  · rw [State.sealNow_hold, State.slotsNow_hold]; exact State.boundary_wf _ hw
  · exact hw

theorem State.writeFields_wf (s : State) (a : Nat) (v : Word) : s.hold.wf → (State.writeFields s a v).hold.wf := by
  intro hw
  unfold State.writeFields
  try dsimp only
  repeat' first
    | (with_reducible exact hw)
    | (with_reducible apply State.setReg_wf)
    | split
    | (with_reducible assumption)
    | simp

theorem State.writeWord_wf (s : State) (a : Nat) (v : Word) (hw : s.hold.wf) : (s.writeWord a v).hold.wf := by
  have hb : ∀ y : Sds, State.hold { s with sds := y } = s.hold := fun _ => rfl
  have hi : ∀ (c : Prop) [Decidable c] (x y : State), x.hold.wf → y.hold.wf → (if c then x else y).hold.wf := by
    intro c _ x y hx hy
    split
    · exact hx
    · exact hy
  have hf := State.writeFields_wf s a v hw
  unfold State.writeWord
  dsimp only
  refine hi _ _ _ (hi _ _ _ hw (by rw [hb]; exact hw)) (hi _ _ _ (hi _ _ _ (by rw [State.askLoad_hold]; exact hf) hf)
    (hi _ _ _ (hi _ _ _ (by rw [State.btLoad_hold]; exact hw) hw)
    (hi _ _ _ (State.setTiming_wf _ _ _ hw)
    (hi _ _ _ (by rw [State.linkBroken_hold]; exact hf)
    (hi _ _ _ (by rw [State.linkBroken_hold]; exact hf)
    (hi _ _ _ (State.writeFreeze_wf _ _ hw)
    (hi _ _ _ (hi _ _ _ (by rw [State.swap_hold]; exact hw) hw)
    (hi _ _ _ (by rw [State.askBlocks_hold]; exact hw)
    (hi _ _ _ (by rw [State.askGroups_hold]; exact hw)
    (hi _ _ _ (hi _ _ _ (by rw [State.mbSlot_hold]; exact hw) (hi _ _ _ (by rw [State.mbCtrl_hold]; exact hw) hf))
    hf))))))))))

theorem State.writeWords_wf (s : State) (n a : Nat) (l : List Byte) (hw : s.hold.wf) : (s.writeWords n a l).hold.wf := by
  induction n generalizing s a l with
  | zero => exact hw
  | succ n ih =>
    unfold State.writeWords
    dsimp only
    split
    · exact State.warmBoot_wf _ _ (ih _ _ _ hw)
    · exact ih _ _ _ (State.writeWord_wf _ _ _ hw)

theorem State.writePiece_wf (s : State) (x : Access) (hw : s.hold.wf) : (s.writePiece x).1.hold.wf := by
  unfold State.writePiece
  dsimp only
  split
  · rw [State.answer_hold]
    exact State.writeWords_wf _ _ _ _ hw
  · exact State.writeWords_wf _ _ _ _ hw

theorem State.serveAccess_wf (s : State) (x : Access) (hw : s.hold.wf) : (s.serveAccess x).hold.wf := by
  unfold State.serveAccess
  rw [keepPiece_hold]
  split
  · exact State.writePiece_wf _ _ hw
  · rw [State.readPiece_hold]; exact hw

theorem State.morePieces_wf (s : State) : s.hold.wf → (State.morePieces s).hold.wf := by
  intro hw
  unfold State.morePieces
  try dsimp only
  repeat' first
    | (with_reducible exact hw)
    | (with_reducible apply State.serveAccess_wf)
    | (refine foldl_wf ?_ _ _ ?_; intros)
    | split
    | (with_reducible assumption)
    | simp

theorem State.hostWrite_wf (s : State) (q : Nat) (rkey : Word) (addr : Nat) (data : List Byte) : s.hold.wf →
    (State.hostWrite s q rkey addr data).hold.wf := by
  intro hw
  unfold State.hostWrite
  try dsimp only
  repeat' first
    | (with_reducible exact hw)
    | (with_reducible apply State.serveAccess_wf)
    | split
    | (with_reducible assumption)
    | simp

theorem execRegisterWrite_wf (qp : Fin 16) (rkey : Word) (addr : Nat) (data : List Byte) (s : State) : ∀ t,
    (execRegisterWrite qp rkey addr data s) = .next t → s.hold.wf → t.hold.wf := by
  unfold execRegisterWrite
  refine whenFw_wf (fun hw => ?_)
  repeat' first
    | (with_reducible exact hw)
    | (with_reducible apply State.hostWrite_wf)

theorem State.rocv_wf (s : State) (p : Nat) (o : Roce) : s.hold.wf → (State.rocv s p o).hold.wf := by
  intro hw
  unfold State.rocv
  try dsimp only
  repeat' first
    | (with_reducible exact hw)
    | (with_reducible apply State.hostWrite_wf)
    | split
    | (with_reducible assumption)
    | simp

theorem execMgmtFrameReceived_wf (port : Fin 2) (f : EthFrame) (s : State) : ∀ t,
    (execMgmtFrameReceived port f s) = .next t → s.hold.wf → t.hold.wf := by
  unfold execMgmtFrameReceived
  refine whenFw_wf (fun hw => ?_)
  repeat' first
    | (with_reducible exact hw)
    | (with_reducible apply State.rocv_wf)
    | split
    | (with_reducible assumption)
    | simp

theorem State.memAccess_wf (s : State) (q : RackReq) (hk : q.target = 1 ∨ q.target = 2 ∨ q.target = 3 ∨ q.target = 5)
    (hw : s.hold.wf) :
    (s.memAccess q).hold.wf := by
  unfold State.memAccess
  dsimp only
  split
  · split
    · split
      · rw [State.rackOk_hold]
        exact State.withMem_wf _ _ (Mem.setTabOf_wf _ _ _ hk (Tab.put_wfOn rfl (Mem.tabOf_wf _ _ hk hw.mem)) hw.mem) hw
      · rw [State.rackError_hold]; exact hw
    · split
      · rw [State.rackError_hold]; exact hw
      · rw [State.rackOk_hold]
        exact State.memWrite_wf _ _ _ _ hk hw
  · rw [State.rackOk_hold]; exact hw

theorem State.masterWrite_wf (s : State) (m a : Nat) (v : Word) (hw : s.hold.wf) : (s.masterWrite m a v).hold.wf := by
  have hi : ∀ (c : Prop) [Decidable c] (x y : State), x.hold.wf → y.hold.wf → (if c then x else y).hold.wf := by
    intro c _ x y hx hy
    split
    · exact hx
    · exact hy
  unfold State.masterWrite
  dsimp only
  exact hi _ _ _ (hi _ _ _ (by rw [State.mbSlot_hold]; exact hw) (hi _ _ _ (by rw [State.mbCtrl_hold]; exact hw)
    (State.writeFields_wf _ _ _ hw))) (hi _ _ _ hw (State.writeWord_wf _ _ _ hw))

theorem State.masterWrites_wf (s : State) (m n a : Nat) (l : List Byte) (hw : s.hold.wf) :
    (s.masterWrites m n a l).hold.wf := by
  induction n generalizing s a l with
  | zero => exact hw
  | succ n ih =>
    unfold State.masterWrites
    exact ih _ _ _ (State.masterWrite_wf _ _ _ _ hw)

theorem State.regAccess_wf (s : State) (q : RackReq) : s.hold.wf → (State.regAccess s q).hold.wf := by
  intro hw
  unfold State.regAccess
  try dsimp only
  repeat' first
    | (with_reducible exact hw)
    | (with_reducible apply State.writeWords_wf)
    | (with_reducible apply State.masterWrites_wf)
    | split
    | (with_reducible assumption)
    | simp

theorem State.diagAccess_wf (s : State) (q : RackReq) (hk : q.target = 5) (hw : s.hold.wf) :
    (s.diagAccess q).hold.wf := by
  unfold State.diagAccess
  dsimp only
  split
  · rw [State.rackError_hold]; exact hw
  · split
    · exact State.memAccess_wf _ _ (by omega) (by rw [State.setReqs_hold]; exact hw)
    · rw [State.rackOk_hold, State.draw_hold, State.setReqs_hold]; exact hw

theorem execRackAccess_wf (a : RackReq) (s : State) : ∀ t, execRackAccess a s = .next t → s.hold.wf → t.hold.wf := by
  unfold execRackAccess
  refine whenUp_wf (fun hw => ?_)
  split
  · exact hw
  · dsimp only
    have hu : (if a.target = 1 then (s.count 7 0 5 a.stall).count 7 0 6 a.whisk else s).hold.wf := by
      split
      · rw [State.count_hold, State.count_hold]; exact hw
      · exact hw
    generalize (if a.target = 1 then (s.count 7 0 5 a.stall).count 7 0 6 a.whisk else s) = u at hu ⊢
    split
    · rw [State.rackError_hold]; exact hu
    · split
      · rw [State.rackError_hold]; exact hu
      · split
        · exact State.regAccess_wf _ _ hu
        · split
          · split
            · exact State.regAccess_wf _ _ hu
            · rw [State.rackError_hold]; exact hu
          · split
            · rw [State.rackOk_hold]; exact hu
            · split
              · exact State.diagAccess_wf _ _ (by assumption) hu
              · exact State.memAccess_wf _ _ (by omega) hu

theorem execPantryOwnerWrite_wf (master : Nat) (bank : Fin 64) (newOwner : Nat) (s : State) :
    ∀ t, execPantryOwnerWrite master bank newOwner s = .next t → s.hold.wf → t.hold.wf := by
  unfold execPantryOwnerWrite
  refine whenUp_wf (fun hw => ?_)
  split
  · rw [State.rackOk_hold]
    obtain ⟨h1, h2, h3, h5, h0⟩ := hw.mem
    exact { hw with mem := ⟨h1, h2, h3, h5, Tab.put_wf h0⟩ }
  · rw [State.rackError_hold]; exact hw

theorem execPantryAtomic_wf (master : Nat) (bank : Fin 64) (off : Nat) (swap : Bool) (v : Word64) (stall : Nat) (whisk : Nat)
    (s : State) : ∀ t, (execPantryAtomic master bank off swap v stall whisk s) = .next t → s.hold.wf → t.hold.wf := by
  unfold execPantryAtomic
  refine whenUp_wf (fun hw => ?_)
  repeat' first
    | (with_reducible exact hw)
    | (with_reducible apply State.memWrite_wf)
    | split
    | (with_reducible assumption)
    | simp

theorem execWhiskRegionEnd_wf (m : Fin 9) (failed : Bool) (s : State) : ∀ t,
    (execWhiskRegionEnd m failed s) = .next t → s.hold.wf → t.hold.wf := by
  unfold execWhiskRegionEnd
  refine whenUp_wf (fun hw => ?_)
  repeat' first
    | (with_reducible exact hw)
    | (with_reducible apply State.restoreRegion_wf)
    | split
    | (with_reducible assumption)
    | simp

theorem State.wdogRestart_wf (s : State) : s.hold.wf → (State.wdogRestart s).hold.wf := by
  intro hw
  unfold State.wdogRestart
  try dsimp only
  repeat' first
    | (with_reducible exact hw)
    | (with_reducible apply State.beginRestart_wf)
    | split

theorem State.tick_wf (s : State) (hw : s.hold.wf) : s.tick.hold.wf := by
  unfold State.tick
  split
  · dsimp only
    refine State.morePieces_wf _ ?_
    rw [foldl_hold State.answerKick_hold, State.flushHeld_hold]
    refine State.blockResets_wf _ (State.wdogRestart_wf _ ?_)
    rw [State.heartbeat_hold, State.countEdge_hold, State.advance_hold, foldl_hold State.publish_hold]
    exact State.finish_wf _ hw
  · rw [State.advance_hold]
    exact hw

end Sys2Proof.Machine
end

