-- ==== Sys2Proof/Laws/Lemmas.lean ====
section
/-! SUPPORT. What shared operations of lanes, lane groups and mate roles can do, one lemma each. -/
namespace Sys2Proof.Machine

/-- Entering HUNT leaves the ladder and the sticky bits. -/
theorem State.enterHunt_frame (s : State) (n : Nat) :
    (s.enterHunt n).sds.group = s.sds.group ∧ (s.enterHunt n).sticky = s.sticky := by
  unfold State.enterHunt
  dsimp only
  have h1 : ∀ u : State, (u.noteDefects n).sds = u.sds ∧ (u.noteDefects n).sticky = u.sticky := fun u => ⟨rfl, rfl⟩
  rw [(h1 _).1, (h1 _).2]
  split <;> exact ⟨rfl, rfl⟩

/-- What a group announces. -/
theorem State.announce_group (s : State) (g k a : Nat) : ∃ q, (s.announce g k a).group g =
    { s.group g with target := k, sendAct := a, ownSeq := some q, ownDone := false,
                     exch := if a = 1 then ((s.group g).exch + 1) % 256 else (s.group g).exch } :=
  ⟨_, State.setGroup_self _ _ _⟩

/-- The end of a scan leaves the ladder, the lanes, the framer, the loops and the sticky bits. -/
theorem State.abortScan_frame (s : State) (n c : Nat) : (s.abortScan n c).sds.group = s.sds.group ∧
    (s.abortScan n c).sticky = s.sticky ∧ (s.abortScan n c).sds.lane = s.sds.lane ∧ (s.abortScan n c).frm = s.frm ∧
    (s.abortScan n c).sds.loops = s.sds.loops := by
  unfold State.abortScan
  split
  · exact ⟨rfl, rfl, rfl, rfl, rfl⟩
  · unfold State.endScan; simp

/-- Entering R0_ALIGN: the group's state; no other group and no sticky bit changes. -/
theorem State.enterAlign_group (s : State) (g j : Nat) :
    (s.enterAlign g).group j = if j = g then { s.group g with st := .r0Align, rung := 0, txRung := 0, since := s.clk.tick, target := 0, sendAct := 0, ownSeq := none, farSeq := none, ownDone := false, farDone := false } else s.group j := by
  unfold State.enterAlign
  dsimp only
  show Tab.look _ (State.sds _).group j = _
  refine Eq.trans (congrArg (fun x => Tab.look {} x j) (foldl_keep (p := fun s : State => s.sds.group) (fun s n => ?_) (groupLanes g) _)) ?_
  · split <;> split <;> first
      | rfl | exact (State.enterHunt_frame _ _).1 | exact (State.abortScan_frame _ _ _).1
      | exact (State.enterHunt_frame _ _).1.trans (State.abortScan_frame _ _ _).1
  · have h : ∀ (u : State) x, u.sds.group = s.sds.group → Tab.look {} (u.setGroup g x).sds.group j = if j = g then x else s.group j := by
      intro u x hu
      split
      · rename_i h; subst h; exact State.setGroup_self _ _ _
      · rename_i h; exact (State.setGroup_of_ne _ _ h).trans (by unfold State.group; rw [hu])
    refine (h _ _ ?_).trans ?_
    · split <;> rfl
    · by_cases hj : j = g
      · rw [if_pos hj, if_pos hj]; split <;> rfl
      · rw [if_neg hj, if_neg hj]

theorem State.enterAlign_sticky (s : State) (g : Nat) : (s.enterAlign g).sticky = s.sticky := by
  unfold State.enterAlign
  dsimp only
  refine (foldl_keep (p := fun s : State => s.sticky) (fun s n => ?_) (groupLanes g) _).trans ?_
  · split <;> split <;> first
      | rfl | exact (State.enterHunt_frame _ _).2 | exact (State.abortScan_frame _ _ _).2.1
      | exact (State.enterHunt_frame _ _).2.trans (State.abortScan_frame _ _ _).2.1
  · split <;> rfl

/-- The lanes of a group take a rung in a direction: the group is on it, nothing else of any group changes. -/
theorem State.takeRung_group (s : State) (g r j : Nat) (own : Bool) :
    (s.takeRung g r own).group j = if j = g then (if own then { s.group g with txRung := r } else { s.group g with rung := r }) else s.group j := by
  unfold State.takeRung
  dsimp only
  show Tab.look _ (State.sds _).group j = _
  refine Eq.trans (congrArg (fun x => Tab.look {} x j) (foldl_keep (p := fun s : State => s.sds.group) (fun s n => ?_) (groupLanes g) _)) ?_
  · split
    · exact (State.abortScan_frame _ _ _).1
    · split
      · exact (State.enterHunt_frame _ _).1.trans (State.abortScan_frame _ _ _).1
      · exact (State.abortScan_frame _ _ _).1
  · by_cases h : j = g
    · subst h; rw [if_pos rfl]; exact State.setGroup_self _ _ _
    · rw [if_neg h]; exact State.setGroup_of_ne _ _ h

theorem State.setLanes_group (l : List Nat) (f : State → Nat → Lane) (s : State) :
    (l.foldl (fun s n => s.setLane n (f s n)) s).sds.group = s.sds.group ∧
    (l.foldl (fun s n => s.setLane n (f s n)) s) = { s with sds := (l.foldl (fun s n => s.setLane n (f s n)) s).sds } := by
  induction l generalizing s with
  | nil => exact ⟨rfl, rfl⟩
  | cons a l ih => rw [List.foldl_cons]; exact ⟨(ih _).1, (ih _).2⟩

/-- VERIFY begins: the group's state. -/
theorem State.enterVerify_group (s : State) (g j : Nat) :
    (s.enterVerify g).group j = if j = g then { s.group g with st := .verify, since := s.clk.tick, sendAct := 0 } else s.group j := by
  unfold State.enterVerify
  show Tab.look _ (State.sds _).group j = _
  rw [(State.setLanes_group _ (fun s n => { s.lane n with verBad := false, verCorr := 0, frameAt := none, cap := none, capLast := none }) _).1]
  split
  · rename_i h; subst h; exact State.setGroup_self _ _ _
  · rename_i h; exact State.setGroup_of_ne _ _ h

/-- A group comes into service: LADDER_UP, and the group's state; its source qualifies afresh. -/
theorem State.inService_eq (s : State) (g : Nat) : ∃ u : State, s.inService g = u.event [0] 0x0010 g (s.group g).rung ∧
    (u.group g) = { s.group g with st := .inService, sendAct := 0 } ∧ u = { s with sds := u.sds, str := (s.setSrc g { s.src g with qualified := false, since := none }).str } := by
  refine ⟨_, rfl, ?_, ?_⟩
  · show Tab.look _ (State.sds _).group g = _
    rw [(State.setLanes_group _ (fun s n => { s.lane n with dropSince := if (s.rx n).align = .hunt then some s.clk.tick else none }) _).1]
    exact State.setGroup_self _ _ _
  · rw [(State.setLanes_group (groupLanes g) (fun s n => { s.lane n with dropSince := if (s.rx n).align = .hunt then some s.clk.tick else none }) _).2]
    rfl

theorem State.groupLinkDown_sds (s : State) (g : Nat) : (s.groupLinkDown g).sds = s.sds :=
  State.keeps_of_blank (State.groupLinkDown_blank (S := fun a => decide (a ≠ .sds)) rfl rfl rfl rfl rfl s g) .sds rfl

/-- A fallback: the group's state. -/
theorem State.fallback_group (s : State) (g : Nat) (ls : List Nat) :
    let x := (s.fallback g ls).group g
    x.st = .fallback ∧ x.ceil = (s.group g).rung - 1 ∧ x.target = 0 ∧ x.sendAct = 1 ∧ x.farSeq = none := by
  have key : ∃ q, (s.fallback g ls).group g = { s.group g with st := .fallback, ceil := (s.group g).rung - 1, since := s.clk.tick, farSeq := none, farDone := false, target := 0, sendAct := 1, ownSeq := some q, ownDone := false, exch := ((s.group g).exch + 1) % 256 } := by
    unfold State.fallback
    dsimp only
    obtain ⟨q, hq⟩ := State.announce_group (s.setGroup g { s.group g with st := .fallback, ceil := (s.group g).rung - 1, since := s.clk.tick, farSeq := none, farDone := false }) g 0 1
    refine ⟨q, ?_⟩
    show Tab.look _ (State.sds _).group g = _
    rw [State.groupLinkDown_sds, State.event_sds, (State.setLanes_group _ (fun s n => { s.lane n with cap := none, capLast := none }) _).1]
    refine Eq.trans hq ?_
    rw [State.setGroup_self]
    rfl
  obtain ⟨q, hq⟩ := key
  simp only [hq]
  exact ⟨trivial, trivial, trivial, trivial, trivial⟩

/-- Entering HUNT changes of lanes only since when the frame is lost. -/
theorem State.enterHunt_lane {α : Type} (f : Lane → α) (hf : ∀ x d, f { x with dropSince := d } = f x) (s : State) (n m : Nat) :
    f ((s.enterHunt n).lane m) = f (s.lane m) := by
  unfold State.enterHunt
  dsimp only
  have h1 : ∀ u : State, (u.noteDefects n).lane m = u.lane m := fun u => rfl
  rw [h1]
  split
  · by_cases h : m = n
    · subst h; rw [State.setLane_self]; exact hf _ _
    · rw [State.setLane_of_ne _ _ h]; rfl
  · rfl

/-- The receiver is in HUNT, the defects follow; other receivers stand. -/
theorem State.noteDefects_align (s : State) (n m : Nat) : ((s.noteDefects n).rx m).align = (s.rx m).align := by
  unfold State.noteDefects
  dsimp only
  by_cases h : m = n
  · subst h; rw [State.setRx_self]; rfl
  · rw [State.setRx_of_ne _ _ h]

theorem State.enterHunt_align (s : State) (n m : Nat) : ((s.enterHunt n).rx m).align = if m = n then .hunt else (s.rx m).align := by
  unfold State.enterHunt
  dsimp only
  rw [State.noteDefects_align]
  have h2 : ∀ (u : State) l, (u.setLane n l).rx m = u.rx m := fun u l => rfl
  have h3 : ∀ (u : State) (b : Prop) [Decidable b] l, (if b then u.setLane n l else u).rx m = u.rx m := by
    intro u b _ l; split <;> rfl
  rw [h3]
  split
  · rename_i h; subst h; rw [State.setRx_self]
  · rename_i h; rw [State.setRx_of_ne _ _ h]; rfl

theorem State.abortScan_lane (s : State) (n c m : Nat) : (s.abortScan n c).lane m = s.lane m ∧ (s.abortScan n c).rx m = s.rx m := by
  obtain ⟨-, -, h1, h2, -⟩ := State.abortScan_frame s n c
  exact ⟨by unfold State.lane; rw [h1], by unfold State.rx; rw [h2]⟩

/-- A group taken to R0_ALIGN, if it is: of a lane only what the ladder keeps changes. -/
theorem State.tryAlign_lane {α : Type} (f : Lane → α) (hf : ∀ x d, f { x with capLast := none, cap := none, wakeDue := none, dropSince := d } = f x)
    (hd : ∀ x d, f { x with dropSince := d } = f x) (s : State) (g m : Nat) : f ((s.tryAlign g).lane m) = f (s.lane m) := by
  unfold State.tryAlign
  dsimp only
  split
  · unfold State.enterAlign
    dsimp only
    refine (foldl_keep (p := fun s : State => f (s.lane m)) (fun s n => ?_) _ _).trans ?_
    · have h1 : f ((s.setLane n { s.lane n with capLast := none, cap := none, wakeDue := none }).lane m) = f (s.lane m) := by
        by_cases h : m = n
        · subst h; rw [State.setLane_self]; exact hf (s.lane m) (s.lane m).dropSince
        · rw [State.setLane_of_ne _ _ h]
      split <;> split
      · exact (State.enterHunt_lane f hd _ _ _).trans ((congrArg f (State.abortScan_lane _ _ _ _).1).trans h1)
      · exact (congrArg f (State.abortScan_lane _ _ _ _).1).trans h1
      · exact (State.enterHunt_lane f hd _ _ _).trans h1
      · exact h1
    · split <;> rfl
  · rfl

theorem State.tryAlign_hunt (s : State) (g m : Nat) (h : (s.rx m).align = .hunt) : ((s.tryAlign g).rx m).align = .hunt := by
  have key : ∀ (f : State → Nat → State), (∀ u n, (u.rx m).align = .hunt → ((f u n).rx m).align = .hunt) →
      ∀ (l : List Nat) (u : State), (u.rx m).align = .hunt → ((l.foldl f u).rx m).align = .hunt := by
    intro f hf l
    induction l with
    | nil => exact fun u h => h
    | cons a l ih => exact fun u hu => ih _ (hf u a hu)
  have he : ∀ (u : State) n, (u.rx m).align = .hunt → ((u.enterHunt n).rx m).align = .hunt := by
    intro u n hu; rw [State.enterHunt_align]; split
    · rfl
    · exact hu
  have ha : ∀ (u : State) l n, (u.rx m).align = .hunt →
      ((((u.setLane n l).setRx n { (u.setLane n l).rx n with decoded := false }).abortScan n 1).rx m).align = .hunt := by
    intro u l n hu
    rw [(State.abortScan_lane _ _ _ _).2]
    by_cases hm : m = n
    · subst hm; rw [State.setRx_self]; exact hu
    · rw [State.setRx_of_ne _ _ hm]; exact hu
  unfold State.tryAlign
  dsimp only
  split
  · unfold State.enterAlign
    dsimp only
    refine key _ (fun u n hu => ?_) _ _ ?_
    · split <;> split
      · exact he _ _ (ha _ _ _ hu)
      · exact ha _ _ _ hu
      · exact he _ _ hu
      · exact hu
    · split <;> exact h
  · exact h

/-- A loop is set: the lane's loop, and HUNT on a change. -/
theorem State.setLoop_lane (s : State) (n mode : Nat) (b : Bool) :
    ((s.setLoop n mode b).lane n).loop = mode ∧ ((s.setLoop n mode b).lane n).loopMaint = b ∧ (s.setLoop n mode b).sds.loops = s.sds.loops := by
  unfold State.setLoop
  dsimp only
  split
  · rename_i h; rw [State.setLane_self]; exact ⟨h, rfl, rfl⟩
  · rw [(State.abortScan_lane _ _ _ _).1, (State.abortScan_frame _ _ _).2.2.2.2]
    refine ⟨?_, ?_, ?_⟩
    · rw [State.enterHunt_lane Lane.loop (fun _ _ => rfl), State.setLane_self]
    · rw [State.enterHunt_lane Lane.loopMaint (fun _ _ => rfl), State.setLane_self]
    · unfold State.enterHunt State.noteDefects
      dsimp only
      split <;> rfl

/-- A change of role, seen outside the record under construction. -/
theorem State.setRole_rest (s : State) (r : Role) : (s.setRole r).calRest = if s.cal.role = r then s.calRest else
    { s.calRest with role := r, roleSince := s.clk.tick, reclaimOut := decide (r = .standby) && s.cal.reclaimOut,
                     fromSync := (decide (r = .detached) && (decide (s.cal.role = .syncing) || s.cal.fromSync)) || (decide (r = .syncing) && s.cal.fromSync) } := by
  unfold State.setRole
  dsimp only
  split
  · rfl
  · rw [State.event_calRest]; rfl

/-- Becoming ACTIVE, seen outside the record under construction. -/
theorem State.becomeActive_rest (s : State) : (s.becomeActive).calRest.role = .active ∧ (s.becomeActive).calRest.holdUntil = some (s.clk.tick + 8000) ∧
    (s.becomeActive).calRest.yieldAt = none ∧ (s.becomeActive).calRest.lone = (s.hbSilent 16 || decide (s.cal.mateRole = 3) || decide (s.cal.mateRole = 4)) := by
  unfold State.becomeActive
  dsimp only
  generalize hv : (List.range 16).foldl (fun (s : State) r => if (s.ring r).st = .unbound then s else s.refillOverflow r) s.resumeJournal = v
  have rc : ∀ (u : State) r, (u.refillOverflow r).cal = u.cal ∧ (u.refillOverflow r).clk = u.clk := by
    intro u r
    unfold State.refillOverflow
    dsimp only
    constructor
    · refine (foldl_keep (p := State.cal) (fun s a => ?_) _ _).trans ?_ <;> rfl
    · refine (foldl_keep (p := State.clk) (fun s a => ?_) _ _).trans ?_ <;> rfl
  have v1 : v.cal = s.cal := by
    rw [← hv]
    refine (foldl_keep (p := State.cal) (fun s a => ?_) _ _).trans rfl
    split
    · rfl
    · exact (rc _ _).1
  have v2 : v.clk = s.clk := by
    rw [← hv]
    refine (foldl_keep (p := State.clk) (fun s a => ?_) _ _).trans rfl
    split
    · rfl
    · exact (rc _ _).2
  generalize hw : ({ v with cal := { v.cal with holdUntil := some (v.clk.tick + 8000), cur := {}, ackTick := v.clk.tick, yieldAt := none, store := [], shares := [], snap := [], t0 := none } } : State) = w
  have w1 : w.calRest.holdUntil = some (s.clk.tick + 8000) ∧ w.calRest.yieldAt = none ∧ w.calRest.mateHb = s.cal.mateHb ∧ w.calRest.hbNoneSince = s.cal.hbNoneSince ∧ w.calRest.mateRole = s.cal.mateRole ∧ w.clk = s.clk := by
    rw [← hw, ← v1, ← v2]; exact ⟨rfl, rfl, rfl, rfl, rfl, rfl⟩
  have sr : ((w.setRole .active).calRest.role = .active ∧ (w.setRole .active).calRest.holdUntil = w.calRest.holdUntil ∧ (w.setRole .active).calRest.yieldAt = w.calRest.yieldAt ∧
      (w.setRole .active).calRest.mateHb = w.calRest.mateHb ∧ (w.setRole .active).calRest.hbNoneSince = w.calRest.hbNoneSince ∧ (w.setRole .active).calRest.mateRole = w.calRest.mateRole) := by
    rw [State.setRole_rest]
    split
    · rename_i h; exact ⟨h, rfl, rfl, rfl, rfl, rfl⟩
    · exact ⟨rfl, rfl, rfl, rfl, rfl, rfl⟩
  have sc : (w.setRole .active).clk = w.clk := State.setRole_clk ..
  generalize w.setRole .active = x at *
  refine ⟨sr.1, sr.2.1.trans w1.1, sr.2.2.1.trans w1.2.1, ?_⟩
  have a1 : x.cal.mateHb = s.cal.mateHb := sr.2.2.2.1.trans w1.2.2.1
  have a2 : x.cal.hbNoneSince = s.cal.hbNoneSince := sr.2.2.2.2.1.trans w1.2.2.2.1
  have a3 : x.cal.mateRole = s.cal.mateRole := sr.2.2.2.2.2.trans w1.2.2.2.2.1
  show (x.hbSilent 16 || decide (x.cal.mateRole = 3) || decide (x.cal.mateRole = 4)) = _
  unfold State.hbSilent
  rw [a1, a2, a3, sc, w1.2.2.2.2.2]

/-- A field that the record under construction does not hold. -/
theorem State.cal_of_rest {α : Type} (f : Cal → α) (hf : ∀ c : Cal, f { c with cur := {} } = f c) (s : State) : f s.cal = f s.calRest := (hf s.cal).symm

/-- What a change of role does and keeps. -/
theorem State.setRole_ne (s : State) (r : Role) (h : s.cal.role ≠ r) : (s.setRole r).cal.role = r ∧ (s.setRole r).cal.mateHb = s.cal.mateHb ∧ (s.setRole r).cal.yieldAt = s.cal.yieldAt ∧
    (s.setRole r).cal.lanesUp = s.cal.lanesUp ∧ (s.setRole r).cal.hbNoneSince = s.cal.hbNoneSince ∧ (s.setRole r).cal.lone = s.cal.lone ∧ (s.setRole r).cal.recTick = s.cal.recTick ∧
    (s.cal.role = .syncing → r = .detached → (s.setRole r).cal.fromSync = true) := by
  have q := State.setRole_rest s r
  rw [if_neg h] at q
  generalize s.setRole r = x at q ⊢
  refine ⟨(State.cal_of_rest Cal.role (fun _ => rfl) x).trans ?_, (State.cal_of_rest Cal.mateHb (fun _ => rfl) x).trans ?_, (State.cal_of_rest Cal.yieldAt (fun _ => rfl) x).trans ?_, (State.cal_of_rest Cal.lanesUp (fun _ => rfl) x).trans ?_,
    (State.cal_of_rest Cal.hbNoneSince (fun _ => rfl) x).trans ?_, (State.cal_of_rest Cal.lone (fun _ => rfl) x).trans ?_, (State.cal_of_rest Cal.recTick (fun _ => rfl) x).trans ?_, fun h1 h2 => (State.cal_of_rest Cal.fromSync (fun _ => rfl) x).trans ?_⟩ <;> rw [q]
  all_goals first | rfl | skip
  dsimp only
  rw [h1, h2]; rfl

/-- Entering SYNCING, seen outside the record under construction. -/
theorem State.enterSyncing_rest (s : State) : (s.enterSyncing).calRest.role = .syncing ∧ (s.enterSyncing).calRest.yieldAt = none ∧ (s.enterSyncing).calRest.store = [] ∧
    (s.enterSyncing).calRest.snapDone = false ∧ (s.enterSyncing).calRest.lone = s.cal.lone ∧ (s.enterSyncing).calRest.mateHb = s.cal.mateHb ∧ (s.enterSyncing).calRest.hbNoneSince = s.cal.hbNoneSince := by
  unfold State.enterSyncing
  dsimp only
  rw [State.setRole_rest]
  split
  · rename_i h; exact ⟨h, rfl, rfl, rfl, rfl, rfl, rfl⟩
  · exact ⟨rfl, rfl, rfl, rfl, rfl, rfl, rfl⟩

/-- A device that becomes ACTIVE. -/
theorem State.becomeActive_cal (s : State) : (s.becomeActive).cal.role = .active ∧ (s.becomeActive).cal.holdUntil = some (s.clk.tick + 8000) ∧ (s.becomeActive).cal.yieldAt = none := by
  obtain ⟨q1, q2, q3, -⟩ := State.becomeActive_rest s
  generalize s.becomeActive = x at *
  exact ⟨q1, q2, q3⟩

/-- A device that enters SYNCING. -/
theorem State.enterSyncing_cal (s : State) : (s.enterSyncing).cal.role = .syncing ∧ (s.enterSyncing).cal.yieldAt = none ∧ (s.enterSyncing).cal.store = [] ∧ (s.enterSyncing).cal.snapDone = false := by
  obtain ⟨q1, q2, q3, q4, -⟩ := State.enterSyncing_rest s
  generalize s.enterSyncing = x at *
  exact ⟨q1, q2, q3, q4⟩

/-- A yield keeps the role and what the heartbeat shows. -/
theorem State.yield_keeps (u : State) (c : Nat) : (u.yield c).cal.role = u.cal.role ∧ (u.yield c).cal.mateHb = u.cal.mateHb ∧ (u.yield c).cal.hbNoneSince = u.cal.hbNoneSince ∧ (u.yield c).cal.lone = u.cal.lone := by
  unfold State.yield
  repeat' split
  all_goals exact ⟨rfl, rfl, rfl, rfl⟩

/-- A message that the device receives is noted and acted on. -/
theorem State.fabTake_of_receives (s : State) (hd : FabHdr) (T : Nat) (B : List Byte) (act : State → State) (h : s.receives hd T B = true) : s.fabTake hd T B act = act (s.fabNote hd T B) := by
  unfold State.receives at h
  simp only [Bool.and_eq_true, Bool.or_eq_true, Bool.not_eq_true'] at h
  obtain ⟨⟨⟨⟨h1, h2⟩, h3⟩, h5⟩, h4⟩ := h
  unfold State.fabTake
  rw [if_neg (by rw [h1]; decide), if_neg (by rw [h2]; decide), if_neg (by rw [h3]; decide), if_neg (by rw [h5]; decide)]
  dsimp only
  rcases h4 with h4 | ⟨h4, h6⟩
  · rw [if_pos h4]
  · by_cases hl : linkLocal T = true
    · rw [if_pos hl]
    · rw [if_neg hl, if_neg (by rw [h4]; decide), if_pos h6]

/-- A state that differs in the fabric area only. -/
theorem State.eq_fab {s t : State} (h : t.blank (fun a => decide (a = .fab)) = s.blank (fun a => decide (a = .fab))) : t = { s with fab := t.fab } :=
  congrArg (fun x : State => { x with fab := t.fab }) h

/-- Hearing a message changes the recorded serials only. -/
theorem State.fabHeard_eq (s : State) (hd : FabHdr) (T : Nat) :
    s.fabHeard hd T = { s with fab := { s.fab with seen := (s.fabHeard hd T).fab.seen } } := by
  unfold State.fabHeard
  split <;> rfl

/-- Noting a message changes the fabric area only. -/
theorem State.fabNote_eq (s : State) (hd : FabHdr) (T : Nat) (B : List Byte) : s.fabNote hd T B = { s with fab := (s.fabNote hd T B).fab } := by
  refine State.eq_fab ?_
  unfold State.fabNote
  rw [State.relayMsg_blank rfl, State.fabHeard_eq]
  rfl

/-- Noting a message changes the recorded serials and the send queue only. -/
theorem State.fabNote_parts (s : State) (hd : FabHdr) (T : Nat) (B : List Byte) :
    (s.fabNote hd T B).fab = { s.fab with seen := (s.fabNote hd T B).fab.seen, sendQ := (s.fabNote hd T B).fab.sendQ } := by
  have rl : ∀ u : State, (u.relayMsg hd T B).fab = { u.fab with sendQ := (u.relayMsg hd T B).fab.sendQ } := by
    intro u; unfold State.relayMsg
    cases hd.link with
    | calrin => rfl
    | group g =>
      dsimp only
      repeat' split
      all_goals rfl
  unfold State.fabNote
  have hu := State.fabHeard_eq s hd T
  generalize s.fabHeard hd T = u at hu ⊢
  have hf : u.fab = { s.fab with seen := u.fab.seen } := by rw [hu]
  rw [rl u]
  generalize (u.relayMsg hd T B).fab.sendQ = q
  exact congrArg (fun f : Fab => ({ f with sendQ := q } : Fab)) hf

/-- Changing a worker's record of a manager command, seen in the record. -/
theorem State.setWcmd_find (s : State) (m : Nat) (f : WorkerCmd → WorkerCmd) (hf : ∀ w, (f w).mserial = w.mserial) :
    (s.setWcmd m f).fab.wcmds.find? (fun w => w.mserial = m) = (s.fab.wcmds.find? (fun w => w.mserial = m)).map f := by
  show (s.fab.wcmds.map _).find? _ = _
  induction s.fab.wcmds with
  | nil => rfl
  | cons a l ih =>
    rw [List.map_cons]
    by_cases h : a.mserial = m
    · rw [if_pos h, List.find?_cons_of_pos (by simpa [hf] using h), List.find?_cons_of_pos (by simpa using h)]; rfl
    · rw [if_neg h, List.find?_cons_of_neg (by simpa using h), List.find?_cons_of_neg (by simpa using h)]; exact ih

/-- The record of a manager serial after its first mention. -/
theorem State.needWcmd_find (s : State) (m : Nat) :
    (s.needWcmd m).fab.wcmds.find? (fun w => w.mserial = m) = some ((s.fab.wcmds.find? (fun w => w.mserial = m)).getD { mserial := m, prin := 0 }) := by
  unfold State.needWcmd
  cases h : s.fab.wcmds.find? (fun w => w.mserial = m) with
  | some w =>
    have : s.fab.wcmds.any (fun w => decide (w.mserial = m)) = true := List.any_eq_true.mpr ⟨w, List.mem_of_find?_eq_some h, by simpa using List.find?_some h⟩
    rw [if_pos this, h]; rfl
  | none =>
    have : ¬ s.fab.wcmds.any (fun w => decide (w.mserial = m)) = true := by
      intro q; obtain ⟨w, h1, h2⟩ := List.any_eq_true.mp q
      exact (List.find?_eq_none.mp h w h1) h2
    rw [if_neg this]
    show (s.fab.wcmds ++ [_]).find? _ = _
    rw [List.find?_append, h]; simp

/-- An event leaves the links. -/
theorem State.event_plink (u : State) (ps : List Nat) (a b c : Nat) (l : Link) : (u.event ps a b c).plink l = u.plink l := by
  have h : ∀ (u v : State), u.fab.link = v.fab.link → u.fab.calrin = v.fab.calrin → u.plink l = v.plink l := by
    intro u v h1 h2; unfold State.plink; cases l <;> simp [h1, h2]
  have k : ∀ e, (u.emit ps e).fab.link = u.fab.link ∧ (u.emit ps e).fab.calrin = u.fab.calrin := by
    intro e
    unfold State.emit
    split
    · refine ⟨foldl_keep (p := fun s : State => s.fab.link) (fun s a => ?_) _ _, foldl_keep (p := fun s : State => s.fab.calrin) (fun s a => ?_) _ _⟩ <;> rfl
    · split
      · rw [State.deliver_fab]; exact ⟨rfl, rfl⟩
      · rw [State.holdEvent_fab]; exact ⟨rfl, rfl⟩
  exact h _ _ (k _).1 (k _).2

/-- What a link shows after its record is written. -/
theorem State.setPlink_self (v : State) (l : Link) (y : PeerLink) : (v.setPlink l y).plink l = y := by
  unfold State.setPlink State.plink
  cases l with
  | group g => exact Tab.look_put_self _ _ _ _
  | calrin => rfl

/-- What another link shows. -/
theorem State.setPlink_of_ne (v : State) {l k : Link} (y : PeerLink) (h : k ≠ l) : (v.setPlink l y).plink k = v.plink k := by
  unfold State.setPlink State.plink
  cases l with
  | group g =>
    cases k with
    | group j => exact Tab.look_put_of_ne _ _ _ _ (fun q => h (congrArg Link.group (Fin.ext q)))
    | calrin => rfl
  | calrin =>
    cases k with
    | group j => rfl
    | calrin => exact absurd rfl h

/-- A link that changes its state. -/
theorem State.setLinkSt_plink (s : State) (l : Link) (st : LinkSt) (h : (s.plink l).st ≠ st) :
    (s.setLinkSt l st).plink l = (if st = .down then { s.plink l with st := .down, keys := none, samples := [], nonceOwn := none, helloFar := none, reqSerial := none, delayPs := 0 } else { s.plink l with st := st }) ∧
    ∀ k, k ≠ l → (s.setLinkSt l st).plink k = s.plink k := by
  unfold State.setLinkSt
  dsimp only
  rw [if_neg h]
  cases l with
  | group g => dsimp only; rw [State.event_plink]; exact ⟨State.setPlink_self _ _ _, fun k hk => (State.event_plink ..).trans (State.setPlink_of_ne _ _ hk)⟩
  | calrin => exact ⟨State.setPlink_self _ _ _, fun k hk => State.setPlink_of_ne _ _ hk⟩

/-- A link that begins keying. -/
theorem State.startKeying_plink (s : State) (l : Link) (h : (s.plink l).st = .down) :
    (s.startKeying l).plink l = { s.plink l with st := .keying, nonceOwn := some s.fresh, helloFar := none, retryAt := none } ∧
    ∀ k, k ≠ l → (s.startKeying l).plink k = s.plink k := by
  unfold State.startKeying
  dsimp only
  have q := State.setLinkSt_plink { s with fresh := s.fresh + 1 } l .keying (by show (s.plink l).st ≠ _; rw [h]; decide)
  rw [if_neg (by decide)] at q
  have sd : ∀ (u : State) a b c d k, (u.send a b c d).plink k = u.plink k := by intro u a b c d k; cases k <;> rfl
  generalize (State.setLinkSt { s with fresh := s.fresh + 1 } l .keying) = x at *
  refine ⟨?_, fun k hk => ?_⟩
  · rw [sd, State.setPlink_self, q.1]; rfl
  · rw [sd, State.setPlink_of_ne _ _ hk, q.2 k hk]; rfl

/-- What a manager sends for a command of a worker: its batch in pieces, then the CMD. -/
theorem State.sendCmd_sendQ (s : State) (h : Nat) (e : JEntry) (w : Word) :
    (s.sendCmd h e w).fab.sendQ.map (fun x => (x.type, x.dest, x.body)) = s.fab.sendQ.map (fun x => (x.type, x.dest, x.body)) ++
      (pieces 713 0 e.bytes).map (fun p => (0x25, w, beBytes 8 h ++ beBytes 4 p.1 ++ p.2)) ++ [(0x20, w, beBytes 8 h ++ beBytes 1 e.prin ++ descBytes e.d)] ∧
    (s.sendCmd h e w).fab.cmds = s.fab.cmds := by
  unfold State.sendCmd
  dsimp only
  generalize pieces 713 0 e.bytes = l
  have sr : ∀ (l : List (Nat × List Byte)) (u : State),
      (l.foldl (fun (t : State) (p : Nat × List Byte) => t.send none 0x25 w (beBytes 8 h ++ beBytes 4 p.1 ++ p.2)) u).fab.sendQ.map (fun x => (x.type, x.dest, x.body)) =
        u.fab.sendQ.map (fun x => (x.type, x.dest, x.body)) ++ l.map (fun p => (0x25, w, beBytes 8 h ++ beBytes 4 p.1 ++ p.2)) ∧
      (l.foldl (fun (t : State) (p : Nat × List Byte) => t.send none 0x25 w (beBytes 8 h ++ beBytes 4 p.1 ++ p.2)) u).fab.cmds = u.fab.cmds := by
    intro l
    induction l with
    | nil => intro u; exact ⟨by simp, rfl⟩
    | cons a l ih =>
      intro u
      rw [List.foldl_cons]
      refine ⟨(ih _).1.trans ?_, (ih _).2.trans rfl⟩
      show (u.fab.sendQ ++ [_]).map _ ++ _ = _
      rw [List.map_append]
      simp
  obtain ⟨q1, q2⟩ := sr l s
  generalize l.foldl _ s = x at *
  refine ⟨?_, q2⟩
  show (x.fab.sendQ ++ [_]).map _ = _
  rw [List.map_append, q1]
  rfl

/-- What an event can change at the management ports: event indices of ring sets, queue pairs and held events. -/
def State.evtSame (u v : State) : Prop :=
  (∀ j, u.ring j = { v.ring j with evtProd := (u.ring j).evtProd, eseq := (u.ring j).eseq, evtLost := (u.ring j).evtLost }) ∧
  u.mgp.journal = v.mgp.journal ∧ u.mgp.nextH = v.mgp.nextH ∧ u.mgp.rr = v.mgp.rr ∧ u.mgp.port = v.mgp.port

theorem State.evtSame_refl (s : State) : s.evtSame s := ⟨fun _ => rfl, rfl, rfl, rfl, rfl⟩

theorem State.evtSame_trans {a b c : State} (h1 : a.evtSame b) (h2 : b.evtSame c) : a.evtSame c := by
  refine ⟨fun j => ?_, h1.2.1.trans h2.2.1, h1.2.2.1.trans h2.2.2.1, h1.2.2.2.1.trans h2.2.2.2.1, h1.2.2.2.2.trans h2.2.2.2.2⟩
  have e1 := h1.1 j
  have e2 := h2.1 j
  generalize a.ring j = x at *
  generalize b.ring j = y at *
  generalize c.ring j = z at *
  rw [e1, e2]

theorem State.count_ring (s : State) (a b c d j : Nat) : (s.count a b c d).ring j = s.ring j := by
  unfold State.ring; rw [State.count_mgp]

/-- What issuing an operation keeps at the management ports. -/
theorem State.issue_mgp_parts (s : State) (r : Nat) (o : RdmaOp) : (∀ j, (s.issue r o).ring j = s.ring j) ∧ (s.issue r o).mgp.journal = s.mgp.journal ∧
    (s.issue r o).mgp.nextH = s.mgp.nextH ∧ (s.issue r o).mgp.rr = s.mgp.rr ∧ (s.issue r o).mgp.port = s.mgp.port := by
  unfold State.issue
  dsimp only
  refine ⟨fun j => State.count_ring .., ?_, ?_, ?_, ?_⟩ <;> rw [State.count_mgp] <;> rfl

theorem State.putEvent_same (s : State) (r : Nat) (e : EvtEntry) : (s.putEvent r e).evtSame s := by
  unfold State.putEvent
  dsimp only
  split
  · exact State.evtSame_refl s
  · generalize hy : ({ s.ring r with evtProd := (s.ring r).evtProd + 1, eseq := (s.ring r).eseq + 1, evtLost := (s.ring r).evtLost + if (s.ring r).evtProd - (s.ring r).evtCons ≥ (s.ring r).evtSize then 1 else 0 } : Ring) = y
    generalize (⟨.event r, (s.ring r).evtBase + 32 * ((s.ring r).evtProd % (s.ring r).evtSize), (s.ring r).hkeys.getD 2 0,
      evtBytes e (phaseBit (s.ring r).evtProd (s.ring r).evtSize) (s.ring r).eseq, 32⟩ : RdmaOp) = o
    have is := State.issue_mgp_parts s r o
    generalize s.issue r o = v at *
    have m : ∀ (u : State) (f : LRec → LRec) a b c d, ((u.recd f).count a b c d).mgp = u.mgp := by
      intro u f a b c d; rw [State.count_mgp, State.recd_mgp]
    refine ⟨fun j => ?_, by rw [m]; exact is.2.1, by rw [m]; exact is.2.2.1, by rw [m]; exact is.2.2.2.1, by rw [m]; exact is.2.2.2.2⟩
    unfold State.ring
    rw [m]
    show (v.setRing r y).ring j = { s.ring j with evtProd := ((v.setRing r y).ring j).evtProd, eseq := ((v.setRing r y).ring j).eseq, evtLost := ((v.setRing r y).ring j).evtLost }
    by_cases h : j = r
    · rw [h, State.setRing_self, ← hy]
    · rw [State.setRing_of_ne _ _ h, is.1]

theorem State.foldl_same {α : Type} (f : State → α → State) (h : ∀ s a, (f s a).evtSame s) (l : List α) (s : State) : (l.foldl f s).evtSame s := by
  induction l generalizing s with
  | nil => exact State.evtSame_refl s
  | cons a l ih => rw [List.foldl_cons]; exact State.evtSame_trans (ih _) (h s a)

/-- What raising an event can change at the management ports. -/
theorem State.event_same (s : State) (ps : List Nat) (a b c : Nat) : (s.event ps a b c).evtSame s := by
  unfold State.event
  generalize (⟨a, false, false, b, s.tnNow, BitVec.ofNat 64 c, 0⟩ : EvtEntry) = e
  unfold State.emit
  split
  · refine State.foldl_same _ (fun s p => ?_) _ _
    exact ⟨fun _ => rfl, rfl, rfl, rfl, rfl⟩
  · split
    · unfold State.deliver
      refine State.foldl_same _ (fun s p => ?_) _ _
      split
      · exact State.putEvent_same _ _ _
      · exact State.evtSame_refl s
    · unfold State.holdEvent
      split
      · exact ⟨fun _ => rfl, rfl, rfl, rfl, rfl⟩
      · split
        · refine State.foldl_same _ (fun s p => ?_) _ _
          split
          · rename_i r _
            refine ⟨fun j => ?_, rfl, rfl, rfl, rfl⟩
            by_cases h : j = r
            · rw [h, State.setRing_self]
            · rw [State.setRing_of_ne _ _ h]
          · exact State.evtSame_refl s
        · exact State.evtSame_refl s

/-- Following the pause conditions of a ring set. -/
theorem State.refreshBusy_ring (s : State) (r : Nat) : let u := s.refreshBusy r
    u.ring r = { s.ring r with st := (u.ring r).st, cause := (u.ring r).cause, dirty := (u.ring r).dirty, evtProd := (u.ring r).evtProd, eseq := (u.ring r).eseq, evtLost := (u.ring r).evtLost } ∧
    ((s.ring r).st = .halted → u = s) ∧ ((s.ring r).st ≠ .halted → (u.ring r).st ≠ .halted) ∧
    u.mgp.journal = s.mgp.journal ∧ u.mgp.nextH = s.mgp.nextH ∧ u.mgp.rr = s.mgp.rr := by
  have done : s.refreshBusy r = s → let u := s.refreshBusy r
      u.ring r = { s.ring r with st := (u.ring r).st, cause := (u.ring r).cause, dirty := (u.ring r).dirty, evtProd := (u.ring r).evtProd, eseq := (u.ring r).eseq, evtLost := (u.ring r).evtLost } ∧
      ((s.ring r).st = .halted → u = s) ∧ ((s.ring r).st ≠ .halted → (u.ring r).st ≠ .halted) ∧
      u.mgp.journal = s.mgp.journal ∧ u.mgp.nextH = s.mgp.nextH ∧ u.mgp.rr = s.mgp.rr := by
    intro h; rw [h]; exact ⟨rfl, fun _ => rfl, id, rfl, rfl, rfl⟩
  have E : s.refreshBusy r = match (s.ring r).st with
    | .open_ => if s.pauseCause r = 0 then s else
        ((s.setRing r { s.ring r with st := .busy, cause := s.pauseCause r, dirty := true }).count 3 r 3 1).event [(s.ring r).prin] 0x0080 r (s.pauseCause r)
    | .busy => if s.pauseCause r = 0 then s.setRing r { s.ring r with st := .open_, cause := 0, dirty := true } else s.setRing r { s.ring r with cause := s.pauseCause r }
    | _ => s := rfl
  have four : (s.ring r).st = .unbound ∨ (s.ring r).st = .halted ∨ (s.ring r).st = .busy ∨ (s.ring r).st = .open_ := by
    cases (s.ring r).st <;> simp
  rcases four with h | h | h | h
  · exact done (by rw [E, h])
  · exact done (by rw [E, h])
  · rw [h] at E
    dsimp only at E
    have nh : (s.ring r).st ≠ .halted := by rw [h]; decide
    by_cases hc : s.pauseCause r = 0
    · rw [if_pos hc] at E
      rw [E]; dsimp only; rw [State.setRing_self]; exact ⟨rfl, fun q => absurd q nh, fun _ => nofun, rfl, rfl, rfl⟩
    · rw [if_neg hc] at E
      rw [E]; dsimp only; rw [State.setRing_self]; exact ⟨rfl, fun q => absurd q nh, fun _ => nh, rfl, rfl, rfl⟩
  · rw [h] at E
    dsimp only at E
    have nh : (s.ring r).st ≠ .halted := by rw [h]; decide
    by_cases hc : s.pauseCause r = 0
    · rw [if_pos hc] at E; exact done E
    · rw [if_neg hc] at E
      rw [E]
      dsimp only
      generalize hy : ({ s.ring r with st := .busy, cause := s.pauseCause r, dirty := true } : Ring) = y
      have e := State.event_same ((s.setRing r y).count 3 r 3 1) [(s.ring r).prin] 0x0080 r (s.pauseCause r)
      have cm : ((s.setRing r y).count 3 r 3 1).mgp = (s.setRing r y).mgp := State.count_mgp ..
      generalize ((s.setRing r y).count 3 r 3 1).event [(s.ring r).prin] 0x0080 r (s.pauseCause r) = u at *
      have er := e.1 r
      rw [State.count_ring, State.setRing_self] at er
      have q : (u.ring r).st = .busy := by rw [er, ← hy]
      refine ⟨?_, fun q => absurd q nh, fun _ => by rw [q]; decide, by rw [e.2.1, cm]; rfl, by rw [e.2.2.1, cm]; rfl, by rw [e.2.2.2.1, cm]; rfl⟩
      generalize u.ring r = z at *
      rw [er, ← hy]

/-- A halted ring. -/
theorem State.halt_ring (s : State) (r c : Nat) : let u := s.halt r c
    u.ring r = { s.ring r with st := .halted, cause := c, fetch := [], fetchIdx := (s.ring r).takeIdx, dirty := true, evtProd := (u.ring r).evtProd, eseq := (u.ring r).eseq, evtLost := (u.ring r).evtLost } ∧
    u.mgp.journal = s.mgp.journal ∧ u.mgp.nextH = s.mgp.nextH ∧ u.mgp.rr = s.mgp.rr ∧ u.clk = s.clk := by
  dsimp only
  unfold State.halt
  dsimp only
  split
  · rw [State.setRing_self]; exact ⟨rfl, rfl, rfl, rfl, rfl⟩
  · generalize hy : ({ s.ring r with st := .halted, cause := c, fetch := [], fetchIdx := (s.ring r).takeIdx, dirty := true } : Ring) = y
    have ec : (((s.setRing r y).count 3 r 2 1).event [(s.ring r).prin] 0x0081 r c).clk = s.clk := by rw [State.event_clk, State.count_clk]; rfl
    have e := State.event_same ((s.setRing r y).count 3 r 2 1) [(s.ring r).prin] 0x0081 r c
    have cm : ((s.setRing r y).count 3 r 2 1).mgp = (s.setRing r y).mgp := State.count_mgp ..
    generalize ((s.setRing r y).count 3 r 2 1).event [(s.ring r).prin] 0x0081 r c = u at *
    have er := e.1 r
    rw [State.count_ring, State.setRing_self] at er
    refine ⟨?_, by rw [e.2.1, cm]; rfl, by rw [e.2.2.1, cm]; rfl, by rw [e.2.2.2.1, cm]; rfl, ec⟩
    generalize u.ring r = z at *
    rw [er, ← hy]

/-- The next fetch of a ring set. -/
theorem State.fetchNow_ring (s : State) (r : Nat) : let u := s.fetchNow r
    u.ring r = { s.ring r with fetching := (u.ring r).fetching } ∧ u.mgp.journal = s.mgp.journal ∧ u.mgp.nextH = s.mgp.nextH ∧ u.mgp.rr = s.mgp.rr ∧ u.clk = s.clk := by
  dsimp only
  unfold State.fetchNow
  dsimp only
  generalize min (min (32 - (s.ring r).fetch.length) ((s.ring r).cmdProd - (s.ring r).fetchIdx)) ((s.ring r).cmdSize - (s.ring r).fetchIdx % (s.ring r).cmdSize) = n
  split
  · exact ⟨rfl, rfl, rfl, rfl, rfl⟩
  · have is := fun (v : State) o => State.issue_mgp_parts v r o
    rw [(is _ _).1, State.setRing_self]
    refine ⟨rfl, (is _ _).2.1.trans rfl, (is _ _).2.2.1.trans rfl, (is _ _).2.2.2.1.trans rfl, (State.issue_clk ..).trans rfl⟩

/-- The next fetch of a ring set that is not halted. -/
theorem State.fetchMore_ring (s : State) (r : Nat) : let u := s.fetchMore r
    u.ring r = { s.ring r with fetching := (u.ring r).fetching } ∧ u.mgp.journal = s.mgp.journal ∧ u.mgp.nextH = s.mgp.nextH ∧ u.mgp.rr = s.mgp.rr ∧ u.clk = s.clk := by
  dsimp only
  unfold State.fetchMore
  split
  · exact ⟨rfl, rfl, rfl, rfl, rfl⟩
  · exact State.fetchNow_ring s r

/-- Reading the doorbell record of a ring set. -/
theorem State.readDoorbell_ring (s : State) (r : Nat) : let u := s.readDoorbell r
    u.ring r = { s.ring r with dbRead := true, kickAgain := (u.ring r).kickAgain, kicked := false } ∧ u.mgp.journal = s.mgp.journal := by
  dsimp only
  unfold State.readDoorbell
  dsimp only
  split
  · rename_i h
    rw [State.setRing_self]; exact ⟨by rw [h], rfl⟩
  · have is := fun (v : State) o => State.issue_mgp_parts v r o
    rw [State.count_ring, (is _ _).1, State.setRing_self, State.count_mgp]
    exact ⟨rfl, (is _ _).2.1.trans rfl⟩

/-- All areas but the clock. -/
abbrev notClk : Area → Bool := fun a => decide (a ≠ .clk)

theorem State.clk_of_blank {s t : State} (h : t.blank notClk = s.blank notClk) : t.clk = s.clk := State.keeps_of_blank h .clk rfl

theorem State.second_clk (s : State) : s.second.clk = { s.clk with secDone := true, ppsHighUntil := s.clk.tick + 800000 } := by
  refine (State.clk_of_blank (t := s.second) (s := { s with clk := { s.clk with ppsHighUntil := s.clk.tick + 800000, secDone := true } }) ?_).trans rfl
  unfold State.second
  simp [foldl_blank, State.sendOn_blank, State.announceTn]

theorem State.slots_clk (s : State) : s.slots.clk = { s.clk with slotsDone := true } := by
  refine (State.clk_of_blank (t := s.slots) (s := { s with clk := { s.clk with slotsDone := true } }) ?_).trans rfl
  unfold State.slots
  simp [foldl_blank]

/-- Cycles 0 and 1 move no time: of the clock they note only the second boundary and the pulse of PPS_OUT. -/
theorem State.cycle1_clk (s : State) : ∃ a b, s.cycle1.clk = { s.clk with secDone := a, ppsHighUntil := b } := by
  have h0 : s.cycle0.clk = s.clk := State.clk_of_blank (by simp)
  rw [State.clk_of_blank (t := s.cycle1) (s := s.cycle0.secondNow) (by unfold State.cycle1; simp)]
  unfold State.secondNow
  split
  · rw [State.second_clk, h0]; exact ⟨_, _, rfl⟩
  · rw [h0]; exact ⟨_, _, rfl⟩

/-- Cycles 0 and 1 change of the Starter only its holdover history. -/
theorem State.cycle1_str (s : State) : ∃ a b c d e f, s.cycle1.str =
    { s.str with hoRing := a, hoValid := b, secSum := c, secCnt := d, secLocked := e, hoValue := f } := by
  have k : ∀ {u v : State}, u.blank (fun a => decide (a ≠ .str)) = v.blank (fun a => decide (a ≠ .str)) → u.str = v.str :=
    fun e => State.keeps_of_blank e .str rfl
  rw [k (by unfold State.cycle1; simp : s.cycle1.blank _ = s.cycle0.secondNow.blank _)]
  have h0 : s.cycle0.str = s.str := k (by unfold State.cycle0; simp)
  unfold State.secondNow
  split
  · unfold State.second
    dsimp only
    generalize hv : State.latch _ = v
    have hv1 : v.str = s.str := by
      rw [← hv, ← h0]
      exact (k (by simp [foldl_blank] : (State.latch _).blank _ = State.blank _ { s.cycle0 with clk := _ })).trans rfl
    rw [k (by simp [State.announceTn] : State.blank _ _ = v.holdSample.blank _)]
    unfold State.holdSample State.onStr
    dsimp only
    rw [hv1]
    split <;> split <;> exact ⟨_, _, _, _, _, _, rfl⟩
  · rw [h0]; exact ⟨_, _, _, _, _, _, rfl⟩

/-- Cycles 0 and 1 leave the registers and the power state. -/
theorem State.cycle1_regs (s : State) : s.cycle1.regs = s.regs ∧ s.cycle1.pwr = s.pwr :=
  ⟨State.keeps_of_blank (S := fun a => decide (a ≠ .regs)) (by simp) .regs rfl,
    State.keeps_of_blank (S := fun a => decide (a ≠ .pwr)) (by simp) .pwr rfl⟩

/-- What cycle 2 looks at stands through cycles 0 and 1. -/
theorem State.cycle1_due (s : State) : s.cycle1.cfgDue = s.cfgDue ∧ s.cycle1.forceDue = s.forceDue ∧ s.cycle1.stepDue = s.stepDue ∧
    s.cycle1.offsetNow = s.offsetNow ∧ s.cycle1.atPeriod = s.atPeriod ∧ s.cycle1.clk.perDone = s.clk.perDone ∧
    (∀ u, s.cycle1.drops u = s.drops u) ∧ (∀ a, s.cycle1.reg a = s.reg a) ∧ s.cycle1.clk.tick = s.clk.tick := by
  obtain ⟨a, b, hc⟩ := State.cycle1_clk s
  obtain ⟨r1, r2, r3, r4, r5, r6, hs⟩ := State.cycle1_str s
  have hr := (State.cycle1_regs s).1
  generalize s.cycle1 = v at hc hs hr
  unfold State.cfgDue State.forceDue State.stepDue State.offsetNow State.transRate State.drops State.dueAt State.tnNow State.atPeriod State.secClock State.reg
  rw [hc, hs, hr]
  exact ⟨rfl, rfl, rfl, rfl, rfl, rfl, fun _ => rfl, fun _ => rfl, rfl⟩

/-- Reference commands leave the clock, and of the Starter its phase steps and its phase. -/
theorem State.refsNow_due (s : State) : s.refsNow.clk = s.clk ∧ s.refsNow.str.steps = s.str.steps ∧ s.refsNow.str.step = s.str.step ∧
    s.refsNow.str.phase = s.str.phase := by
  refine ⟨State.clk_of_blank (by simp), ?_⟩
  let P := fun s : State => (s.str.steps, s.str.step, s.str.phase)
  have hc : ∀ u : State, P u.cfgNow = P u := by
    intro u
    unfold State.cfgNow
    split
    · rfl
    · rename_i c _
      dsimp only
      have hk : ∀ (v : State) x y z w, P (v.complete x y z w) = P v := fun v x y z w => by simp [P]
      rw [hk]
      have hf : ∀ v : State, P ((List.range 25).foldl (fun (s : State) k =>
        if c.mask / 2 ^ k % 2 = 1 then s.setReg (rcReg k) (if k < 16 then prioWord (c.words.getD k 0) else c.words.getD k 0) else s) v) = P v :=
        fun v => foldl_keep (p := P) (fun s k => by split <;> rfl) _ _
      split
      · exact hf _
      · exact hf _
  have hfo : ∀ u : State, P u.forceNow = P u := by
    intro u
    unfold State.forceNow
    split
    · rfl
    · dsimp only
      have hk : ∀ (v : State) x y z w, P (v.complete x y z w) = P v := fun v x y z w => by simp [P]
      rw [hk]
      show ((_, _, _) : _ × _ × _) = _
      unfold State.onStr Str.force
      dsimp only
      repeat' split
      all_goals rfl
  have h : P s.refsNow = P s := by
    unfold State.refsNow
    exact (foldl_keep (p := P) (fun u _ => hfo u) _ _).trans (foldl_keep (p := P) (fun u _ => hc u) _ _)
  exact ⟨congrArg (·.1) h, congrArg (·.2.1) h, congrArg (·.2.2) h⟩

/-- The work that ends a tick moves no time: of the clock it notes only what was done and the pulse of PPS_OUT. -/
theorem State.finish_clk (s : State) : ∃ a b c, s.finish.clk = { s.clk with secDone := a, ppsHighUntil := b, slotsDone := c } := by
  obtain ⟨a, b, h1⟩ := State.cycle1_clk s
  have h2 : s.cycle1.refsNow.stepNow.clk = s.cycle1.clk := State.clk_of_blank (by simp)
  have h3 : ∀ u : State, ∃ c, u.slotsNow.clk = { u.clk with slotsDone := c } := by
    intro u
    unfold State.slotsNow
    split
    · exact ⟨_, rfl⟩
    · split
      · exact ⟨_, rfl⟩
      · rw [State.slots_clk, State.clk_of_blank (t := u.playouts) (s := u) (by simp)]; exact ⟨_, rfl⟩
  have h4 : s.finish.clk = s.cycle1.refsNow.stepNow.slotsNow.clk := State.clk_of_blank (by unfold State.finish; simp)
  obtain ⟨c, h3⟩ := h3 s.cycle1.refsNow.stepNow
  exact ⟨a, b, c, by rw [h4, h3, h2, h1]⟩

theorem State.setReg_reg (s : State) (a b : Nat) (v : Word) (h : b ≠ a) : (s.setReg a v).reg b = s.reg b := by
  unfold State.reg State.setReg
  exact Tab.look_put_of_ne _ _ _ _ h

/-- A pending reference configuration writes the registers it names only. -/
theorem State.refsNow_reg (s : State) (a : Nat) (h : ∀ k < 25, a ≠ rcReg k) : s.refsNow.reg a = s.reg a := by
  have hc : ∀ u : State, u.cfgNow.reg a = u.reg a := by
    intro u
    unfold State.cfgNow
    split
    · rfl
    · dsimp only
      rw [show ∀ (v : State) x y z w, (v.complete x y z w).reg a = v.reg a from fun v x y z w => by unfold State.reg; rw [State.complete_regs]]
      have hf : ∀ (c : RefCfg) (w : Nat → Word) (l : List Nat) (v : State), (∀ k ∈ l, k < 25) →
          (l.foldl (fun (s : State) k => if c.mask / 2 ^ k % 2 = 1 then s.setReg (rcReg k) (w k) else s) v).reg a = v.reg a := by
        intro c w l
        induction l with
        | nil => intro v _; rfl
        | cons k l ih =>
          intro v hl
          rw [List.foldl_cons, ih _ (fun k hk => hl k (List.mem_cons_of_mem _ hk))]
          split
          · exact State.setReg_reg _ _ _ _ (h k (hl k List.mem_cons_self))
          · rfl
      split
      · show (State.reg (List.foldl _ _ _) a) = _
        exact hf _ (fun k => if k < 16 then prioWord _ else _) _ _ (by simp)
      · exact hf _ (fun k => if k < 16 then prioWord _ else _) _ _ (by simp)
  have hk : ∀ (u v : State), u.blank (fun x => decide (x ≠ .regs)) = v.blank (fun x => decide (x ≠ .regs)) → u.reg a = v.reg a :=
    fun u v e => by unfold State.reg; rw [State.keeps_of_blank e .regs rfl]
  unfold State.refsNow
  dsimp only
  refine (foldl_keep (p := fun u : State => u.reg a) (fun u _ => hk _ _ (by simp)) _ _).trans
    (foldl_keep (p := fun u : State => u.reg a) (fun u _ => hc u) _ _)

theorem State.finish_reg (s : State) (a : Nat) (h : ∀ k < 25, a ≠ rcReg k) : s.finish.reg a = s.reg a := by
  have hk : ∀ (u v : State), u.blank (fun x => decide (x ≠ .regs)) = v.blank (fun x => decide (x ≠ .regs)) → u.reg a = v.reg a :=
    fun u v e => by unfold State.reg; rw [State.keeps_of_blank e .regs rfl]
  refine ((hk s.finish s.cycle1.refsNow (by unfold State.finish; simp)).trans (State.refsNow_reg _ _ h)).trans (hk _ _ (by simp))

/-- What a failing map entry can do (R197 to R199): it stands, as does the active page; the sticky bit of its page is set; a standby
entry that is treated leaves AIS in its egress slot and no other slot's entry. -/
theorem State.entryFails_spec (u : State) (pg i : Nat) (tr : Bool) (hp : pg ≤ 1) :
    (u.entryFails pg i tr).clk = u.clk ∧ (u.entryFails pg i tr).activeNo = u.activeNo ∧
      (∀ q, ((u.entryFails pg i tr).page q).ent = (u.page q).ent) ∧ (u.entryFails pg i tr).activePage = u.activePage ∧
      (∀ b, bit (u.stick Reg.mapStatus) b = true → bit ((u.entryFails pg i tr).stick Reg.mapStatus) b = true) ∧
      (pg = u.activeNo → bit ((u.entryFails pg i tr).stick Reg.mapStatus) 31 = true ∧ (u.entryFails pg i tr).standby.eg = u.standby.eg) ∧
      (pg ≠ u.activeNo → bit ((u.entryFails pg i tr).stick Reg.mapStatus) 30 = true ∧ (tr = true → (u.entryFails pg i tr).standby.eg.look {} i = { out := 2 }) ∧
        ∀ j, j ≠ i ∨ tr = false → (u.entryFails pg i tr).standby.eg.look {} j = u.standby.eg.look {} j) ∧ (u.entryFails pg i tr).uncopied = u.uncopied := by
  have an1 : ∀ u : State, u.activeNo = 0 ∨ u.activeNo = 1 := by
    intro u; unfold State.activeNo b2n; split <;> simp
  have bor : ∀ (a m : Word) i, bit a i = true → bit (a ||| m) i = true := by
    intro a m i h; unfold bit at *; simp [h]
  have keep : ∀ (u : State) a m, (∀ i, bit (u.stick a) i = true → bit ((u.setSticky a m).stick a) i = true) := by
    intro u a m i h
    unfold State.setSticky State.stick at *
    dsimp only
    rw [Tab.look_put_self]; exact bor _ _ _ h
  have put : ∀ (u : State) a (m : Word) i, bit m i = true → bit ((u.setSticky a m).stick a) i = true := by
    intro u a m i h
    unfold State.setSticky State.stick
    dsimp only
    rw [Tab.look_put_self]; unfold bit at *; simp [h]
  let A := fun (v : State) => (v.hrp.active, v.hrp.p0, v.hrp.p1, v.clk, v.sticky, v.flp.resync)
  have ev : ∀ (v : State) o x, A (v.event [0] 0x0031 o x) = A v := by
    intro v o x
    simp only [A]
    rw [State.keeps_of_blank (State.event_blank (S := fun a => decide (a ≠ .hrp)) rfl rfl rfl rfl v _ _ _ _) .hrp rfl,
      State.keeps_of_blank (State.event_blank (S := fun a => decide (a ≠ .clk)) rfl rfl rfl rfl v _ _ _ _) .clk rfl,
      State.keeps_of_blank (State.event_blank (S := fun a => decide (a ≠ .sticky)) rfl rfl rfl rfl v _ _ _ _) .sticky rfl,
      State.keeps_of_blank (State.event_blank (S := fun a => decide (a ≠ .flp)) rfl rfl rfl rfl v _ _ _ _) .flp rfl]
  have yi : ∀ (v : State) c, A (v.yield c) = A v := by
    intro v c
    simp only [A]
    rw [State.keeps_of_blank (State.yield_blank (S := fun a => decide (a ≠ .hrp)) rfl v _) .hrp rfl,
      State.keeps_of_blank (State.yield_blank (S := fun a => decide (a ≠ .clk)) rfl v _) .clk rfl,
      State.keeps_of_blank (State.yield_blank (S := fun a => decide (a ≠ .sticky)) rfl v _) .sticky rfl,
      State.keeps_of_blank (State.yield_blank (S := fun a => decide (a ≠ .flp)) rfl v _) .flp rfl]
  have dA : ∀ (v : State) a b, A (v.dropDeferred a b) = A v := by
    intro v a b; unfold State.dropDeferred; split <;> rfl
  have nA : ∀ (v : State), A v.noteLow = A v := fun _ => rfl
  have AA : ∀ v w : State, A v = A w → v.clk = w.clk ∧ v.activeNo = w.activeNo ∧ (∀ q, v.page q = w.page q) ∧ v.activePage = w.activePage ∧ v.standby = w.standby ∧ v.stick Reg.mapStatus = w.stick Reg.mapStatus ∧ v.uncopied = w.uncopied := by
    intro v w h
    simp only [A, Prod.mk.injEq] at h
    obtain ⟨h1, h4, h5, h2, h3, h6⟩ := h
    refine ⟨h2, by unfold State.activeNo; rw [h1], fun q => by unfold State.page; rw [h4, h5], by unfold State.activePage State.page State.activeNo; rw [h1, h4, h5],
      by unfold State.standby State.page State.standbyNo State.activeNo; rw [h1, h4, h5], by unfold State.stick; rw [h3], by funext i; unfold State.uncopied State.tnNow; rw [h2, h6]⟩
  unfold State.entryFails
  dsimp only
  generalize hu0 : ({ u with hrp := { u.hrp with crcIdx := pg * 524288 + i }, cal := { u.cal with passFrom := 0 } } : State) = u0
  have w1 : u0.clk = u.clk ∧ u0.activeNo = u.activeNo ∧ (∀ q, u0.page q = u.page q) ∧ u0.activePage = u.activePage ∧ u0.standby = u.standby ∧ u0.stick Reg.mapStatus = u.stick Reg.mapStatus ∧ u0.uncopied = u.uncopied := by
    subst hu0; exact ⟨rfl, rfl, fun _ => rfl, rfl, rfl, rfl, rfl⟩
  by_cases ha : pg = u0.activeNo
  · rw [if_pos ha]
    have e := AA _ _ ((yi ((u0.setSticky Reg.mapStatus 0x80000000).event [0] 0x0031 i pg) 1).trans (ev (u0.setSticky Reg.mapStatus 0x80000000) i pg))
    refine ⟨e.1.trans w1.1, e.2.1.trans w1.2.1, fun q => ?_, ?_, ?_, ?_, ?_, ?_⟩
    · rw [e.2.2.1]; exact congrArg Page.ent (w1.2.2.1 q)
    · rw [e.2.2.2.1]; exact w1.2.2.2.1
    · intro b h
      rw [e.2.2.2.2.2.1]; exact keep _ _ _ b (by rw [w1.2.2.2.2.2.1]; exact h)
    · intro _
      refine ⟨?_, ?_⟩
      · rw [e.2.2.2.2.2.1]; exact put _ _ _ _ (by decide)
      · rw [e.2.2.2.2.1]; exact congrArg Page.eg w1.2.2.2.2.1
    · intro h; exact absurd (ha.trans w1.2.1) h
    · exact e.2.2.2.2.2.2.trans w1.2.2.2.2.2.2
  · rw [if_neg ha]
    have ps : u0.standbyNo = pg := by
      unfold State.standbyNo; rcases an1 u0 with h | h <;> omega
    generalize hq : ({ (u0.page pg).free i with eg := Tab.put {} ((u0.page pg).free i).eg i { out := 2 }, bad := if i ∈ (u0.page pg).bad then (u0.page pg).bad else (u0.page pg).bad ++ [i] } : Page) = q
    cases tr with
    | false =>
      rw [if_neg (by decide)]
      have e := AA _ _ (ev (u0.setSticky Reg.mapStatus 0x40000000) i pg)
      refine ⟨e.1.trans w1.1, e.2.1.trans w1.2.1, fun q => ?_, e.2.2.2.1.trans w1.2.2.2.1, ?_, ?_, ?_, e.2.2.2.2.2.2.trans w1.2.2.2.2.2.2⟩
      · rw [e.2.2.1]; exact congrArg Page.ent (w1.2.2.1 q)
      · intro b h
        rw [e.2.2.2.2.2.1]; exact keep _ _ _ b (by rw [w1.2.2.2.2.2.1]; exact h)
      · intro h; exact absurd (h.trans w1.2.1.symm) ha
      · intro _
        refine ⟨?_, fun h => absurd h (by decide), fun j _ => ?_⟩
        · rw [e.2.2.2.2.2.1]; exact put _ _ _ _ (by decide)
        · rw [e.2.2.2.2.1]; exact congrArg (fun (x : Page) => x.eg.look {} j) w1.2.2.2.2.1
    | true =>
    rw [if_pos rfl]
    have e := AA _ _ ((ev ((((u0.setPage pg q).dropDeferred i 0).noteLow).setSticky Reg.mapStatus 0x40000000) i pg).trans
      (show A ((((u0.setPage pg q).dropDeferred i 0).noteLow).setSticky Reg.mapStatus 0x40000000) = A ((u0.setPage pg q).setSticky Reg.mapStatus 0x40000000) by
        have := (nA _).trans (dA (u0.setPage pg q) i 0)
        simp only [A, Prod.mk.injEq] at this
        obtain ⟨x1, x2, x3, x4, x5, x6⟩ := this
        simp only [A, State.setSticky, State.stick]
        rw [x1, x2, x3, x4, x5, x6]))
    have qent : q.ent = (u0.page pg).ent := by
      subst hq; unfold Page.free; dsimp only; split <;> rfl
    have qeg : q.eg.look {} i = { out := 2 } ∧ ∀ j, j ≠ i → q.eg.look {} j = (u0.page pg).eg.look {} j := by
      subst hq
      dsimp only
      refine ⟨Tab.look_put_self _ _ _ _, fun j hj => ?_⟩
      rw [Tab.look_put_of_ne _ _ _ _ hj]
      unfold Page.free; dsimp only
      split <;> exact Tab.look_put_of_ne _ _ _ _ hj
    have sp : ∀ r, ((u0.setPage pg q).page r) = if (r = 0 ↔ pg = 0) then q else u0.page r := by
      intro r; unfold State.setPage State.page
      by_cases h0 : pg = 0 <;> by_cases h1 : r = 0 <;> simp [h0, h1]
    have san : (u0.setPage pg q).activeNo = u0.activeNo ∧ (u0.setPage pg q).standbyNo = u0.standbyNo := by
      unfold State.setPage; split <;> exact ⟨rfl, rfl⟩
    have sst : (u0.setPage pg q).clk = u0.clk ∧ (u0.setPage pg q).stick Reg.mapStatus = u0.stick Reg.mapStatus := by
      unfold State.setPage; split <;> exact ⟨rfl, rfl⟩
    have pgs : ∀ r, r ≤ 1 → r ≠ pg → (u0.setPage pg q).page r = u0.page r := by
      intro r h1 h2; rw [sp, if_neg (by omega)]
    have pgq : (u0.setPage pg q).page pg = q := by rw [sp, if_pos Iff.rfl]
    have sb : ((u0.setPage pg q).setSticky Reg.mapStatus 0x40000000).standby = q := by
      show ((u0.setPage pg q).page (u0.setPage pg q).standbyNo) = q
      rw [san.2, ps]; exact pgq
    refine ⟨e.1.trans (sst.1.trans w1.1), e.2.1.trans (san.1.trans w1.2.1), fun r => ?_, ?_, ?_, ?_, ?_, ?_⟩
    · rw [e.2.2.1, ← w1.2.2.1]
      show ((u0.setPage pg q).page r).ent = _
      rw [sp]; split
      · rename_i h
        rw [qent]
        by_cases h0 : pg = 0
        · rw [h.2 h0, h0]
        · have h1 : ¬ r = 0 := fun x => h0 (h.1 x)
          unfold State.page; rw [if_neg h0, if_neg h1]
      · rfl
    · rw [e.2.2.2.1, ← w1.2.2.2.1]
      show (u0.setPage pg q).page (u0.setPage pg q).activeNo = u0.page u0.activeNo
      rw [san.1]; exact pgs _ (by rcases an1 u0 with h | h <;> omega) (fun h => ha h.symm)
    · intro b h
      rw [e.2.2.2.2.2.1]; exact keep _ _ _ b (by rw [sst.2, w1.2.2.2.2.2.1]; exact h)
    · intro h; exact absurd (h.trans w1.2.1.symm) ha
    · intro _
      rw [e.2.2.2.2.1, e.2.2.2.2.2.1, sb]
      refine ⟨put _ _ _ _ (by decide), fun _ => qeg.1, fun j hj => ?_⟩
      have hj : j ≠ i := hj.resolve_right (by decide)
      rw [qeg.2 j hj, ← w1.2.2.2.2.1]
      unfold State.standby; rw [ps]
    · refine e.2.2.2.2.2.2.trans (Eq.trans ?_ w1.2.2.2.2.2.2)
      unfold State.setPage; split <;> rfl

end Sys2Proof.Machine
end

