-- ==== Sys2Proof/Tests/Wit.lean ====
section
/-! SUPPORT. Small states that the tests and witnesses start from. -/
namespace Sys2Proof.Tests
open Sys2Proof Sys2Proof.Machine

/-- A running device whose queue pair 0 belongs to the owner on a protected port. -/
def owned : State :=
  { State.reset with
    pwr := { phase := .running }
    mgp := { qp := [(0, { bound := true, prin := 0 })], port := [(0, { mode := 2, link := true })] } }

/-- The header of a message with the tag that fits. -/
def fabHdr (s : State) (l : Link) (o d : Word) (type : Nat) (body : List Byte) : FabHdr :=
  { link := l, lane := 0, seq := 0, fromMate := false, origin := o, dest := d, serial := 7,
    tag := Config.gcmTag 0 (s.nonceOf 0 0) (clearBytes type false o d 7) body }

/-- A device of a fabric in a role, its links to group 3 and its mate in a state. -/
def fabSt (role : Nat) (st : LinkSt) (f : State → State) : State := f { owned with
  regs := [(Reg.fabCfg, BitVec.ofNat 32 (role * 2 ^ 30 + 8000)), (Reg.fabId, 5), (Reg.fabMgr, 9), (Reg.tnCtrl, 2)]
  clk := { tick := 100, tn := 100, tnValid := true }, fab := { link := [(3, { st := st, keys := some {}, reqSerial := some 1 })], calrin := { st := st, keys := some {} } } }

end Sys2Proof.Tests
end

