-- ==== Sys2Proof/WellFormed.lean ====
section
/-! DEFINITION. Which commands are well formed: every field that the spec lays out in bytes fits its bytes, and every list
has the length that the spec gives it. The senders of the block send no other; nothing in the machine rests on it. -/
namespace Sys2Proof

/-- A lane of a fabric message lies in its group, a serial in its 8 bytes (R348, R349). -/
def FabHdr.wf (h : FabHdr) : Bool := decide (h.lane < 256) && decide (h.serial < 2 ^ 64)

/-- The data part of a message: 1 to 1,472 bytes (R350). -/
def msgData (d : List Byte) : Bool := decide (1 ≤ d.length) && decide (d.length ≤ 1472)

/-- R430. -/
def Desc.wf (d : Desc) : Bool := decide (d.opcode < 256) && decide (d.ring < 256) && decide (d.serial < 2 ^ 64)

/-- R432. -/
def CmpEntry.wf (c : CmpEntry) : Bool :=
  decide (c.serial < 2 ^ 64) && decide (c.opcode < 256) && decide (c.status < 256) && decide (c.ring < 256)
  && decide (c.tick < 2 ^ 64)

/-- R434. -/
def EvtEntry.wf (e : EvtEntry) : Bool := decide (e.code < 65536) && decide (e.object < 2 ^ 32) && decide (e.tn < 2 ^ 64)

/-- A Rack access moves 1 to 16 bytes between one of 9 masters and one of 7 targets (R540), and waits for other masters at most
8 cycles (R541). -/
def RackReq.wf (a : RackReq) : Bool :=
  decide (a.master < 9) && decide (a.target < 7) && decide (1 ≤ a.data.length) && decide (a.data.length ≤ 16)
  && decide (a.stall ≤ 8)

/-- A frame carries 2,048 cells (R95). -/
def RxFrame.wf (f : RxFrame) : Bool := decide (f.cells.length = 2048)

/-- The sources are 0 to 37, the power domains six (R297, R596). -/
def PeriodIn.wf (m : PeriodIn) : Bool := m.freqs.all (fun p => decide (p.1 < 38)) && decide (m.dom.length = 6)

/-- The packet number of a MACsec frame has 64 bits (R415). -/
def EthFrame.wf (f : EthFrame) : Bool := match f.sec with | some t => decide (t.pn < 2 ^ 64) | none => true

/-- The command is well formed. -/
def Instr.wf : Instr → Bool
  | .selectionPeriodBoundary m => m.wf
  | .frameReceived _ f => f.wf
  | .wheelOverhead _ mf => decide (mf.words.length % 64 = 0)
  | .calrinFrame _ f => decide (f.share.length = 1536)
  | .tnAnnounce hd tn _ => hd.wf && decide (tn < 2 ^ 64)
  | .delayReq hd t2Tick t2Ps => hd.wf && decide (t2Tick < 2 ^ 64) && decide (t2Ps < 125000)
  | .delayResp hd reqSerial t2Tick t2Ps t3Tick t4Tick t4Ps =>
    hd.wf && decide (reqSerial < 2 ^ 32) && decide (t2Tick < 2 ^ 64) && decide (t2Ps < 125000)
    && decide (t3Tick < 2 ^ 64) && decide (t4Tick < 2 ^ 64) && decide (t4Ps < 125000)
  | .flipPropose hd _ f => hd.wf && decide (f < 2 ^ 64)
  | .flipReady hd _ status reason => hd.wf && decide (status < 256) && decide (reason < 256)
  | .fabFlipCancel hd _ _ => hd.wf
  | .flipResult hd _ _ => hd.wf
  | .fabCmd hd mserial principal d _ => hd.wf && decide (mserial < 2 ^ 64) && decide (principal < 256) && d.wf
  | .fabResult hd mserial c => hd.wf && decide (mserial < 2 ^ 64) && c.wf
  | .fabEvent hd principal e => hd.wf && decide (principal < 256) && e.wf
  | .fabDump hd principal latchTn offset data =>
    hd.wf && decide (principal < 256) && decide (latchTn < 2 ^ 64) && decide (offset < 2 ^ 32) && msgData data
  | .fabMbx hd _ _ msg => hd.wf && decide (msg.length = 64)
  | .cmdData hd mserial offset data => hd.wf && decide (mserial < 2 ^ 64) && decide (offset < 2 ^ 32) && msgData data
  | .outData hd mserial offset data => hd.wf && decide (mserial < 2 ^ 64) && decide (offset < 2 ^ 32) && msgData data
  | .fabStatus hd tn st _ => hd.wf && decide (tn < 2 ^ 64) && decide (st < 256)
  | .peerKeyingMessage hd _ => hd.wf
  | .mgmtFrameReceived _ f => f.wf
  | .doorbellReadDone _ cmdProd cmpCons evtCons =>
    decide (cmdProd < 2 ^ 32) && decide (cmpCons < 2 ^ 32) && decide (evtCons < 2 ^ 32)
  | .descriptorFetchDone _ ds => ds.all Desc.wf
  | .batchReadDone _ b => decide (b.bytes.length ≤ 1048576)
  | .pantryOwnerWrite master _ newOwner => decide (master < 9) && decide (newOwner < 9)
  | .pantryAtomic master _ off _ _ stall _ => decide (master < 9) && decide (off < 65536) && decide (stall ≤ 8)
  | .rackAccess a => a.wf
  | .mbxCtrlPost master _ => decide (master < 9)
  | .mbxCtrlAck master _ => decide (master < 9)
  | .mbxCtrlWait master _ => decide (master < 9)
  | .mbxCtrlWithdraw master _ => decide (master < 9)
  | .completionRingReadDone _ slots => slots.all (fun p => p.2.wf)
  | .mateRingKey hd _ _ => hd.wf
  | .mateKeyAgreeRequest hd _ _ _ => hd.wf
  | .mateKeyAgreeResponse hd serial _ => hd.wf && decide (serial < 2 ^ 64)
  | .mateDump hd principal latchTn offset data =>
    hd.wf && decide (principal < 256) && decide (latchTn < 2 ^ 64) && decide (offset < 2 ^ 32) && msgData data
  | .coldPowerUp _ | .resetNRise _ _ _ _ | .resetNFall _ | .pwrGoodFall | .glbRstCtrlWarm _
  | .alertCauseChange _ _ _ _ _ | .i2cAccess _ _ _ | .jtagInstruction _ | .mailboxBlockReset _
  | .mgmtPortBlockReset _ _ | .dumpEngineReset _ | .whiskBlockReset _ | .calrinBlockReset _ | .laneGroupReset _ _
  | .watchdogExpiry _ | .controlRestartStart | .controlRestartEnd _ | .tickFault _ | .tnLoad _ | .loRegisterRead _ _
  | .ppsInEdge | .todMessage _ | .todOutSend | .secondBoundary | .sourceActivityLoss _ | .sourceQualified _
  | .referenceWtrExpiry _ | .starterLock | .acqTmoExpiry | .loopBandwidthStep | .transitionEnd | .holdoverLimitExpiry
  | .phaseStepApply | .phaseStepEnd | .refConfigApply | .refForceApply | .boardTableLoad _
  | .boardTableVerifyDone _ _ | .laneDirectionSettled _ _ | .overheadPacket _ | .capabilityWord _ _
  | .ladderTAlignExpiry _ | .ladderTNegExpiry _ | .stepSwitch _ _ | .ladderTVerifyExpiry _ | .laneDrop _
  | .laneWakeVerifyExpiry _ | .laneLoopApply _ | .loopGrantRelease _ | .eyeScanEnd _ _ _ | .laneDefectDeclare _ _ _
  | .laneDefectClear _ _ _ | .laneFail _ _ | .laneClear _ _ | .groupTimingWrite _ _ _ | .wheelDefectDeclare _ _
  | .wheelDefectClear _ _ | .retimerDecide _ | .retimerCountDeadline _ | .mapWriteExecute | .deferredEntryPlace _
  | .mapCheck | .flipFreeze | .flipCommit | .resyncEnd | .flipSeqFire _ | .flipSeqExpire _ | .flipSeqDiff _
  | .fabricFlipReadyTimeout _ _ | .fabricFlipResultTimeout _ | .pairLock _ | .colanderPlayout _ | .selectorEvaluate _
  | .pairCmdApply _ | .pairWtrExpiry _ | .caveBurstComplete _ _ | .caveRequestAbandon _ | .cavArbFreezeWrite _ _
  | .stackMoveEnd _ | .caveStackFault _ _ | .ladleRecordApply | .silenceTakeover | .ackStall | .heartbeatChange _
  | .heartbeatSilence | .settleDetachedExpiry | .reclaimSettleExpiry | .yieldComplete | .calMateCtrlSwap _
  | .syncComplete | .takeoverHoldEnd | .delaySampleTimeout _ | .peerKeyingRetry _ | .fabCmdRetry _ | .fabWorkerLost _
  | .fabCmdAbandon _ | .mgmtLinkChange _ _ | .saTxSwitch _ | .kick _ _ _ _ | .doorbellPoll _ | .descriptorTake
  | .completionPost _ | .rdmaWriteAck _ | .qpAckTimeout _ | .rdmaReadRequest _ _ _ _ | .registerWrite _ _ _ _
  | .nop _ | .mapWrite _ | .mapRead _ | .wheelDefine _ | .wheelDelete _ | .flipAt _ | .flipSeq _ | .flipCancel _
  | .pairSet _ | .pairCmd _ | .laneState _ | .laneLoop _ | .eyeScan _ | .refConfig _ | .refForce _ | .phaseStep _
  | .counterRead _ | .counterPreset _ | .counterPresetApply | .dumpConfig _ | .dumpConfigApply | .dumpImageStart _
  | .partitionSet _ | .ringBind _ | .keyAgree _ | .fwStage _ | .fwActivate _ | .attestQuote _ | .ephemeralKeyReady
  | .mbxPost _ | .budgetSet _ | .sealSetup _ | .controlRestart _ | .whiskRegionStart _ | .whiskRegionEnd _ _
  | .mbxTimeout _ | .mbxRemoteRetry _ | .slotProcessing | .ladleRecordSeal | .pwrGoodRise => true

end Sys2Proof
end

