-- ==== Sys2Proof/Tests/Slice0.lean ====
section
/-! SUPPORT. Small tests against the manual, and for every statement with hypotheses concrete data that meets them. -/
namespace Sys2Proof
open Sys2Proof.Machine

/-! ### WellFormed refuses an ill-formed term for each of its checks -/

namespace Smoke
def hd : FabHdr := ⟨.calrin, 0, 0, false, 0, 0, 0, 0⟩
def desc : Desc := ⟨1, 0, 0, 1, 0, 0⟩
def cmp : CmpEntry := ⟨1, 1, 0, false, 0, 0, 0, 0⟩
def evt : EvtEntry := ⟨1, false, false, 0, 0, 0, 0⟩
def rack : RackReq := ⟨0, 0, false, 0, [0], 0, 0⟩
def frame : RxFrame := { pos := 0, hdr := 0, ovh := 0, cells := List.replicate 2048 0, bip := 0, corr := 0, uncorr := 0, sync := [], arr := 0 }
def eth : EthFrame := ⟨64, true, false, false, 0, some ⟨0, 1, true⟩, .unsupported⟩
def per : PeriodIn := ⟨[(37, 0)], true, 0, 0, [0, 0, 0, 0, 0, 0]⟩
end Smoke

open Smoke

theorem test_wf_hdr : hd.wf = true ∧ (Instr.fabFlipCancel { hd with lane := 256 } 0 0).wf = false ∧
    (Instr.peerKeyingMessage { hd with serial := 2 ^ 64 } (.hello 0 0)).wf = false ∧ (Instr.mateRingKey { hd with lane := 256 } 0 0).wf = false ∧
    (Instr.flipResult { hd with lane := 256 } 0 true).wf = false := by decide
theorem test_wf_desc : (Instr.descriptorFetchDone 0 [desc]).wf = true ∧ (Instr.descriptorFetchDone 0 [{ desc with opcode := 256 }]).wf = false ∧
    (Instr.descriptorFetchDone 0 [{ desc with ring := 256 }]).wf = false ∧ (Instr.descriptorFetchDone 0 [{ desc with serial := 2 ^ 64 }]).wf = false := by decide
theorem test_wf_fabCmd : (Instr.fabCmd hd 0 0 desc ⟨true, true, true, true⟩).wf = true ∧ (Instr.fabCmd hd (2 ^ 64) 0 desc ⟨true, true, true, true⟩).wf = false ∧
    (Instr.fabCmd hd 0 256 desc ⟨true, true, true, true⟩).wf = false ∧ (Instr.fabCmd hd 0 0 { desc with opcode := 256 } ⟨true, true, true, true⟩).wf = false := by decide
theorem test_wf_cmp : (Instr.fabResult hd 0 cmp).wf = true ∧ (Instr.fabResult hd 0 { cmp with serial := 2 ^ 64 }).wf = false ∧
    (Instr.fabResult hd 0 { cmp with opcode := 256 }).wf = false ∧ (Instr.fabResult hd 0 { cmp with status := 256 }).wf = false ∧
    (Instr.fabResult hd 0 { cmp with ring := 256 }).wf = false ∧ (Instr.fabResult hd 0 { cmp with tick := 2 ^ 64 }).wf = false ∧
    (Instr.fabResult hd (2 ^ 64) cmp).wf = false ∧ (Instr.completionRingReadDone 0 [(0, { cmp with status := 256 })]).wf = false := by decide
theorem test_wf_evt : (Instr.fabEvent hd 0 evt).wf = true ∧ (Instr.fabEvent hd 0 { evt with code := 65536 }).wf = false ∧
    (Instr.fabEvent hd 0 { evt with object := 2 ^ 32 }).wf = false ∧ (Instr.fabEvent hd 0 { evt with tn := 2 ^ 64 }).wf = false ∧ (Instr.fabEvent hd 256 evt).wf = false := by decide
theorem test_wf_rack : (Instr.rackAccess rack).wf = true ∧ (Instr.rackAccess { rack with master := 9 }).wf = false ∧ (Instr.rackAccess { rack with target := 7 }).wf = false ∧
    (Instr.rackAccess { rack with data := [] }).wf = false ∧ (Instr.rackAccess { rack with data := List.replicate 17 0 }).wf = false ∧ (Instr.rackAccess { rack with stall := 9 }).wf = false := by decide
set_option maxRecDepth 20000 in
theorem test_wf_frames : (Instr.frameReceived 0 frame).wf = true ∧ (Instr.frameReceived 0 { frame with cells := [] }).wf = false ∧
    (Instr.calrinFrame 0 { hdr := 0, ovh := 0, share := [], crcOk := true }).wf = false ∧ (Instr.wheelOverhead 0 ⟨0, [0], false⟩).wf = false := by decide
theorem test_wf_period : (Instr.selectionPeriodBoundary per).wf = true ∧ (Instr.selectionPeriodBoundary { per with freqs := [(38, 0)] }).wf = false ∧
    (Instr.selectionPeriodBoundary { per with dom := [] }).wf = false := by decide
theorem test_wf_eth : (Instr.mgmtFrameReceived 0 eth).wf = true ∧ (Instr.mgmtFrameReceived 0 { eth with sec := some ⟨0, 2 ^ 64, true⟩ }).wf = false := by decide
theorem test_wf_timing : (Instr.tnAnnounce hd (2 ^ 64) 0).wf = false ∧ (Instr.delayReq hd (2 ^ 64) 0).wf = false ∧ (Instr.delayReq hd 0 125000).wf = false ∧
    (Instr.delayResp hd (2 ^ 32) 0 0 0 0 0).wf = false ∧ (Instr.delayResp hd 0 (2 ^ 64) 0 0 0 0).wf = false ∧ (Instr.delayResp hd 0 0 125000 0 0 0).wf = false ∧
    (Instr.delayResp hd 0 0 0 (2 ^ 64) 0 0).wf = false ∧ (Instr.delayResp hd 0 0 0 0 (2 ^ 64) 0).wf = false ∧ (Instr.delayResp hd 0 0 0 0 0 125000).wf = false := by decide
theorem test_wf_flips : (Instr.flipPropose hd 0 (2 ^ 64)).wf = false ∧ (Instr.flipReady hd 0 256 0).wf = false ∧ (Instr.flipReady hd 0 0 256).wf = false := by decide
theorem test_wf_data : (Instr.cmdData hd 0 0 [0]).wf = true ∧ (Instr.cmdData hd 0 0 []).wf = false ∧ (Instr.cmdData hd (2 ^ 64) 0 [0]).wf = false ∧
    (Instr.cmdData hd 0 (2 ^ 32) [0]).wf = false ∧ (Instr.outData hd (2 ^ 64) 0 [0]).wf = false ∧ (Instr.outData hd 0 (2 ^ 32) [0]).wf = false ∧ (Instr.outData hd 0 0 []).wf = false ∧
    (Instr.fabDump hd 256 0 0 [0]).wf = false ∧ (Instr.fabDump hd 0 (2 ^ 64) 0 [0]).wf = false ∧ (Instr.fabDump hd 0 0 (2 ^ 32) [0]).wf = false ∧ (Instr.fabDump hd 0 0 0 []).wf = false ∧
    (Instr.mateDump hd 256 0 0 [0]).wf = false ∧ (Instr.mateDump hd 0 (2 ^ 64) 0 [0]).wf = false ∧ (Instr.mateDump hd 0 0 (2 ^ 32) [0]).wf = false ∧ (Instr.mateDump hd 0 0 0 []).wf = false := by decide
set_option maxRecDepth 20000 in
theorem test_wf_long_data : (Instr.cmdData hd 0 0 (List.replicate 1473 0)).wf = false := by decide
theorem test_wf_other : (Instr.fabMbx hd 0 0 []).wf = false ∧ (Instr.fabStatus hd (2 ^ 64) 0 0).wf = false ∧ (Instr.fabStatus hd 0 256 0).wf = false ∧
    (Instr.doorbellReadDone 0 (2 ^ 32) 0 0).wf = false ∧ (Instr.doorbellReadDone 0 0 (2 ^ 32) 0).wf = false ∧ (Instr.doorbellReadDone 0 0 0 (2 ^ 32)).wf = false ∧
    (Instr.pantryOwnerWrite 9 0 0).wf = false ∧ (Instr.pantryOwnerWrite 0 0 9).wf = false ∧ (Instr.pantryAtomic 9 0 0 true 0 0 0).wf = false ∧ (Instr.pantryAtomic 0 0 65536 true 0 0 0).wf = false ∧ (Instr.pantryAtomic 0 0 0 true 0 9 0).wf = false ∧
    (Instr.mbxCtrlPost 9 0).wf = false ∧ (Instr.mbxCtrlAck 9 0).wf = false ∧ (Instr.mbxCtrlWait 9 0).wf = false ∧ (Instr.mbxCtrlWithdraw 9 0).wf = false ∧
    (Instr.mateKeyAgreeResponse hd (2 ^ 64) []).wf = false ∧ (Instr.mateKeyAgreeRequest { hd with lane := 256 } [] true true).wf = false := by decide
theorem test_wf_batch : (∀ n, n > 1048576 → (Instr.batchReadDone 0 ⟨List.replicate n 0, true, true, ⟨true, true, true, true⟩⟩).wf = false) := by
  intro n h
  show decide ((List.replicate n (0 : Byte)).length ≤ 1048576) = false
  rw [List.length_replicate]
  exact decide_eq_false (by omega)

/-! ### The block's frame: queue, table -/

/-- A command of the queue's front runs; the table gives no bits. -/
theorem test_queue : (State.withFetchWord State.reset 32 0) = State.reset ∧ decodeTableWord 32 0 = none := by decide
theorem test_reset : State.reset.pending = [] ∧ State.reset.up = false ∧ State.reset.mem.owner = [] := by decide

/-! ### Witnesses of the statements -/

theorem Tests.wit_idle : State.reset.up = false ∧ Tests.owned.pending = [] ∧ Tests.owned.pwr.wdogDue = false ∧
    Tests.owned.pwr.blkReq = 0 ∧ Tests.owned.pwr.grpReq = 0 := by decide
theorem Tests.wit_idle_up : Tests.owned.finish.mgp.more = [] := by decide

theorem Tests.wit_warmResetPins : Tests.owned.up = true ∧ ({ Tests.owned with pwr := { Tests.owned.pwr with resetN := true, pwrGood := true } } : State).pwr.resetN = true := by decide

def Tests.src0 : State := { Tests.owned with
  clk := { tick := 96000000 }
  str := { srcs := [(33, { active := true, inWindow := true, since := some 0 })], selSince := [(2, 1)] } }
theorem Tests.wit_sourceStates : Tests.src0.up = true ∧ (Tests.src0.src 33).active = true ∧ (Tests.src0.src 33).since = some 0 ∧
    (Tests.src0.src 33).inWindow = true ∧ (Tests.src0.src 33).qualified = false ∧ Tests.src0.srcBar 33 = 0 ∧
    0 + Tests.src0.qualTime ≤ Tests.src0.clk.tick ∧ Tests.src0.str.selSince.look 0 2 = 0 + 1 := by decide
theorem Tests.wit_sourceLost : let s : State := { Tests.owned with clk := { tick := 16 }, str := { sel := some 0, srcs := [(0, { active := true, qualified := true })] } }
    s.up = true ∧ (s.src 0).active = true ∧ (s.src 0).qualified = true ∧ s.selects 0 = true ∧ s.edgeFree 0 (max 0 (s.src 0).edgeAt) = true := by decide
theorem Tests.wit_wtr : let s : State := { Tests.owned with clk := { tick := 28800000000 }, str := { selSince := [(2, 1)] } }
    s.up = true ∧ s.str.selSince.look 0 2 = 0 + 1 ∧ 0 + s.selWtr ≤ s.clk.tick := by decide

theorem Tests.wit_starterLock : let s : State := { Tests.owned with clk := { tick := 8000000 }, str := { st := .acquiring, goodSince := some 0, sel := some 0 } }
    s.up = true ∧ s.str.goodSince = some 0 ∧ s.atPeriod = true ∧ s.str.st = .acquiring ∧ 0 + 8000000 ≤ s.clk.tick := by decide
theorem Tests.wit_acqTmo : let s : State := { Tests.owned with clk := { tick := 28800000000 }, str := { st := .acquiring, sel := some 0 } }
    s.up = true ∧ s.str.sel = some 0 ∧ s.atPeriod = true ∧ s.str.st = .acquiring ∧ s.str.selTick + s.acqTmo ≤ s.clk.tick := by decide
theorem Tests.wit_holdoverLimit : let s : State := { Tests.owned with clk := { tick := 4838400000000 }, str := { st := .holdover } }
    s.up = true ∧ s.atPeriod = true ∧ s.str.st = .holdover ∧ s.str.enterTick + s.hoLimit ≤ s.clk.tick := by decide
theorem Tests.wit_holdoverLimitActive : let s : State := { Tests.owned with clk := { tick := 4838400000000 }, str := { st := .holdover }, cal := { role := .active } }
    s.up = true ∧ s.atPeriod = true ∧ s.str.st = .holdover ∧ s.str.enterTick + s.hoLimit ≤ s.clk.tick ∧ s.cal.role = .active ∧ s.cal.yieldAt = none := by decide
theorem Tests.wit_bandwidth : let s : State := { Tests.owned with clk := { tick := 120000000 }, str := { st := .locked, bwStep := 0 } }
    s.up = true ∧ s.atPeriod = true ∧ s.str.st = .locked ∧ s.str.bwStep < 4 ∧ s.str.enterTick + 15 * 8000000 * (s.str.bwStep + 1) ≤ s.clk.tick := by decide
theorem Tests.wit_transitionEnd : let s : State := { Tests.owned with clk := { tick := 5000 }, str := { trans := true, offset := 10 } }
    s.up = true ∧ s.str.trans = true ∧ s.offsetNow = 0 := by decide

theorem Tests.wit_starterApply : let c : RefCfg := ⟨0, 0, 1, [0x00080101]⟩; let f : RefForce := ⟨1, 0, 0, 0⟩
    let s : State := { Tests.owned with str := { cfgs := [c], forces := [f] } }
    s.up = true ∧ s.cfgDue = some c ∧ s.forceDue = some f ∧ s.drops 7 = false := by decide
theorem Tests.wit_phaseApply : let x : Machine.Step := ⟨0, 100, 2500, 2500, 1⟩
    let s : State := { Tests.owned with clk := { tnValid := true, tn := 100 }, str := { steps := [x], step := some x } }
    s.up = true ∧ s.stepDue = some x ∧ s.drops 7 = false ∧ s.atPeriod = false ∧ s.str.step = some x ∧
    x.n + x.m ≤ s.tnNow + 1 := by decide

def Tests.todMsg0 : List Byte := [0xA5, 0x5C, 1, 1, 0, 0, 0, 0, 0, 9, 2, 0, 0, 0, 0x11, 0xC3]
theorem Tests.wit_tnLoad : Tests.owned.up = true ∧ Tests.owned.accessor (0 : Fin 16) = some 0 ∧ Tests.owned.accessor (1 : Fin 16) ≠ some 0 := by decide
theorem Tests.wit_ppsEdge : let s : State := { Tests.owned with clk := { tick := 100000, todMsg := some (9, 2, 20000) }, regs := [(Reg.tnCtrl, 1)] }
    s.up = true ∧ s.clk.todMsg = some (9, 2, 20000) ∧ 20000 + 80000 ≤ s.clk.tick ∧ s.clk.tick ≤ 20000 + 7920000 ∧ s.tnSrc = 1 ∧ s.clk.tnValid = false := by decide
theorem Tests.wit_ppsDisagree : let s : State := { Tests.owned with clk := { tick := 7940000, tnValid := true, tn := 80000000, todMsg := some (9, 2, 20000) }, regs := [(Reg.tnCtrl, 1)] }
    s.up = true ∧ s.clk.todMsg = some (9, 2, 20000) ∧ 20000 + 80000 ≤ s.clk.tick ∧ s.clk.tick ≤ 20000 + 7920000 ∧ s.tnSrc = 1 ∧ s.clk.tnValid = true ∧ (s.clk.tn + 4000000) / 8000000 ≠ 9 := by decide
theorem Tests.wit_ppsMissed : let s : State := { Tests.owned with clk := { todMiss := 3 }, str := { srcs := [(37, { qualified := true })] } }
    s.up = true ∧ s.clk.todMsg = none ∧ s.clk.todMiss = 3 := by decide
theorem Tests.wit_todOut : let s : State := { Tests.owned with clk := { tnValid := true, tn := 4000000 } }
    s.up = true ∧ s.secClock % 8000000 = 4000000 := by decide
theorem Tests.wit_loRead : Tests.owned.fw = true ∧ Tests.owned.accessor (0 : Fin 16) = some 0 ∧ (Tests.owned.pairAt Reg.tnLo).isSome = true ∧ Tests.owned.shown.pairAt Reg.tnLo = some (0, 0) := by decide

theorem Tests.wit_boundary : let s : State := { Tests.owned with clk := { tnValid := true, tn := 8000000 } }
    s.up = true ∧ s.atSecond = true ∧ s.clk.secDone = false ∧ s.drops 6 = false ∧ s.drops 7 = false ∧ s.atPeriod = true ∧ s.clk.perDone = false ∧ 1 ≤ s.clk.tn := by decide
theorem Tests.wit_announce : let s : State := { Tests.owned with clk := { tnValid := true, tn := 8000000 }, fab := { link := [(3, { st := .up })] }, regs := [(Reg.fabCfg, 0x40000000)] }
    s.fabRole ≠ 0 ∧ Link.group 3 ∈ s.groupsIn .up := by decide

theorem Tests.wit_selection : let s : State := { Tests.owned with regs := [(Reg.refPrio 2, 0x00200102)], str := { srcs := [(32, { qualified := true })] } }
    s.str.forced = none ∧ s.str.sel = none ∧ s.selectable 2 = true ∧ s.choose = some 2 := by decide
theorem Tests.wit_selectionStays : let s : State := { Tests.owned with regs := [(Reg.refPrio 2, 0x00200102)], str := { srcs := [(32, { qualified := true })], sel := some 2 } }
    s.str.forced = none ∧ s.selectable 2 = true ∧ s.selRevert = false ∧ s.choose = some 2 := by decide
theorem Tests.wit_selectionForced : let s : State := { Tests.owned with str := { srcs := [(0, { qualified := true })], forced := some 0 } }
    s.str.forced = some 0 ∧ (s.src (s.entSource 0)).qualified = true := by decide

/-- Group 0 in NEGOTIATE with lane 0 taking part and a board table that offers rung 1; the word `w` is qualified. -/
def Tests.negotiating (w : BitVec 64) (bt : List BtRec) (act : Nat) : State := { Tests.owned with
  sds := { lane := [(0, { tx := .active, rx := .active, cap := some w })], group := [(0, { st := .negotiate, target := 1, sendAct := act })],
           bt := { held := some ⟨0, bt, []⟩ } } }
set_option maxRecDepth 20000 in
theorem Tests.wit_propose : let w : BitVec 64 := 14199937586046173290#64
    let s := Tests.negotiating w [⟨0, 1, 0, []⟩] 0
    s.up = true ∧ (s.lane 0).cap = some w ∧ capOk w = true ∧ capAct w = 1 ∧ (s.group 0).st = .negotiate ∧
    s.seqFits 0 (capSeqOf w) = true ∧ capTarget w ≠ 0 ∧ s.partLanes 0 = [0] ∧ (s.partLanes 0).all (fun m => s.offers m (capTarget w)) = true ∧
    ((Tests.negotiating w [] 0).partLanes 0).all (fun m => (Tests.negotiating w [] 0).offers m (capTarget w)) = false := by decide
set_option maxRecDepth 20000 in
theorem Tests.wit_accept : let w : BitVec 64 := 14200007954790350901#64
    let s := Tests.negotiating w [] 1
    s.up = true ∧ (s.lane 0).cap = some w ∧ capOk w = true ∧ capAct w = 2 ∧ (s.group 0).st = .negotiate ∧
    s.seqFits 0 (capSeqOf w) = true ∧ capTarget w = (s.group 0).target ∧ capExch w = (s.group 0).exch ∧ (s.group 0).sendAct = 1 := by decide
set_option maxRecDepth 20000 in
theorem Tests.wit_reject : let w : BitVec 64 := 14200078323534528765#64
    let s := Tests.negotiating w [] 1
    s.up = true ∧ (s.lane 0).cap = some w ∧ capOk w = true ∧ capAct w = 3 ∧ (s.group 0).st = .negotiate ∧ (s.group 0).sendAct = 1 ∧ capExch w = (s.group 0).exch := by decide
theorem Tests.wit_tAlign : let s : State := { Tests.owned with clk := { tick := 800000 }, sds := { lane := [(0, { tx := .active, rx := .active })], group := [(0, { st := .r0Align })] } }
    s.up = true ∧ (s.group 0).st = .r0Align ∧ (s.group 0).since + s.tAlign 0 ≤ s.clk.tick ∧ 0 ∈ s.partLanes 0 ∧ s.bothInFrame 0 = false := by decide
theorem Tests.wit_tNeg : let s : State := { Tests.owned with clk := { tick := 8000000 }, sds := { group := [(0, { st := .negotiate })] } }
    s.up = true ∧ (s.group 0).st = .negotiate ∧ (s.group 0).since + s.tNeg 0 ≤ s.clk.tick := by decide

theorem Tests.wit_stepSwitch : let s : State := { Tests.owned with clk := { tick := 300 }, sds := { group := [(0, { st := .step, target := 2, ownSeq := some 256, farSeq := some 200, farDone := false })] } }
    s.up = true ∧ (s.group 0).st = .step ∧ (s.group 0).ownSeq = some 256 ∧ (s.group 0).farSeq = some 200 ∧ (s.group 0).ownDone = false ∧
    (s.group 0).farDone = false ∧ s.seqReached 256 = true ∧ s.seqReached 200 = true := by decide
theorem Tests.wit_stepSwitchLast : let s : State := { Tests.owned with clk := { tick := 300 }, sds := { group := [(0, { st := .step, target := 2, ownSeq := some 256, farDone := true })] } }
    s.up = true ∧ (s.group 0).st = .step ∧ (s.group 0).ownSeq = some 256 ∧ (s.group 0).ownDone = false ∧ (s.group 0).farDone = true ∧ s.seqReached 256 = true := by decide
/-- Group 0 in VERIFY since tick 0 at rung 2, lane 0 taking part with a READY word, its frame found at tick 100. -/
def Tests.verifying (bad : Bool) : State := { Tests.owned with
  clk := { tick := 80000 }
  sds := { lane := [(0, { tx := .active, rx := .active, cap := some 0x0000010000000000, frameAt := some 100, verBad := bad })], group := [(0, { st := .verify, rung := 2 })] } }
theorem Tests.wit_verify : (Tests.verifying false).up = true ∧ ((Tests.verifying false).group 0).st = .verify ∧
    ((Tests.verifying false).group 0).since + (Tests.verifying false).tVerify 0 ≤ (Tests.verifying false).clk.tick ∧ (Tests.verifying false).partLanes 0 = [0] ∧
    (Tests.verifying false).verified 0 0 ((Tests.verifying false).tVerify 0) = true ∧ ((Tests.verifying false).lane 0).cap = some 0x0000010000000000 ∧
    capReady 0x0000010000000000 = true ∧ capAct 0x0000010000000000 ≠ 1 ∧
    (Tests.verifying true).verified 0 0 ((Tests.verifying true).tVerify 0) = false ∧ (Tests.verifying true).grpIsolate 0 = false ∧ 0 ∈ (Tests.verifying true).partLanes 0 := by decide
/-- Group 0 in service at a rung with lanes 0 and 1 taking part, lane 0 out of frame since tick 0. -/
def Tests.dropping (rung : Nat) (regs : Tab Word) : State := { Tests.owned with
  clk := { tick := 800000 }
  regs := regs
  sds := { lane := [(0, { tx := .active, rx := .active, dropSince := some 0 }), (1, { tx := .active, rx := .active })], group := [(0, { st := .inService, rung := rung })] } }
theorem Tests.wit_laneDrop : ∀ r ∈ [0, 2], ∀ g ∈ [[], [(Reg.grpCfg 0, (0x40000000 : Word))]], (Tests.dropping r g).up = true ∧ ((Tests.dropping r g).lane 0).dropSince = some 0 ∧
    ((Tests.dropping r g).group 0).st = .inService ∧ (Tests.dropping r g).takesPart 0 = true ∧ 0 + (Tests.dropping r g).dropTime 0 ≤ (Tests.dropping r g).clk.tick ∧
    ((Tests.dropping r g).partLanes 0).length ≠ 1 ∧ (Tests.dropping r g).grpIsolate 0 = decide (g ≠ []) := by decide

/-- Lane 0 with both directions about to take their commanded states, its check due, MAINT's loop on it and a scan running. -/
def Tests.settling (cmd : Pow) (rx : Pow) : State := { Tests.owned with
  clk := { tick := 400000, tn := 7, tnValid := true }
  sds := { lane := [(0, { txCmd := .active, txDue := some 10, rxCmd := cmd, rx := rx, rxDue := some 10, wakeDue := some 80000, loop := 1, loopMaint := true })]
           group := [(0, { st := .inService, rung := 2 })], scans := [{ h := 4, lane := 0, eye := 1, dwell := 80, out := 0, hkey := 0, start := some 0 }]
           loops := [⟨5, 0, 0, 7, false⟩] } }
theorem Tests.wit_settled : ∀ p ∈ [(Pow.active, Pow.off), (.off, .active)], let s := Tests.settling p.1 p.2
    s.up = true ∧ (s.lane 0).txDue = some 10 ∧ (s.lane 0).rxDue = some 10 ∧ 10 ≤ s.clk.tick ∧ (s.lane 0).wakeDue = some 80000 ∧ 80000 ≤ s.clk.tick ∧
    (s.group 0).st = .inService ∧ (s.lane 0).loop ≠ 0 ∧ (s.lane 0).loopMaint = true ∧ s.granted 0 s.tnNow = false ∧
    s.loopDue 0 = some ⟨5, 0, 0, 7, false⟩ ∧
    s.sds.scans.find? (fun c => decide (c.lane = 0) && c.start.isSome) = some { h := 4, lane := 0, eye := 1, dwell := 80, out := 0, hkey := 0, start := some 0 } ∧
    0 + 4096 * (80 + 2) ≤ s.clk.tick := by decide

/-- Lane 0 ACTIVE with LOF (1) in a state since tick 0. -/
def Tests.lof (x : Defect) : State := { Tests.owned with
  clk := { tick := 80000000 }
  sds := { lane := [(0, { rx := .active })] }
  frm := { rx := [(0, { defects := [(1, x)] })] } }
theorem Tests.wit_defect : (let s := Tests.lof { raw := true };
      s.up = true ∧ (s.lane 0).rx = .active ∧ s.declared 0 1 = false ∧ s.heldFor 0 1 0 (s.laneSet 0 1) true = true) ∧
    (let s := Tests.lof { declared := true };
      s.declared 0 1 = true ∧ s.heldFor 0 1 0 (s.laneClr 0 1) false = true ∧ s.atPeriod = true ∧ (s.laneDef 0 1).failed = false ∧
      (s.laneDef 0 1).decSince + s.failSet 0 ≤ s.clk.tick) ∧
    (let s := Tests.lof { failed := true };
      s.atPeriod = true ∧ s.declared 0 1 = false ∧ (s.laneDef 0 1).failed = true ∧ (s.laneDef 0 1).decSince + s.failClr 0 ≤ s.clk.tick) := by decide

theorem Tests.wit_setup : (let s : State := { Tests.owned with sds := { bt := { state := 1 } }, frm := { rx := [(3, { done2 := [[1, 2]] })] } };
    s.up = true ∧ s.accessor (0 : Fin 16) = some 0 ∧ s.accessor (1 : Fin 16) ≠ some 0 ∧ s.sealed = false ∧ (s.group 0).st = .down ∧
    s.sds.bt.state = 1 ∧ (s.rx 3).done2 = [1, 2] :: []) ∧ ({ Tests.owned with sealed := true } : State).sealed = true := by decide

/-- Lane 0 ACTIVE at rung 2 with a receiver in a state, and a header that passes. -/
def Tests.framing (x : RxLane) : State := { Tests.owned with
  sds := { lane := [(0, { rx := .active, rxReady := true })], group := [(0, { st := .r0Align, rung := 2 })] }
  frm := { rx := [(0, x)] } }
def Tests.frame (hdr : BitVec 128) : RxFrame := ⟨0, hdr, 0, [], 0, 0, 0, [], 0, [], 0⟩
set_option maxRecDepth 20000 in
theorem Tests.wit_frames : let f := Tests.frame 328268216424635677433533930472292265775; let bad := Tests.frame 0
    (∀ x ∈ [({} : RxLane), { cands := [(0, some (0, 100))] }, { align := .inFrame }, { align := .oof, bad := 3 }, { align := .oof, bad := 7 }, { align := .oof, pos := 5 }],
      let s := Tests.framing x; s.up = true ∧ (s.lane 0).rx = .active ∧ (s.lane 0).rxReady = true ∧ s.nearLoop 0 = false ∧ 2 ≤ s.rungOf 0 ∧
      s.readLine 0 f = f ∧ f.pos < positions (s.rungOf 0) ∧ s.passes 0 f = true ∧ s.passes 0 bad = false ∧ s.fastFits 0 f = true ∧
      (s.confirmed 0 f = true ↔ x.cands ≠ [])) ∧ f.pos = 0 ∧ hdrLaneId f.hdr = 0 ∧ hdrSeq f.hdr = 100 := by decide
set_option maxRecDepth 20000 in
theorem Tests.wit_ambig : let f := Tests.frame 328268216424635677433533930472292265775
    ∀ a ∈ [(⟨0, .oof, 3, 1, false⟩ : Accept), ⟨0, .hunt, 3, 0, false⟩],
      let s := Tests.framing { align := .inFrame, pos := 5, acc := some a, cands := [(0, some (0, 100))] }
      (s.rx 0).align = .inFrame ∧ f.pos ≠ (s.rx 0).pos ∧ (s.rx 0).acc = some a ∧ s.clk.tick < a.tick + frameTicks (s.rungOf 0) ∧
      (a.align = .oof ∧ f.pos ≠ a.pos ∧ s.fastFits 0 f = true ∨ a.align = .hunt ∧ s.confirmed 0 f = true) := by decide
/-- Lane 0 at rung 0 with its block lock held or not. -/
def Tests.nrzLane (l : Bool) : State := { Tests.owned with
  sds := { lane := [(0, { rx := .active, rxReady := true })], group := [(0, { st := .r0Align })] }
  frm := { rx := [(0, { blockLock := l, syncWin := List.replicate 63 false })] } }
theorem Tests.wit_lock : (∀ l, (Tests.nrzLane l).rungOf 0 < 2 ∧ ((Tests.nrzLane l).rx 0).blockLock = l) ∧
    ([false].foldl RxLane.sync ((Tests.nrzLane true).rx 0)).blockLock = false := by decide

def Tests.mfGood (q : Nat) : RxMf := { t0 := 1000, words := (List.range 64).map (fun t => ohWord (mkOh false false (BitVec.ofNat 24 q) 100 0 0 0 0) t), badCell := false }
def Tests.whl1 : State := { Tests.owned with clk := { tick := 1100 }, whl := [(3, { defined := true, members := [5], align := .inMf, t0 := 936, oref := 6, nextC := some 100 })] }
def Tests.whl3 : State := { Tests.owned with clk := { tick := 1100 }, frm := { rx := [(0, { align := .inFrame })] }, whl := [(3, { defined := true, members := [5], cand := [(936, 6)] })] }
def Tests.whl4 (b : Nat) : State := { Tests.owned with clk := { tick := 1100 }, regs := [(Reg.frmGrp 0, 1)], whl := [(3, { defined := true, members := [5], align := .inMf, bad := b, t0 := 936, maxSkew := 4 })] }
set_option maxRecDepth 40000 in
/-- Good and bad multiframes on a Wheel in HUNT with and without a candidate, aligned, and foreign-timed. -/
theorem Tests.wit_wheels : let f := Tests.mfGood 7; let b : RxMf := { f with words := List.replicate 64 0 }
    (∀ s ∈ [Tests.whl1, Tests.whl3, Tests.whl4 1, Tests.whl4 3], s.up = true ∧ (s.wheel 3).defined = true) ∧
    f.words.length = 64 ∧ b.words.length = 64 ∧ (Tests.whl1.wheel 3).k = 1 ∧ (Tests.whl3.wheel 3).k = 1 ∧
    ohGood (mfOh 1 f.words) (areaOf 1) = true ∧ ohOseq (mfOh 1 f.words) = 7 ∧ ohGood (mfOh 1 b.words) (areaOf 1) = false ∧
    Tests.whl3.huntOk (Tests.whl3.wheel 3) = true ∧ (f.t0 - 64, (7 : BitVec 24) - 1) ∈ (Tests.whl3.wheel 3).cand ∧
    (Tests.whl4 1).whlForeign ((Tests.whl4 1).wheel 3) = true := by decide

def Tests.defs (w : Wheel) : State := { Tests.owned with clk := { tick := 1100 }, whl := [(3, { w with per := 9 })] }
/-- A Wheel in HUNT whose LOM-W is due; one with LOM-W declared and gone; one with AIS-W declared; EXC due. -/
theorem Tests.wit_wheelDefects :
    (let s := Tests.defs { defined := true, defects := [(1, { raw := true, since := 0 })] }
     let x := (s.wheel 3).note (s.laneFault (s.wheel 3))
     s.up = true ∧ (s.wheel 3).defined = true ∧ (s.wheel 3).dec 1 = false ∧ (x.def_ 1).raw = true ∧ s.whlSet 1 ≤ x.periodsOf (x.def_ 1)) ∧
    (let s := Tests.defs { defined := true, align := .inMf, defects := [(1, { declared := true })] }
     let x := (s.wheel 3).note (s.laneFault (s.wheel 3))
     s.up = true ∧ (s.wheel 3).dec 1 = true ∧ (x.def_ 1).raw = false ∧ s.whlClr 1 ≤ x.periodsOf (x.def_ 1)) ∧
    (let s := Tests.defs { defined := true, defects := [(0, { declared := true })] }
     (s.wheel 3).dec 0 = true) ∧
    (let s := Tests.defs { defined := true, excRun := 9 }
     s.whlSet 5 ≤ ((s.wheel 3).note (s.laneFault (s.wheel 3))).excRun) := by decide

/-- A Wheel of a foreign-timed group, on its own or as copy A of a pair, on a standby of a pair of devices. -/
def Tests.ret (t : Nat) (r : Retimer) (p : Tab Pair) : State := { Tests.owned with
  clk := { tick := t, tn := t, tnValid := true }, regs := [(Reg.frmGrp 0, 1)], cal := { role := .standby, lone := false }, col := { pair := p }
  whl := [(3, { defined := true, members := [5], ret := r })] }
theorem Tests.wit_retimer :
    (let s := Tests.ret 3 {} []; s.up = true ∧ s.retimed 3 = true ∧ s.secClock % 64 = 3 ∧ (s.wheel 3).ret.own = none) ∧
    (let s := Tests.ret 35 { own := some 5 } []; s.up = true ∧ s.retimed 3 = true ∧ s.copies = true ∧ s.secClock % 64 = 35 ∧ (s.wheel 3).ret.own.isSome = true ∧ (s.wheel 3).ret.mate = none) ∧
    (let s := Tests.ret 7 {} [(7, { defined := true, wa := 3, wb := 4, locked := true })]; s.retimed 3 = false ∧ s.retPair 3 = some 7 ∧ s.secClock % 64 = 7 ∧ (s.pair 7).locked = true) ∧
    (let s := Tests.ret 39 {} [(7, { defined := true, wa := 3, wb := 4, ret := { own := some 5 } })]; s.retPair 3 = some 7 ∧ s.copies = true ∧ s.secClock % 64 = 39) ∧
    (let s := Tests.ret 39 {} [(7, { defined := true, wa := 4, wb := 3 })]; s.retimed 3 = false ∧ s.retPair 3 = none) := by decide

def Tests.page1 : Page := { br := [(branchOf 0 5 0, ⟨0, 2⟩), (branchOf 0 6 1, ⟨1, 1⟩)], eg := [(9, { out := 0, br := branchOf 0 5 0 })] }
set_option maxRecDepth 100000 in
theorem Tests.wit_place : let k := branchOf 0 7 0
    2 ∉ Tests.page1.usedIn (brIn k) ∧ 2 ∉ Tests.page1.usedOut (brOut k) ∧ (∀ j < 2, j ∈ Tests.page1.usedIn (brIn k) ∨ j ∈ Tests.page1.usedOut (brOut k)) ∧
    Tests.page1.place k [] = .at_ Tests.page1 2 0 ∧ (Tests.page1.eg.look {} 9).out = 0 ∧ 1 < (Tests.page1.br.look {} (Tests.page1.eg.look {} 9).br).refs := by decide

/-- A standalone device with one job of one entry: a generated word, or one to a slot of another principal; deferred entries. -/
def Tests.mapJob (prin v : Nat) : State := { Tests.owned with
  flp := { jobs := [{ h := 1, ring := 0, prin := prin, noMove := false, rest := [(5, v)] }] } }
def Tests.deferred : State := { Tests.owned with hrp := { p1 := { ent := [(9, mkEntry (2 ^ 19 + 77))] }, deferred := [⟨9, 1⟩] } }
set_option maxRecDepth 20000 in
theorem Tests.wit_mapWrites :
    (∀ s ∈ [Tests.mapJob 0 (2 ^ 22 + 2 ^ 19 + 5), Tests.mapJob 3 5], s.executes = true ∧ s.windowF = none ∧ s.resyncing = false ∧ s.clk.wrUsed = 0 ∧
      s.flp.jobs.map s.missed = [none]) ∧
    (Tests.mapJob 0 (2 ^ 22 + 2 ^ 19 + 5)).entryCheck 0 5 (2 ^ 22 + 2 ^ 19 + 5) = 0 ∧ entryBranch (mkEntry (2 ^ 22 + 2 ^ 19 + 5)) 5 = none ∧
    (Tests.mapJob 3 5).entryCheck 3 5 5 ≠ 0 ∧ State.reset.executes = false ∧
    State.windowF { Tests.owned with clk := { tn := 100, tnValid := true }, flp := { flips := [{ h := 1, f := 102, id := 0 }] } } = some 102 ∧
    (let s := Tests.deferred; s.executes = true ∧ (∃ d ∈ s.hrp.deferred, d.slot = 9) ∧ entryBranch (s.standby.entry 9) 9 = some (branchOf 0 77 0) ∧
      s.standby.place (branchOf 0 77 0) s.keepBranches = .at_ s.standby 0 0) := by decide

set_option maxRecDepth 20000 in
theorem Tests.wit_mapCheck : Tests.owned.up = true ∧ Tests.owned.clk.checked = false ∧ entryOk ((Tests.owned.page 0).entry 0) = true ∧
    (let s : State := { Tests.owned with hrp := { p0 := { ent := [(3, 0)] }, p1 := { ent := [(3, 0)] }, checkPos := 524284 } }
     entryOk ((s.page 1).entry 3) = false ∧ (524284 + 7) / 524288 = 1 ∧ (524284 + 7) % 524288 = 3 ∧ s.activeNo = 0 ∧ entryOk ((s.page 0).entry 3) = false) := by decide

def Tests.flip (tn : Nat) (x : Flp) : State := { Tests.owned with clk := { tick := 900, tn := tn, tnValid := true }, flp := x }
def Tests.ffab : FabFlip := { h := 4, id := 7, f := 1000, a := 100, ws := [2] }
theorem Tests.wit_tickFlips :
    (let s := Tests.flip 1000 { flips := [{ h := 4, f := 1000, id := 0 }] }; s.up = true ∧ s.clk.tnValid = true ∧ s.tnNow = 1000) ∧
    (let s := Tests.flip 1000 { flips := [{ h := 4, f := 1000, id := 0, cancelled := true }] }; ∀ y ∈ s.flp.flips, y.f = s.tnNow → y.cancelled = true) ∧
    (let s := Tests.flip 1128 { resync := some 1000 }; s.flp.resync = some 1000 ∧ 1000 + 128 ≤ s.tnNow ∧ ∀ p ∈ s.standby.ent, entryOk p.2 = true) ∧
    (let s := { Tests.flip 500 { fab := [Tests.ffab] } with fab := { workers := [{ id := 2, pathSum := 9 }] } }; s.fw = true ∧ (s.worker 2).isSome = true ∧ s.flp.fab.find? (fun x => x.h = 4) = some Tests.ffab ∧
      (2 : Word) ∈ Tests.ffab.ws ∧ 100 + 2 * 9 + 8 ≤ s.tnNow) ∧
    (let s := Tests.flip 67000 { fab := [Tests.ffab] }; s.fw = true ∧ 1000 + 65536 ≤ s.tnNow ∧ Tests.ffab.results.find? (fun r => r.1 = s.fabId) = none) := by decide

def Tests.seqf : SeqFlip := { h := 4, prin := 0, trigger := 3, reference := none, s := 100, expiry := 800, roll := [5] }
def Tests.seqs (f : SeqFlip) (r : List FireRec) : State := { Tests.owned with clk := { tick := 900 }, flp := { seqs := [f], fires := r }, whl := [(8, { goodAny := true, lastGoodT0 := 890, oseq := 99 })] }
theorem Tests.wit_seqFlips :
    (let s := Tests.seqs { Tests.seqf with armed := some (900, 100) } [{ h := 4, mate := some 900, own := some (some 901) }]
     s.up = true ∧ (s.flp.seqs.find? (fun f => f.h = 4)).isSome = true ∧ (s.fireDue 4).isSome = true ∧ (s.flipsNow.fireDue 4).isSome = true) ∧
    (let s := Tests.seqs Tests.seqf []; Tests.seqf.armed = none ∧ Tests.seqf.expiry ≤ s.clk.tick ∧
      ((99 : BitVec 24) - (Tests.seqf.s - 1)).toNat < 2 ^ 23 ∧ ¬ ((98 : BitVec 24) - (Tests.seqf.s - 1)).toNat < 2 ^ 23 ∧
      (s.wheel 8).goodAny = true ∧ s.secClock < (s.wheel 8).lastGoodT0 + 128 ∧ ((s.wheel 8).lastGoodT0 : Int) + 64 * ((99 : BitVec 24) + 1 - (s.wheel 8).oseq).toInt = (890 : Int) + 64 ∧ (s.wheel 9).goodAny = false) := by decide

def Tests.pairs (x : Pair) (acts : List PairAct) : State := { Tests.owned with
  clk := { tick := 700, tn := 700, tnValid := true }, col := { pair := [(60, x)], acts := acts }
  whl := [(3, { defined := true, members := [5], align := .inMf, t0 := 640 }), (4, { defined := true, members := [6], align := .inMf, t0 := 660 })] }
def Tests.pairA : Pair := { defined := true, wa := 3, wb := 4, k := 1, mode := 1, tier := 1, diff := 30 }
theorem Tests.wit_pairs :
    (let s := Tests.pairs Tests.pairA [⟨9, 60, 5, 700⟩]
     s.up = true ∧ (s.pair 60).defined = true ∧ (s.pair 60).locked = false ∧ (s.wheel 3).align = .inMf ∧ (s.wheel 4).align = .inMf ∧
      (s.pairDue 60).isSome = true ∧ (s.flipsNow.firesNow.pairDue 60).isSome = true) ∧
    (let s := Tests.pairs { Tests.pairA with locked := true, p0 := 700, x0 := 10, nextX := 10 } []
     s.pairForeign (s.pair 60) = false ∧ (s.pair 60).at_ (s.pair 60).nextX = s.secClock ∧ s.drops 2 = false ∧ s.takenAt 60 10 700 = none) ∧
    (let s := Tests.pairs { Tests.pairA with mode := 3, lockout := true, wtrEnd := some 690 } []
     s.secClock % 64 = 60 ∧ (s.wheel 3).sf = false ∧ (s.wheel 3).sd = false) := by decide

def Tests.cave (r : CavReq) (oldS : List (BitVec 6 × Nat)) : State := { Tests.owned with
  clk := { tick := 700, tn := 700, tnValid := true }
  col := { pair := [(60, { defined := true, old := oldS })], reqs := [(33, [r])], stack := [(2, { uncorr := 3 })] } }
theorem Tests.wit_cave :
    (let s := Tests.cave ⟨0, 900, 2, 60, 5, 0, false⟩ [(1, 0)]
     s.up = true ∧ s.frozen ((33 : Fin 192).val / 32) = false ∧ served (s.reqsAt 33) = some ⟨0, 900, 2, 60, 5, 0, false⟩ ∧ s.reqsAt 34 = [] ∧
      (∀ r ∈ s.reqsAt 33, s.secClock ≤ r.deadline) ∧ s.accessor (0 : Fin 16) = some 0 ∧ s.accessor (1 : Fin 16) ≠ some 0 ∧
      (s.pair 60).old = [(1, 0)] ∧ (s.pair 60).locked = false) ∧
    (let s := Tests.cave ⟨1, 600, 1, 60, 5, 0, false⟩ []
     (s.reqsAt 33).find? (fun r => decide (r.deadline < s.secClock)) = some ⟨1, 600, 1, 60, 5, 0, false⟩ ∧ (s.pair 60).old = []) ∧
    (let s := { Tests.cave ⟨0, 900, 2, 60, 5, 0, false⟩ [] with regs := [(Reg.faultThr, 2), (Reg.arbFreeze, 2)] }
     s.up = true ∧ (s.reg Reg.faultThr).toNat % 65536 < (s.stack 2).uncorr ∧ (s.stack 1).uncorr ≤ (s.reg Reg.faultThr).toNat % 65536 ∧
      s.oos 1 = true ∧ s.frozen ((33 : Fin 192).val / 32) = true ∧ ∀ r ∈ s.reqsAt 33, r.granted = false) := by decide

def Tests.mate (r : Role) (hb : Hb) (c : Cal → Cal) : State := { Tests.owned with
  regs := [(Reg.mateCfg, 0x70000001)], clk := { tick := 20000, tn := 20000, tnValid := true }
  cal := c { role := r, mateHb := hb, hbNoneSince := some 0, lanesUp := 15 } }
theorem Tests.wit_mate :
    (let s := Tests.mate .active .standby id
     s.up = true ∧ s.cal.role = .active ∧ s.cal.lone = false ∧ s.cal.yieldAt = none ∧ s.pwr.restart = none ∧ s.cal.ackTick + 8 ≤ s.clk.tick ∧ s.anyPort = true ∧
      s.mated = true ∧ s.accessor (0 : Fin 16) = some 0 ∧ s.accessor (1 : Fin 16) ≠ some 0) ∧
    (let s := Tests.mate .detached .none id
     s.up = true ∧ s.mated = true ∧ s.hbSilent 16 = true ∧ s.cal.fromSync = false ∧ s.hbSilent s.settle = true ∧ s.primary = true) ∧
    (let s := Tests.mate .standby .active id
     s.up = true ∧ s.primary = true ∧ s.mateRevert = true ∧ s.cal.roleSince + s.settle ≤ s.clk.tick ∧ s.cal.recTick + 9 ≤ s.clk.tick ∧ s.cal.store = []) ∧
    (let s := Tests.mate .active .none (fun c => { c with yieldAt := some 19999, holdUntil := some 20000 })
     s.up = true ∧ s.cal.yieldAt = some 19999 ∧ s.cal.holdUntil = some 20000) ∧
    (let s := { Tests.mate .syncing .active (fun c => { c with snapDone := true, passOk := true, diffPeriods := 1, t0 := some 5 }) with str := { st := .locked, followMate := true } }
     s.up = true ∧ s.cal.role = .syncing ∧ s.syncReady = true) := by decide

theorem Tests.wit_shortForm : (16777000 : Nat) < 16777300 + 2 ^ 23 ∧ (16777300 : Nat) < 16777000 + 2 ^ 23 ∧
    (16777208 : Int) % 2 ^ 24 = (0xFFFFF8 : BitVec 24).toNat := by decide

def Tests.ladle (r : Role) (store : List LRec) : State := { Tests.owned with
  regs := [(Reg.mateCfg, 0x70000001)], sealed := true, clk := { tick := 20000, tn := 20000, tnValid := true }
  cal := { role := r, lanesUp := 14, store := store }, sds := { bt := { held := some ⟨0, [], []⟩ } } }
def Tests.calHdr (plane : Nat) : BitVec 128 :=
  let h := 0x3C5A96E1 * 2 ^ 96 + plane * 2 ^ 92 + 1 * 2 ^ 89
  BitVec.ofNat 128 (h + (crc16 ((msbBits (BitVec.ofNat 128 h)).take 112)).toNat)
set_option maxRecDepth 20000 in
theorem Tests.wit_ladle :
    (let s := Tests.ladle .active []
     s.up = true ∧ s.mated = true ∧ s.sealed = true ∧ s.clk.tnValid = true ∧ s.clk.sealDone = false ∧ s.sds.bt.held.isSome = true) ∧
    (let s := Tests.ladle .standby [{ tn := 19996, yield_ := true }]
     s.up = true ∧ s.cal.owed = [] ∧ s.cal.snap = [] ∧ s.col.pair = [] ∧ s.cal.store = [{ tn := 19996, yield_ := true }] ∧ (19996 : Nat) + 4 ≤ s.tnNow ∧ s.plane = 1 ∧
      calGood 0 (Tests.calHdr 1) = true ∧ calPlane (Tests.calHdr 1) = 1 ∧ calGood 0 (Tests.calHdr 2) = true ∧ calPlane (Tests.calHdr 2) = 2 ∧ calRole (Tests.calHdr 2) = 1 ∧
      calGood 0 0 = false) ∧
    (let s := Tests.ladle .standby [{ tn := 19997 }]
     ∀ r ∈ s.cal.store.head?, s.tnNow < r.tn + 4) := by decide

theorem Tests.receives_of {s : State} {l : Link} {o d : Word} {type : Nat} {body : List Byte} (hk : (s.plink l).keys = some {})
    (h1 : s.fabShut (Tests.fabHdr s l o d type body) type = false) (h2 : s.fabAgain (Tests.fabHdr s l o d type body) type = false)
    (hf : s.fabForeign (Tests.fabHdr s l o d type body) type = false)
    (h3 : linkLocal type = true ∨ (s.fabMine (Tests.fabHdr s l o d type body) type = true ∧ s.fabFits (Tests.fabHdr s l o d type body) type = true)) :
    s.receives (Tests.fabHdr s l o d type body) type body = true := by
  have ht : s.tagFits (Tests.fabHdr s l o d type body) type body = true := by
    unfold State.tagFits
    show (match (s.plink l).keys with | some k => _ | none => _) = true
    rw [hk]
    exact decide_eq_true rfl
  unfold State.receives
  rcases h3 with h3 | ⟨h3, h5⟩
  · simp only [h1, h2, ht, hf, h3, Bool.not_false, Bool.true_or, Bool.and_self]
  · have e := State.fabNote_eq s (Tests.fabHdr s l o d type body) type body
    have e1 : (s.fabNote (Tests.fabHdr s l o d type body) type body).fabMine (Tests.fabHdr s l o d type body) type = true := by rw [e]; exact h3
    have e3 : (s.fabNote (Tests.fabHdr s l o d type body) type body).fabFits (Tests.fabHdr s l o d type body) type = true := by rw [e]; exact h5
    simp only [h1, h2, ht, hf, e1, e3, Bool.not_false, Bool.or_true, Bool.and_self]
set_option maxRecDepth 20000 in
theorem Tests.wit_linkLocal : (let s := Tests.fabSt 2 .up id
    ∀ T ∈ [1, 2, 3], ∀ B : List Byte, s.receives (Tests.fabHdr s (.group 3) 9 5 T B) T B = true) ∧
    (let s := Tests.fabSt 2 .up id
     ∀ T ∈ [0x10, 0x12, 0x20, 0x25], ∀ B : List Byte, s.receives (Tests.fabHdr s (.group 3) 9 5 T B) T B = true) ∧
    (let s := Tests.fabSt 1 .up id
     ∀ T ∈ [0x11, 0x13, 0x21, 0x22, 0x23, 0x24, 0x26, 0x30], ∀ B : List Byte, s.receives (Tests.fabHdr s (.group 3) 5 5 T B) T B = true) ∧
    (let s := Tests.fabSt 1 .up (fun s => { s with regs := s.regs ++ [(Reg.mateCfg, 0x70000001)] })
     s.mated = true ∧ ∀ T ∈ [0x50, 0x51, 0x52, mateDumpType], ∀ B : List Byte, s.receives (Tests.fabHdr s .calrin 5 5 T B) T B = true) := by
  refine ⟨?_, ?_, ?_, by decide, ?_⟩
  · intro s T hT B
    simp only [List.mem_cons, List.not_mem_nil, or_false] at hT
    rcases hT with rfl | rfl | rfl <;> exact Tests.receives_of (s := Tests.fabSt 2 .up id) rfl rfl rfl rfl (Or.inl rfl)
  · intro s T hT B
    simp only [List.mem_cons, List.not_mem_nil, or_false] at hT
    rcases hT with rfl | rfl | rfl | rfl <;> exact Tests.receives_of (s := Tests.fabSt 2 .up id) rfl rfl rfl rfl (Or.inr ⟨rfl, rfl⟩)
  · intro s T hT B
    simp only [List.mem_cons, List.not_mem_nil, or_false] at hT
    rcases hT with rfl | rfl | rfl | rfl | rfl | rfl | rfl | rfl <;> exact Tests.receives_of (s := Tests.fabSt 1 .up id) rfl rfl rfl rfl (Or.inr ⟨rfl, rfl⟩)
  · intro T hT B
    simp only [List.mem_cons, List.not_mem_nil, or_false] at hT
    rcases hT with rfl | rfl | rfl | rfl <;> exact Tests.receives_of rfl rfl rfl rfl (Or.inl rfl)
theorem Tests.wit_linkMsg :
    (let s := Tests.fabSt 2 .up (fun s => { s with str := { st := .locked, sel := some 0 } })
     (s.plink (.group 3)).reqSerial = some 1 ∧ s.fabRole = 2 ∧ s.tnSrc = 2 ∧ s.follows_ 0 = true ∧ (s.plink (.group 3)).st = .up ∧ s.str.st = .locked) ∧
    (let s := Tests.fabSt 1 .up (fun s => { s with flp := { fab := [{ h := 1, id := 77, f := 200, a := 90, ws := [5] }] } })
     (s.flp.fab.find? (fun x => x.id = 77)).isSome = true ∧ s.tnNow < 200) ∧
    (let x : PeerLink := { st := .measuring, samples := List.replicate 16 5 }
     16 ≤ ((x.samples ++ [5]).drop (x.samples.length + 1 - 16)).length) := by decide

def Tests.fabDesc : Desc := ⟨1, 0, 0, 7, 0, 0⟩
theorem Tests.wit_fabCommands :
    (let s := Tests.fabSt 2 .up (fun s => { s with sealed := true, fab := { s.fab with wcmds := [{ mserial := 6, prin := 0, h := some 4 }, { mserial := 7, prin := 0, h := some 3, result := some ⟨1, 1, 0, false, 0, 0, 0, 0⟩ }] } })
     s.sealed = true ∧ s.fw = true ∧ descHasBatch Tests.fabDesc = false ∧ (s.fab.wcmds.find? (fun w => w.mserial = 5)).isNone = true ∧
     ((s.fab.wcmds.find? (fun w => w.mserial = 6)).map (·.result.isNone)) = some true ∧ ((s.fab.wcmds.find? (fun w => w.mserial = 7)).map (·.result.isSome)) = some true) ∧
    (let e : JEntry := { ring := 0, prin := 0, d := Tests.fabDesc, j := 0 }
     let s := Tests.fabSt 1 .up (fun s => { s with mgp := { s.mgp with journal := [(3, e)] }, fab := { s.fab with cmds := [⟨3, 5, 0, false⟩, ⟨4, 5, 0, true⟩] } })
     s.fw = true ∧ (s.job 3).isSome = true ∧ e.cmp = none ∧ e.origin = .ring ∧ s.fab.cmds.find? (fun c => decide (c.h = 3) && decide (c.worker = 5)) = some ⟨3, 5, 0, false⟩ ∧
     s.fab.cmds.find? (fun c => decide (c.h = 4) && decide (c.worker = 5)) = some ⟨4, 5, 0, true⟩) := by decide

theorem Tests.wit_fabricTimers :
    (let s := Tests.fabSt 1 .keying (fun s => { s with fab := { s.fab with link := [(3, { st := .keying, nonceOwn := some 0, helloFar := some (0, 0) })], calrin := { retryAt := some 100, reqSerial := some 1 } }, clk := { s.clk with tick := 80000 }, cal := { s.cal with lanesUp := 3 } })
     s.up = true ∧ (s.plink (.group 3)).st = .keying ∧ (s.plink (.group 3)).nonceOwn = some 0 ∧ (s.plink .calrin).retryAt = some 100 ∧ (s.plink .calrin).st = .down ∧ 100 ≤ s.clk.tick ∧
     s.anyPort = true ∧ (s.plink .calrin).reqSerial.isSome = true ∧ (s.plink .calrin).reqT1 + 80000 ≤ s.clk.tick) ∧
    (let e : JEntry := { ring := 0, prin := 0, d := ⟨1, 0, 0, 7, 0, 0⟩, j := 0 }
     let s := Tests.fabSt 1 .up (fun s => { s with mgp := { s.mgp with journal := [(3, e)] }, clk := { s.clk with tick := 64000000 }, fab := { s.fab with cmds := [⟨3, 5, 0, false⟩], workers := [{ id := 5, lost := true }, { id := 6, silent := 3 }] } })
     s.fw = true ∧ s.fab.cmds.find? (fun c => c.h = 3) = some ⟨3, 5, 0, false⟩ ∧ (s.job 3).isSome = true ∧ e.cmp = none ∧ 0 + s.retry ≤ s.clk.tick ∧
     (s.worker 5).map (·.lost) = some true ∧ (s.worker 6).map (·.silent) = some 3 ∧ s.fabRole = 1) := by decide

set_option exponentiation.threshold 400 in
theorem Tests.wit_ports :
    (let x : Port := { link := true, mode := 2, sa := some ⟨0, 0, 1, 100⟩, next := some ⟨0, 1, 1, 0⟩, switchTn := some 0, rxNew := 15 }
     let s : State := { Tests.owned with mgp := { qp := [(0, { bound := true, prin := 0, ring := 0, port := 0 }), (1, { bound := true, ring := 0, port := 1 })], ring := [(0, { qpLo := 0, qpHi := 1 })], port := [(1, x)] } }
     s.fw = true ∧ s.up = true ∧ s.port 1 = x ∧ x.link = true ∧ x.mode ≠ 0 ∧ x.mode ≠ 1 ∧ (x.next.map (·.an)) = some 1 ∧ (x.sa.map (·.an)) = some 0 ∧ s.clk.tnValid = false ∧
     s.workQp (s.qp 0).ring = some 1 ∧ s.qpWorks 0 = false ∧ s.reaches 1 = true) := by decide

def Tests.ringSt (x : Ring) (f : State → State) : State :=
  f { Tests.owned with sealed := true, mgp := { Tests.owned.mgp with ring := [(0, { x with st := .open_, key := none })] } }
set_option maxRecDepth 20000 in
theorem Tests.wit_ringFetch :
    (let d : Desc := { opcode := 0, flags := 0, ring := 0, serial := 1, body := 0, tag := 0 }
     let s := Tests.ringSt { fetch := [d], dbRead := false, fetching := 1 } (fun s => { s with clk := { s.clk with tnValid := true } })
     s.up = true ∧ s.fw = true ∧ (s.qp 0).bound = true ∧ (s.port (s.qp 0).port).mode ≠ 0 ∧ (s.ring 0).prin = (s.qp 0).prin ∧ s.ringFetches 0 = true ∧ s.clk.tn % 512 = 32 * 0 ∧ (s.ring 0).dbRead = false ∧ (s.ring 0).fetching ≠ 0 ∧
     s.clk.takeUsed < 4 ∧ s.nextRing = some 0 ∧ descHasBatch d = false ∧ (s.ring 0).keyFor 1 = none ∧ d.opcode ∈ opcodes) ∧
    (let d : Desc := { opcode := 0, flags := 1, ring := 0, serial := 1, body := 8#768 <<< 576, tag := 0 }
     let s := Tests.ringSt { fetch := [d], dbRead := true, batchWait := true } id
     s.fw = true ∧ (s.ring 0).dbRead = true ∧ (s.ring 0).batchWait = true ∧ fld d.body 72 4 = 8 ∧ descBatchRef d = true) := by decide

def Tests.posting (e : JEntry) (x : Ring) (op : OpKind) : State := { Tests.owned with
  clk := { tick := 5000 }
  cnt := { dump := [(0, { imgs := [⟨0, 7, 9, 64, false⟩] })] }
  mgp := { qp := [(0, { bound := true, ops := [⟨op, 0, 0, [1], 1⟩] })], port := [(0, { mode := 2, link := true })],
           ring := [(0, x)], journal := [(3, e)] } }
def Tests.doneCmp : CmpEntry := ⟨1, 1, 0, false, 0, 0, 0, 0⟩
def Tests.doneJob : JEntry := { d := ⟨1, 0, 0, 1, 0, 0⟩, ring := 0, prin := 0, j := 0, cmp := some Tests.doneCmp }
def Tests.cmpRing : Ring := { st := .open_, cmpSize := 4, overflow := [3] }
set_option maxRecDepth 20000 in
theorem Tests.wit_completions :
    (let s := Tests.posting Tests.doneJob Tests.cmpRing (.completion 0)
     s.fw = true ∧ s.writesHost = true ∧ (s.ring 0).cmpFree ≠ 0 ∧ s.cmpReadOut 0 = false ∧ (s.ring 0).overflow = [3] ∧ s.job 3 = some Tests.doneJob ∧
      s.ackedRec Tests.doneJob = true ∧ s.up = true ∧ (s.qp 0).ops ≠ [] ∧ (s.qp 0).timer + 1049 ≤ s.clk.tick ∧ (s.qp 0).retries < 7) ∧
    (∀ k ∈ [OpKind.output 3, .dump 0 9, .trailer 0 9, .index 0],
      ((Tests.posting Tests.doneJob Tests.cmpRing k).qp 0).ops.find? (fun o => !o.kind.isRead) = some ⟨k, 0, 0, [1], 1⟩) ∧
    ((Tests.posting Tests.doneJob Tests.cmpRing (.dump 0 9)).dump 0).imgs.find? (fun y => y.seq = 9 && !y.sent) = some ⟨0, 7, 9, 64, false⟩ ∧
    (let s := Tests.posting { Tests.doneJob with slot := some 2 } { Tests.cmpRing with cmpProd := 3 } (.cmpRing 0)
     s.fw = true ∧ s.cmpReadOut 0 = true ∧ s.job 3 = some { Tests.doneJob with slot := some 2 } ∧ (s.ring 0).cmpCons ≤ 2 ∧ 2 < (s.ring 0).cmpProd) := by decide

theorem Tests.wit_hostWindows :
    (let s := Tests.owned
     s.fw = true ∧ s.reaches 0 = true ∧ s.reaches 1 = false ∧ (s.qp 0).rkey = 0 ∧ s.accessor 0 = some 0 ∧ s.accessor 1 ≠ some 0 ∧
      mayRead 0 0 4 = true ∧ mayRead 0 0x11000000 128 = true ∧ mayRead 0 2 4 = false) ∧
    inArr Reg.tnLoadHi (Reg.refPrio 0) 16 4 = false ∧ (0x20000000 : Nat) % 4 = 0 := by decide

def Tests.cmdSt (opc : Nat) (body : BitVec 768) (f : State → State) : State := f { Tests.owned with
  clk := { tick := 100, tn := 100, tnValid := true }, sealed := true
  mgp := { Tests.owned.mgp with ring := [(0, { st := .open_, cmpSize := 4, key := some 0 })], journal := [(3, { d := ⟨opc, 0, 0, 1, body, 0⟩, ring := 0, prin := 0, j := 50 })] } }
def Tests.cmdEntry (opc : Nat) (body : BitVec 768) : JEntry := { d := ⟨opc, 0, 0, 1, body, 0⟩, ring := 0, prin := 0, j := 50 }
set_option maxRecDepth 20000 in
theorem Tests.wit_commands :
    (let s := Tests.cmdSt 0 0 id
     let e := Tests.cmdEntry 0 0
     s.job 3 = some e ∧ s.acceptable 3 e = true ∧ (s.accept 3 e).commonCheck e = 0 ∧ e.target = 0 ∧ e.cmp = none ∧ s.copies = false ∧ (s.ring 0).boot = false) ∧
    (let s := Tests.cmdSt 0 4096 id
     let e := Tests.cmdEntry 0 4096
     s.acceptable 3 e = true ∧ (s.accept 3 e).commonCheck e ≠ 0) := by decide

/-- A command body of values at byte offsets. -/
def Tests.bodyOf (l : List (Nat × Nat)) : BitVec 768 := BitVec.ofNat 768 ((l.map (fun p => p.2 * 2 ^ (8 * p.1))).sum)
/-- A journaled command with a batch. -/
def Tests.batchEntry (opc : Nat) (body : BitVec 768) (b : List Byte) : JEntry :=
  { d := ⟨opc, 1, 0, 1, body, 0⟩, ring := 0, prin := 0, j := 50, batch := some ⟨b, true, true, ⟨true, true, true, true⟩⟩ }
/-- A sealed device whose journal holds one command. -/
def Tests.jobSt (e : JEntry) (f : State → State) : State := let s := Tests.cmdSt 0 0 f;
  { s with mgp := { s.mgp with journal := [(3, e)] } }
def Tests.laneUp (s : State) : State := { s with sds := { s.sds with lane := [(0, { tx := .active, rx := .active })], group := [(0, { st := .inService })] } }
set_option maxRecDepth 20000 in
theorem Tests.wit_scheduled :
    (let e := Tests.cmdEntry 0x10 (Tests.bodyOf [(8, 1)]); (Tests.jobSt e id).carries 0x10 chkMapWrite 3 e) ∧
    (let e := Tests.cmdEntry 0x20 (Tests.bodyOf [(8, 200)]); (Tests.jobSt e id).carries 0x20 chkFlipAt 3 e ∧ e.f 4 1 % 2 = 0) ∧
    (let e := Tests.cmdEntry 0x20 (Tests.bodyOf [(8, 20000), (4, 1)]); (Tests.jobSt e (fun s => { s with regs := [(Reg.fabCfg, BitVec.ofNat 32 (2 ^ 30 + 8000))] })).carries 0x20 chkFlipAt 3 e ∧ e.f 4 1 % 2 = 1) ∧
    (let e := Tests.cmdEntry 0x21 (Tests.bodyOf [(8, 20), (12, 64), (16, 1)]); (Tests.jobSt e (fun s => { s with whl := [(0, { defined := true, align := .inMf })] })).carries 0x21 chkFlipSeq 3 e) ∧
    (let e := Tests.cmdEntry 0x31 (Tests.bodyOf [(8, 200)]); (Tests.jobSt e (fun s => { s with col := { s.col with pair := [(0, { defined := true })] } })).carries 0x31 chkPairCmd 3 e) ∧
    (let e := Tests.cmdEntry 0x41 (Tests.bodyOf [(8, 200), (6, 1)]); (Tests.jobSt e Tests.laneUp).carries 0x41 chkLaneLoop 3 e) := by decide
set_option maxRecDepth 20000 in
theorem Tests.wit_scheduled2 :
    (let e := Tests.cmdEntry 0x42 (Tests.bodyOf [(6, 1)]); (Tests.jobSt e Tests.laneUp).carries 0x42 chkEyeScan 3 e) ∧
    (let e := Tests.batchEntry 0x50 (Tests.bodyOf [(72, 104)]) (List.replicate 104 0); (Tests.jobSt e id).carries 0x50 chkRefConfig 3 e) ∧
    (let e := Tests.cmdEntry 0x51 (Tests.bodyOf [(4, 3)]); (Tests.jobSt e id).carries 0x51 chkRefForce 3 e) ∧
    (let e := Tests.cmdEntry 0x52 (Tests.bodyOf [(16, 200)]); (Tests.jobSt e (fun s => { s with str := { s.str with st := .locked } })).carries 0x52 chkPhaseStep 3 e) ∧
    (let e := Tests.cmdEntry 0x61 (Tests.bodyOf [(32, 200), (16, 1)]); (Tests.jobSt e id).carries 0x61 chkCounterPreset 3 e) ∧
    (let e := Tests.cmdEntry 0x62 0; (Tests.jobSt e id).carries 0x62 chkDumpConfig 3 e) ∧
    (let e := Tests.cmdEntry 0x83 (Tests.bodyOf [(8, 200)]); (Tests.jobSt e id).carries 0x83 chkControlRestart 3 e) := by decide

/-- A key agreement request for the mate's ports (R482, R488). -/
def Tests.kaReq : List Byte := [0x51, 0x52, 0x41, 0x4B, 2, 0, 0, 0x10, 1] ++ List.replicate 2247 0
def Tests.kaSt (e : JEntry) (busy : Option Nat) : State := Tests.jobSt e (fun s => { s with
  rnd := { s.rnd with lc := .owned, slots := [(0, { used := true, digest := kaKeyDigest Tests.kaReq })], ephBusyUntil := busy }
  fab := { s.fab with calrin := { s.fab.calrin with st := .up } } })
theorem Tests.ka_ok (e : JEntry) (v : State) (b : List Byte) (hb : e.bytes = b) (hk : kaKeyDigest b = v.keyDigest e.prin)
    (hm : kaForMate b = true) (hr : kaRange b = true) (h1 : decide (e.f 4 1 ≤ 2) = true ∧ decide (e.f 8 8 % 8 = 0) = true) (h2 : decide (kaMode b = e.f 4 1) = true)
    (x : Batch) (h3 : e.batch = some x) (h7 : (x.ecOk && x.lmsOk) = true)
    (h4 : (decide (leAt b 8 8 = e.d.serial) && decide (leAt b 6 1 = e.ring) && decide (leAt b 5 1 = e.prin)) = true)
    (h5 : (decide (v.rnd.lc ≠ .manufacture) && (decide (kaMode b ≠ 0) || (decide (v.rnd.lc = .provisioned) && (v.ring e.ring).boot && decide (e.ring = 0) && v.freeSlot.isSome))) = true)
    (h6 : decide ((v.plink .calrin).st = .up) = true) : (chkKeyAgree e v).1 = 0 := by
  subst hb
  simp only [Bool.and_eq_true] at h4
  unfold chkKeyAgree
  simp only [h1, h2, h3, h4, h5, h6, h7, hm, hr, hk, Bool.and_true, Bool.or_true, decide_true, Bool.true_or, Bool.not_true]
  rfl
set_option maxRecDepth 40000 in
theorem Tests.wit_keyAgree (busy : Option Nat) :
    let e := Tests.batchEntry 0x72 (Tests.bodyOf [(4, 2), (72, 2256)]) Tests.kaReq
    (Tests.kaSt e busy).carries 0x72 chkKeyAgree 3 e := by
  exact ⟨rfl, rfl, rfl, rfl, fun h => absurd h.2 (by decide), Tests.ka_ok _ _ _ rfl rfl (by decide) (by decide) ⟨rfl, rfl⟩ rfl _ rfl rfl rfl rfl rfl⟩
set_option maxRecDepth 20000 in
theorem Tests.wit_immediate :
    (let e := Tests.cmdEntry 0 0; (Tests.jobSt e id).carries 0 (fun _ _ => (0, 0)) 3 e) ∧
    (let e := Tests.cmdEntry 0x11 (Tests.bodyOf [(12, 1)]); (Tests.jobSt e id).carries 0x11 chkMapRead 3 e) ∧
    (let e := Tests.cmdEntry 0x12 (Tests.bodyOf [(6, 1)]); (Tests.jobSt e id).carries 0x12 chkWheelDefine 3 e) ∧
    (let e := Tests.cmdEntry 0x13 0; (Tests.jobSt e (fun s => { s with whl := [(0, { defined := true })] })).carries 0x13 chkWheelDelete 3 e) ∧
    (let e := Tests.cmdEntry 0x30 0; (Tests.jobSt e (fun s => { s with col := { s.col with pair := [(0, { defined := true })] } })).carries 0x30 chkPairSet 3 e ∧ psMode e = 0) ∧
    (let e := Tests.cmdEntry 0x30 (Tests.bodyOf [(8, 1), (10, 3), (12, 1), (17, 1), (22, 1)])
     let s := Tests.jobSt e (fun s => { s with whl := [(0, { defined := true, members := [0] }), (1, { defined := true, members := [1] })] })
     s.carries 0x30 chkPairSet 3 e ∧ psMode e ≠ 0 ∧ ((s.accept 3 e).pair 0).defined = false) := by decide
set_option maxRecDepth 20000 in
theorem Tests.wit_immediate2 :
    (let e := Tests.cmdEntry 0x22 (Tests.bodyOf [(8, 200)])
     let f : Bool → Bool → State := fun m g => Tests.jobSt e (fun s => { s with flp := { s.flp with flips := [{ h := 9, f := 200, id := 0, fabric := g, fromMgr := m }], fab := [{ h := 9, id := 0, f := 200, a := 0 }] } })
     (f true false).carries 0x22 chkFlipCancel 3 e ∧ (f false true).carries 0x22 chkFlipCancel 3 e ∧ (f false false).carries 0x22 chkFlipCancel 3 e) ∧
    (let e := Tests.cmdEntry 0x22 (Tests.bodyOf [(4, 1), (8, 7)])
     let s := Tests.jobSt e (fun s => { s with flp := { s.flp with seqs := [{ h := 9, prin := 0, serial := 7, trigger := 0, reference := none, s := 0, expiry := 0, roll := [] }] } })
     s.carries 0x22 chkFlipCancel 3 e ∧ ((s.accept 3 e).seqNamed 0 7).isSome) ∧
    (let e := Tests.cmdEntry 0x40 (Tests.bodyOf [(5, 15)])
      ; (Tests.jobSt e (fun s => { s with sds := { s.sds with bt := { s.sds.bt with held := some ⟨0, [], []⟩ } } })).carries 0x40 chkLaneState 3 e) ∧
    (let e := Tests.cmdEntry 0x60 (Tests.bodyOf [(12, 1), (28, 4096)]); (Tests.jobSt e id).carries 0x60 chkCounterRead 3 e ∧ (Tests.jobSt e id).clk.readUsed = 0) ∧
    (let e := Tests.cmdEntry 0x70 (Tests.bodyOf [(4, 1), (5, 1)])
      ; (Tests.jobSt e (fun s => { s with prn := { s.prn with part := [(1, { set := true })] } })).carries 0x70 chkPartitionSet 3 e) := by decide
set_option maxRecDepth 20000 in
theorem Tests.wit_immediate3 :
    (let e := Tests.cmdEntry 0x71 (Tests.bodyOf [(4, 1), (6, 1)]); (Tests.jobSt e id).carries 0x71 chkRingBind 3 e ∧ rbUnbind e = true) ∧
    (let e := Tests.batchEntry 0x71 (Tests.bodyOf [(4, 1), (5, 1), (72, 128)]) (List.replicate 60 0 ++ [6, 6, 6, 1] ++ [1, 0, 0, 4] ++ List.replicate 60 0)
     ; (Tests.jobSt e id).carries 0x71 chkRingBind 3 e ∧ rbUnbind e = false) ∧
    (let e := Tests.cmdEntry 0x75 0
     let f : Option Nat → State := fun b => Tests.jobSt e (fun s => { s with rnd := { s.rnd with lc := .owned, ephBusyUntil := b } })
     (f none).carries 0x75 chkAttestQuote 3 e ∧ (f (some 200)).carries 0x75 chkAttestQuote 3 e) := by decide
set_option maxRecDepth 20000 in
theorem Tests.wit_immediate4 :
    (let e := Tests.batchEntry 0x73 (Tests.bodyOf [(4, 1), (12, 8192), (72, 64)]) (List.replicate 64 0); (Tests.jobSt e id).carries 0x73 chkFwStage 3 e) ∧
    (let e := Tests.cmdEntry 0x74 0; (Tests.jobSt e id).carries 0x74 chkFwActivate 3 e) ∧
    (let e := Tests.cmdEntry 0x80 (Tests.bodyOf [(8, 10)])
     let f : Bool → State := fun b => Tests.jobSt e (fun s => { s with regs := [(Reg.mbxBind 0, 0x40200000)], mbx := [(0, { full := b })] })
     (f true).carries 0x80 chkMbxPost 3 e ∧ (f false).carries 0x80 chkMbxPost 3 e ∧ ((f false).mbox 0).h ≠ some 3) ∧
    (let e := Tests.cmdEntry 0x81 (Tests.bodyOf [(4, 20000)]); (Tests.jobSt e id).carries 0x81 chkBudgetSet 3 e) ∧
    (let e := Tests.cmdEntry 0x82 0
      ; (Tests.jobSt e (fun s => { s with sealed := false, rnd := { s.rnd with lc := .owned }, sds := { s.sds with bt := { s.sds.bt with held := some ⟨0, [], []⟩ } } })).carries 0x82 chkSeal 3 e) := by decide

def Tests.presetSt : State := { Tests.owned with clk := { tick := 100, tn := 100, tnValid := true }, cnt := { presets := [⟨3, 0, 0, 1, 5, 100⟩] }, rnd := { Tests.owned.rnd with ephBusyUntil := some 100 } }
def Tests.dumpSt (f : State → State) : State := f { Tests.owned with
  clk := { tick := 100, tn := 8000000, tnValid := true }
  cnt := { dumpCfgs := [⟨3, 0, 64, 4096, 0, 1048576, 100⟩], latchTn := 7999999, dump := [(0, { en := true, scopes := 64, slotSize := 4096, slots := 4 })] }
  mgp := { Tests.owned.mgp with ring := [(0, { st := .open_, key := some 0 })] } }
theorem Tests.wit_presets : Tests.presetSt.up = true ∧ Tests.presetSt.presetsDue ≠ [] ∧ Tests.presetSt.dumpsDue = [] ∧
    Tests.presetSt.rnd.ephBusyUntil ≠ none ∧ Tests.owned.presetsDue = [] ∧ Tests.owned.rnd.ephBusyUntil = none ∧
    (∀ p ∈ Tests.presetSt.cnt.presets, p.scope ≤ 7 ∧ maskBit p.mask 0 = true ∧ Tests.presetSt.counts p.scope p.obj = true) := by decide
theorem Tests.wit_dumps : (Tests.dumpSt id).up = true ∧ (Tests.dumpSt id).dumpsDue ≠ [] ∧ (Tests.dumpSt id).ringOf 0 = some 0 ∧ (Tests.dumpSt id).ringOf 5 = none ∧
    (Tests.dumpSt id).dumpSize 0 64 = 4096 ∧
    (Tests.dumpSt id).fw = true ∧ (Tests.dumpSt id).cnt.latchTn ≠ 0 ∧ (Tests.dumpSt id).cnt.latchTn < (Tests.dumpSt id).clk.tn ∧
    (Tests.dumpSt id).viaManager = false ∧ (Tests.dumpSt id).dumpDue 0 = true ∧
    (let s := (Tests.dumpSt id).setDump 0 { (Tests.dumpSt id).dump 0 with started := 7999999 }
     s.copies = false ∧ s.writesHost = true ∧ (s.workQp 0).isSome = true ∧ (s.dump 0).slots ≠ 0) := by decide
theorem Tests.wit_dumps2 :
    (let s := Tests.dumpSt (fun s => { s with sealed := true, regs := [(Reg.fabCfg, 0x80000000)] }); s.viaManager = true ∧ s.clk.tn = s.cnt.latchTn + 1) ∧
    (let s := Tests.dumpSt (fun s => { s with mgp := { s.mgp with qp := [] } }); s.copies = false ∧ (s.workQp 0).isSome = false) ∧
    (let s := Tests.dumpSt (fun s => { s with cal := { s.cal with role := .standby } }); s.copies = true ∧ s.dumpDue 0 = true) := by decide

def Tests.rackReq (m t : Nat) (w : Bool) (a : Nat) : RackReq := ⟨m, t, w, a, List.replicate 16 7, 0, 0⟩
theorem Tests.wit_rack : (let s := Tests.owned
    s.up = true ∧ s.fw = true ∧
    rackPath s.pwr.codeLocked false 6 0 0 = .none ∧ rackPath s.pwr.codeLocked false 0 4 0 = .read ∧
    (∀ t ∈ [0, 1, 2, 4, 5, 6], rackPath s.pwr.codeLocked false 0 t 0x900000 ≠ .none ∧ 0x900000 < rackSize t ∨ rackPath s.pwr.codeLocked false 0 t 16 ≠ .none ∧ 16 < rackSize t) ∧
    (∀ q ∈ [Tests.rackReq 0 1 true 16, Tests.rackReq 0 2 true 16], rackPath s.pwr.codeLocked false q.master q.target q.addr = .both ∧ q.addr < rackSize q.target) ∧
    s.mem.owner.look 0 0 = 0 ∧ s.mem.owner.look 0 0 ≠ 1 ∧ bit (s.stick Reg.rckErr) 31 = false) ∧
    (let s : State := { Tests.owned with pwr := { phase := .running, restart := some ⟨false, 0⟩ } }; s.up = true ∧ s.fw = false) := by decide
theorem Tests.wit_whisk : (let s : State := { Tests.owned with rck := { whk := [(0, { starts := 2 })] } }
    s.whiskOn 0 = true ∧ (s.whisk 0).starts ≠ 0 ∧ (s.whisk 0).held = none) ∧
    (let s : State := { Tests.owned with rck := { whk := [(0, { held := some 5 }), (3, { held := some 5 })] }, col := { Tests.owned.col with reqs := [(0, [{ who := 2, deadline := 9, bursts := 768, pair := 0, x := 5 }])] } };
      (s.whisk 0).held = some 5 ∧ (s.whisk 3).held = some 5 ∧ s.whiskBusy 0 = true) := by decide

def Tests.mbxSt (x : Mbx) : State := { Tests.owned with clk := { tick := 100, tn := 100, tnValid := true }, regs := [(Reg.mbxBind 5, 0x01200000)], mbx := [(5, x)] }
theorem Tests.wit_mbx : let s := Tests.mbxSt {}
    s.up = true ∧ s.mbIsSender 0 5 = true ∧ s.mbIsSender 1 5 = false ∧ s.mbIsReceiver 1 5 = true ∧ (s.mbox 5).full = false ∧
    (Tests.mbxSt { full := true }).mbIsReceiver 1 5 = true ∧ mbRank (s.mbReceiver 5) ≤ mbRank 0 ∧
    ((Tests.mbxSt { full := true, deadline := some 90, retryAt := some 90 }).mbox 5).deadline = some 90 ∧
    ((Tests.mbxSt { full := true, deadline := some 90, retryAt := some 90 }).mbox 5).retryAt = some 90 ∧ s.clk.slotsDone = false := by decide

end Sys2Proof
end

/-! PROOFS. The registers that the owner writes at set-up, the board table, and the bridge. -/
namespace Sys2Proof.Machine

/-! ### Registers read back -/

@[simp] theorem State.setReg_reg_self (s : State) (a : Nat) (v : Word) : (s.setReg a v).reg a = v := Tab.look_put_self _ _ _ _

theorem State.reg_congr {s t : State} (h : t.regs = s.regs) (a : Nat) : t.reg a = s.reg a := by
  unfold State.reg
  rw [h]

theorem State.stick_congr {s t : State} (h : t.sticky = s.sticky) (a : Nat) : t.stick a = s.stick a := by
  unfold State.stick
  rw [h]

/-! ### FRM_GRP_CFG[g].TIMING (R10, R127) -/

theorem State.setTiming_of_fixed {s : State} {g : Nat} (f : Bool) (h : s.sealed = true ∨ (s.group g).st ≠ .down) :
    s.setTiming g f = s := if_pos h

theorem State.setTiming_of_open {s : State} {g : Nat} (f : Bool) (hs : s.sealed = false) (hg : (s.group g).st = .down) :
    s.setTiming g f = s.setReg (Reg.frmGrp g) ((s.reg (Reg.frmGrp g) &&& ~~~1#32) ||| (if f then 1 else 0)) :=
  if_neg (by simp [hs, hg])

theorem getLsbD_replaceBit0 (w : Word) (f : Bool) (i : Nat) (hi : i < 32) :
    ((w &&& ~~~1#32) ||| (if f then 1 else 0)).getLsbD i = if i = 0 then f else w.getLsbD i := by
  have h1 : (1#32).getLsbD i = decide (i = 0) := by simp
  have hf : (if f then 1 else 0 : Word).getLsbD i = (f && decide (i = 0)) := by cases f <;> simp
  rw [BitVec.getLsbD_or, BitVec.getLsbD_and, BitVec.getLsbD_not, h1, hf]
  by_cases h0 : i = 0 <;> simp [h0, hi]

theorem State.setTiming_foreign {s : State} {g : Nat} (f : Bool) (hs : s.sealed = false) (hg : (s.group g).st = .down) :
    (s.setTiming g f).foreign g = f := by
  unfold State.foreign bit
  rw [State.setTiming_of_open f hs hg, State.setReg_reg_self, getLsbD_replaceBit0 _ _ _ (by decide), if_pos rfl]

theorem State.setTiming_otherBits {s : State} {g : Nat} (f : Bool) (hs : s.sealed = false) (hg : (s.group g).st = .down)
    {i : Nat} (h1 : 1 ≤ i) (hi : i < 32) :
    ((s.setTiming g f).reg (Reg.frmGrp g)).getLsbD i = (s.reg (Reg.frmGrp g)).getLsbD i := by
  rw [State.setTiming_of_open f hs hg, State.setReg_reg_self, getLsbD_replaceBit0 _ _ _ hi, if_neg (by omega)]

theorem State.setTiming_otherRegs {s : State} {g : Nat} (f : Bool) (hs : s.sealed = false) (hg : (s.group g).st = .down)
    {a : Nat} (ha : a ≠ Reg.frmGrp g) : (s.setTiming g f).reg a = s.reg a := by
  rw [State.setTiming_of_open f hs hg]
  exact State.setReg_reg _ _ _ _ ha

/-! ### The board table (R60 to R66) -/

theorem State.btLoad_sds (s : State) :
    s.btLoad.sds = if s.sealed then s.sds else { s.sds with bt := { s.sds.bt with state := 1 } } := by
  unfold State.btLoad
  cases hs : s.sealed with
  | true => simp
  | false =>
    by_cases h1 : s.sds.bt.state = 1
    · rw [if_pos (.inr h1), if_neg (by decide), ← h1]
    · simp [h1]

theorem btSplit_length (n : Nat) (l : List Byte) : (btSplit n l).length = n := by
  induction n generalizing l with
  | zero => rfl
  | succ n ih => rw [btSplit, List.length_cons, ih]

/-- Without both signatures no table is valid (R64). -/
theorem btCheck_unsigned (b : List Byte) : btCheck b false ≠ 2 := by
  unfold btCheck
  dsimp only
  split
  · decide
  · split <;> simp

/-- The table that BOARD_TABLE_VERIFY_DONE examines: header, records and signatures of the staging window. -/
def State.btStaged (s : State) : List Byte :=
  let n := leAt (s.btBytes 64) 6 2
  (s.btBytes (64 + 32 * n + 1868)).take (64 + 32 * n + 1868)

/-- The table in force once the check of the staged one has ended. -/
def State.btHeldAfter (s : State) (sigs : Bool) : Option BoardTable :=
  if btCheck s.btStaged sigs = 2 ∧ s.sealed = false then
    some ⟨leAt s.btStaged 20 4, (btSplit (leAt (s.btBytes 64) 6 2) (s.btStaged.drop 64)).map (fun r =>
      ⟨leAt r 0 2, leAt r 2 1, BitVec.ofNat 8 (leAt r 3 1), r⟩), s.btStaged⟩
  else s.sds.bt.held

theorem exec_boardTableVerifyDone {s : State} (ec lms : Bool) (hup : s.up = true) (hst : s.sds.bt.state = 1) :
    exec (.boardTableVerifyDone ec lms) s = .next { s with sds := { s.sds with bt := { s.sds.bt with
      state := btCheck s.btStaged (ec && lms), held := s.btHeldAfter (ec && lms) } } } := by
  show execBoardTableVerifyDone ec lms s = _
  unfold execBoardTableVerifyDone
  rw [whenUp_of_up hup, if_neg (by simp [hst])]
  rfl

theorem State.btHeldAfter_of_valid {s : State} {sigs : Bool} (h : btCheck s.btStaged sigs = 2) (hs : s.sealed = false) :
    ∃ x, s.btHeldAfter sigs = some x ∧ x.bytes = s.btStaged ∧ x.rev = leAt s.btStaged 20 4 ∧
      x.recs.length = leAt (s.btBytes 64) 6 2 :=
  ⟨_, if_pos ⟨h, hs⟩, rfl, rfl, by rw [List.length_map, btSplit_length]⟩

theorem State.btHeldAfter_of_kept {s : State} {sigs : Bool} (h : btCheck s.btStaged sigs = 2 → s.sealed = true) :
    s.btHeldAfter sigs = s.sds.bt.held :=
  if_neg fun ⟨hc, hs⟩ => by simp [h hc] at hs

/-! ### The bridge (R106) -/

theorem exec_overheadPacket {s : State} {n : Fin 256} {p : List Byte} {ps : List (List Byte)} (hup : s.up = true)
    (h : (s.rx n).done2 = p :: ps) : exec (.overheadPacket n) s =
      .next { s with frm := { (s.setRx n { s.rx n with done2 := ps }).frm with bridge := s.frm.bridge ++ [(n.val, p)] } } := by
  show execOverheadPacket n s = _
  unfold execOverheadPacket
  rw [whenUp_of_up hup, h]
  rfl

theorem exec_groupTimingWrite {s : State} (q : Fin 16) (g : Fin 32) (f : Bool) (hup : s.up = true) :
    exec (.groupTimingWrite q g f) s = .next (s.ownerWrite q (fun t => t.setTiming g f)) := whenUp_of_up hup

theorem exec_boardTableLoad {s : State} (q : Fin 16) (hup : s.up = true) :
    exec (.boardTableLoad q) s = .next (s.ownerWrite q State.btLoad) := whenUp_of_up hup

/-- Settles O32: each command is its effect on the open set-up, and the check's result decides the held table. -/
theorem setupAndBridge : Obligations.SetupAndBridge := by
  unfold Obligations.SetupAndBridge
  refine ⟨?timing, ?timingRefused, ?load, ?verify, ?bridge⟩
  case timing =>
    intro q g f s hup ho
    have hx := (exec_groupTimingWrite q g f hup).trans (congrArg _ (State.ownerWrite_of_owner ho))
    have hr : ∀ a, ((s.setTiming g f).answer q .ack).reg a = (s.setTiming g f).reg a := State.reg_congr (State.answer_regs _ _ _)
    refine ⟨_, hx, State.answer_resp _ _ _, fun hs hg => ⟨?_, ?_, ?_⟩, fun h => ?_⟩
    · unfold State.foreign
      rw [hr]
      exact State.setTiming_foreign f hs hg
    · intro i h1 hi
      rw [hr, State.setTiming_otherBits f hs hg h1 hi]
    · intro a ha
      rw [hr, State.setTiming_otherRegs f hs hg ha]
    · rw [State.answer_regs, State.setTiming_of_fixed f h]
  case timingRefused =>
    intro q g f s hup ho
    exact ⟨_, (exec_groupTimingWrite q g f hup).trans (congrArg _ (State.ownerWrite_of_other ho)),
      State.answer_resp _ _ _, State.answer_regs _ _ _⟩
  case load =>
    intro q s hup ho
    exact ⟨_, (exec_boardTableLoad q hup).trans (congrArg _ (State.ownerWrite_of_owner ho)),
      State.answer_resp _ _ _, (State.answer_sds _ _ _).trans s.btLoad_sds⟩
  case verify =>
    intro ec lms s hup hst
    refine ⟨_, exec_boardTableVerifyDone ec lms hup hst, ⟨rfl, ?_, ?_, State.btHeldAfter_of_valid⟩, ?_, rfl⟩
    · exact fun hc => State.btHeldAfter_of_kept (fun h => absurd h hc)
    · exact fun _ hs => State.btHeldAfter_of_kept (fun _ => hs)
    · exact fun hsig => State.btHeldAfter_of_kept (fun h => absurd h (hsig ▸ btCheck_unsigned _))
  case bridge =>
    intro n s p ps hup hd
    refine ⟨_, exec_overheadPacket hup hd, rfl, ?_, ?_, rfl⟩
    · exact congrArg RxLane.done2 (State.setRx_self s n _)
    · exact fun k hk => State.setRx_of_ne s _ hk

end Sys2Proof.Machine

/-! PROOFS. The register and table windows that the hosts read and write. -/
namespace Sys2Proof.Machine

/-! ### Answers -/

/-- An answer changes the response and the counters only. -/
theorem State.answer_frame (s : State) (q : Nat) (r : Resp) :
    s.answer q r = { s with mgp := (s.answer q r).mgp, cnt := (s.answer q r).cnt } :=
  congrArg (fun x : State => { x with mgp := (s.answer q r).mgp, cnt := (s.answer q r).cnt })
    (State.answer_blank (S := fun a => decide (a = .mgp) || decide (a = .cnt)) rfl rfl s q r)

/-- A command answered with a remote access error does nothing else. -/
theorem refuses_of_nak {i : Instr} {s : State} {q : Nat} (h : exec i s = .next (s.answer q .nak)) :
    ∃ t : State, exec i s = .next t ∧ t.mgp.resp = some .nak ∧ t = { s with mgp := t.mgp, cnt := t.cnt } :=
  ⟨_, h, State.answer_resp _ _ _, State.answer_frame _ _ _⟩

/-! ### A plain register write (R9, R10) -/

theorem word_and_zero (w : Word) : w &&& 0 = 0 := BitVec.and_zero
theorem word_and_not_zero (w : Word) : w &&& ~~~0 = w := BitVec.and_allOnes

/-- The fields in `m` take the written value. -/
def State.putFields (s : State) (a : Nat) (m v : Word) : State :=
  if m = 0 then s else s.setReg a ((s.reg a &&& ~~~m) ||| (v &&& m))

/-- The sticky bits in `c` that are written 1 are cleared. -/
def State.clearFields (s : State) (a : Nat) (c v : Word) : State :=
  if c = 0 then s else s.clrSticky a (v &&& c)

theorem State.putFields_sticky (s : State) (a : Nat) (m v : Word) : (s.putFields a m v).sticky = s.sticky := by
  unfold State.putFields; split <;> rfl

theorem State.putFields_reg_self (s : State) (a : Nat) (m v : Word) :
    (s.putFields a m v).reg a = (s.reg a &&& ~~~m) ||| (v &&& m) := by
  unfold State.putFields
  split
  · next hm =>
    rw [hm, word_and_zero, word_and_not_zero]
    exact BitVec.or_zero.symm
  · exact State.setReg_reg_self _ _ _

theorem State.putFields_reg_of_ne (s : State) {a b : Nat} (m v : Word) (h : b ≠ a) : (s.putFields a m v).reg b = s.reg b := by
  unfold State.putFields
  split
  · rfl
  · exact State.setReg_reg _ _ _ _ h

theorem State.clearFields_regs (s : State) (a : Nat) (c v : Word) : (s.clearFields a c v).regs = s.regs := by
  unfold State.clearFields; split <;> rfl

theorem State.clearFields_stick_self (s : State) (a : Nat) (c v : Word) :
    (s.clearFields a c v).stick a = s.stick a &&& ~~~(v &&& c) := by
  unfold State.clearFields
  split
  · next hc => rw [hc, word_and_zero, word_and_not_zero]
  · exact Tab.look_put_self _ _ _ _

theorem State.clearFields_stick_of_ne (s : State) {a b : Nat} (c v : Word) (h : b ≠ a) :
    (s.clearFields a c v).stick b = s.stick b := by
  unfold State.clearFields
  split
  · rfl
  · exact Tab.look_put_of_ne _ _ _ _ h

/-- The bits of a register that a write sets as SEAL stands. -/
def State.writable (s : State) (a : Nat) : Word := (regSpec a).rw ||| (if s.sealed then 0 else (regSpec a).rws)

theorem State.writeFields_eq {s : State} {a : Nat} (v : Word) (h : inArr a (Reg.refPrio 0) 16 4 = false) :
    s.writeFields a v = (s.putFields a (s.writable a) v).clearFields a (regSpec a).w1c v := by
  unfold State.writeFields
  dsimp only
  rw [if_neg (c := inArr a _ _ _ = true) (by simp [h])]
  rfl

theorem State.writeFields_reg {s : State} {a : Nat} (v : Word) (h : inArr a (Reg.refPrio 0) 16 4 = false) (b : Nat) :
    (s.writeFields a v).reg b = (s.putFields a (s.writable a) v).reg b := by
  rw [State.writeFields_eq v h]
  exact State.reg_congr (State.clearFields_regs _ _ _ _) b

theorem State.writeFields_frame {s : State} {a : Nat} (v : Word) (h : inArr a (Reg.refPrio 0) 16 4 = false) :
    s.writeFields a v = { s with regs := (s.writeFields a v).regs, sticky := (s.writeFields a v).sticky } := by
  rw [State.writeFields_eq v h]
  unfold State.putFields State.clearFields
  split <;> split <;> rfl

/-! ### An RDMA WRITE of a host (R12, R423, R445, R446) -/

section
variable {s : State} {q a : Nat} {k : Word} {d : List Byte}

theorem State.hostWrite_unreached (h : s.reaches q = false) : s.hostWrite q k a d = s := if_pos h

theorem State.hostWrite_doorbell (h : s.reaches q = true) (ha : 0x20000000 ≤ a ∧ a < 0x20000080) :
    s.hostWrite q k a d = s.doorbell q k a d.length := by
  unfold State.hostWrite
  simp [h, ha]

theorem State.hostWrite_refused (h : s.reaches q = true) (ha : ¬(0x20000000 ≤ a ∧ a < 0x20000080))
    (hb : (s.qp q).rkey ≠ k ∨ s.accessor q ≠ some 0 ∨ a % 4 ≠ 0 ∨ d.length % 4 ≠ 0 ∨ 0x10000000 < a + d.length) :
    s.hostWrite q k a d = s.answer q .nak := by
  unfold State.hostWrite
  rw [if_neg (by simp [h]), if_neg ha]
  exact if_pos hb

theorem State.hostWrite_served (h : s.reaches q = true)
    (hb : ¬((s.qp q).rkey ≠ k ∨ s.accessor q ≠ some 0 ∨ a % 4 ≠ 0 ∨ d.length % 4 ≠ 0 ∨ 0x10000000 < a + d.length)) :
    s.hostWrite q k a d = keepPiece (s.writePiece ⟨q, true, a, d.length, d⟩) := by
  have ha : a + d.length ≤ 0x10000000 := by
    simp only [not_or] at hb
    exact Nat.le_of_not_lt hb.2.2.2.2
  unfold State.hostWrite
  rw [if_neg (by simp [h]), if_neg (by omega)]
  exact if_neg hb

theorem State.keepPiece_writePiece_last (h : d.length ≤ 64) :
    keepPiece (s.writePiece ⟨q, true, a, d.length, d⟩) = (s.writeWords (d.length / 4) a d).answer q .ack := by
  unfold State.writePiece
  dsimp only
  rw [if_pos h, Nat.min_eq_right h, List.take_length]
  rfl

theorem State.keepPiece_writePiece_more (h : 64 < d.length) :
    keepPiece (s.writePiece ⟨q, true, a, d.length, d⟩) = { s.writeWords 16 a (d.take 64) with mgp :=
      { (s.writeWords 16 a (d.take 64)).mgp with more :=
        (s.writeWords 16 a (d.take 64)).mgp.more ++ [⟨q, true, a + 64, d.length - 64, d.drop 64⟩] } } := by
  unfold State.writePiece
  dsimp only
  rw [if_neg (Nat.not_le_of_lt h), Nat.min_eq_left h.le]
  rfl
end

/-! ### What a read returns (R206, R446) -/

@[simp] theorem leBytes_length (n v : Nat) : (leBytes n v).length = n := by
  induction n generalizing v with
  | zero => rfl
  | succ n ih => rw [leBytes, List.length_cons, ih]

@[simp] theorem wordBytes_length (w : Word) : (wordBytes w).length = 4 := leBytes_length _ _

theorem State.readRegs_length (s : State) (n a : Nat) : (s.readRegs n a).1.length = 4 * n := by
  induction n generalizing s a with
  | zero => rfl
  | succ n ih =>
    unfold State.readRegs
    dsimp only
    rw [List.length_append, wordBytes_length, ih]
    omega

theorem State.readRegs_one (s : State) (a : Nat) : s.readRegs 1 a = (wordBytes (s.readReg a).1, s.capture a) := by
  simp [State.readRegs, State.readReg]

theorem State.readTables_length (s : State) (n a : Nat) : (s.readTables n a).length = 4 * n := by
  simp [State.readTables, List.length_flatMap, Nat.mul_comm]

theorem State.tableBytes_length (s : State) (a n : Nat) : (s.tableBytes a n).length = n := by
  unfold State.tableBytes
  rw [List.length_take, List.length_drop, State.readTables_length]
  omega

/-- What a read of `n` bytes of a window returns: the bytes, and the state after it. -/
def State.readBytes (s : State) (a n : Nat) : List Byte × State :=
  if a < 0x10000000 then s.readRegs (n / 4) a else (s.tableBytes a n, s)

theorem State.readBytes_length (s : State) {a n : Nat} (h : a < 0x10000000 → n % 4 = 0) : (s.readBytes a n).1.length = n := by
  unfold State.readBytes
  split
  · next ha =>
    rw [State.readRegs_length]
    have := h ha
    omega
  · exact State.tableBytes_length _ _ _

theorem mod4_of_mayRead {p a n : Nat} (h : mayRead p a n = true) (ha : a < 0x10000000) : n % 4 = 0 := by
  unfold mayRead at h
  rw [if_pos ha] at h
  simp only [Bool.and_eq_true, decide_eq_true_eq] at h
  exact h.1.2

/-! ### An RDMA READ of a host (R419, R423, R445, R446) -/

section
variable {s : State} {q a n : Nat} {k : Word}

theorem State.hostRead_unreached (h : s.reaches q = false) : s.hostRead q k a n = s := if_pos h

theorem State.hostRead_refused (h : s.reaches q = true)
    (hb : (s.qp q).rkey ≠ k ∨ s.accessor q = none ∨ (∃ p, s.accessor q = some p ∧ mayRead p a n = false)) :
    s.hostRead q k a n = s.answer q .nak := by
  unfold State.hostRead
  rw [if_neg (by simp [h])]
  split
  · next p hp =>
    refine if_pos ?_
    rcases hb with hk | hn | ⟨p', hp', hr⟩
    · exact .inl hk
    · simp [hn] at hp
    · obtain rfl : p' = p := by simpa [hp'] using hp
      exact .inr hr
  · rfl

theorem State.hostRead_served {p : Nat} (h : s.reaches q = true) (hk : (s.qp q).rkey = k) (hp : s.accessor q = some p)
    (hr : mayRead p a n = true) : s.hostRead q k a n = keepPiece (s.readPiece ⟨q, false, a, n, []⟩) := by
  unfold State.hostRead
  rw [if_neg (by simp [h]), hp]
  exact if_neg (by simp [hk, hr])

theorem State.keepPiece_readPiece_last (h : n ≤ 64) : keepPiece (s.readPiece ⟨q, false, a, n, []⟩) =
    (s.readBytes a (min 64 n)).2.answer q (.data (s.readBytes a (min 64 n)).1) := by
  unfold State.readPiece
  dsimp only
  rw [if_pos h]
  rfl

theorem State.keepPiece_readPiece_more (h : 64 < n) : keepPiece (s.readPiece ⟨q, false, a, n, []⟩) =
    { (s.readBytes a (min 64 n)).2 with mgp := { (s.readBytes a (min 64 n)).2.mgp with more :=
      (s.readBytes a (min 64 n)).2.mgp.more ++ [⟨q, false, a + 64, n - 64, (s.readBytes a (min 64 n)).1⟩] } } := by
  unfold State.readPiece
  dsimp only
  rw [if_neg (Nat.not_le_of_lt h), Nat.min_eq_left h.le]
  rfl
end

/-! ### The commands -/

theorem exec_registerWrite {s : State} (q : Fin 16) (k : Word) (a : Nat) (d : List Byte) (hf : s.fw = true) :
    exec (.registerWrite q k a d) s = .next (s.hostWrite q k a d) := whenFw_of_fw hf

theorem exec_rdmaReadRequest {s : State} (q : Fin 16) (k : Word) (a n : Nat) (hf : s.fw = true) :
    exec (.rdmaReadRequest q k a n) s = .next (s.hostRead q k a n) := whenFw_of_fw hf

theorem exec_glbRstCtrlWarm {s : State} (q : Fin 16) (hf : s.fw = true) :
    exec (.glbRstCtrlWarm q) s = .next (s.ownerWrite q (fun t => t.warmBoot 3)) := whenFw_of_fw hf

/-- Settles O54: which accesses are served, and what the first piece of a served one does. -/
theorem hostWindows : Obligations.HostWindows := by
  unfold Obligations.HostWindows
  refine ⟨?write, ?fields, ?read, ?warm⟩
  case write =>
    intro q k a d s hf
    have hx := exec_registerWrite q k a d hf
    refine ⟨fun h => ?_, fun h h1 h2 => ?_, fun h ha hb => refuses_of_nak (q := q) ?_, fun h hb hd => ?_, fun h hb hd => ?_⟩
    · rw [hx, State.hostWrite_unreached h]
    · rw [hx, State.hostWrite_doorbell h ⟨h1, h2⟩]
    · rw [hx, State.hostWrite_refused h ha hb]
    · rw [hx, State.hostWrite_served h hb, State.keepPiece_writePiece_last hd]
    · rw [hx, State.hostWrite_served h hb, State.keepPiece_writePiece_more hd]
  case fields =>
    intro a v s sp m t h
    refine ⟨?_, ?_, fun b hb => ⟨?_, ?_⟩, State.writeFields_frame v h⟩
    · exact (State.writeFields_reg v h a).trans (State.putFields_reg_self _ _ _ _)
    · show (s.writeFields a v).stick a = _
      rw [State.writeFields_eq v h, State.clearFields_stick_self, State.stick_congr (State.putFields_sticky _ _ _ _)]
    · exact (State.writeFields_reg v h b).trans (State.putFields_reg_of_ne _ _ _ hb)
    · show (s.writeFields a v).stick b = _
      rw [State.writeFields_eq v h, State.clearFields_stick_of_ne _ _ _ hb, State.stick_congr (State.putFields_sticky _ _ _ _)]
  case read =>
    intro q k a n s hf
    have hx := exec_rdmaReadRequest q k a n hf
    refine ⟨fun h => ?_, fun h hb => refuses_of_nak (q := q) ?_, fun p h hk hp hr => ⟨?_, ?_, ?_, ?_, fun hn => ?_⟩⟩
    · rw [hx, State.hostRead_unreached h]
    · rw [hx, State.hostRead_refused h hb]
    · refine State.readBytes_length s (fun ha => ?_)
      have := mod4_of_mayRead hr ha
      omega
    · exact fun ha => by rw [if_neg (Nat.not_lt_of_le ha)]
    · rintro ha rfl
      rw [if_pos ha]
      exact Prod.ext_iff.mp (State.readRegs_one s a)
    · exact fun hn => ⟨by rw [hx, State.hostRead_served h hk hp hr, State.keepPiece_readPiece_last hn]; rfl, State.answer_resp _ _ _⟩
    · rw [hx, State.hostRead_served h hk hp hr, State.keepPiece_readPiece_more hn]
      rfl
  case warm =>
    intro q s hf
    have hx := exec_glbRstCtrlWarm q hf
    refine ⟨fun ho => ⟨?_, rfl, rfl, rfl, rfl⟩, fun ho => refuses_of_nak (q := q) ?_⟩
    · rw [hx, State.ownerWrite_of_owner ho]
      rfl
    · rw [hx, State.ownerWrite_of_other ho]

end Sys2Proof.Machine

/-! PROOFS. The 24-bit short form of a count. -/
namespace Sys2Proof.Machine

/-! ### Restoring a short form (R38) -/

/-- The restored count is the local one moved by the signed distance of the short form, in [-2^23, 2^23). -/
theorem extend24_spec (v : BitVec 24) (loc : Nat) : extend24 v loc % 2 ^ 24 = v.toNat ∧
    (loc : Int) - 2 ^ 23 ≤ extend24 v loc ∧ extend24 v loc < (loc : Int) + 2 ^ 23 := by
  have hv := v.isLt
  unfold extend24
  dsimp only
  split <;> omega

/-- Two counts with the same low 24 bits in one window of 2^24 are the same. -/
theorem extend24_unique {v : BitVec 24} {loc : Nat} {y : Int} (hy : y % 2 ^ 24 = v.toNat) (hlo : (loc : Int) - 2 ^ 23 ≤ y)
    (hhi : y < (loc : Int) + 2 ^ 23) : y = extend24 v loc := by
  obtain ⟨hm, h1, h2⟩ := extend24_spec v loc
  omega

/-- Settles O45: the distance is taken modulo 2^24 and made signed, so the restored count is the nearest one. -/
theorem shortFormRestored : Obligations.ShortFormRestored := by
  unfold Obligations.ShortFormRestored
  refine ⟨fun v loc => ?_, fun full loc h1 h2 => (extend24_unique ?_ ?_ ?_).symm, fun _ _ => rfl, fun _ _ _ => rfl, by decide⟩
  · obtain ⟨hm, hlo, hhi⟩ := extend24_spec v loc
    exact ⟨hm, hlo, hhi, fun y => extend24_unique⟩
  · rw [BitVec.toNat_ofNat]
    omega
  · omega
  · omega

end Sys2Proof.Machine

/-! PROOFS. The tick edge on an empty queue. -/
namespace Sys2Proof.Machine

/-! ### Accesses under way (R446): what leaves them as they are -/

@[simp] theorem State.issue_more (s : State) (r : Nat) (o : RdmaOp) : (s.issue r o).mgp.more = s.mgp.more := by
  unfold State.issue
  dsimp only
  rw [State.count_mgp]
  rfl

@[simp] theorem State.putEvent_more (s : State) (r : Nat) (e : EvtEntry) : (s.putEvent r e).mgp.more = s.mgp.more := by
  unfold State.putEvent
  dsimp only
  split
  · rfl
  · rw [State.count_mgp, State.recd_mgp]
    exact State.issue_more _ _ _

@[simp] theorem State.deliver_more (s : State) (ps : List Nat) (e : EvtEntry) : (s.deliver ps e).mgp.more = s.mgp.more := by
  refine foldl_keep (p := fun s : State => s.mgp.more) (fun s p => ?_) ps s
  split
  · exact State.putEvent_more _ _ _
  · rfl

@[simp] theorem State.flushHeld_more (s : State) : s.flushHeld.mgp.more = s.mgp.more := by
  unfold State.flushHeld
  split
  · exact foldl_keep (p := fun s : State => s.mgp.more) (fun s x => State.deliver_more _ _ _) _ _
  · rfl

@[simp] theorem State.readDoorbell_more (s : State) (r : Nat) : (s.readDoorbell r).mgp.more = s.mgp.more := by
  unfold State.readDoorbell
  dsimp only
  split
  · rfl
  · rw [State.count_mgp]
    exact State.issue_more _ _ _

@[simp] theorem State.answerKick_more (s : State) (r : Nat) : (s.answerKick r).mgp.more = s.mgp.more := by
  unfold State.answerKick
  split
  · exact State.readDoorbell_more _ _
  · rfl

@[simp] theorem State.publish_more (s : State) (r : Nat) : (s.publish r).mgp.more = s.mgp.more := by
  unfold State.publish
  dsimp only
  split
  · exact State.issue_more _ _ _
  · rfl

/-! ### The clock and the power state through the edge -/

@[simp] theorem State.answerKick_clk (s : State) (r : Nat) : (s.answerKick r).clk = s.clk :=
  State.clk_of_blank (by simp [State.answerKick])

/-- Publishing index records touches the management ports and the counters only. -/
theorem State.publish_frame (s : State) (r : Nat) :
    (s.publish r).clk = s.clk ∧ (s.publish r).pwr = s.pwr ∧ (s.publish r).regs = s.regs := by
  unfold State.publish
  dsimp only
  split <;> simp

theorem State.publishes_frame (s : State) (l : List Nat) : (l.foldl State.publish s).clk = s.clk ∧
    (l.foldl State.publish s).pwr = s.pwr ∧ (l.foldl State.publish s).regs = s.regs ∧
    (l.foldl State.publish s).mgp.more = s.mgp.more :=
  ⟨foldl_keep (p := State.clk) (fun s r => (State.publish_frame s r).1) l s,
    foldl_keep (p := State.pwr) (fun s r => (State.publish_frame s r).2.1) l s,
    foldl_keep (p := State.regs) (fun s r => (State.publish_frame s r).2.2) l s,
    foldl_keep (p := fun s : State => s.mgp.more) State.publish_more l s⟩

/-- Without a reset asked for, no block is reset. -/
theorem State.blockResets_none {s : State} (hb : s.pwr.blkReq = 0) (hg : s.pwr.grpReq = 0) : s.blockResets = s := by
  have hid : ∀ (f : State → Nat → State) (l : List Nat), (∀ t i, f t i = t) → l.foldl f s = s := by
    intro f l hf
    rw [show f = fun t _ => t from funext fun t => funext fun i => hf t i]
    exact List.foldl_fixed _
  have hp : ({ s with pwr := { s.pwr with blkReq := 0, grpReq := 0 } } : State) = s := by rw [← hb, ← hg]
  unfold State.blockResets
  dsimp only
  rw [hb, hg, hp, hid _ _ fun t i => if_neg (by simp [bit]), hid _ _ fun t i => if_neg (by simp [bit])]

theorem State.wdogRestart_idle {s : State} (h : s.pwr.wdogDue = false) : s.wdogRestart = s := if_neg (by simp [h])

/-- Without a piece left over, nothing is served at the edge. -/
theorem State.morePieces_idle {s : State} (h : s.mgp.more = []) : s.morePieces = s := by
  unfold State.morePieces
  rw [h]
  show ({ s with mgp := { s.mgp with more := [] } } : State) = s
  rw [← h]

/-! ### Time advances (R15, R24, R26, R31) -/

theorem State.advance_clk (s : State) : s.advance.clk.tick = s.clk.tick + 1 ∧
    (s.clk.tnValid = true → s.advance.clk.tnValid = true ∧ s.advance.clk.tn = (s.clk.tn + 1) % 2 ^ 64) ∧
    (s.clk.tnValid = false → s.clk.loadReq = true → s.advance.clk.tnValid = true ∧
      s.advance.clk.tn = (s.reg Reg.tnLoadHi).toNat * 2 ^ 32 + (s.reg Reg.tnLoadLo).toNat) ∧
    (s.clk.tnValid = false → s.clk.loadReq = false → s.advance.clk.tnValid = false) := by
  unfold State.advance
  refine ⟨rfl, fun h => ?_, fun h hl => ?_, fun h hl => ?_⟩ <;> simp [h]
  all_goals simp [hl]

/-- The registers of STR_TN_LOAD are none of those that a REF_CONFIG writes (R314). -/
theorem tnLoad_not_refCfg : (∀ k < 25, Reg.tnLoadHi ≠ rcReg k) ∧ ∀ k < 25, Reg.tnLoadLo ≠ rcReg k := by decide

/-- The edge of a tick with nothing but time to advance. -/
theorem State.tick_clk {s : State} (hup : s.up = true) (hm : s.finish.mgp.more = []) (hw : s.pwr.wdogDue = false)
    (hb : s.pwr.blkReq = 0) (hg : s.pwr.grpReq = 0) :
    s.tick.clk = ((List.range 16).foldl State.publish s.finish).advance.clk := by
  obtain ⟨-, hpwr, -, hmore⟩ := State.publishes_frame s.finish (List.range 16)
  have hfp : s.finish.pwr = s.pwr := State.keeps_of_blank (S := fun a => decide (a ≠ .pwr)) (by simp) .pwr rfl
  unfold State.tick
  rw [if_pos hup]
  dsimp only
  generalize hu : (List.range 16).foldl State.publish s.finish = u at hpwr hmore
  have ha : u.advance.countEdge.heartbeat.pwr = s.pwr := hpwr.trans hfp
  rw [State.wdogRestart_idle (by rw [ha, hw]), State.blockResets_none (by rw [ha, hb]) (by rw [ha, hg]), State.morePieces_idle]
  · rw [foldl_keep (p := State.clk) State.answerKick_clk, State.flushHeld_clk]
    rfl
  · rw [foldl_keep (p := fun s : State => s.mgp.more) State.answerKick_more, State.flushHeld_more]
    exact hmore.trans hm

/-- Settles O2: what the edge of a tick adds to the advance leaves the clock alone. -/
theorem idleStepIsNextTick : Obligations.IdleStepIsNextTick := by
  unfold Obligations.IdleStepIsNextTick
  intro s hq
  refine ⟨s.tick, by unfold step; rw [hq], (State.tick_queue s).trans hq, fun h => ?_⟩
  cases hup : s.up with
  | false =>
    have ht : s.tick = s.advance := by unfold State.tick; rw [hup]; rfl
    rw [ht]
    exact State.advance_clk s
  | true =>
    obtain ⟨hm, hw, hb, hg⟩ := h.resolve_left (by simp [hup])
    obtain ⟨hclk, -, hregs, -⟩ := State.publishes_frame s.finish (List.range 16)
    obtain ⟨a, b, c, hf⟩ := State.finish_clk s
    have hreg : ∀ r, (∀ k < 25, r ≠ rcReg k) → ((List.range 16).foldl State.publish s.finish).reg r = s.reg r :=
      fun r hr => (State.reg_congr hregs r).trans (State.finish_reg s r hr)
    have key := State.advance_clk ((List.range 16).foldl State.publish s.finish)
    rw [hclk, hf, hreg _ tnLoad_not_refCfg.1, hreg _ tnLoad_not_refCfg.2] at key
    rw [State.tick_clk hup hm hw hb hg]
    exact key

end Sys2Proof.Machine

/-! PROOFS. Mailbox channels, and the slot processing of a tick. -/
namespace Sys2Proof.Machine

/-! ### The mailbox commands as operations on a channel (R555 to R557, R559, R563) -/

/-- A message whose timer has run out: the sender is told, an MBX_POST ends, the message stays (R557). -/
def State.mbTimedOut (s : State) (c : Nat) : State :=
  let u := (s.setMbox c { s.mbox c with wait := false, deadline := none, h := none }).setSticky (Reg.mbxStatus c) mbTimeoutBit
  let v := u.wake (u.mbSender c)
  match (s.mbox c).h with
  | some h => v.complete h eState v.tnNow 1
  | none => v

section
variable {s : State} (m : Nat) (c : Fin 64) (hup : s.up = true)
include hup

theorem exec_mbxCtrlPost : exec (.mbxCtrlPost m c) s = .next (s.mbCtrlPost m c) := whenUp_of_up hup
theorem exec_mbxCtrlAck : exec (.mbxCtrlAck m c) s = .next (s.mbAck m c) := whenUp_of_up hup
theorem exec_mbxCtrlWait : exec (.mbxCtrlWait m c) s = .next (s.mbWait m c) := whenUp_of_up hup
theorem exec_mbxCtrlWithdraw : exec (.mbxCtrlWithdraw m c) s = .next (s.mbWithdraw m c) := whenUp_of_up hup

theorem exec_mbxTimeout_stopped (h : (s.mbox c).deadline = none) : exec (.mbxTimeout c) s = .next s := by
  show execMbxTimeout c s = _
  unfold execMbxTimeout
  rw [whenUp_of_up hup, h]

theorem exec_mbxTimeout_running {d : Nat} (h : (s.mbox c).deadline = some d) :
    exec (.mbxTimeout c) s = .next (if (s.mbox c).full = true ∧ d ≤ s.clk.tick then s.mbTimedOut c else s) := by
  show execMbxTimeout c s = _
  unfold execMbxTimeout
  rw [whenUp_of_up hup, h]
  rfl

theorem exec_mbxRemoteRetry_stopped (h : (s.mbox c).retryAt = none) : exec (.mbxRemoteRetry c) s = .next s := by
  show execMbxRemoteRetry c s = _
  unfold execMbxRemoteRetry
  rw [whenUp_of_up hup, h]

theorem exec_mbxRemoteRetry_running {t : Nat} (h : (s.mbox c).retryAt = some t) : exec (.mbxRemoteRetry c) s = .next (
    if (s.mbox c).full = true ∧ t ≤ s.clk.tick then
      (s.setMbox c { s.mbox c with retryAt := some (s.clk.tick + s.retry) }).mbSend c false
    else s) := by
  show execMbxRemoteRetry c s = _
  unfold execMbxRemoteRetry
  rw [whenUp_of_up hup, h]
end

theorem State.mbCtrlPost_full {s : State} {m c : Nat} (hs : s.mbIsSender m c = true) (hm : m ≠ 4) (hf : (s.mbox c).full = true) :
    s.mbCtrlPost m c = s.setSticky (Reg.mbxStatus c) mbRefusedBit :=
  (if_pos ⟨hs, hm⟩).trans (if_pos hf)

theorem State.mbCtrlPost_empty {s : State} {m c : Nat} (hs : s.mbIsSender m c = true) (hm : m ≠ 4) (hf : (s.mbox c).full = false) :
    s.mbCtrlPost m c = s.mbPost c (bits (s.reg (Reg.mbxBind c)) 20 0) none :=
  (if_pos ⟨hs, hm⟩).trans (if_neg (by simp [hf]))

/-! ### Slot processing (R16, R22, R23) -/

theorem State.slotsNow_done {u : State} (h : u.clk.slotsDone = true) : u.slotsNow = u := if_pos h

theorem State.slotsNow_dropped {u : State} (h : u.clk.slotsDone = false) (hd : u.drops 0 = true) :
    u.slotsNow = { u with clk := { u.clk with slotsDone := true } } :=
  (if_neg (by simp [h])).trans (if_pos hd)

theorem State.slotsNow_runs {u : State} (h : u.clk.slotsDone = false) (hd : u.drops 0 = false) : u.slotsNow = u.playouts.slots :=
  (if_neg (by simp [h])).trans (if_neg (by simp [hd]))

/-- However it goes, the slot processing of the tick is over. -/
theorem State.slotsNow_ends (u : State) : u.slotsNow.clk.slotsDone = true := by
  cases h : u.clk.slotsDone with
  | true => rw [State.slotsNow_done h, h]
  | false =>
    cases hd : u.drops 0 with
    | true => rw [State.slotsNow_dropped h hd]
    | false => rw [State.slotsNow_runs h hd, State.slots_clk]

theorem exec_slotProcessing {s : State} (hup : s.up = true) :
    exec .slotProcessing s = .next (if s.clk.slotsDone then s else s.boundary.slotsNow) := whenUp_of_up hup

/-- Settles O60: each command's guard decides between its operation and no change. -/
theorem mailboxesAndSlots : Obligations.MailboxesAndSlots := by
  unfold Obligations.MailboxesAndSlots
  refine ⟨fun m c s hup => ?mailbox, fun s hup => ⟨fun hd => ?done, fun hd => ?slots⟩⟩
  case mailbox =>
    refine ⟨fun h => ?_, fun hs hm hf => ?_, fun hs hm hf => ?_, fun h => ?_, fun hr hf => ?_, fun h => ?_, fun hs hf hk => ?_,
      fun h => ?_, fun hs hf => ?_, exec_mbxTimeout_stopped c hup, fun d hd => ⟨fun h => ?_, fun hf ht => ?_⟩,
      exec_mbxRemoteRetry_stopped c hup, fun t ht => ⟨fun h => ?_, fun hf hn => ?_⟩⟩
    · rw [exec_mbxCtrlPost m c hup, State.mbCtrlPost, if_neg h]
    · rw [exec_mbxCtrlPost m c hup, State.mbCtrlPost_full hs hm hf]
    · rw [exec_mbxCtrlPost m c hup, State.mbCtrlPost_empty hs hm hf]
      rfl
    · rw [exec_mbxCtrlAck m c hup, State.mbAck, if_neg h]
    · rw [exec_mbxCtrlAck m c hup, State.mbAck, if_pos ⟨hr, hf⟩]
      rfl
    · rw [exec_mbxCtrlWait m c hup, State.mbWait, if_neg h]
    · rw [exec_mbxCtrlWait m c hup, State.mbWait, if_pos ⟨hs, hf, hk⟩]
    · rw [exec_mbxCtrlWithdraw m c hup, State.mbWithdraw]
      exact congrArg _ (if_neg h)
    · rw [exec_mbxCtrlWithdraw m c hup, State.mbWithdraw]
      exact congrArg _ (if_pos ⟨hs, hf⟩)
    · rw [exec_mbxTimeout_running c hup hd, if_neg h]
    · rw [exec_mbxTimeout_running c hup hd, if_pos ⟨hf, ht⟩]
      rfl
    · rw [exec_mbxRemoteRetry_running c hup ht, if_neg h]
    · rw [exec_mbxRemoteRetry_running c hup ht, if_pos ⟨hf, hn⟩]
  case done => rw [exec_slotProcessing hup, if_pos hd]
  case slots =>
    refine ⟨s.boundary.slotsNow, ?_, State.slotsNow_ends _, State.slotsNow_done, State.slotsNow_dropped, State.slotsNow_runs⟩
    rw [exec_slotProcessing hup, if_neg (by simp [hd])]

end Sys2Proof.Machine

/-! PROOFS. A unit with unfinished work at the end of a tick. -/
namespace Sys2Proof.Machine

/-! ### TICK_FAULT (R23, R393) -/

/-- The report of a tick fault of unit `n`: its work is discarded, the sticky bit is set and the owner is told. -/
def State.faultReported (s : State) (n : Nat) : State :=
  State.event (State.setSticky { s with clk := { s.clk with dropped := s.clk.dropped ++ [n] } } Reg.tickFault (BitVec.ofNat 32 (2 ^ n)))
    [0] 0x0001 n 0

theorem State.faultReported_role (s : State) (n : Nat) : (s.faultReported n).cal.role = s.cal.role := State.event_role _ _ _ _ _

theorem State.faultReported_yieldAt (s : State) (n : Nat) : (s.faultReported n).cal.yieldAt = s.cal.yieldAt :=
  State.event_yieldAt _ _ _ _ _

theorem exec_tickFault_inactive {s : State} (n : Fin 8) (hup : s.up = true) (hr : s.cal.role ≠ .active) :
    exec (.tickFault n) s = .next (s.faultReported n) :=
  (whenUp_of_up hup).trans (congrArg _ (if_neg fun h => hr ((s.faultReported_role n).symm.trans h)))

theorem exec_tickFault_active {s : State} (n : Fin 8) (hup : s.up = true) (hr : s.cal.role = .active) :
    exec (.tickFault n) s = .next ((s.faultReported n).yield 4) :=
  (whenUp_of_up hup).trans (congrArg _ (if_pos ((s.faultReported_role n).trans hr)))

/-- The report leaves the registers, the memories and the units of the data path. -/
theorem State.faultReported_frame (s : State) (n : Nat) :
    (s.faultReported n).regs = s.regs ∧ (s.faultReported n).mem = s.mem ∧ (s.faultReported n).hrp = s.hrp ∧
    (s.faultReported n).sds = s.sds ∧ (s.faultReported n).str = s.str ∧ (s.faultReported n).col = s.col := by
  simp [State.faultReported]

theorem State.faultReported_clk (s : State) (n : Nat) :
    (s.faultReported n).clk = { s.clk with dropped := s.clk.dropped ++ [n] } := by simp [State.faultReported]

theorem State.faultReported_sticky (s : State) (n : Nat) :
    (s.faultReported n).sticky = (s.setSticky Reg.tickFault (BitVec.ofNat 32 (2 ^ n))).sticky := by
  rw [State.faultReported, State.event_sticky]
  rfl

theorem State.drops_of_clk {s t : State} {n : Nat} (h : t.clk = { s.clk with dropped := s.clk.dropped ++ [n] }) : t.drops n = true := by
  simp [State.drops, h]

/-! ### What a unit with discarded work leaves undone (R23, log 74) -/

theorem State.latch_dropped {u : State} (h : u.drops 6 = true) : u.latch = u := if_pos h

theorem State.mapNow_dropped {u : State} (h : u.drops 3 = true) : u.mapNow = u := if_pos (.inr h)

theorem State.cfgNow_dropped {u : State} (h : u.drops 7 = true) : u.cfgNow = u := by
  unfold State.cfgNow
  rw [if_pos h]

theorem State.forceNow_dropped {u : State} (h : u.drops 7 = true) : u.forceNow = u := by
  unfold State.forceNow
  rw [if_pos h]

/-- Settles O18: the report of the fault, with a yield on an ACTIVE member, and each unit's guard. -/
theorem tickFaultRecorded : Obligations.TickFaultRecorded := by
  unfold Obligations.TickFaultRecorded
  refine ⟨fun n s hup => ?_, fun u => ⟨fun h hs => State.slotsNow_dropped hs h, State.mapNow_dropped, State.latch_dropped,
    fun h => ⟨State.cfgNow_dropped h, State.forceNow_dropped h⟩⟩⟩
  have hclk := s.faultReported_clk n
  have hsticky := s.faultReported_sticky n
  obtain ⟨hregs, hmem, hhrp, hsds, hstr, hcol⟩ := s.faultReported_frame n
  by_cases hr : s.cal.role = .active
  · have hrole : (s.faultReported n).cal.role = .active := (s.faultReported_role n).trans hr
    refine ⟨_, exec_tickFault_active n hup hr, ?_⟩
    simp only [State.yield_sticky, State.yield_clk, State.yield_regs, State.yield_mem, State.yield_hrp, State.yield_sds,
      State.yield_str, State.yield_col]
    refine ⟨hsticky, hclk, State.drops_of_clk ((State.yield_clk _ _).trans hclk), fun h => absurd hr h, fun _ hy => ?_,
      hregs, hmem, hhrp, hsds, hstr, hcol⟩
    have := State.yield_of_active (s := s.faultReported n) 4 hrole ((s.faultReported_yieldAt n).trans hy)
    rwa [hclk] at this
  · exact ⟨_, exec_tickFault_inactive n hup hr, hsticky, hclk, State.drops_of_clk hclk, fun _ => rfl, fun h => absurd h hr,
      hregs, hmem, hhrp, hsds, hstr, hcol⟩

end Sys2Proof.Machine

/-! PROOFS. The sources of the tick number, time of day, and the read of a register pair. -/
namespace Sys2Proof.Machine

/-! ### TN_LOAD (R26, R31) -/

theorem State.askLoad_clk (s : State) : s.askLoad.clk =
    { s.clk with loadReq := s.clk.loadReq || (decide (s.tnSrc = 3) && !s.clk.tnValid && !s.sealed) } := by
  unfold State.askLoad
  split
  · next h => simp [h]
  · next h =>
    have hf : (decide (s.tnSrc = 3) && !s.clk.tnValid && !s.sealed) = false := by
      simpa [Bool.and_eq_false_iff, Classical.or_iff_not_imp_left] using h
    rw [hf, Bool.or_false]

theorem exec_tnLoad {s : State} (q : Fin 16) (hup : s.up = true) : exec (.tnLoad q) s = .next (s.ownerWrite q State.askLoad) :=
  whenUp_of_up hup

/-! ### TOD_MESSAGE and TOD_OUT_SEND (R301, R302) -/

theorem exec_todMessage {s : State} (b : List Byte) (hup : s.up = true) : exec (.todMessage b) s = .next
    (match todOk b with | some m => { s with clk := { s.clk with todMsg := some (m.1, m.2, s.clk.tick) } } | none => s) := by
  refine (whenUp_of_up hup).trans ?_
  cases todOk b <;> rfl

theorem exec_todOutSend {s : State} (hup : s.up = true) (h : s.secClock % 8000000 = 4000000) : exec .todOutSend s =
    .next { s with clk := { s.clk with todOut := some (s.todBytes (s.secClock / 8000000 + 1)) }, fresh := s.fresh + 2 } :=
  (whenUp_of_up hup).trans (congrArg _ (if_pos h))

/-! ### PPS_IN_EDGE (R26, R30, R302, R307, R309) -/

/-- A disqualified source keeps its reason, and the other areas stand. -/
theorem State.disqualify_src (s : State) (i r : Nat) : ((s.disqualify i r).src i).qualified = false ∧ ((s.disqualify i r).src i).reason = r := by
  have hl : ∀ u : State, (u.loseRef i).src i = u.src i := fun u => by unfold State.loseRef; split <;> rfl
  unfold State.disqualify
  dsimp only
  split
  · rw [hl, State.setSrc_self]
    exact ⟨rfl, rfl⟩
  · rw [State.setSrc_self]
    exact ⟨rfl, rfl⟩

@[simp] theorem State.disqualify_clk (s : State) (i r : Nat) : (s.disqualify i r).clk = s.clk := State.clk_of_blank (by simp)

/-- An edge with a message in its window. -/
theorem exec_ppsInEdge_message {s : State} {sec ql n : Nat} (hup : s.up = true) (h : s.clk.todMsg = some (sec, ql, n))
    (h1 : n + 80000 ≤ s.clk.tick) (h2 : s.clk.tick ≤ n + 7920000) : exec .ppsInEdge s = .next (s.ppsEdge.edgeWith sec ql) := by
  refine (whenUp_of_up hup).trans (congrArg _ ?_)
  dsimp only
  rw [show s.ppsEdge.clk.todMsg = some (sec, ql, n) from h]
  exact if_pos ⟨h1, h2⟩

/-- An edge without any message. -/
theorem exec_ppsInEdge_missed {s : State} (hup : s.up = true) (h : s.clk.todMsg = none) :
    exec .ppsInEdge s = .next s.ppsEdge.missedEdge := by
  refine (whenUp_of_up hup).trans (congrArg _ ?_)
  dsimp only
  rw [show s.ppsEdge.clk.todMsg = none from h]

/-- The message is used up and its QL taken, before the tick number is looked at. -/
def State.edgeNoted (s : State) (ql : Nat) : State :=
  let s := { s with clk := { s.clk with todMiss := 0, todMsg := none } }
  let s := if qlValid ql then s else s.setSticky (Reg.srcStatus 37) 0x00080000
  s.setSrc 37 { s.src 37 with qlRx := if qlValid ql then ql else 15 }

theorem State.edgeNoted_clk (s : State) (ql : Nat) : (s.edgeNoted ql).clk = { s.clk with todMiss := 0, todMsg := none } := by
  unfold State.edgeNoted
  dsimp only
  split <;> rfl

theorem State.edgeNoted_regs (s : State) (ql : Nat) : (s.edgeNoted ql).regs = s.regs := by
  unfold State.edgeNoted
  dsimp only
  split <;> rfl

theorem State.edgeNoted_ql (s : State) (ql : Nat) : ((s.edgeNoted ql).src 37).qlRx = if qlValid ql then ql else 15 := by
  unfold State.edgeNoted
  dsimp only
  rw [State.setSrc_self]

/-- What the edge does to TN: SRC decides, then VALID, then whether TN names the same second. -/
theorem State.edgeWith_eq (s : State) (sec ql : Nat) : s.edgeWith sec ql =
    if s.tnSrc ≠ 1 then s.edgeNoted ql
    else if !s.clk.tnValid then
      { s.edgeNoted ql with clk := { (s.edgeNoted ql).clk with tnValid := true, tn := 8000000 * sec } }
    else if (s.clk.tn + 4000000) / 8000000 = sec then s.edgeNoted ql
    else ((s.edgeNoted ql).setSticky Reg.tnStatus 1).event [0] 0x0002 0 (8000000 * sec) := by
  have hsrc : (s.edgeNoted ql).tnSrc = s.tnSrc := congrArg (fun w => bits w 2 0) (State.reg_congr (s.edgeNoted_regs ql) _)
  have hv : (s.edgeNoted ql).clk.tnValid = s.clk.tnValid := by rw [State.edgeNoted_clk]
  have ht : (s.edgeNoted ql).clk.tn = s.clk.tn := by rw [State.edgeNoted_clk]
  rw [← hsrc, ← hv, ← ht]
  rfl

/-- A missed edge counts, and at the fourth an active source 37 is disqualified. -/
theorem State.missedEdge_few {s : State} (h : s.clk.todMiss ≠ 3) :
    s.missedEdge = { s with clk := { s.clk with todMiss := s.clk.todMiss + 1 } } :=
  if_neg fun hc => h (by simpa using hc.1)

theorem State.missedEdge_fourth {s : State} (h : s.clk.todMiss = 3) (ha : (s.src 37).active = true) :
    s.missedEdge = State.disqualify { s with clk := { s.clk with todMiss := s.clk.todMiss + 1 } } 37 7 :=
  if_pos ⟨by rw [h], ha⟩

theorem State.ppsEdge_src (s : State) :
    s.ppsEdge.src 37 = { s.src 37 with active := true, edgeAt := s.clk.tick, lostAt := none } := State.setSrc_self _ _ _

/-! ### LO_REGISTER_READ (R32, R641) -/

theorem State.capture_of_pair {s : State} {a : Nat} {hi lo : Word} (h : s.shown.pairAt a = some (hi, lo)) :
    s.capture a = { s with clk := { s.clk with loCap := Tab.ins s.clk.loCap (a + 4) hi } } := by
  unfold State.capture
  rw [h]

theorem exec_loRegisterRead {s : State} {q : Fin 16} {a : Nat} (hf : s.fw = true) (ho : s.accessor q = some 0)
    (hp : (s.pairAt a).isSome = true) : exec (.loRegisterRead q a) s = .next ((s.capture a).answer q (.data (wordBytes (s.readReg a).1))) := by
  refine (whenFw_of_fw hf).trans (congrArg _ ?_)
  rw [ho]
  dsimp only
  rw [if_pos (.inl hp), if_pos (by simp [mayReadRegs])]
  rfl

/-- Settles O24: the load request, the kept message, the edge with and without a message, TOD_OUT and the captured read. -/
theorem tickNumberSources : Obligations.TickNumberSources := by
  unfold Obligations.TickNumberSources
  refine ⟨?load, ?loadRefused, fun b s hup => exec_todMessage b hup, ?edge, ?missed, ?send, ?read⟩
  case load =>
    intro q s hup ho
    refine ⟨_, (exec_tnLoad q hup).trans (congrArg _ (State.ownerWrite_of_owner ho)), State.answer_resp _ _ _, ?_⟩
    rw [State.answer_clk, State.askLoad_clk]
    exact ⟨rfl, rfl, rfl⟩
  case loadRefused =>
    intro q s hup ho
    exact ⟨_, (exec_tnLoad q hup).trans (congrArg _ (State.ownerWrite_of_other ho)), State.answer_resp _ _ _, State.answer_clk _ _ _⟩
  case edge =>
    intro s sec ql n hup hm h1 h2
    refine ⟨_, exec_ppsInEdge_message hup hm h1 h2, ?_⟩
    have hsrc : s.ppsEdge.tnSrc = s.tnSrc := rfl
    have hv : s.ppsEdge.clk.tnValid = s.clk.tnValid := rfl
    have ht : s.ppsEdge.clk.tn = s.clk.tn := rfl
    have hq := s.ppsEdge.edgeNoted_ql ql
    have hc := s.ppsEdge.edgeNoted_clk ql
    rw [State.edgeWith_eq, hsrc, hv, ht]
    generalize s.ppsEdge.edgeNoted ql = u at hq hc
    by_cases h3 : s.tnSrc = 1
    · cases h4 : s.clk.tnValid with
      | false => simp_all [State.src]
      | true =>
        by_cases h5 : (s.clk.tn + 4000000) / 8000000 = sec
        · simp_all
        · rw [if_neg (by simp [h3]), if_neg (by simp), if_neg h5]
          have he : ∀ v : State, (State.event v [0] 0x0002 0 (8000000 * sec)).src 37 = v.src 37 := fun v => by
            unfold State.src; rw [State.event_str]
          rw [State.event_clk, he, State.setSticky_clk, hc]
          exact ⟨rfl, rfl, hq, fun h => absurd h3 h, fun _ h => by simp at h, fun _ _ => ⟨hv.trans h4, rfl⟩, fun _ _ _ => ⟨u, rfl⟩⟩
    · simp_all
  case missed =>
    intro s hup hm
    refine ⟨_, exec_ppsInEdge_missed hup hm, ?_⟩
    have ha : (s.ppsEdge.src 37).active = true := by rw [State.ppsEdge_src]
    by_cases h : s.clk.todMiss = 3
    · rw [State.missedEdge_fourth (s := s.ppsEdge) h ha, State.disqualify_clk]
      exact ⟨rfl, rfl, rfl, fun _ => State.disqualify_src _ _ _, fun hn => absurd h hn⟩
    · rw [State.missedEdge_few (s := s.ppsEdge) h]
      exact ⟨rfl, rfl, rfl, fun hn => absurd hn h, fun _ => ⟨s.ppsEdge_src, rfl⟩⟩
  case send =>
    intro s hup h
    exact ⟨_, exec_todOutSend hup h, rfl, rfl⟩
  case read =>
    intro q s a hi lo hf ho hp hs
    refine ⟨_, exec_loRegisterRead hf ho hp, State.answer_resp _ _ _, ?_, ?_⟩
    · rw [State.answer_clk, State.capture_of_pair hs]
      exact Tab.look_ins_self _ _ _ _
    · rw [State.answer_regs, State.capture_of_pair hs]

end Sys2Proof.Machine

/-! PROOFS. The work of a selection-period boundary. -/
namespace Sys2Proof.Machine

/-! ### The Ledger (R596 to R599) -/

/-- The Ledger's record once a period's readings are in. -/
def State.nrgPeriod (s : State) (dom : List Nat) : Nrg :=
  let m := (dom.take 6).sum
  let hot := decide (s.nrg.budget < m)
  let okp := if decide (m + s.reserve ≤ s.nrg.budget) then s.nrg.okPeriods + 1 else 0
  let stopped := hot || (s.nrg.stopped && decide (okp < s.resume))
  let whole := if s.nrg.stopped then s.nrg.stopPeriods + 1 else 0
  { s.nrg with
    measured := m
    dom := dom.take 6
    periodE := (m + 500) / 1000
    energy := (s.nrg.energy + (m + 500) / 1000) % 2 ^ 64
    headroom := s.nrg.budget - max s.committed m - s.reserve
    overrun := hot
    stopped := stopped
    stopPeriods := if stopped then whole else 0
    okPeriods := okp
    overRaised := stopped && (s.nrg.overRaised || (decide (whole = 1) && hot && !s.nrg.overRaised)) }

/-- All areas but the Ledger, and all but the Starter. -/
abbrev notNrg : Area → Bool := fun a => decide (a ≠ .nrg)
abbrev notStr : Area → Bool := fun a => decide (a ≠ .str)

theorem ite_blank_of {S : Area → Bool} {c : Prop} [Decidable c] {a b s : State} (ha : a.blank S = s.blank S)
    (hb : b.blank S = s.blank S) : (if c then a else b).blank S = s.blank S := by
  split
  · exact ha
  · exact hb

/-- The event and the plan that follow leave the Ledger's record. -/
theorem State.ledgerPeriod_nrg (s : State) (dom : List Nat) : (s.ledgerPeriod dom).nrg = s.nrgPeriod dom := by
  refine State.keeps_of_blank (S := notNrg) (s := { s with nrg := s.nrgPeriod dom }) ?_ .nrg rfl
  unfold State.ledgerPeriod
  rw [State.plan_blank rfl rfl rfl rfl rfl rfl rfl rfl, foldl_blank (fun s t => State.setStack_blank rfl _ _ _),
    State.endGrants_blank rfl]
  exact ite_blank_of (State.event_blank rfl rfl rfl rfl _ _ _ _ _) rfl

/-- The measured power, its energy, the headroom and OVERRUN of a period. -/
theorem State.nrgPeriod_spec (s : State) (dom : List Nat) : let p := (dom.take 6).sum
    let n := s.nrgPeriod dom
    n.measured = p ∧ n.dom = dom.take 6 ∧ n.periodE = (p + 500) / 1000 ∧ n.energy = (s.nrg.energy + (p + 500) / 1000) % 2 ^ 64 ∧
    n.headroom = s.nrg.budget - max s.committed p - s.reserve ∧ n.overrun = decide (s.nrg.budget < p) ∧
    n.budget = s.nrg.budget ∧ (s.nrg.budget < p → n.stopped = true) := by
  refine ⟨rfl, rfl, rfl, rfl, rfl, rfl, rfl, fun h => ?_⟩
  simp [State.nrgPeriod, h]

/-- Committed power rests on the lanes, the pairs and the partitions (R588 to R590), RESERVE on a register. -/
theorem State.committed_congr {s t : State} (h1 : t.sds = s.sds) (h2 : t.col = s.col) (h3 : t.prn = s.prn) :
    t.committed = s.committed := by
  unfold State.committed State.groupMw State.cmdStates State.lane State.group State.stackHeld State.bwUnits State.regionsOf
    State.unitsOf State.quotaUnits State.parts State.pairsOf
  rw [h1, h2, h3]

theorem State.reserve_congr {s t : State} (h : t.regs = s.regs) : t.reserve = s.reserve := by
  unfold State.reserve
  rw [State.reg_congr h]

/-! ### The Starter's part and the rest of the period -/

/-- The Starter's part of the period, left out where its work of the tick is discarded (R23). -/
def State.starterPart (s : State) (m : PeriodIn) : State :=
  if s.drops 7 then s else (s.starterPeriod m).reportPhases

/-- The areas of the Starter's part. -/
abbrev starterAreas : Area → Bool := fun a => decide (a ∈ [.sticky, .str, .frm, .cal, .fab, .mgp, .cnt])

theorem State.starterPart_blank (s : State) (m : PeriodIn) : (s.starterPart m).blank starterAreas = s.blank starterAreas := by
  unfold State.starterPart
  split
  · rfl
  · rw [State.reportPhases_blank rfl, State.starterPeriod_blank rfl rfl rfl rfl rfl rfl rfl]

theorem State.starterPart_str (s : State) (m : PeriodIn) :
    (s.starterPart m).str = if s.drops 7 then s.str else (s.starterPeriod m).str := by
  unfold State.starterPart
  split
  · rfl
  · exact State.keeps_of_blank (S := notStr) (State.reportPhases_blank rfl _) .str rfl

theorem State.period_eq (s : State) (m : PeriodIn) : s.period m =
    ((State.starterPart { s with clk := { s.clk with perDone := true } } m).ledgerPeriod m.dom).fabPeriod.diffPeriod.sleepCores := rfl

/-- The Starter after the period: its evaluation, or as it was where its work is discarded. -/
theorem State.period_str (s : State) (m : PeriodIn) : (s.period m).str =
    if s.drops 7 then s.str else (({ s with clk := { s.clk with perDone := true } } : State).starterPeriod m).str := by
  rw [State.period_eq]
  generalize hv : ({ s with clk := { s.clk with perDone := true } } : State) = v
  have hs : (v.starterPart m).str = if s.drops 7 then s.str else (v.starterPeriod m).str := by
    rw [State.starterPart_str, ← hv]
    rfl
  rw [← hs]
  exact State.keeps_of_blank (S := notStr) (by simp) .str rfl

/-- The Ledger after the period. -/
theorem State.period_nrg (s : State) (m : PeriodIn) :
    (s.period m).nrg = (State.starterPart { s with clk := { s.clk with perDone := true } } m).nrgPeriod m.dom := by
  rw [State.period_eq, ← State.ledgerPeriod_nrg]
  exact State.keeps_of_blank (S := notNrg) (by simp) .nrg rfl

/-- Cores 1 to 3 sleep, and none with NO_SLEEP (R604). -/
theorem State.sleepCores_asleep (s : State) :
    (s.noSleep = true → s.sleepCores.pwr.asleep = []) ∧ ∀ c, c ∈ s.sleepCores.pwr.asleep → c ∈ [1, 2, 3] := by
  unfold State.sleepCores
  refine ⟨fun h => if_pos h, fun c hc => ?_⟩
  dsimp only at hc
  split at hc
  · exact absurd hc List.not_mem_nil
  · exact List.mem_of_mem_filter hc

/-! ### SELECTION_PERIOD_BOUNDARY (R33, R316, R597) -/

theorem exec_selectionPeriodBoundary {s : State} (m : PeriodIn) (hup : s.up = true) (hp : s.atPeriod = true)
    (hd : s.clk.perDone = false) : exec (.selectionPeriodBoundary m) s = .next (s.cycle1.refsNow.period m) :=
  (whenUp_of_up hup).trans (congrArg _ (if_pos ⟨hp, hd⟩))

/-- What the period's work finds of the clock and of the Ledger's record. -/
theorem State.refsNow_cycle1_clk (s : State) : s.cycle1.refsNow.clk.tick = s.clk.tick ∧ s.cycle1.refsNow.clk.tn = s.clk.tn ∧
    s.cycle1.refsNow.clk.tnValid = s.clk.tnValid ∧ s.cycle1.refsNow.clk.dropped = s.clk.dropped ∧ s.cycle1.refsNow.nrg = s.nrg := by
  obtain ⟨a, b, hc⟩ := State.cycle1_clk s
  have hn : s.cycle1.refsNow.nrg = s.nrg := State.keeps_of_blank (S := notNrg) (by simp) .nrg rfl
  rw [s.cycle1.refsNow_due.1, hc]
  exact ⟨rfl, rfl, rfl, rfl, hn⟩

/-- Settles O26: the period's work seen by the Starter, by the Ledger and by the cores. -/
theorem selectionPeriodRuns : Obligations.SelectionPeriodRuns := by
  unfold Obligations.SelectionPeriodRuns
  intro m s hup hp hd
  refine ⟨_, exec_selectionPeriodBoundary m hup hp hd, ?_⟩
  obtain ⟨htick, htn, hvalid, hdrop, hnrg⟩ := State.refsNow_cycle1_clk s
  have hdrops : s.cycle1.refsNow.drops 7 = s.drops 7 := by unfold State.drops; rw [hdrop]
  generalize s.cycle1.refsNow = v at *
  have hb := State.starterPart_blank { v with clk := { v.clk with perDone := true } } m
  have hkeep : ∀ a, starterAreas a = false → _ := State.keeps_of_blank hb
  have hregs : (v.period m).regs = v.regs := State.keeps_of_blank (S := fun a => decide (a ≠ .regs)) (by simp) .regs rfl
  have hclk : (v.period m).clk = { v.clk with perDone := true } := by
    rw [State.period_eq]
    exact (State.clk_of_blank (by simp)).trans (hkeep .clk rfl)
  have hspec := State.nrgPeriod_spec (State.starterPart { v with clk := { v.clk with perDone := true } } m) m.dom
  have hpn : (State.starterPart { v with clk := { v.clk with perDone := true } } m).nrg = s.nrg := (hkeep .nrg rfl).trans hnrg
  rw [State.committed_congr (hkeep .sds rfl) (hkeep .col rfl) (hkeep .prn rfl), State.reserve_congr (hkeep .regs rfl), hpn,
    ← State.period_nrg] at hspec
  have hstr := State.period_str v m
  rw [hdrops] at hstr
  refine ⟨hclk, htick, htn, hvalid, fun h => ?_, fun h => ?_, hspec, hregs, ?_, ?_⟩
  · rw [hstr, h]
    rfl
  · rw [hstr, h]
    rfl
  · intro h
    rw [State.period_eq]
    refine (State.sleepCores_asleep _).1 (Eq.trans ?_ h)
    unfold State.noSleep
    rw [State.reg_congr (s := v)]
    exact State.keeps_of_blank (S := fun a => decide (a ≠ .regs)) (by simp [State.starterPart]) .regs rfl
  · rw [State.period_eq]
    exact (State.sleepCores_asleep _).2

end Sys2Proof.Machine

/-! PROOFS. The work of a second boundary. -/
namespace Sys2Proof.Machine

/-! ### The latch (R34, R567, R579) -/

/-- The counters without the dump areas. -/
def State.cntRest (s : State) : Cnt := { s.cnt with dump := [] }

theorem State.setDump_cntRest (s : State) (r : Nat) (d : Dump) : (s.setDump r d).cntRest = s.cntRest := rfl

theorem State.dropDumpOps_cntRest (s : State) (q r n : Nat) : (s.dropDumpOps q r n).cntRest = s.cntRest := rfl

theorem State.abandonDumps_cntRest (s : State) (r : Nat) : (s.abandonDumps r).cntRest = s.cntRest := by
  unfold State.abandonDumps
  dsimp only
  rw [State.setDump_cntRest]
  refine foldl_keep (p := State.cntRest) (fun s i => ?_) _ _
  unfold State.abandonImg
  dsimp only
  rw [State.dropDumpOps_cntRest, State.dropDumpOps_cntRest, State.setDump_cntRest]

theorem State.dumpSkip_cntRest (s : State) (r : Nat) : (s.dumpSkip r).cntRest = s.cntRest := by
  unfold State.dumpSkip
  dsimp only
  split
  · rfl
  · split
    · exact State.abandonDumps_cntRest s r
    · exact State.abandonDumps_cntRest s r

/-- Skipped dumps leave the counters and the latched set. -/
theorem State.dumpSkips_cnt (s : State) (l : List Nat) : ∃ d, (l.foldl State.dumpSkip s).cnt = { s.cnt with dump := d } := by
  have h := foldl_keep (p := State.cntRest) State.dumpSkip_cntRest l s
  refine ⟨(l.foldl State.dumpSkip s).cnt.dump, ?_⟩
  exact congrArg (fun c : Cnt => { c with dump := (l.foldl State.dumpSkip s).cnt.dump }) h

theorem State.latch_cnt {s : State} (h : s.drops 6 = false) : s.latch.cnt = { s.cnt with
    latched := s.cnt.start, latchTn := s.clk.tn, cut := true, live := if s.cnt.cut then s.cnt.live else clearSec s.cnt.live } := by
  unfold State.latch
  rw [if_neg (by simp [h])]

/-! ### The holdover sample (R329) -/

theorem Tab.look_filter {α : Type} (d : α) (f : Nat × α → Bool) (j : Nat) (hf : ∀ v, f (j, v) = true) (t : Tab α) :
    Tab.look d (t.filter f) j = Tab.look d t j := by
  induction t with
  | nil => rfl
  | cons q t ih =>
    obtain ⟨k, w⟩ := q
    by_cases hk : k = j
    · subst hk
      rw [List.filter_cons_of_pos (hf w)]
      simp [Tab.look]
    · cases hq : f (k, w) <;> simp [hq, hk, Tab.look, ih]

theorem State.holdSample_congr {s t : State} (h1 : t.secClock = s.secClock) (h2 : t.str = s.str) :
    t.holdSample.str = s.holdSample.str := by
  unfold State.holdSample State.onStr
  rw [h1, h2]

/-- The sample of the second that ends: the rounded mean of its control words, or the present word. -/
theorem State.holdSample_sample (s : State) : s.holdSample.str.hoRing.look 0 (s.secClock / 8000000 - 1) =
    if s.str.secCnt = 0 then s.str.word else roundDiv s.str.secSum s.str.secCnt := by
  have hkeep : ∀ (t : Tab Int) (v : Int), Tab.look 0 ((Tab.put 0 t (s.secClock / 8000000 - 1) v).filter
      (fun p => decide (s.secClock / 8000000 ≤ p.1 + 1024))) (s.secClock / 8000000 - 1) = v := fun t v => by
    rw [Tab.look_filter 0 _ _ (fun v => by simp; omega), Tab.look_put_self]
  unfold State.holdSample State.onStr ticksPerSecond
  dsimp only
  rw [apply_ite Str.hoRing, ite_self]
  exact hkeep _ _

/-! ### TN_ANNOUNCE (R357) -/

theorem State.sendOn_keeps (ls : List Link) (type : Nat) (s : State) : ∀ m ∈ s.fab.sendQ, m ∈ (s.sendOn ls type).fab.sendQ := by
  unfold State.sendOn
  induction ls generalizing s with
  | nil => exact fun m hm => hm
  | cons l ls ih => exact fun m hm => ih _ m (List.mem_append_left _ hm)

/-- Every link of the list gets a message. -/
theorem State.sendOn_sends (ls : List Link) (type : Nat) (s : State) :
    ∀ l ∈ ls, ∃ m ∈ (s.sendOn ls type).fab.sendQ, m.link = some l ∧ m.type = type := by
  unfold State.sendOn
  induction ls generalizing s with
  | nil => exact fun l hl => absurd hl List.not_mem_nil
  | cons a ls ih =>
    intro l hl
    rcases List.mem_cons.mp hl with rfl | hl
    · exact ⟨_, State.sendOn_keeps ls type _ _ (List.mem_append_right _ (List.mem_singleton_self _)), rfl, rfl⟩
    · exact ih _ l hl

theorem State.groupsIn_congr {s t : State} (h : t.fab = s.fab) (st : LinkSt) : t.groupsIn st = s.groupsIn st := by
  unfold State.groupsIn State.plink
  rw [h]

theorem State.announceTn_sends {s : State} (h : s.fabRole ≠ 0) :
    ∀ l ∈ s.groupsIn .up, ∃ m ∈ s.announceTn.fab.sendQ, m.link = some l ∧ m.type = 1 := by
  intro l hl
  obtain ⟨m, hm, h1⟩ := State.sendOn_sends _ 1 s l hl
  refine ⟨m, ?_, h1⟩
  unfold State.announceTn
  dsimp only
  rw [if_pos h]
  split
  · exact State.sendOn_keeps _ _ _ _ hm
  · exact hm

/-! ### The second boundary (R33, R35, R329, R357, R579) -/

/-- The second's own marks, and dumps that have not ended skipped. -/
def State.secondBegun (s : State) : State :=
  (List.range 16).foldl State.dumpSkip { s with clk := { s.clk with ppsHighUntil := s.clk.tick + 800000, secDone := true } }

theorem State.second_eq (s : State) : ∃ ls, s.second = (s.secondBegun.latch.holdSample.announceTn).sendOn ls 2 := ⟨_, rfl⟩

@[simp] theorem State.secondBegun_blank {S : Area → Bool} (h_clk : S .clk = true) (h_mgp : S .mgp = true) (h_cnt : S .cnt = true)
    (s : State) : s.secondBegun.blank S = s.blank S :=
  (foldl_blank (fun s r => State.dumpSkip_blank h_mgp h_cnt s r) _ _).trans (State.blank_clk h_clk _ _)

theorem State.secondBegun_clk (s : State) :
    s.secondBegun.clk = { s.clk with ppsHighUntil := s.clk.tick + 800000, secDone := true } :=
  (State.clk_of_blank (t := s.secondBegun) (foldl_blank (fun s r => State.dumpSkip_blank rfl rfl s r) _ _)).trans rfl

/-- The counters after a second boundary: latched as they stood at the edge, the marks of the second cleared once. -/
theorem State.second_cnt {s : State} (h : s.drops 6 = false) : s.second.cnt.latched = s.cnt.start ∧
    s.second.cnt.latchTn = s.clk.tn ∧ s.second.cnt.live = if s.cnt.cut then s.cnt.live else clearSec s.cnt.live := by
  obtain ⟨ls, hs⟩ := s.second_eq
  have hc : s.second.cnt = s.secondBegun.latch.cnt := by
    rw [hs]
    exact State.keeps_of_blank (S := fun a => decide (a ≠ .cnt)) (by simp) .cnt rfl
  have hd : s.secondBegun.drops 6 = false := by
    unfold State.drops at h ⊢
    rw [State.secondBegun_clk]
    exact h
  obtain ⟨d, hd'⟩ := State.dumpSkips_cnt { s with clk := { s.clk with ppsHighUntil := s.clk.tick + 800000, secDone := true } } (List.range 16)
  rw [hc, State.latch_cnt hd, State.secondBegun_clk]
  unfold State.secondBegun
  rw [hd']
  exact ⟨rfl, rfl, rfl⟩

theorem State.second_str (s : State) : s.second.str = s.holdSample.str := by
  obtain ⟨ls, hs⟩ := s.second_eq
  have h1 : s.second.str = s.secondBegun.latch.holdSample.str := by
    rw [hs]
    exact State.keeps_of_blank (S := notStr) (by simp) .str rfl
  rw [h1]
  refine State.holdSample_congr ?_ ?_
  · have hl : s.secondBegun.latch.clk = s.secondBegun.clk := State.clk_of_blank (by simp)
    unfold State.secClock
    rw [hl, State.secondBegun_clk]
  · exact (State.keeps_of_blank (S := notStr) (State.latch_blank rfl _) .str rfl).trans
      (State.keeps_of_blank (S := notStr) (State.secondBegun_blank rfl rfl rfl s) .str rfl)

/-- A manager and a worker announce TN on every link that is UP. -/
theorem State.second_announces {s : State} (h : s.fabRole ≠ 0) :
    ∀ l ∈ s.groupsIn .up, ∃ m ∈ s.second.fab.sendQ, m.link = some l ∧ m.type = 1 := by
  intro l hl
  obtain ⟨ls, hs⟩ := s.second_eq
  have hregs : s.secondBegun.latch.holdSample.regs = s.regs :=
    State.keeps_of_blank (S := fun a => decide (a ≠ .regs)) (by simp) .regs rfl
  have hfab : s.secondBegun.latch.holdSample.fab = s.fab :=
    State.keeps_of_blank (S := fun a => decide (a ≠ .fab)) (by simp) .fab rfl
  have hrole : s.secondBegun.latch.holdSample.fabRole = s.fabRole := by
    unfold State.fabRole
    rw [State.reg_congr hregs]
  rw [← State.groupsIn_congr hfab] at hl
  obtain ⟨m, hm, h1⟩ := State.announceTn_sends (by rw [hrole]; exact h) l hl
  rw [hs]
  exact ⟨m, State.sendOn_keeps _ _ _ _ hm, h1⟩

theorem exec_secondBoundary {s : State} (hup : s.up = true) (hs : s.atSecond = true) (hd : s.clk.secDone = false) :
    exec .secondBoundary s = .next s.cycle0.secondNow :=
  (whenUp_of_up hup).trans (congrArg _ (if_pos ⟨hs, hd⟩))

theorem State.secondNow_due {s : State} (hs : s.atSecond = true) (hd : s.clk.secDone = false) : s.secondNow = s.second :=
  if_pos ⟨hs, hd⟩

/-- On a second boundary TN is valid and divisible by 8,000,000. -/
theorem State.secClock_atSecond {s : State} (h : s.atSecond = true) : s.secClock = s.clk.tn ∧ s.clk.tn % 8000000 = 0 := by
  unfold State.atSecond at h
  simp only [Bool.and_eq_true, decide_eq_true_eq] at h
  exact ⟨if_pos h.1, h.2⟩

/-- Settles O25: cycle 0 leaves the clock, the Starter and the registers, and then the second's work is done. -/
theorem secondBoundaryLatches : Obligations.SecondBoundaryLatches := by
  unfold Obligations.SecondBoundaryLatches
  intro s hup hat hd h6
  have hclk : s.cycle0.clk = s.clk := State.clk_of_blank (by simp)
  have hstr : s.cycle0.str = s.str := State.keeps_of_blank (S := notStr) (by simp) .str rfl
  have hregs : s.cycle0.regs = s.regs := State.keeps_of_blank (S := fun a => decide (a ≠ .regs)) (by simp) .regs rfl
  have hat' : s.cycle0.atSecond = true := by unfold State.atSecond; rw [hclk]; exact hat
  have h6' : s.cycle0.drops 6 = false := by unfold State.drops; rw [hclk]; exact h6
  have hrole : s.cycle0.fabRole = s.fabRole := by unfold State.fabRole; rw [State.reg_congr hregs]
  have hsec : s.cycle0.secClock = s.secClock := by unfold State.secClock; rw [hclk]
  obtain ⟨hlat, htn, hlive⟩ := State.second_cnt h6'
  refine ⟨_, exec_secondBoundary hup hat hd, ?_⟩
  rw [State.secondNow_due hat' (by rw [hclk]; exact hd)]
  refine ⟨?_, hlat, by rw [htn, hclk], hlive, ?_, fun _ => ?_, fun h => State.second_announces (by rw [hrole]; exact h)⟩
  · rw [State.second_clk, hclk]
  · rw [State.second_str, State.holdSample_congr hsec hstr]
  · rw [State.second_str, State.holdSample_congr hsec hstr, ← (State.secClock_atSecond hat).1]
    exact s.holdSample_sample

end Sys2Proof.Machine

/-! PROOFS. The count decisions of the Retimer. -/
namespace Sys2Proof.Machine

/-! ### The decision (R167, R170) -/

theorem Retimer.decide_waits {r : Retimer} {a l held t : Nat} (hs : r.started = false) (h : held < t) :
    r.decide_ a l held t = { r with own := some 0, adoOwn := false } := by
  have : (r.started || decide (t ≤ held)) = false := by simp [hs, h]
  unfold Retimer.decide_
  simp only [this]
  rfl

theorem Retimer.decide_counts {r : Retimer} {a l held t : Nat} (h : r.started = true ∨ t ≤ held) :
    r.decide_ a l held t = { r with started := true, own := some (decideCount a l held t).1, adoOwn := (decideCount a l held t).2 } := by
  have : (r.started || decide (t ≤ held)) = true := by simpa using h
  unfold Retimer.decide_
  simp only [this]
  rfl

/-- The count is the raw count limited to 0 and A, and a raw count above A is marked. -/
theorem decideCount_spec (a l held t : Nat) : let q := rawCount l held t
    let d := decideCount a l held t
    d.1 ≤ a ∧ (q < 0 → d.1 = 0 ∧ d.2 = false) ∧ (0 ≤ q → q ≤ a → (d.1 : Int) = q ∧ d.2 = false) ∧ ((a : Int) < q → d.1 = a ∧ d.2 = true) := by
  intro q d
  have hd : d = if q > (a : Int) then (a, true) else (q.toNat, false) := rfl
  by_cases h : q > (a : Int)
  · rw [hd, if_pos h]
    exact ⟨Nat.le_refl a, fun hn => by omega, fun _ ha => by omega, fun _ => ⟨rfl, rfl⟩⟩
  · rw [hd, if_neg h]
    exact ⟨by omega, fun hn => ⟨by omega, rfl⟩, fun h0 _ => ⟨by omega, rfl⟩, fun ha => absurd ha h⟩

/-- Only the start, the count and the mark change. -/
theorem Retimer.decide_frame (r : Retimer) (a l held t : Nat) :
    r.decide_ a l held t = { r with started := (r.decide_ a l held t).started, own := (r.decide_ a l held t).own, adoOwn := (r.decide_ a l held t).adoOwn } := by
  unfold Retimer.decide_
  dsimp only
  split <;> rfl

theorem satInc_eq_min (m n : Nat) : satInc m n = min m (n + 1) := by
  unfold satInc
  split <;> omega

/-! ### RETIMER_DECIDE and RETIMER_COUNT_DEADLINE (R166, R171, R172, R264) -/

section
variable {s : State} {w : Fin 65536} {n : Nat} (hup : s.up = true)
include hup

theorem exec_retimerDecide_dropped (hd : s.drops 1 = true) : exec (.retimerDecide w) s = .next s :=
  (whenUp_of_up hup).trans (congrArg _ (if_pos hd))

theorem exec_retimerDecide_wheel (hd : s.drops 1 = false) (hr : s.retimed w = true) : exec (.retimerDecide w) s = .next
    (if s.secClock % 64 = w.val % 64 ∧ (s.wheel w).ret.own.isNone = true then s.setWheel w { s.wheel w with
      ret := (s.wheel w).ret.decide_ (areaOf (s.wheel w).k) (s.wheel w).ret.last ((s.wheel w).ret.held s.secClock) (targetFill (s.wheel w).ret.last) }
    else s) :=
  (whenUp_of_up hup).trans (congrArg _ ((if_neg (by simp [hd])).trans (if_pos hr)))

theorem exec_retimerDecide_pair (hd : s.drops 1 = false) (hr : s.retimed w = false) (hn : s.retPair w = some n) :
    exec (.retimerDecide w) s = .next
    (if s.secClock % 64 = n % 64 ∧ (s.pair n).locked = true ∧ (s.pair n).ret.own.isNone = true then s.setPair n { s.pair n with
      ret := (s.pair n).ret.decide_ (areaOf (s.pair n).k) (s.wheel (s.pair n).refWheel).cnt ((s.pair n).held s.secClock)
        (targetFill (s.wheel (s.pair n).refWheel).cnt + (s.wheel (s.pair n).refWheel).cnt * (s.pair n).minLag / 64) }
    else s) := by
  refine (whenUp_of_up hup).trans (congrArg _ ((if_neg (by simp [hd])).trans ((if_neg (by simp [hr])).trans ?_)))
  rw [hn]

theorem exec_retimerDecide_other (hr : s.retimed w = false) (hn : s.retPair w = none) : exec (.retimerDecide w) s = .next s := by
  cases hd : s.drops 1 with
  | true => exact exec_retimerDecide_dropped hup hd
  | false =>
    refine (whenUp_of_up hup).trans (congrArg _ ((if_neg (by simp [hd])).trans ((if_neg (by simp [hr])).trans ?_)))
    rw [hn]

theorem exec_retimerCountDeadline_alone (hc : s.copies = false) : exec (.retimerCountDeadline w) s = .next s :=
  (whenUp_of_up hup).trans (congrArg _ (if_pos hc))

theorem exec_retimerCountDeadline_wheel (hc : s.copies = true) (hr : s.retimed w = true) : exec (.retimerCountDeadline w) s = .next
    (if s.secClock % 64 = (w.val + 32) % 64 ∧ (s.wheel w).ret.own.isSome = true ∧ (s.wheel w).ret.mate.isNone = true then
      (s.setWheel w { s.wheel w with ret := { (s.wheel w).ret with mate := (s.wheel w).ret.own }, rtmDiff := satInc 65535 (s.wheel w).rtmDiff }).noteDiff
    else s) :=
  (whenUp_of_up hup).trans (congrArg _ ((if_neg (by simp [hc])).trans (if_pos hr)))

theorem exec_retimerCountDeadline_pair (hc : s.copies = true) (hr : s.retimed w = false) (hn : s.retPair w = some n) :
    exec (.retimerCountDeadline w) s = .next
    (if s.secClock % 64 = (n + 32) % 64 ∧ (s.pair n).ret.own.isSome = true ∧ (s.pair n).ret.mate.isNone = true then
      (s.setPair n { s.pair n with ret := { (s.pair n).ret with mate := (s.pair n).ret.own }, colDiff := satInc 65535 (s.pair n).colDiff }).noteDiff
    else s) := by
  refine (whenUp_of_up hup).trans (congrArg _ ((if_neg (by simp [hc])).trans ((if_neg (by simp [hr])).trans ?_)))
  rw [hn]

theorem exec_retimerCountDeadline_other (hr : s.retimed w = false) (hn : s.retPair w = none) :
    exec (.retimerCountDeadline w) s = .next s := by
  cases hc : s.copies with
  | false => exact exec_retimerCountDeadline_alone hup hc
  | true =>
    refine (whenUp_of_up hup).trans (congrArg _ ((if_neg (by simp [hc])).trans ((if_neg (by simp [hr])).trans ?_)))
    rw [hn]
end

/-- Settles O36: the decision's cases, and each command's guard for a retimed Wheel, for a pair, and for neither. -/
theorem retimerCounts : Obligations.RetimerCounts := by
  unfold Obligations.RetimerCounts
  refine ⟨fun r a l held t => ⟨fun hs h => ?_, fun h => ?_, Retimer.decide_frame r a l held t⟩,
    fun w s hup => ⟨fun hd => exec_retimerDecide_dropped hup hd, fun hr => ⟨?decide, ?decideNot, ?deadline, ?deadlineNot⟩,
      fun n hr hn => ⟨?pairDecide, ?pairDecideNot, ?pairDeadline, ?pairDeadlineNot⟩,
      fun hr hn => ⟨exec_retimerDecide_other hup hr hn, exec_retimerCountDeadline_other hup hr hn⟩⟩⟩
  · rw [Retimer.decide_waits hs h]
    exact ⟨rfl, hs, rfl⟩
  · rw [Retimer.decide_counts h]
    obtain ⟨h1, h2, h3, h4⟩ := decideCount_spec a l held t
    exact ⟨rfl, _, rfl, h1, h2, h3, h4⟩
  case decide =>
    rintro ⟨hd, ht, ho⟩
    refine ⟨_, exec_retimerDecide_wheel hup hd hr, ?_⟩
    rw [if_pos ⟨ht, by rw [ho]; rfl⟩]
    exact ⟨rfl, fun m hm => State.setWheel_of_ne _ _ hm, State.setWheel_self _ _ _⟩
  case decideNot =>
    intro h
    cases hd : s.drops 1 with
    | true => exact exec_retimerDecide_dropped hup hd
    | false => rw [exec_retimerDecide_wheel hup hd hr, if_neg (by simpa using h)]
  case deadline =>
    rintro ⟨hc, ht, ho, hm⟩
    refine ⟨_, exec_retimerCountDeadline_wheel hup hc hr, ?_⟩
    rw [if_pos ⟨ht, ho, by rw [hm]; rfl⟩, satInc_eq_min]
    exact ⟨rfl, fun m hm => State.setWheel_of_ne _ _ hm, State.setWheel_self _ _ _⟩
  case deadlineNot =>
    intro h
    cases hc : s.copies with
    | false => exact exec_retimerCountDeadline_alone hup hc
    | true => rw [exec_retimerCountDeadline_wheel hup hc hr, if_neg (by simpa [hc] using h)]
  case pairDecide =>
    rintro ⟨hd, ht, hl, ho⟩
    refine ⟨_, exec_retimerDecide_pair hup hd hr hn, ?_⟩
    rw [if_pos ⟨ht, hl, by rw [ho]; rfl⟩]
    exact ⟨rfl, fun m hm => State.setPair_of_ne _ _ hm, State.setPair_self _ _ _⟩
  case pairDecideNot =>
    intro h
    cases hd : s.drops 1 with
    | true => exact exec_retimerDecide_dropped hup hd
    | false => rw [exec_retimerDecide_pair hup hd hr hn, if_neg (by simpa using h)]
  case pairDeadline =>
    rintro ⟨hc, ht, ho, hm⟩
    refine ⟨_, exec_retimerCountDeadline_pair hup hc hr hn, ?_⟩
    rw [if_pos ⟨ht, ho, by rw [hm]; rfl⟩, satInc_eq_min]
    exact ⟨rfl, fun m hm => State.setPair_of_ne _ _ hm, State.setPair_self _ _ _⟩
  case pairDeadlineNot =>
    intro h
    cases hc : s.copies with
    | false => exact exec_retimerCountDeadline_alone hup hc
    | true => rw [exec_retimerCountDeadline_pair hup hc hr hn, if_neg (by simpa [hc] using h)]

end Sys2Proof.Machine

/-!
PROOFS. Tick-keyed Flips (R212 to R217, R222, R240 to R244, R368): freezing, committing and ending one, resync, and the
deadlines of a fabric Flip at the manager.
-/
namespace Sys2Proof.Machine

/-! ### The two map pages (R203, R212) -/

theorem State.activeNo_le (s : State) : s.activeNo ≤ 1 := by
  unfold State.activeNo b2n
  split <;> simp

/-- Which page is active and what the two pages hold is the Harp's alone. -/
theorem State.pages_congr {t s : State} (h : t.hrp = s.hrp) :
    t.activeNo = s.activeNo ∧ t.activePage = s.activePage ∧ t.standby = s.standby := by
  unfold State.activePage State.standby State.standbyNo State.activeNo State.page
  rw [h]
  exact ⟨rfl, rfl, rfl⟩

@[simp] theorem State.setPage_flp (s : State) (i : Nat) (p : Page) : (s.setPage i p).flp = s.flp := by
  unfold State.setPage
  split <;> rfl

@[simp] theorem State.setPage_activeNo (s : State) (i : Nat) (p : Page) : (s.setPage i p).activeNo = s.activeNo := by
  unfold State.setPage
  split <;> rfl

/-- Writing a map page touches the Harp alone. -/
theorem State.setPage_only (s : State) (i : Nat) (p : Page) : s.setPage i p = { s with hrp := (s.setPage i p).hrp } := by
  unfold State.setPage
  split <;> rfl

theorem State.page_setPage_self (s : State) (i : Nat) (p : Page) : (s.setPage i p).page i = p := by
  unfold State.setPage State.page
  by_cases h : i = 0 <;> simp [h]

theorem State.page_setPage_of_ne (s : State) {i j : Nat} (p : Page) (h : i = 0 ↔ j ≠ 0) : (s.setPage i p).page j = s.page j := by
  unfold State.setPage State.page
  by_cases hj : j = 0 <;> simp_all

theorem State.setStandby_standby (s : State) (p : Page) : (s.setStandby p).standby = p := by
  unfold State.standby State.setStandby State.standbyNo
  rw [State.setPage_activeNo, State.page_setPage_self]

theorem State.setStandby_activePage (s : State) (p : Page) : (s.setStandby p).activePage = s.activePage := by
  have h := s.activeNo_le
  unfold State.activePage State.setStandby State.standbyNo
  rw [State.setPage_activeNo, State.page_setPage_of_ne]
  omega

/-- Swapping the pages: the standby page is active, and the new standby page is like it but for the entries (R212, R217). -/
theorem State.swapPages_spec (s : State) : s.swapPages.activeNo = 1 - s.activeNo ∧ s.swapPages.activePage = s.standby ∧
    s.swapPages.standby = { s.standby with ent := s.activePage.ent } := by
  let v : State := { s with hrp := { s.hrp with active := !s.hrp.active } }
  have hv : v.activeNo = 1 - s.activeNo ∧ v.activePage = s.standby ∧ v.standby = s.activePage := by
    cases h : s.hrp.active <;>
      simp [v, State.activeNo, State.standbyNo, State.activePage, State.standby, State.page, b2n, h]
  obtain ⟨hno, hact, hsby⟩ := hv
  have hs : s.swapPages = v.setStandby { v.activePage with ent := v.standby.ent } := rfl
  rw [hs, State.setStandby_standby, State.setStandby_activePage, hact, hsby]
  exact ⟨(v.setPage_activeNo _ _).trans hno, rfl, rfl⟩

@[simp] theorem State.swapPages_flp (s : State) : s.swapPages.flp = s.flp := State.setPage_flp _ _ _

theorem State.swapPages_only (s : State) : s.swapPages = { s with hrp := s.swapPages.hrp } :=
  State.setPage_only { s with hrp := { s.hrp with active := !s.hrp.active } } _ _

theorem State.swapPages_hrp_congr {s t : State} (h : t.hrp = s.hrp) : t.swapPages.hrp = s.swapPages.hrp := by
  unfold State.swapPages State.setStandby State.setPage State.standby State.standbyNo State.activePage State.activeNo State.page
  dsimp only
  rw [h]
  split <;> rfl

/-! ### What reporting a Flip leaves (R214, R367, R368) -/

/-- The map pages and the Flip engine but for the manager's records of fabric Flips. -/
def State.ownFlips (s : State) : Hrp × Flp := (s.hrp, { s.flp with fab := [] })

theorem State.ownFlips_of_eq {s t : State} (hh : t.hrp = s.hrp) (hf : t.flp = s.flp) : t.ownFlips = s.ownFlips := by
  unfold State.ownFlips
  rw [hh, hf]

@[simp] theorem State.completeNext_hrp (s : State) (h st tick r : Nat) : (s.completeNext h st tick r).hrp = s.hrp := by
  simp [State.completeNext]

@[simp] theorem State.completeNext_flp (s : State) (h st tick r : Nat) : (s.completeNext h st tick r).flp = s.flp := by
  simp [State.completeNext]

@[simp] theorem State.sendResult_ownFlips (s : State) (x : Flip) (d : Bool) : (s.sendResult x d).ownFlips = s.ownFlips := by
  unfold State.sendResult
  split <;> rfl

@[simp] theorem State.ownResult_ownFlips (s : State) (x : Flip) (d : Bool) : (s.ownResult x d).ownFlips = s.ownFlips := rfl

@[simp] theorem State.flipDone_ownFlips (s : State) (n : Nat) (x : Flip) : (s.flipDone n x).ownFlips = s.ownFlips := by
  unfold State.flipDone
  split
  · simp
  · split
    · simp
    · exact State.ownFlips_of_eq (by simp) (by simp)

@[simp] theorem State.tellOutcome_hrp (s : State) (o : Option Bool) (id : Word) : (s.tellOutcome o id).hrp = s.hrp := by
  unfold State.tellOutcome
  split
  · rfl
  · simp
  · split <;> simp

@[simp] theorem State.tellOutcome_flp (s : State) (o : Option Bool) (id : Word) : (s.tellOutcome o id).flp = s.flp := by
  unfold State.tellOutcome
  split
  · rfl
  · simp
  · split <;> simp

@[simp] theorem State.finishFab_hrp (s : State) (x : FabFlip) : (s.finishFab x).hrp = s.hrp := by
  unfold State.finishFab
  dsimp only
  split
  · simp
  · exact (foldl_keep (p := State.hrp) (fun u a => u.tellOutcome_hrp _ a) _ _).trans (State.complete_hrp _ _ _ _ _)

/-- The completion of a fabric Flip takes its record off (R368). -/
theorem State.finishFab_flp (s : State) (x : FabFlip) :
    (s.finishFab x).flp = { s.flp with fab := s.flp.fab.filter (fun y => y.h ≠ x.h) } := by
  unfold State.finishFab
  dsimp only
  split
  · simp
  · exact (foldl_keep (p := State.flp) (fun u a => u.tellOutcome_flp _ a) _ _).trans (State.complete_flp _ _ _ _ _)

@[simp] theorem State.finishFab_ownFlips (s : State) (x : FabFlip) : (s.finishFab x).ownFlips = s.ownFlips := by
  unfold State.ownFlips
  rw [s.finishFab_flp x, s.finishFab_hrp x]

@[simp] theorem State.finishReady_ownFlips (s : State) : s.finishReady.ownFlips = s.ownFlips :=
  foldl_keep (p := State.ownFlips) (fun u x => u.finishFab_ownFlips x) _ _

theorem State.finishReady_of_nil {s : State} (h : s.flp.fab = []) : s.finishReady = s := by
  unfold State.finishReady
  rw [h]
  rfl

/-! ### FLIP_COMMIT (R212 to R217) -/

/-- The tick-keyed Flips of the present tick. -/
def State.dueFlips (s : State) : List Flip := s.flp.flips.filter (fun x => s.dueAt x.f)

/-- The Flip engine with the Flips of this tick, the first of which is `d`, taken off. -/
def State.retired (s : State) (d : Flip) : Flp :=
  { s.flp with flips := s.flp.flips.filter (fun x => !s.dueAt x.f), frozen := none, lastF := some d.f }

theorem State.mem_dueFlips {s : State} {x : Flip} : x ∈ s.dueFlips ↔ x ∈ s.flp.flips ∧ s.clk.tnValid = true ∧ x.f = s.tnNow := by
  simp [State.dueFlips, State.dueAt]

theorem State.retired_flips {s : State} (d : Flip) (hv : s.clk.tnValid = true) :
    (s.retired d).flips = s.flp.flips.filter (fun x => decide (x.f ≠ s.tnNow)) := by
  simp [State.retired, State.dueAt, hv]

theorem State.commit_of_none {s : State} (h : s.dueFlips = []) : s.commit = s := by
  unfold State.commit
  dsimp only
  rw [show s.flp.flips.filter (fun x => s.dueAt x.f) = [] from h]

/-- The Flips of this tick that were cancelled are reported as such. -/
def State.dropCancelled (s : State) (l : List Flip) : State :=
  (l.filter (fun x => x.cancelled)).foldl (fun (t : State) x => (t.sendResult x false).ownResult x false) s

theorem State.dropCancelled_ownFlips (s : State) (l : List Flip) : (s.dropCancelled l).ownFlips = s.ownFlips :=
  foldl_keep (p := State.ownFlips) (fun u x => by rw [State.ownResult_ownFlips, State.sendResult_ownFlips]) _ _

/-- The pages swapped for a Flip at tick F, and resync begun (R212, R217). -/
def State.swapAt (s : State) (f : Nat) : State :=
  { s.swapPages with flp := { s.swapPages.flp with resync := some f, carried := 0, parts := [] } }

theorem State.swapAt_flp (s : State) (f : Nat) :
    (s.swapAt f).flp = { s.flp with resync := some f, carried := 0, parts := [] } :=
  congrArg (fun q : Flp => { q with resync := some f, carried := 0, parts := [] }) s.swapPages_flp

theorem State.swapAt_only (s : State) (f : Nat) : s.swapAt f = { s with hrp := (s.swapAt f).hrp, flp := (s.swapAt f).flp } :=
  congrArg (fun t : State => { t with flp := (s.swapAt f).flp }) s.swapPages_only

/-- The Flips `go` commit at the tick of the first, `g` (R214, R217). -/
def State.commitAll (s : State) (g : Flip) (go : List Flip) : State :=
  let t := go.foldl (fun (t : State) x => t.flipDone s.flp.carried x) (s.swapAt g.f)
  (t.count 7 0 3 1).event (0 :: s.flp.parts) 0x0032 t.activeNo g.f

theorem State.commitAll_ownFlips (s : State) (g : Flip) (go : List Flip) :
    (s.commitAll g go).ownFlips = (s.swapPages.hrp, { s.flp with fab := [], resync := some g.f, carried := 0, parts := [] }) := by
  unfold State.commitAll
  dsimp only
  refine (State.ownFlips_of_eq (State.event_hrp _ _ _ _ _) (State.event_flp _ _ _ _ _)).trans ?_
  refine (State.ownFlips_of_eq (State.count_hrp _ _ _ _ _) (State.count_flp _ _ _ _ _)).trans ?_
  refine (foldl_keep (p := State.ownFlips) (fun u x => u.flipDone_ownFlips _ x) _ _).trans ?_
  unfold State.ownFlips
  rw [State.swapAt_flp]
  rfl

/-- FLIP_COMMIT where every Flip of the tick was cancelled: they leave the schedule and are reported. -/
theorem State.commit_of_dropped {s : State} {d : Flip} {l : List Flip} (h : s.dueFlips = d :: l)
    (hgo : (d :: l).filter (fun x => !x.cancelled) = []) :
    s.commit = State.dropCancelled { s with flp := s.retired d } (d :: l) := by
  unfold State.commit
  dsimp only
  rw [show s.flp.flips.filter (fun x => s.dueAt x.f) = d :: l from h]
  dsimp only
  rw [hgo]
  exact rfl

/-- FLIP_COMMIT with live Flips: these commit together once the cancelled are reported. -/
theorem State.commit_of_live {s : State} {d g : Flip} {l r : List Flip} (h : s.dueFlips = d :: l)
    (hgo : (d :: l).filter (fun x => !x.cancelled) = g :: r) :
    s.commit = (State.dropCancelled { s with flp := s.retired d } (d :: l)).commitAll g (g :: r) := by
  unfold State.commit
  dsimp only
  rw [show s.flp.flips.filter (fun x => s.dueAt x.f) = d :: l from h]
  dsimp only
  rw [hgo]
  exact rfl

/-- With a Flip of this tick that is not cancelled, the pages swap and resync starts. -/
theorem State.flipsNow_of_live {s : State} {y : Flip} (hy : y ∈ s.dueFlips) (hc : y.cancelled = false) :
    ∃ d, s.flipsNow.ownFlips =
      (s.swapPages.hrp, { s.retired d with fab := [], resync := some s.tnNow, carried := 0, parts := [] }) := by
  obtain ⟨d, l, hd⟩ := List.exists_cons_of_ne_nil (List.ne_nil_of_mem hy)
  have hgo : y ∈ (d :: l).filter (fun x => !x.cancelled) := List.mem_filter.mpr ⟨hd ▸ hy, by simp [hc]⟩
  obtain ⟨g, r, hg⟩ := List.exists_cons_of_ne_nil (List.ne_nil_of_mem hgo)
  have hgm : g ∈ s.dueFlips := hd ▸ (List.mem_filter.mp (hg ▸ List.mem_cons_self : g ∈ (d :: l).filter (fun x => !x.cancelled))).1
  obtain ⟨-, -, hgf⟩ := State.mem_dueFlips.mp hgm
  refine ⟨d, ?_⟩
  have hdrop := State.dropCancelled_ownFlips { s with flp := s.retired d } (d :: l)
  generalize hw : { s with flp := s.retired d }.dropCancelled (d :: l) = w at hdrop
  have hh : w.hrp = s.hrp := congrArg Prod.fst hdrop
  have hf : { w.flp with fab := [] } = { s.retired d with fab := [] } := congrArg Prod.snd hdrop
  unfold State.flipsNow
  rw [State.finishReady_ownFlips, State.commit_of_live hd hg, hw, State.commitAll_ownFlips, State.swapPages_hrp_congr hh, hgf]
  exact congrArg (fun q : Flp => (s.swapPages.hrp, { q with resync := some s.tnNow, carried := 0, parts := [] })) hf

/-- Where every Flip of this tick was cancelled, the pages and resync stand. -/
theorem State.flipsNow_of_cancelled {s : State} {y : Flip} (hy : y ∈ s.dueFlips) (hc : ∀ x ∈ s.dueFlips, x.cancelled = true) :
    ∃ d, s.flipsNow.ownFlips = (s.hrp, { s.retired d with fab := [] }) := by
  obtain ⟨d, l, hd⟩ := List.exists_cons_of_ne_nil (List.ne_nil_of_mem hy)
  have hgo : (d :: l).filter (fun x => !x.cancelled) = [] := by
    rw [List.filter_eq_nil_iff, ← hd]
    intro x hx
    simp [hc x hx]
  refine ⟨d, ?_⟩
  unfold State.flipsNow
  rw [State.finishReady_ownFlips, State.commit_of_dropped hd hgo]
  exact State.dropCancelled_ownFlips _ _

/-- A single FLIP_AT of one device, due now: its completion and FLIP_DONE (R509). -/
theorem State.flipsNow_single {s : State} {y : Flip} (hv : s.clk.tnValid = true) (hfl : s.flp.flips = [y]) (hf : y.f = s.tnNow)
    (hc : y.cancelled = false) (hm : y.fromMgr = false) (hb : y.fabric = false) (hfab : s.flp.fab = []) :
    ∃ u : State, s.flipsNow =
      ((u.completeNext y.h 0 y.f (flipResultWord y.f (1 - s.activeNo) s.flp.carried)).count 7 0 3 1).event
        (0 :: s.flp.parts) 0x0032 (1 - s.activeNo) y.f ∧ u = { s with hrp := u.hrp, flp := u.flp } := by
  have hd : s.dueFlips = [y] := by simp [State.dueFlips, State.dueAt, hfl, hv, hf]
  let w : State := { s with flp := s.retired y }
  have hcommit : s.commit = w.commitAll y [y] := by
    rw [State.commit_of_live hd (g := y) (r := []) (by simp [hc])]
    simp [State.dropCancelled, hc, w]
  have hno : (w.swapAt y.f).activeNo = 1 - s.activeNo := w.swapPages_spec.1
  generalize hu : w.swapAt y.f = u at hno
  have hdone : u.flipDone s.flp.carried y = u.completeNext y.h 0 y.f (flipResultWord y.f (1 - s.activeNo) s.flp.carried) := by
    simp [State.flipDone, hm, hb, hno]
  have hall : w.commitAll y [y] =
      ((u.completeNext y.h 0 y.f (flipResultWord y.f (1 - s.activeNo) s.flp.carried)).count 7 0 3 1).event
        (0 :: s.flp.parts) 0x0032 (1 - s.activeNo) y.f := by
    rw [← hdone, ← hno]
    show ((State.flipDone (w.swapAt y.f) s.flp.carried y).count 7 0 3 1).event _ _ (State.activeNo (State.flipDone (w.swapAt y.f) s.flp.carried y)) _ = _
    rw [hu]
    refine congrArg (fun k => ((u.flipDone s.flp.carried y).count 7 0 3 1).event (0 :: s.flp.parts) 0x0032 k y.f) ?_
    rw [hdone]
    exact (State.pages_congr (by simp)).1
  refine ⟨u, ?_, ?_⟩
  · unfold State.flipsNow
    rw [hcommit, hall, State.finishReady_of_nil]
    have hk : u.flp.fab = s.flp.fab := by rw [← hu, State.swapAt_flp]; rfl
    simpa [hk] using hfab
  · rw [← hu]
    exact w.swapAt_only y.f

/-! ### Resync (R22, R197, R217) -/

theorem copyEnts_look (q : Page) (l : List Nat) (t : Tab Word) (i : Nat) :
    Tab.look entryReset (copyEnts q l t) i = if i ∈ l then q.entry i else Tab.look entryReset t i := by
  unfold copyEnts
  induction l generalizing t with
  | nil => simp
  | cons a l ih =>
    rw [List.foldl_cons, ih]
    by_cases hl : i ∈ l
    · simp [hl]
    · by_cases ha : i = a
      · simp [ha]
      · simp [hl, ha, Tab.look_put_of_ne _ _ _ _ ha]

/-- The failures of copied entries leave the map entries of both pages. -/
theorem State.standby_ent_fails (l : List Nat) (s : State) :
    (l.foldl (fun (t : State) i => t.entryFails t.standbyNo i true) s).standby.ent = s.standby.ent := by
  let ents : State → Nat × (Nat → Tab Word) := fun u => (u.activeNo, fun q => (u.page q).ent)
  have hk : ents (l.foldl (fun (t : State) i => t.entryFails t.standbyNo i true) s) = ents s := by
    refine foldl_keep (p := ents) (fun u i => ?_) _ _
    obtain ⟨-, hno, hent, -⟩ := u.entryFails_spec u.standbyNo i true (Nat.sub_le _ _)
    exact Prod.ext hno (funext hent)
  have hno : (l.foldl (fun (t : State) i => t.entryFails t.standbyNo i true) s).activeNo = s.activeNo := congrArg Prod.fst hk
  generalize l.foldl (fun (t : State) i => t.entryFails t.standbyNo i true) s = t at hk hno ⊢
  unfold State.standby State.standbyNo
  rw [hno]
  exact congrFun (congrArg Prod.snd hk) _

theorem State.copySlice_entry {s : State} {f : Nat} (i : Nat) (hr : s.flp.resync = some f) (h1 : f ≤ s.tnNow) (h2 : s.tnNow < f + 128)
    (h3 : s.drops 4 = false) : s.copySlice.standby.entry i =
      if 4096 * (s.tnNow - f) ≤ i ∧ i < 4096 * (s.tnNow - f) + 4096 then s.activePage.entry i else s.standby.entry i := by
  have hmem : i ∈ (List.range 4096).map (4096 * (s.tnNow - f) + ·) ↔
      4096 * (s.tnNow - f) ≤ i ∧ i < 4096 * (s.tnNow - f) + 4096 := by
    rw [List.mem_map]
    constructor
    · rintro ⟨j, hj, rfl⟩
      rw [List.mem_range] at hj
      omega
    · rintro ⟨ha, hb⟩
      exact ⟨i - 4096 * (s.tnNow - f), List.mem_range.mpr (by omega), by omega⟩
  unfold State.copySlice Page.entry
  rw [hr]
  dsimp only
  rw [if_pos ⟨h1, h2, h3⟩, State.standby_ent_fails, State.setStandby_standby, copyEnts_look]
  simp only [hmem]
  rfl

/-! ### A fabric Flip at the manager (R243, R244, R368) -/

@[simp] theorem State.cancelFab_hrp (s : State) (x : FabFlip) (w : Word) (r : Nat) : (s.cancelFab x w r).hrp = s.hrp := by
  unfold State.cancelFab
  split
  · rfl
  · dsimp only
    rw [State.recEvt_hrp]
    split <;> rfl

/-- An outcome of this device is added to a record's results and to nothing else of it. -/
theorem State.ownResult_fab {s : State} {x : Flip} {d : Bool} {y : FabFlip} (hy : y ∈ (s.ownResult x d).flp.fab) :
    ∃ z ∈ s.flp.fab, y = { z with results := y.results } := by
  obtain ⟨z, hz, rfl⟩ := List.mem_map.mp hy
  refine ⟨z, hz, ?_⟩
  split <;> rfl

/-- Cancelling a fabric Flip marks its record and every Flip of it that stays in its window. -/
theorem State.cancelFab_marks {s : State} {x : FabFlip} (w : Word) (r : Nat) (hc : x.cancelled = false) :
    (∀ y ∈ (s.cancelFab x w r).flp.fab, y.id = x.id → y.cancelled = true ∧ y.reason = r ∧ y.failId = w) ∧
    (∀ z ∈ (s.cancelFab x w r).flp.flips, z.fabric = true → z.id = x.id → z.cancelled = true) := by
  have hmark : ∀ y ∈ s.flp.fab.map (fun (y : FabFlip) => if y.id = x.id then { y with cancelled := true, reason := r, failId := w } else y),
      y.id = x.id → y.cancelled = true ∧ y.reason = r ∧ y.failId = w := by
    intro y hy hid
    obtain ⟨z, -, rfl⟩ := List.mem_map.mp hy
    by_cases hz : z.id = x.id
    · simp [hz]
    · rw [if_neg hz] at hid
      exact absurd hid hz
  have hkeep : ∀ z ∈ s.flp.flips.filterMap (fun (y : Flip) =>
      if y.fabric ∧ y.id = x.id then (if inWindow s.tnNow y.f then some { y with cancelled := true } else none) else some y),
      z.fabric = true → z.id = x.id → z.cancelled = true := by
    intro z hz hfab hid
    obtain ⟨y, -, hy⟩ := List.mem_filterMap.mp hz
    split at hy
    · split at hy
      · cases hy
        rfl
      · cases hy
    · next hn =>
      cases hy
      exact absurd ⟨hfab, hid⟩ hn
  unfold State.cancelFab
  rw [hc, if_neg Bool.false_ne_true]
  dsimp only
  rw [State.recEvt_flp]
  split
  · refine ⟨fun y hy hid => ?_, hkeep⟩
    obtain ⟨z, hz, he⟩ := State.ownResult_fab hy
    rw [he] at hid ⊢
    exact hmark z hz hid
  · exact ⟨hmark, hkeep⟩

/-- Without this device's own outcome the completion is an abort; it names the devices whose outcome differs (R510). -/
theorem State.finishFab_without_own (s : State) (x : FabFlip) (hn : x.results.find? (fun r => r.1 = s.fabId) = none) :
    ∃ (u : State) (r : Nat), s.finishFab x =
      (s.fabId :: x.ws).foldl (fun (t : State) id => t.tellOutcome ((x.results.find? (fun r => r.1 = id)).map (fun r => r.2)) id)
        (State.complete u x.h eAborted x.f r) ∧ u = { s with flp := u.flp } ∧
      (x.cancelled = false → r = (((s.fabId :: x.ws).filter (fun id =>
        (x.results.find? (fun r => r.1 = id)).map (fun r => r.2) = some true)).length % 2 ^ 24) * 2 ^ 40 + 6 * 2 ^ 32) := by
  have hlen : ((s.fabId :: x.ws).filter (fun id =>
      decide ((x.results.find? (fun r => r.1 = id)).map (fun r => r.2) = some true))).length ≠ (s.fabId :: x.ws).length := by
    intro h
    have := List.filter_eq_self.mp (List.filter_sublist.eq_of_length h) s.fabId List.mem_cons_self
    simp [hn] at this
  unfold State.finishFab
  simp only [hlen, decide_false, Bool.false_eq_true, if_false]
  refine ⟨_, _, rfl, rfl, fun hx => ?_⟩
  simp [hx, hn, abortResult]

/-! ### The obligation -/

theorem execFlipFreeze_of_first {s : State} {l r : List Flip} {x : Flip} (hup : s.up = true) (hfl : s.flp.flips = l ++ x :: r)
    (hv : s.clk.tnValid = true) (h1 : x.f ≤ s.tnNow + 4) (h2 : s.tnNow < x.f) (hl : ∀ y ∈ l, ¬(y.f ≤ s.tnNow + 4 ∧ s.tnNow < y.f)) :
    exec .flipFreeze s = .next { s with flp := { s.flp with frozen := some x.f } } := by
  have hfind : s.flp.flips.find? (fun x => s.clk.tnValid && inWindow s.tnNow x.f) = some x := by
    rw [hfl, List.find?_eq_some_iff_append]
    refine ⟨by simp [hv, inWindow, h1, h2], l, r, rfl, fun y hy => ?_⟩
    have hn := hl y hy
    simp only [hv, inWindow, Bool.true_and, Bool.not_eq_true', Bool.and_eq_false_iff, decide_eq_false_iff_not]
    omega
  show execFlipFreeze s = _
  unfold execFlipFreeze
  rw [whenUp_of_up hup, hfind]

theorem execFlipFreeze_of_none {s : State} (hup : s.up = true)
    (h : ∀ y ∈ s.flp.flips, ¬(s.clk.tnValid = true ∧ y.f ≤ s.tnNow + 4 ∧ s.tnNow < y.f)) : exec .flipFreeze s = .next s := by
  have hfind : s.flp.flips.find? (fun x => s.clk.tnValid && inWindow s.tnNow x.f) = none := by
    rw [List.find?_eq_none]
    intro y hy
    simpa [inWindow] using h y hy
  show execFlipFreeze s = _
  unfold execFlipFreeze
  rw [whenUp_of_up hup, hfind]

/-- FLIP_COMMIT with a live Flip: the pages, and each part of the Flip engine that the Flip changes. -/
theorem State.flipsNow_live_fields {s : State} (hv : s.clk.tnValid = true) (h : ∃ y ∈ s.flp.flips, y.f = s.tnNow ∧ y.cancelled = false) :
    let t := s.flipsNow
    t.activeNo = 1 - s.activeNo ∧ t.activePage = s.standby ∧ t.standby = { s.standby with ent := s.activePage.ent } ∧
      t.flp.flips = s.flp.flips.filter (fun x => decide (x.f ≠ s.tnNow)) ∧ t.flp.frozen = none ∧ t.flp.carried = 0 ∧ t.flp.parts = [] ∧
      t.flp.resync = some s.tnNow ∧ t.flp.jobs = s.flp.jobs ∧ t.flp.queue = s.flp.queue ∧ t.flp.seqs = s.flp.seqs := by
  obtain ⟨y, hy, hf, hc⟩ := h
  obtain ⟨d, he⟩ := State.flipsNow_of_live (State.mem_dueFlips.mpr ⟨hy, hv, hf⟩) hc
  have hh : s.flipsNow.hrp = s.swapPages.hrp := congrArg Prod.fst he
  have hfl : { s.flipsNow.flp with fab := [] } =
      { s.retired d with fab := [], resync := some s.tnNow, carried := 0, parts := [] } := congrArg Prod.snd he
  obtain ⟨hno, hact, hsby⟩ := State.pages_congr hh
  obtain ⟨sno, sact, ssby⟩ := s.swapPages_spec
  dsimp only
  exact ⟨hno.trans sno, hact.trans sact, hsby.trans ssby, (congrArg Flp.flips hfl).trans (State.retired_flips d hv),
    (congrArg Flp.frozen hfl :), (congrArg Flp.carried hfl :), (congrArg Flp.parts hfl :), (congrArg Flp.resync hfl :),
    (congrArg Flp.jobs hfl :), (congrArg Flp.queue hfl :), (congrArg Flp.seqs hfl :)⟩

theorem execResyncEnd_of_some {s : State} {f : Nat} (hup : s.up = true) (hr : s.flp.resync = some f) :
    exec .resyncEnd s = .next (if f + 128 ≤ s.tnNow then { s with flp := { s.flp with resync := none } } else s) := by
  show execResyncEnd s = _
  unfold execResyncEnd
  rw [whenUp_of_up hup, hr]

/-- The deadlines of a fabric Flip that the manager records. -/
theorem execFabricFlipReadyTimeout_of_found {s : State} {h : Nat} {x : FabFlip} {id : Word} {w : Worker}
    (hx : s.flp.fab.find? (fun x => x.h = h) = some x) (hw : s.worker id = some w) :
    exec (.fabricFlipReadyTimeout h id) s = .next (
      if s.fw ∧ id ∈ x.ws ∧ id ∉ x.ready ∧ x.a + 2 * w.pathSum + 8 ≤ s.tnNow ∧ s.tnNow < x.f then s.cancelFab x id 5 else s) := by
  show execFabricFlipReadyTimeout h id s = _
  unfold execFabricFlipReadyTimeout
  rw [hx, hw]

theorem execFabricFlipResultTimeout_of_found {s : State} {h : Nat} {x : FabFlip} (hx : s.flp.fab.find? (fun x => x.h = h) = some x) :
    exec (.fabricFlipResultTimeout h) s = .next (if s.fw ∧ x.f + 65536 ≤ s.tnNow then s.finishFab x else s) := by
  show execFabricFlipResultTimeout h s = _
  unfold execFabricFlipResultTimeout
  rw [hx]

/-- Settles O40: FLIP_COMMIT is a swap of the pages between two bookkeeping steps that keep the Harp and the Flip engine but for
the manager's records (`State.flipsNow_live_fields`). -/
theorem tickKeyedFlips : Obligations.TickKeyedFlips := by
  unfold Obligations.TickKeyedFlips
  intro s hup
  have hcommit : exec .flipCommit s = .next s.flipsNow := whenUp_of_up hup
  refine ⟨fun l x r => execFlipFreeze_of_first hup, execFlipFreeze_of_none hup, ?_, ?_, ?_, ?_, ?_, ?_, ?_, ?_⟩
  · intro hn hfab
    have hdue : s.dueFlips = [] := by
      rw [List.eq_nil_iff_forall_not_mem]
      intro y hy
      obtain ⟨hm, hd⟩ := State.mem_dueFlips.mp hy
      exact hn y hm hd
    rw [hcommit, State.flipsNow, State.commit_of_none hdue, State.finishReady_of_nil hfab]
  · exact fun hv hy => ⟨_, hcommit, State.flipsNow_live_fields hv hy⟩
  · intro y hv hfl hf hc hm hb hfab
    obtain ⟨u, he, hu⟩ := State.flipsNow_single hv hfl hf hc hm hb hfab
    exact ⟨u, hcommit.trans (congrArg Host.Outcome.next he), hu⟩
  · rintro hv ⟨y, hy, hf⟩ hc
    have hcd : ∀ x ∈ s.dueFlips, x.cancelled = true := by
      intro x hx
      obtain ⟨hm, -, hxf⟩ := State.mem_dueFlips.mp hx
      exact hc x hm hxf
    obtain ⟨d, he⟩ := State.flipsNow_of_cancelled (State.mem_dueFlips.mpr ⟨hy, hv, hf⟩) hcd
    have hfl : { s.flipsNow.flp with fab := [] } = { s.retired d with fab := [] } := congrArg Prod.snd he
    exact ⟨_, hcommit, congrArg Prod.fst he, (congrArg Flp.resync hfl :),
      (congrArg Flp.flips hfl).trans (State.retired_flips d hv), (congrArg Flp.frozen hfl :)⟩
  · exact fun f i hr h1 h2 h3 => State.copySlice_entry i hr h1 h2 h3
  · intro f hr hf
    rw [execResyncEnd_of_some hup hr, if_pos hf]
  · intro hn
    cases hr : s.flp.resync with
    | none =>
      show execResyncEnd s = _
      unfold execResyncEnd
      rw [whenUp_of_up hup, hr]
    | some f => rw [execResyncEnd_of_some hup hr, if_neg (Nat.not_le.mpr (hn f hr))]
  · intro h x hx
    have hxh : x.h = h := by simpa using List.find?_some hx
    refine ⟨?_, ?_, ?_, ?_, ?_⟩
    · intro id w hw hfw hws hrd ha hf hc
      obtain ⟨hfab, hflips⟩ := State.cancelFab_marks (s := s) id 5 hc
      exact ⟨_, (execFabricFlipReadyTimeout_of_found hx hw).trans (congrArg _ (if_pos ⟨hfw, hws, hrd, ha, hf⟩)), hfab, hflips,
        State.cancelFab_hrp _ _ _ _⟩
    · intro id w hw hn
      rw [execFabricFlipReadyTimeout_of_found hx hw, if_neg hn]
    · intro hfw hf
      refine ⟨_, (execFabricFlipResultTimeout_of_found hx).trans (congrArg _ (if_pos ⟨hfw, hf⟩)), ?_, State.finishFab_hrp _ _⟩
      rw [State.finishFab_flp, hxh]
    · intro hfw hf hn
      obtain ⟨u, r, he, hu, hr⟩ := s.finishFab_without_own x hn
      refine ⟨u, r, ?_, hu, hr⟩
      rw [execFabricFlipResultTimeout_of_found hx, if_pos ⟨hfw, hf⟩, he, hxh]
    · intro hf
      rw [execFabricFlipResultTimeout_of_found hx, if_neg (fun h => Nat.not_le.mpr hf h.2)]

end Sys2Proof.Machine

/-!
PROOFS. Sequence-keyed Flips (R225 to R239): the watch that arms one, its firing, its expiry, and the comparison of the outcomes
on the standby.
-/
namespace Sys2Proof.Machine

/-! ### Ending a sequence-keyed Flip (R229, R230) -/

/-- This device's outcome is noted among the fire records and nowhere else (R239). -/
theorem State.ownFire_only (s : State) (h : Nat) (t : Option Nat) :
    ∃ l, s.ownFire h t = { s with flp := { s.flp with fires := l } } := by
  unfold State.ownFire
  split
  · exact ⟨s.flp.fires, rfl⟩
  · exact ⟨_, rfl⟩

/-- The state in which a sequence-keyed Flip that does not fire completes. -/
def State.withoutSeq (s : State) (h : Nat) : State :=
  State.ownFire { s with flp := { s.flp with seqs := s.flp.seqs.filter (fun x => x.h ≠ h) } } h none

theorem State.withoutSeq_only (s : State) (h : Nat) : s.withoutSeq h = { s with flp := (s.withoutSeq h).flp } ∧
    (s.withoutSeq h).flp.seqs = s.flp.seqs.filter (fun x => x.h ≠ h) := by
  unfold State.withoutSeq
  obtain ⟨l, hl⟩ := State.ownFire_only { s with flp := { s.flp with seqs := s.flp.seqs.filter (fun x => x.h ≠ h) } } h none
  rw [hl]
  exact ⟨rfl, rfl⟩

theorem State.withoutSeq_tnNow (s : State) (h : Nat) : (s.withoutSeq h).tnNow = s.tnNow := by
  rw [(s.withoutSeq_only h).1]
  rfl

theorem State.endSeq_late (s : State) (f : SeqFlip) (st reason : Nat) (off : Option Int) :
    s.endSeq f st reason off true = (s.withoutSeq f.h).completeNext f.h st s.tnNow (seqResult off 0 reason f.roll.length) := by
  rw [← s.withoutSeq_tnNow f.h]
  rfl

theorem State.endSeq_now (s : State) (f : SeqFlip) (st reason : Nat) (off : Option Int) :
    s.endSeq f st reason off false = (s.withoutSeq f.h).complete f.h st s.tnNow (seqResult off 0 reason f.roll.length) := by
  rw [← s.withoutSeq_tnNow f.h]
  rfl

theorem seqResult_zero (off : Option Int) (reason n : Nat) :
    seqResult off 0 reason n = offset16 off * 2 ^ 48 + reason * 2 ^ 16 + n % 2 ^ 16 := by
  simp [seqResult]

/-! ### The watch (R227 to R229) -/

/-- A FLIP_SEQ armed by an overhead with OSEQ `x` at Wheel tick 0 = `t0`. -/
def State.armSeq (s : State) (x : BitVec 24) (t0 : Nat) (f : SeqFlip) (off : Option Int) : State :=
  { s with flp := { s.flp with seqs := s.flp.seqs.map (fun (y : SeqFlip) =>
      if y.h = f.h then { y with armed := some (t0 + 64, x + 1), offset := off } else y) } }

theorem State.watchOne_of_early {s : State} {x : BitVec 24} {t0 : Nat} {f : SeqFlip} (h : 2 ^ 23 ≤ (x - (f.s - 1)).toNat) :
    s.watchOne x t0 f = s := if_pos (Or.inr h)

section
variable {s : State} {x : BitVec 24} {t0 : Nat} {f : SeqFlip} (hx : (x - (f.s - 1)).toNat < 2 ^ 23) (ha : f.armed = none)
include hx ha

theorem State.watch_open : ¬(f.armed.isSome = true ∨ (x - (f.s - 1)).toNat ≥ 2 ^ 23) := by
  rintro (h | h)
  · simp [ha] at h
  · exact Nat.not_le.mpr hx h

theorem State.watchOne_alone (hr : f.reference = none) : s.watchOne x t0 f = s.armSeq x t0 f none := by
  unfold State.watchOne
  rw [if_neg (State.watch_open hx ha), hr]
  rfl

/-- With the reference's multiframe of that OSEQ in the same tick, the offset is 0. -/
theorem State.watchOne_aligned {r : Nat} (hr : f.reference = some r) (hg : (s.wheel r).goodAny = true)
    (hl : s.secClock < (s.wheel r).lastGoodT0 + 128)
    (ho : ((s.wheel r).lastGoodT0 : Int) + 64 * (x + 1 - (s.wheel r).oseq).toInt = (t0 : Int) + 64) :
    s.watchOne x t0 f = s.armSeq x t0 f (some 0) := by
  have hoff : ((s.wheel r).lastGoodT0 : Int) + 64 * sdiff24 (x + 1) (s.wheel r).oseq - ((t0 + 64 : Nat) : Int) = 0 := by
    unfold sdiff24
    omega
  unfold State.watchOne
  rw [if_neg (State.watch_open hx ha), hr]
  dsimp only
  rw [if_pos ⟨hg, hl⟩, hoff, if_pos rfl]
  rfl

theorem State.watchOne_misaligned {r : Nat} (hr : f.reference = some r) (hg : (s.wheel r).goodAny = false) :
    s.watchOne x t0 f = s.endSeq f eState 2 none true := by
  unfold State.watchOne
  rw [if_neg (State.watch_open hx ha), hr]
  dsimp only
  rw [if_neg (by simp [hg])]

end

/-! ### Firing (R226, R227, R231, R236) -/

theorem foldl_free_ent (l : List Nat) (p : Page) : (l.foldl (fun (p : Page) x => p.free x) p).ent = p.ent := by
  induction l generalizing p with
  | nil => rfl
  | cons a l ih => rw [List.foldl_cons, ih, Page.free_ent]

/-- One entry of the roll set moves from page `q` to page `p`, with its branch (R236). -/
def rollOne (q p : Page) (x : Nat) : Page :=
  let o := q.eg.look {} x
  let p := { p with ent := Tab.put entryReset p.ent x (q.entry x), eg := Tab.put {} p.eg x o,
                    bad := p.bad.filter (· ≠ x) ++ (if x ∈ q.bad then [x] else []) }
  if o.out = 0 then
    let b := p.br.look {} o.br
    { p with br := Tab.put {} p.br o.br ⟨(q.br.look {} o.br).slot, b.refs + 1⟩ }
  else p

theorem rollOne_ent (q p : Page) (x : Nat) : (rollOne q p x).ent = Tab.put entryReset p.ent x (q.entry x) := by
  unfold rollOne
  dsimp only
  rw [apply_ite Page.ent, ite_self]

theorem foldl_rollOne_ent (q : Page) (l : List Nat) (p : Page) : (l.foldl (rollOne q) p).ent = copyEnts q l p.ent := by
  unfold copyEnts
  induction l generalizing p with
  | nil => rfl
  | cons a l ih => rw [List.foldl_cons, List.foldl_cons, ih, rollOne_ent]

theorem State.fireRoll_eq (s : State) (roll : List Nat) : s.fireRoll roll =
    s.setPage s.activeNo (roll.foldl (rollOne s.standby) (roll.foldl (fun (p : Page) x => p.free x) s.activePage)) := rfl

@[simp] theorem State.fireRoll_flp (s : State) (roll : List Nat) : (s.fireRoll roll).flp = s.flp := State.setPage_flp _ _ _

/-- Firing a roll set moves its entries to the active page, and no others. -/
theorem State.fireRoll_spec (s : State) (roll : List Nat) : (s.fireRoll roll).activeNo = s.activeNo ∧
    (s.fireRoll roll).standby = s.standby ∧
    ∀ i, (s.fireRoll roll).activePage.entry i = if i ∈ roll then s.standby.entry i else s.activePage.entry i := by
  have hle := s.activeNo_le
  have hno : (s.fireRoll roll).activeNo = s.activeNo := State.setPage_activeNo _ _ _
  refine ⟨hno, ?_, fun i => ?_⟩
  · unfold State.standby State.standbyNo
    rw [hno]
    exact State.page_setPage_of_ne _ _ (by omega)
  · unfold State.activePage Page.entry
    rw [hno, State.fireRoll_eq, State.page_setPage_self, foldl_rollOne_ent, foldl_free_ent, copyEnts_look]
    rfl

theorem State.fireDue_eq_some {s : State} {h : Nat} {g : SeqFlip} {t : Nat} {o : BitVec 24} (hd : s.fireDue h = some (g, t, o)) :
    t = s.secClock ∧ g.armed = some (t, o) := by
  unfold State.fireDue at hd
  obtain ⟨f, -, hf⟩ := Option.bind_eq_some_iff.mp hd
  obtain ⟨⟨a, b⟩, ha, hab⟩ := Option.bind_eq_some_iff.mp hf
  split at hab
  · next he =>
    cases hab
    exact ⟨he, ha⟩
  · cases hab

/-- The state in which a FLIP_SEQ that fires completes. -/
def State.fired (s : State) (h : Nat) (roll : List Nat) (t : Nat) (o : BitVec 24) : State :=
  let s := s.fireRoll roll
  let s := { s with flp := { s.flp with seqs := s.flp.seqs.filter (fun x => x.h ≠ h) } }
  ((s.ownFire h (some t)).recEvt 3 h t o.toNat).count 7 0 4 1

theorem State.fireNow_of_due {s : State} {h : Nat} {g : SeqFlip} {t : Nat} {o : BitVec 24} (hd : s.fireDue h = some (g, t, o)) :
    s.fireNow h = (s.fired h g.roll t o).completeNext h 0 t (seqResult g.offset o 0 g.roll.length) := by
  unfold State.fireNow
  rw [hd]
  rfl

theorem State.fired_spec (s : State) (h : Nat) (roll : List Nat) (t : Nat) (o : BitVec 24) :
    (s.fired h roll t o).hrp = (s.fireRoll roll).hrp ∧
    (s.fired h roll t o).flp.seqs = s.flp.seqs.filter (fun x => x.h ≠ h) := by
  unfold State.fired
  dsimp only
  rw [State.count_hrp, State.recEvt_hrp, State.count_flp, State.recEvt_flp]
  obtain ⟨l, hl⟩ := State.ownFire_only { s.fireRoll roll with flp := { (s.fireRoll roll).flp with seqs := (s.fireRoll roll).flp.seqs.filter (fun x => x.h ≠ h) } } h (some t)
  rw [hl]
  exact ⟨rfl, by rw [State.fireRoll_flp]⟩

/-! ### The obligation -/

theorem execFlipSeqFire_of_due {s : State} {h : Nat} (hup : s.up = true) (hd : (s.fireDue h).isSome = true) :
    exec (.flipSeqFire h) s = .next (s.flipsNow.fireNow h) := (whenUp_of_up hup).trans (congrArg _ (if_pos hd))

theorem execFlipSeqFire_of_not_due {s : State} {h : Nat} {f : SeqFlip} (hup : s.up = true)
    (hf : s.flp.seqs.find? (fun f => f.h = h) = some f) (hn : ∀ t o, f.armed = some (t, o) → t ≠ s.secClock) :
    exec (.flipSeqFire h) s = .next s := by
  have hd : s.fireDue h = none := by
    cases hd : s.fireDue h with
    | none => rfl
    | some x =>
      obtain ⟨g, t, o⟩ := x
      obtain ⟨ht, ha⟩ := State.fireDue_eq_some hd
      have hg : f = g := by
        unfold State.fireDue at hd
        rw [hf, Option.bind_some] at hd
        obtain ⟨⟨a, b⟩, -, hab⟩ := Option.bind_eq_some_iff.mp hd
        split at hab
        · cases hab
          rfl
        · cases hab
      exact absurd ht (hn t o (hg ▸ ha))
  exact (whenUp_of_up hup).trans (congrArg _ (if_neg (by simp [hd])))

/-- An expired FLIP_SEQ whose fire tick is still to come, if any, ends with EXPIRED. -/
theorem execFlipSeqExpire_of_expired {s : State} {h : Nat} {f : SeqFlip} (hup : s.up = true)
    (hf : s.flp.seqs.find? (fun f => f.h = h) = some f) (he : f.expiry ≤ s.clk.tick)
    (ha : ∀ t o, f.armed = some (t, o) → s.secClock < t) :
    exec (.flipSeqExpire h) s = .next (s.endSeq f eState 3 f.offset false) := by
  show execFlipSeqExpire h s = _
  unfold execFlipSeqExpire
  rw [whenUp_of_up hup, hf]
  refine congrArg _ (if_pos ⟨he, ?_⟩)
  split
  · next t o hm => simpa using ha t o hm
  · rfl

theorem execFlipSeqExpire_of_early {s : State} {h : Nat} {f : SeqFlip} (hup : s.up = true)
    (hf : s.flp.seqs.find? (fun f => f.h = h) = some f) (he : s.clk.tick < f.expiry) : exec (.flipSeqExpire h) s = .next s := by
  show execFlipSeqExpire h s = _
  unfold execFlipSeqExpire
  rw [whenUp_of_up hup, hf]
  exact congrArg _ (if_neg (fun hc => Nat.not_le.mpr he hc.1))

theorem execFlipSeqDiff_of_both {s : State} {h m : Nat} {r : FireRec} {o : Option Nat} (hup : s.up = true)
    (hr : s.flp.fires.find? (fun r => r.h = h) = some r) (hm : r.mate = some m) (ho : r.own = some o) :
    exec (.flipSeqDiff h) s = .next (
      let s := { s with flp := { s.flp with fires := s.flp.fires.filter (fun x => x.h ≠ h) } }
      if o = some m then s else (s.setSticky Reg.flipStatus 0x20000000).event [0] 0x0033 h (o.getD (2 ^ 64 - 1))) := by
  show execFlipSeqDiff h s = _
  unfold execFlipSeqDiff
  rw [whenUp_of_up hup, hr]
  dsimp only
  rw [hm, ho]

/-- Settles O41: the roll set moves by `State.fireRoll_spec`; a Flip that ends without firing leaves the state of
`State.withoutSeq`. -/
theorem sequenceKeyedFlips : Obligations.SequenceKeyedFlips := by
  unfold Obligations.SequenceKeyedFlips
  refine ⟨fun s x t0 f => ⟨State.watchOne_of_early, ?_, ?_, ?_⟩, fun h f s hup hf => ⟨?_, ?_, ?_, ?_, ?_⟩⟩
  · intro hx ha hr
    rw [State.watchOne_alone hx ha hr, hr]
    rfl
  · intro r hx ha hr hg hl ho
    rw [State.watchOne_aligned hx ha hr hg hl ho, hr]
    rfl
  · intro r hx ha hr hg
    obtain ⟨honly, hseqs⟩ := s.withoutSeq_only f.h
    refine ⟨s.withoutSeq f.h, ?_, honly, hseqs⟩
    rw [State.watchOne_misaligned hx ha hr hg, State.endSeq_late, seqResult_zero]
    rfl
  · intro g t o v hs hd
    obtain ⟨ht, ha⟩ := State.fireDue_eq_some hd
    obtain ⟨hhrp, hseqs⟩ := v.fired_spec h g.roll t o
    obtain ⟨hno, hact, hsby⟩ := State.pages_congr hhrp
    obtain ⟨rno, rsby, rent⟩ := v.fireRoll_spec g.roll
    refine ⟨v.fired h g.roll t o, ?_, ht, ha, hseqs, hno.trans rno, hsby.trans rsby, fun x hx => ?_, fun x hx => ?_⟩
    · rw [execFlipSeqFire_of_due hup hs, State.fireNow_of_due hd]
      simp [seqResult]
    · rw [hact, rent, if_pos hx]
    · rw [hact, rent, if_neg hx]
  · exact execFlipSeqFire_of_not_due hup hf
  · intro he ha
    have hfh : f.h = h := by simpa using List.find?_some hf
    obtain ⟨honly, hseqs⟩ := s.withoutSeq_only h
    refine ⟨s.withoutSeq h, ?_, honly, hseqs⟩
    rw [execFlipSeqExpire_of_expired hup hf he ha, State.endSeq_now, seqResult_zero, hfh]
  · exact execFlipSeqExpire_of_early hup hf
  · intro r m o hr hm ho
    rw [execFlipSeqDiff_of_both hup hr hm ho]
    exact ⟨fun he => congrArg _ (if_pos he), fun hn => congrArg _ (if_neg hn)⟩

end Sys2Proof.Machine

/-!
PROOFS. Protected pairs (R255 to R274): locking, the copy that is taken, the output multiframe, the preferred copy, and the
protection commands.
-/
namespace Sys2Proof.Machine

/-! ### What an operation on one pair leaves -/

theorem State.pair_congr {s t : State} (h : t.col = s.col) (m : Nat) : t.pair m = s.pair m := by
  unfold State.pair
  rw [h]

/-- From `s` to `t` no Wheel, no protection command and no pair but `n` changes. -/
structure State.OnlyPair (n : Nat) (s t : State) : Prop where
  whl : t.whl = s.whl
  acts : t.col.acts = s.col.acts
  others : ∀ m, m ≠ n → t.pair m = s.pair m

theorem State.OnlyPair.of_col {n : Nat} {s t : State} (hw : t.whl = s.whl) (hc : t.col = s.col) : State.OnlyPair n s t :=
  ⟨hw, by rw [hc], fun m _ => State.pair_congr hc m⟩

theorem State.OnlyPair.trans {n : Nat} {s t u : State} (h : State.OnlyPair n s t) (k : State.OnlyPair n t u) : State.OnlyPair n s u :=
  ⟨k.whl.trans h.whl, k.acts.trans h.acts, fun m hm => (k.others m hm).trans (h.others m hm)⟩

theorem State.OnlyPair.setPair (n : Nat) (s : State) (x : Pair) : State.OnlyPair n s (s.setPair n x) :=
  ⟨rfl, rfl, fun _ hm => State.setPair_of_ne _ _ hm⟩

theorem State.OnlyPair.of_set {n : Nat} {s u : State} {x : Pair} (hw : u.whl = s.whl) (hc : u.col = (s.setPair n x).col) :
    State.OnlyPair n s u ∧ u.pair n = x :=
  ⟨(State.OnlyPair.setPair n s x).trans (.of_col hw hc), (State.pair_congr hc n).trans (State.setPair_self _ _ _)⟩

@[simp] theorem State.pairEvent_col (s : State) (n k v : Nat) : (s.pairEvent n k v).col = s.col := State.event_col _ _ _ _ _

@[simp] theorem State.pairEvent_whl (s : State) (n k v : Nat) : (s.pairEvent n k v).whl = s.whl := State.event_whl _ _ _ _ _

/-! ### The copy taken (R265) -/

theorem selectCopy_errorless (a b : Nat) (leadB : Bool) :
    selectCopy 1 a b leadB = if (if leadB then b else a) = 3 then some leadB
      else if (if leadB then a else b) ≥ 2 then some (!leadB)
      else if (if leadB then b else a) = 2 then some leadB else none := by
  unfold selectCopy
  exact if_pos rfl

theorem selectCopy_fast (a b : Nat) (leadB : Bool) :
    selectCopy 2 a b leadB = if (if leadB then b else a) ≥ 2 then some leadB
      else if (if leadB then a else b) ≥ 2 then some (!leadB) else none := by
  unfold selectCopy
  exact if_neg (by decide)

/-! ### Lock (R260, R263) -/

/-- The minimum lag for a differential of `d` (R260). -/
def Pair.minLagOf (p : Pair) (d : Nat) : Nat := if p.mode = 3 then 2 else if p.mode = 1 then max (d + p.g) 72 else d + p.g

/-- The differential of the two copies of a pair as they enter (R258). -/
def State.skew (s : State) (p : Pair) : Int :=
  ((s.wheel p.wb).t0 : Int) - (s.wheel p.wa).t0 + 64 * ((s.wheel p.wa).oref - (s.wheel p.wb).oref).toInt

theorem State.lockNow_of_neither {s : State} {n : Nat} (ha : (s.wheel (s.pair n).wa).align ≠ .inMf)
    (hb : (s.wheel (s.pair n).wb).align ≠ .inMf) : s.lockNow n = s := by
  unfold State.lockNow
  exact if_pos (by simp [ha, hb])

/-- A lock with at least one copy present: what it makes of the pair. -/
theorem State.lockNow_of_present {s : State} {n : Nat} (hp : (s.wheel (s.pair n).wa).align = .inMf ∨ (s.wheel (s.pair n).wb).align = .inMf) :
    let p := s.pair n
    let both := (s.wheel p.wa).align = .inMf ∧ (s.wheel p.wb).align = .inMf
    ∃ q : Pair, s.lockNow n = ((s.setPair n q).recEvt 4 n q.p0 (q.x0 % 2 ^ 24)).recEvt 5 n 0 q.plag ∧ q.locked = true ∧
      q.refB = (if both then decide (s.skew p < 0) else decide ((s.wheel p.wb).align = .inMf)) ∧
      q.minLag = p.minLagOf (if both ∧ p.lag = false then min (s.skew p).natAbs p.diff else p.diff) ∧
      q.realign = p.realign ∧ q.lateA = p.lateA ∧ q.lateB = p.lateB := by
  intro p both
  have hcut : ∀ now, (if p.locked then p else p.cutOut now).realign = p.realign ∧
      (if p.locked then p else p.cutOut now).lateA = p.lateA ∧ (if p.locked then p else p.cutOut now).lateB = p.lateB := by
    intro now
    split <;> exact ⟨rfl, rfl, rfl⟩
  obtain ⟨hr, hla, hlb⟩ := hcut s.secClock
  unfold State.lockNow
  dsimp only
  rw [if_neg (by simpa using fun h => hp.resolve_left h)]
  generalize s.nextMf _ _ = z
  obtain ⟨x0, tx⟩ := z
  dsimp only
  refine ⟨_, rfl, rfl, ?_, ?_, hr, hla, hlb⟩
  · simp only [Bool.and_eq_true, decide_eq_true_eq]
    rfl
  · simp only [Bool.and_eq_true, decide_eq_true_eq]
    rfl

/-- The records of a lock leave the pair as the lock set it. -/
theorem State.pair_of_locked {s t : State} {n : Nat} {q : Pair}
    (h : t = ((s.setPair n q).recEvt 4 n q.p0 (q.x0 % 2 ^ 24)).recEvt 5 n 0 q.plag) : State.OnlyPair n s t ∧ t.pair n = q := by
  subst h
  exact State.OnlyPair.of_set (by simp) (by simp)

theorem State.lockNow_only (s : State) (n : Nat) : State.OnlyPair n s (s.lockNow n) ∧
    ((s.lockNow n).pair n).realign = (s.pair n).realign ∧ ((s.lockNow n).pair n).lateA = (s.pair n).lateA ∧
    ((s.lockNow n).pair n).lateB = (s.pair n).lateB := by
  by_cases hp : (s.wheel (s.pair n).wa).align = .inMf ∨ (s.wheel (s.pair n).wb).align = .inMf
  · obtain ⟨q, he, -, -, -, hr, hla, hlb⟩ := State.lockNow_of_present hp
    obtain ⟨honly, hq⟩ := State.pair_of_locked he
    rw [hq]
    exact ⟨honly, hr, hla, hlb⟩
  · obtain ⟨ha, hb⟩ := not_or.mp hp
    rw [State.lockNow_of_neither ha hb]
    exact ⟨.of_col rfl rfl, rfl, rfl, rfl⟩

/-! ### The output multiframe (R265 to R267, R287) -/

/-- The payload bits of an output multiframe: those of the chunk taken, or ones (R267). -/
def takenPayload (k : Nat) : Option (Bool × Chunk) → List Bool
  | some (_, c) => fillArea (768 * k - 96) (c.c.getD 0) (768 * k - 96) 0 (c.data.map (fun z => z.2))
  | none => List.replicate (768 * k - 96) true

/-- The pair after an output multiframe with overhead `oh` and payload `pay` starts. -/
def Pair.started (p : Pair) (t0 : Nat) (oh : BitVec 96) (pay : List Bool) : Pair :=
  { p with outT0 := t0, out := mfWords p.k oh (64 * p.k) 0 pay, outBip := bip8 pay, prevT0 := p.outT0, prev := p.out }

theorem State.sendMf_eq (s : State) (n x t0 cnt : Nat) (taken : Option (Bool × Chunk)) :
    ∃ oh, s.sendMf n x t0 cnt taken = s.setPair n ((s.pair n).started t0 oh (takenPayload (s.pair n).k taken)) := by
  cases taken <;> exact ⟨_, rfl⟩

theorem State.sendMf_ais (s : State) (n x t0 cnt : Nat) :
    ∃ rdi pt, s.sendMf n x t0 cnt none = s.setPair n ((s.pair n).started t0
      (mkOh true rdi (BitVec.ofNat 24 x) cnt (s.pair n).outBip (s.outTrace (s.pair n) x) pt (s.psigOut (s.pair n) ((s.pair n).takenB.getD false)))
      (List.replicate (768 * (s.pair n).k - 96) true)) := ⟨_, _, rfl⟩

theorem State.noteTaken_spec (s : State) (n : Nat) (t : Option Bool) : State.OnlyPair n s (s.noteTaken n t) ∧
    (s.noteTaken n t).pair n = { s.pair n with takenB := t.or (s.pair n).takenB } := by
  cases t with
  | none => exact ⟨.of_col (State.count_whl _ _ _ _ _) (State.count_col _ _ _ _ _), State.pair_congr (State.count_col _ _ _ _ _) _⟩
  | some b =>
    unfold State.noteTaken
    dsimp only
    constructor
    · exact ((State.OnlyPair.setPair n s _).trans (.of_col (State.count_whl _ _ _ _ _) (State.count_col _ _ _ _ _))).trans
        (.of_col (State.count_whl _ _ _ _ _) (State.count_col _ _ _ _ _))
    · rw [State.pair_congr (State.count_col _ _ _ _ _), State.pair_congr (State.count_col _ _ _ _ _), State.setPair_self]
      rfl

/-- Of a chunk whose groups but the first are not listed, the search for a listed group finds the first or none. -/
theorem find_group_zero {l : List (Nat × Nat)} {x : Nat} (h : ∀ g, g ≠ 0 → (x, g) ∉ l) :
    (List.range 8).find? (fun j => decide ((x, j) ∈ l)) = none ∨ (List.range 8).find? (fun j => decide ((x, j) ∈ l)) = some 0 := by
  cases hj : (List.range 8).find? (fun j => decide ((x, j) ∈ l)) with
  | none => exact Or.inl rfl
  | some j =>
    have hm : (x, j) ∈ l := by simpa using List.find?_some hj
    have h0 : j = 0 := Classical.not_not.mp fun hne => h j hne hm
    exact Or.inr (by rw [h0])

/-- Without a group but the first abandoned, the output multiframe stands (R287). -/
theorem State.spliceMiss_of_none {s : State} {n x t : Nat}
    (h : ∀ g, g ≠ 0 → (x, g) ∉ (s.pair n).missed ∧ (x, g) ∉ (s.pair n).holes) : s.spliceMiss n x t = s := by
  unfold State.spliceMiss
  dsimp only
  rcases find_group_zero (fun g hg => (h g hg).2) with hh | hh <;>
    rcases find_group_zero (fun g hg => (h g hg).1) with hm | hm <;> simp only [hh, hm, if_true]

/-- COLANDER_PLAYOUT in the tick of the next chunk of a locked pair outside selector mode. -/
structure State.PlaysOut (s : State) (n : Nat) : Prop where
  defined : (s.pair n).defined = true
  native : s.pairForeign (s.pair n) = false
  locked : (s.pair n).locked = true
  mode : (s.pair n).mode ≠ 3
  due : (s.pair n).at_ (s.pair n).nextX = s.secClock
  once : ¬((s.pair n).outT0 = s.secClock ∧ (s.pair n).out ≠ [])

theorem State.PlaysOut.playout {s : State} {n : Nat} (h : s.PlaysOut n) :
    s.playout n = if s.drops 2 then s.setPair n ((s.pair n).spent (s.pair n).nextX)
      else
        let y := (s.pair n).nextX
        let c := s.takenAt n y s.secClock
        let s' := s.noteTaken n (c.map Prod.fst)
        let s' := (s'.sendMf n y s.secClock ((s.pair n).outCnt y) c).spliceMiss n y s.secClock
        s'.setPair n ((s'.pair n).spent y) := by
  unfold State.playout
  dsimp only
  rw [if_neg (by simpa [h.defined, h.native] using h.once), if_neg (by simp [h.locked]), if_neg h.mode, if_pos h.due]

/-- The chunk of P(x) is put out: the pair's output multiframe, and the copy that it was taken from. -/
theorem State.PlaysOut.sends {s : State} {n : Nat} (h : s.PlaysOut n) (hd : s.drops 2 = false)
    (hm : ∀ g, g ≠ 0 → ((s.pair n).nextX, g) ∉ (s.pair n).missed ∧ ((s.pair n).nextX, g) ∉ (s.pair n).holes) :
    State.OnlyPair n s (s.playout n) ∧ ∃ oh, let p := s.pair n
      let c := s.takenAt n p.nextX s.secClock
      (s.playout n).pair n =
        (({ p with takenB := (c.map Prod.fst).or p.takenB }).started s.secClock oh (takenPayload p.k c)).spent p.nextX := by
  rw [h.playout, hd, if_neg Bool.false_ne_true]
  dsimp only
  generalize s.takenAt n (s.pair n).nextX s.secClock = c
  obtain ⟨honly, hnote⟩ := s.noteTaken_spec n (c.map Prod.fst)
  generalize s.noteTaken n (c.map Prod.fst) = u at honly hnote
  obtain ⟨oh, hsend⟩ := u.sendMf_eq n (s.pair n).nextX s.secClock ((s.pair n).outCnt (s.pair n).nextX) c
  have hpair : (u.setPair n ((u.pair n).started s.secClock oh (takenPayload (u.pair n).k c))).pair n =
      (u.pair n).started s.secClock oh (takenPayload (u.pair n).k c) := State.setPair_self _ _ _
  rw [hsend, State.spliceMiss_of_none (by rw [hpair, hnote]; exact hm), hpair, State.setPair_self, hnote]
  exact ⟨(honly.trans (.setPair _ _ _)).trans (.setPair _ _ _), oh, rfl⟩

theorem State.playout_of_early {s : State} {n : Nat} (hl : (s.pair n).locked = true) (hm : (s.pair n).mode ≠ 3)
    (hd : (s.pair n).at_ (s.pair n).nextX ≠ s.secClock) : s.playout n = s := by
  unfold State.playout
  dsimp only
  rw [if_neg (by simp [hl] : ¬(s.pair n).locked = false), if_neg hm, if_neg hd, ite_self]

/-- Before lock the output is AIS-W, one multiframe in each of the pair's ticks. -/
theorem State.playout_before_lock {s : State} {n : Nat} (hd : (s.pair n).defined = true) (hf : s.pairForeign (s.pair n) = false)
    (hl : (s.pair n).locked = false) (ht : s.secClock % 64 = n % 64) (h2 : s.drops 2 = false)
    (hn : ¬((s.pair n).outT0 = s.secClock ∧ (s.pair n).out ≠ [])) :
    s.playout n = s.sendMf n (s.secClock / 64) s.secClock 0 none := by
  unfold State.playout
  dsimp only
  rw [if_neg (by simpa [hd, hf] using hn), if_pos hl, if_pos ⟨ht, h2⟩]

/-! ### The preferred copy and WTR (R259, R270, R273, R274) -/

/-- The rows of the table of R273 down to the manual switch. -/
theorem State.prefOf_rows (s : State) (p : Pair) :
    let a := s.wheel p.wa
    let b := s.wheel p.wb
    (p.lockout = true → s.prefOf p = false) ∧ (p.lockout = false → b.sf = true → s.prefOf p = false) ∧
    (p.lockout = false → b.sf = false → p.forced = true → s.prefOf p = true) ∧
    (p.lockout = false → b.sf = false → p.forced = false → a.sf = true → s.prefOf p = true) ∧
    (p.lockout = false → b.sf = false → p.forced = false → a.sf = false → a.sd = true → b.sd = false → s.prefOf p = true) ∧
    (p.lockout = false → b.sf = false → p.forced = false → a.sf = false → a.sd = false → b.sd = true → s.prefOf p = false) ∧
    (∀ m, p.lockout = false → b.sf = false → p.forced = false → a.sf = false → a.sd = b.sd → p.manual = some m → s.prefOf p = m) := by
  unfold State.prefOf
  dsimp only
  generalize s.wheel p.wa = a
  generalize s.wheel p.wb = b
  refine ⟨fun h1 => if_pos h1, fun h1 h2 => ?_, fun h1 h2 h3 => ?_, fun h1 h2 h3 h4 => ?_, fun h1 h2 h3 h4 h5 h6 => ?_,
    fun h1 h2 h3 h4 h5 h6 => ?_, fun m h1 h2 h3 h4 h5 h6 => ?_⟩
  · simp [h1, h2]
  · simp [h1, h2, h3]
  · simp [h1, h2, h3, h4]
  · simp [h1, h2, h3, h4, h5, h6]
  · simp [h1, h2, h3, h4, h5, h6]
  · simp [h1, h2, h3, h4, h5, h6]

/-- Settling a change that has come into force leaves the preferred copy of the next tick (R259). -/
theorem Pair.prefAt_settle (p : Pair) (now : Nat) : (p.settle now).prefAt (now + 1) = p.prefAt (now + 1) := by
  unfold Pair.settle Pair.prefAt
  cases p.prefNew with
  | none => simp
  | some z =>
    obtain ⟨t, b⟩ := z
    dsimp only
    by_cases ht : t ≤ now
    · by_cases hb : b = p.pref <;> simp [ht, hb, Nat.le_succ_of_le ht]
    · simp [ht]

/-- WTR's step touches its end and the mark that SF or SD on copy A made B preferred (R274). -/
theorem State.wtrStep_only (s : State) (p : Pair) : ∃ w a, s.wtrStep p = { p with wtrEnd := w, autoB := a } := by
  unfold State.wtrStep
  dsimp only
  split
  · exact ⟨_, _, rfl⟩
  · split
    · exact ⟨_, _, rfl⟩
    · split
      · exact ⟨_, _, rfl⟩
      · split
        · split <;> exact ⟨_, _, rfl⟩
        · exact ⟨_, _, rfl⟩

theorem State.wtrStep_of_clear {s : State} {p : Pair} (ha : (s.wheel p.wa).sf = false) (hd : (s.wheel p.wa).sd = false)
    (hb : p.autoB = false) : s.wtrStep p = p := by
  simp [State.wtrStep, ha, hd, hb]

/-- The step of the preferred copy from the next tick on gives the one that the requests name (R259). -/
theorem State.prefStep_prefAt (s : State) (p : Pair) : (s.prefStep p (s.clk.tick + 1)).prefAt (s.clk.tick + 1) = s.prefWish p := by
  unfold State.prefStep Pair.prefAt
  by_cases h : s.prefWish p = p.pref <;> simp [h]

/-- The pair that an evaluation starts from: settled, with WTR stepped. -/
def State.stepped (s : State) (n : Nat) : Pair := s.wtrStep ((s.pair n).settle s.clk.tick)

/-- Evaluating a pair on a device that copies its mate: the preferred copy is not the evaluation's (R270). -/
theorem State.evalPair_of_copies {s : State} (n eff : Nat) (hc : s.copies = true) : State.OnlyPair n s (s.evalPair n eff) ∧
    ∃ r o c, (s.evalPair n eff).pair n = { s.stepped n with reqCode := r, ownPref := o, ownChg := c } := by
  have hev : s.evalPair n eff = s.evalMate n := if_pos hc
  have hcol : ∃ r o c, (s.evalMate n).col = (s.setPair n { s.stepped n with reqCode := r, ownPref := o, ownChg := c }).col := by
    unfold State.evalMate
    dsimp only
    rw [apply_ite State.col, State.pairEvent_col, ite_self]
    exact ⟨_, _, _, rfl⟩
  have hwhl : (s.evalMate n).whl = s.whl := by
    unfold State.evalMate
    dsimp only
    rw [apply_ite State.whl, State.pairEvent_whl, ite_self]
    rfl
  obtain ⟨r, o, c, hcol⟩ := hcol
  obtain ⟨honly, hpair⟩ := State.OnlyPair.of_set hwhl hcol
  rw [hev]
  exact ⟨honly, r, o, c, hpair⟩

theorem State.evalPair_of_own {s : State} (n eff : Nat) (hc : s.copies = false) : State.OnlyPair n s (s.evalPair n eff) ∧
    (s.evalPair n eff).pair n = s.prefStep (s.stepped n) eff := by
  apply State.OnlyPair.of_set
  · unfold State.evalPair
    rw [hc, if_neg Bool.false_ne_true]
    dsimp only
    rw [apply_ite State.whl, State.pairEvent_whl, ite_self, apply_ite State.whl, State.pairEvent_whl, State.recEvt_whl, ite_self]
    rfl
  · unfold State.evalPair
    rw [hc, if_neg Bool.false_ne_true]
    dsimp only
    rw [apply_ite State.col, State.pairEvent_col, ite_self, apply_ite State.col, State.pairEvent_col, State.recEvt_col, ite_self]
    rfl

/-- Whatever the role, an evaluation touches this pair alone: its WTR is stepped, the rest is REQ and the preferred copy. -/
theorem State.evalPair_only (s : State) (n eff : Nat) : State.OnlyPair n s (s.evalPair n eff) ∧
    ∃ r o c f g, (s.evalPair n eff).pair n =
      { s.stepped n with reqCode := r, ownPref := o, ownChg := c, pref := f, prefNew := g } := by
  by_cases hc : s.copies = true
  · obtain ⟨honly, r, o, c, hp⟩ := State.evalPair_of_copies n eff hc
    exact ⟨honly, r, o, c, _, _, hp⟩
  · obtain ⟨honly, hp⟩ := State.evalPair_of_own n eff (Bool.eq_false_iff.mpr hc)
    exact ⟨honly, _, _, _, _, _, hp⟩

/-- The operator state and the Wheels of a pair stand in an evaluation. -/
theorem State.evalPair_operator (s : State) (n eff : Nat) :
    ((s.evalPair n eff).pair n).lockout = (s.pair n).lockout ∧ ((s.evalPair n eff).pair n).forced = (s.pair n).forced ∧
    ((s.evalPair n eff).pair n).manual = (s.pair n).manual := by
  obtain ⟨-, r, o, c, f, g, hp⟩ := s.evalPair_only n eff
  obtain ⟨w, a, hw⟩ := s.wtrStep_only ((s.pair n).settle s.clk.tick)
  rw [hp, State.stepped, hw]
  exact ⟨rfl, rfl, rfl⟩

/-! ### Protection commands (R271, R272, R515) -/

theorem State.pairDue_eq_some {s : State} {n : Nat} {a : PairAct} (h : s.pairDue n = some a) : a.pair = n ∧ s.dueAt a.n = true := by
  simpa using List.find?_some h

theorem Pair.command_fields (p : Pair) (c : Nat) :
    (p.command c).lockout = (if c = 0 then true else if c = 4 then false else p.lockout) ∧
    (p.command c).forced = (if c = 1 then true else if c = 4 then false else p.forced) ∧
    (p.command c).manual = (if c = 2 then some false else if c = 3 then some true else if c = 4 then none else p.manual) := by
  match c with
  | 0 | 1 | 2 | 3 | 4 => exact ⟨rfl, rfl, rfl⟩
  | _ + 5 => exact ⟨rfl, rfl, rfl⟩

/-- A protection command but REALIGN takes effect and the pair is evaluated. -/
theorem State.pairNow_of_state {v : State} {n : Nat} {a : PairAct} (h : v.pairDue n = some a) (h5 : a.cmd ≠ 5) :
    ∃ u : State, v.pairNow n = u.complete a.h 0 a.n 0 ∧ u.col.acts = v.col.acts.filter (fun b => b.h ≠ a.h) ∧
      (u.pair n).lockout = ((v.pair n).command a.cmd).lockout ∧ (u.pair n).forced = ((v.pair n).command a.cmd).forced ∧
      (u.pair n).manual = ((v.pair n).command a.cmd).manual := by
  let w : State := { v with col := { v.col with acts := v.col.acts.filter (fun b => b.h ≠ a.h) } }
  let x : State := w.setPair n ((v.pair n).command a.cmd)
  have hx : x.pair n = (v.pair n).command a.cmd := State.setPair_self _ _ _
  obtain ⟨honly, -⟩ := x.evalPair_only n x.clk.tick
  obtain ⟨hlo, hfo, hma⟩ := x.evalPair_operator n x.clk.tick
  rw [hx] at hlo hfo hma
  refine ⟨x.evalPair n x.clk.tick, ?_, honly.acts, hlo, hfo, hma⟩
  unfold State.pairNow
  rw [h]
  exact if_neg h5

/-- REALIGN locks the pair anew and clears its LATE bits (R263, R644). -/
theorem State.realignPair_spec (s : State) (n : Nat) : State.OnlyPair n s (s.realignPair n) ∧
    ((s.realignPair n).pair n).realign = min 65535 ((s.pair n).realign + 1) ∧ ((s.realignPair n).pair n).lateA = false ∧
    ((s.realignPair n).pair n).lateB = false := by
  let x : Pair := { s.pair n with realign := satInc 65535 (s.pair n).realign, lateA := false, lateB := false }
  have hx : (s.setPair n x).pair n = x := State.setPair_self _ _ _
  obtain ⟨honly, hr, hla, hlb⟩ := (s.setPair n x).lockNow_only n
  have hcol : (s.realignPair n).col = ((s.setPair n x).lockNow n).col := by
    unfold State.realignPair
    dsimp only
    rw [State.pairEvent_col, State.recEvt_col]
  have hwhl : (s.realignPair n).whl = ((s.setPair n x).lockNow n).whl := by
    unfold State.realignPair
    dsimp only
    rw [State.pairEvent_whl, State.recEvt_whl]
  rw [State.pair_congr hcol, hr, hla, hlb, hx]
  exact ⟨((State.OnlyPair.setPair n s x).trans honly).trans (.of_col hwhl hcol), satInc_eq_min _ _, rfl, rfl⟩

theorem State.pairNow_of_realign {v : State} {n : Nat} {a : PairAct} (h : v.pairDue n = some a) (h5 : a.cmd = 5) :
    ∃ u : State, v.pairNow n = u.completeNext a.h 0 a.n (u.pair n).plag ∧ u.col.acts = v.col.acts.filter (fun b => b.h ≠ a.h) ∧
      (u.pair n).realign = min 65535 ((v.pair n).realign + 1) ∧ (u.pair n).lateA = false ∧ (u.pair n).lateB = false := by
  let w : State := { v with col := { v.col with acts := v.col.acts.filter (fun b => b.h ≠ a.h) } }
  obtain ⟨honly, hr, hla, hlb⟩ := w.realignPair_spec n
  refine ⟨w.realignPair n, ?_, honly.acts, hr, hla, hlb⟩
  unfold State.pairNow
  rw [h]
  exact if_pos h5

/-! ### The obligation -/

theorem execPairLock_of_ready {s : State} {n : Fin 32768} (hup : s.up = true) (hd : (s.pair n).defined = true)
    (hl : (s.pair n).locked = false)
    (hr : ((s.wheel (s.pair n).wa).align = .inMf ∧ (s.wheel (s.pair n).wb).align = .inMf) ∨
      ((s.pair n).alignWait ≤ s.secClock / 8000 - (s.pair n).defTick / 8000 ∧
        ((s.wheel (s.pair n).wa).align = .inMf ∨ (s.wheel (s.pair n).wb).align = .inMf))) :
    exec (.pairLock n) s = .next ((s.lockNow n).pairEvent n 0 0) :=
  (whenUp_of_up hup).trans (congrArg _ (if_pos ⟨hd, hl, by simpa using hr⟩))

/-- What PAIR_LOCK makes of a pair: the reference copy and the minimum lag of R260. -/
theorem State.lockNow_fields {s : State} {n : Nat}
    (hp : (s.wheel (s.pair n).wa).align = .inMf ∨ (s.wheel (s.pair n).wb).align = .inMf) :
    let p := s.pair n
    let both := (s.wheel p.wa).align = .inMf ∧ (s.wheel p.wb).align = .inMf
    ((s.lockNow n).pair n).locked = true ∧
    ((s.lockNow n).pair n).refB = (if both then decide (s.skew p < 0) else decide ((s.wheel p.wb).align = .inMf)) ∧
    ((s.lockNow n).pair n).minLag = p.minLagOf (if both ∧ p.lag = false then min (s.skew p).natAbs p.diff else p.diff) := by
  obtain ⟨q, he, hl, hb, hm, -⟩ := State.lockNow_of_present hp
  rw [(State.pair_of_locked he).2]
  exact ⟨hl, hb, hm⟩

theorem execSelectorEvaluate_of_due {s : State} {n : Fin 32768} (hup : s.up = true) (hd : (s.pair n).defined = true)
    (ht : s.secClock % 64 = n.val % 64) (h2 : s.drops 2 = false) :
    exec (.selectorEvaluate n) s = .next (s.evalPair n (s.clk.tick + 1)) :=
  (whenUp_of_up hup).trans (congrArg _ (if_pos ⟨hd, ht, h2⟩))

/-- In selector mode the preferred copy of the next tick is that of R273's table. -/
theorem State.evalPair_prefAt {s : State} {n : Nat} (hm : (s.pair n).mode = 3) (hc : s.copies = false) :
    ∃ p : Pair, ((s.evalPair n (s.clk.tick + 1)).pair n).prefAt (s.clk.tick + 1) = s.prefOf p ∧
      p.wa = (s.pair n).wa ∧ p.wb = (s.pair n).wb ∧ p.lockout = (s.pair n).lockout ∧ p.forced = (s.pair n).forced ∧
      p.manual = (s.pair n).manual := by
  obtain ⟨w, a, hw⟩ := s.wtrStep_only ((s.pair n).settle s.clk.tick)
  refine ⟨s.stepped n, ?_, ?_⟩
  · rw [(State.evalPair_of_own n _ hc).2, State.prefStep_prefAt]
    refine if_pos ?_
    rw [State.stepped, hw]
    exact hm
  · rw [State.stepped, hw]
    exact ⟨rfl, rfl, rfl, rfl, rfl⟩

/-- On a device that copies its mate the preferred copy of the next tick stands. -/
theorem State.evalPair_prefAt_of_copies {s : State} (n : Nat) (hc : s.copies = true) :
    ((s.evalPair n (s.clk.tick + 1)).pair n).prefAt (s.clk.tick + 1) = (s.pair n).prefAt (s.clk.tick + 1) := by
  obtain ⟨w, a, hw⟩ := s.wtrStep_only ((s.pair n).settle s.clk.tick)
  obtain ⟨-, r, o, c, hp⟩ := State.evalPair_of_copies n (s.clk.tick + 1) hc
  rw [hp, State.stepped, hw]
  exact (s.pair n).prefAt_settle s.clk.tick

/-- With copy A clear, ending WTR leaves it ended after the evaluation that follows (R274). -/
theorem execPairWtrExpiry_of_run {s : State} {n : Fin 32768} {w : Nat} (hup : s.up = true) (hw : (s.pair n).wtrEnd = some w)
    (ht : w ≤ s.clk.tick) (ha : (s.wheel (s.pair n).wa).sf = false) (hd : (s.wheel (s.pair n).wa).sd = false) :
    ∃ t : State, exec (.pairWtrExpiry n) s = .next t ∧ (t.pair n).wtrEnd = none ∧ (t.pair n).autoB = false ∧
      ∀ m, m ≠ n.val → t.pair m = s.pair m := by
  let x : Pair := { s.pair n with wtrEnd := none, autoB := false }
  have hx : (s.setPair n x).pair n = x := State.setPair_self _ _ _
  obtain ⟨honly, r, o, c, f, g, hp⟩ := (s.setPair n x).evalPair_only n (s.clk.tick + 1)
  have hstep : (s.setPair n x).stepped n = x.settle s.clk.tick := by
    unfold State.stepped
    rw [hx]
    exact State.wtrStep_of_clear ha hd rfl
  rw [hstep] at hp
  refine ⟨(s.setPair n x).evalPair n (s.clk.tick + 1), ?_, by rw [hp]; rfl, by rw [hp]; rfl,
    ((State.OnlyPair.setPair n s x).trans honly).others⟩
  show execPairWtrExpiry n s = _
  unfold execPairWtrExpiry
  dsimp only
  rw [whenUp_of_up hup, hw]
  exact congrArg _ (if_pos ht)

theorem execPairWtrExpiry_of_early {s : State} {n : Fin 32768} (hup : s.up = true)
    (h : ∀ w, (s.pair n).wtrEnd = some w → s.clk.tick < w) : exec (.pairWtrExpiry n) s = .next s := by
  show execPairWtrExpiry n s = _
  unfold execPairWtrExpiry
  dsimp only
  rw [whenUp_of_up hup]
  refine congrArg _ ?_
  split
  · next w hw => exact if_neg (Nat.not_le.mpr (h w hw))
  · rfl

/-- Settles O42: each operation on a pair leaves every other pair (`State.OnlyPair`), and its effect on the pair is said by one
lemma of its own. -/
theorem pairSelection : Obligations.PairSelection := by
  unfold Obligations.PairSelection
  refine ⟨fun a b leadB => ?_, fun n s hup => ?_⟩
  · dsimp only
    rw [selectCopy_errorless, selectCopy_fast]
    generalize (if leadB then b else a) = ld
    generalize (if leadB then a else b) = lg
    refine ⟨fun h => if_pos h, fun h1 h2 => ?_, fun h1 h2 => ?_, fun h1 h2 => ?_, fun h => if_pos h, fun h1 h2 => ?_⟩
    · rw [if_neg h1, if_pos h2]
    · rw [if_neg (by omega), if_neg (by omega), if_pos h1]
    · rw [if_neg (by omega), if_neg (by omega), if_neg (by omega), if_neg (by omega), if_neg (by omega)]
      exact ⟨rfl, rfl⟩
    · rw [if_neg (by omega), if_pos h2]
  intro p a b ready
  refine ⟨?_, ?_, ?_, ?_, ?_, ?_, ?_, ?_, ?_, ?_, ?_, ?_⟩
  · intro hd hl hr
    have hp : a.align = .inMf ∨ b.align = .inMf := hr.elim (fun h => Or.inl h.1) And.right
    obtain ⟨hlock, href, hmin⟩ := State.lockNow_fields hp
    refine ⟨s.lockNow n, execPairLock_of_ready hup hd hl hr, hlock, fun ha hb => ?_, fun hn => ?_, (s.lockNow_only n).1.others⟩
    · rw [if_pos ⟨ha, hb⟩] at href
      simp only [show (s.wheel (s.pair n).wa).align = .inMf from ha, show (s.wheel (s.pair n).wb).align = .inMf from hb,
        and_self, true_and] at hmin
      exact ⟨href, hmin⟩
    · rw [if_neg hn] at href
      rw [if_neg (fun h => hn h.1)] at hmin
      exact ⟨href, hmin⟩
  · intro hn
    exact (whenUp_of_up hup).trans (congrArg _ (if_neg (by simpa [ready] using hn)))
  · intro hd hf hl hm ht ho
    have hplay : s.PlaysOut n := ⟨hd, hf, hl, hm, ht, ho⟩
    have hexec : exec (.colanderPlayout n) s = .next (s.playout n) := whenUp_of_up hup
    refine ⟨fun h2 => ⟨?_, rfl, rfl⟩, fun h2 hg => ?_⟩
    · rw [hexec, hplay.playout, if_pos h2]
    · obtain ⟨honly, oh, hpair⟩ := hplay.sends h2 hg
      refine ⟨s.playout n, hexec, by rw [hpair]; rfl, by rw [hpair]; exact ht.symm, fun z c hc => ?_, fun hc => ?_, honly.whl, honly.others⟩
      · rw [hpair, show s.takenAt n (s.pair n).nextX s.secClock = some (z, c) from ht ▸ hc]
        exact ⟨rfl, oh, rfl⟩
      · rw [hpair, show s.takenAt n (s.pair n).nextX s.secClock = none from ht ▸ hc]
        exact ⟨rfl, oh, rfl⟩
  · intro hd hl hm ht
    exact (whenUp_of_up hup).trans (congrArg _ (State.playout_of_early hl hm ht))
  · intro hd hf hl ht h2 ho
    obtain ⟨rdi, pt, hs⟩ := s.sendMf_ais n (s.secClock / 64) s.secClock 0
    have honly := State.OnlyPair.setPair n s ((s.pair n).started s.secClock
      (mkOh true rdi (BitVec.ofNat 24 (s.secClock / 64)) 0 p.outBip (s.outTrace p (s.secClock / 64)) pt (s.psigOut p (p.takenB.getD false)))
      (List.replicate (768 * p.k - 96) true))
    refine ⟨_, (whenUp_of_up hup).trans (congrArg _ ((State.playout_before_lock hd hf hl ht h2 ho).trans hs)), ?_, honly.whl,
      honly.others, rdi, pt, ?_⟩ <;> rw [State.setPair_self] <;> rfl
  · intro hd ht h2 hc
    obtain ⟨honly, -⟩ := s.evalPair_only n (s.clk.tick + 1)
    exact ⟨_, execSelectorEvaluate_of_due hup hd ht h2, State.evalPair_prefAt_of_copies n hc, honly.whl, honly.others⟩
  · intro hd hm ht h2 hc
    obtain ⟨honly, -⟩ := s.evalPair_only n (s.clk.tick + 1)
    obtain ⟨q, hq, hwa, hwb, hlo, hfo, hma⟩ := State.evalPair_prefAt hm hc
    refine ⟨_, execSelectorEvaluate_of_due hup hd ht h2, ?_⟩
    have hrows := s.prefOf_rows q
    dsimp only at hrows
    rw [hwa, hwb, hlo, hfo, hma] at hrows
    obtain ⟨r1, r2, r3, r4, r5, r6, r7⟩ := hrows
    rw [hq]
    exact ⟨r1, r2, r3, r4, r5, r6, r7, honly.whl, honly.others⟩
  · intro hn
    exact (whenUp_of_up hup).trans (congrArg _ (if_neg hn))
  · exact fun w hw ht ha hd => execPairWtrExpiry_of_run hup hw ht ha hd
  · exact execPairWtrExpiry_of_early hup
  · intro act v hs hv
    have hexec : exec (.pairCmdApply n) s = .next (v.pairNow n) := (whenUp_of_up hup).trans (congrArg _ (if_pos hs))
    obtain ⟨hpair, hdue⟩ := State.pairDue_eq_some hv
    obtain ⟨flo, ffo, fma⟩ := (v.pair n).command_fields act.cmd
    refine ⟨hpair, hdue, fun h5 => ?_, fun h5 => ?_⟩
    · obtain ⟨u, he, hacts, hlo, hfo, hma⟩ := State.pairNow_of_state hv h5
      exact ⟨u, hexec.trans (congrArg _ he), hacts, hlo.trans flo, hfo.trans ffo, hma.trans fma⟩
    · obtain ⟨u, he, hacts, hr, hla, hlb⟩ := State.pairNow_of_realign hv h5
      exact ⟨u, hexec.trans (congrArg _ he), hacts, hr, hla, hlb⟩
  · intro hn
    exact (whenUp_of_up hup).trans (congrArg _ (if_neg (by simp [hn])))

end Sys2Proof.Machine

/-!
PROOFS. The map writes of a tick and the placing of deferred entries (R203, R215 to R219, R235, R503, R504, R676).
-/
namespace Sys2Proof.Machine

/-! ### Which operations keep what -/

abbrev notHrp : Area → Bool := fun a => decide (a ≠ .hrp)

abbrev notFlp : Area → Bool := fun a => decide (a ≠ .flp)

theorem State.hrp_of_blank {s t : State} (h : t.blank notHrp = s.blank notHrp) : t.hrp = s.hrp := State.keeps_of_blank h .hrp rfl

theorem State.flp_of_blank {s t : State} (h : t.blank notFlp = s.blank notFlp) : t.flp = s.flp := State.keeps_of_blank h .flp rfl

theorem State.tnNow_congr {s t : State} (hv : t.clk.tnValid = s.clk.tnValid) (ht : t.clk.tn = s.clk.tn) : t.tnNow = s.tnNow := by
  unfold State.tnNow
  rw [hv, ht]

/-- The active side of the map: the number of the active page and what it holds. -/
def State.activeSide (s : State) : Nat × Page := (s.activeNo, s.activePage)

theorem State.activeSide_congr {s t : State} (h : t.hrp = s.hrp) : t.activeSide = s.activeSide := by
  obtain ⟨hno, hact, -⟩ := State.pages_congr h
  exact Prod.ext hno hact

theorem State.setStandby_activeSide (s : State) (p : Page) : (s.setStandby p).activeSide = s.activeSide :=
  Prod.ext (State.setPage_activeNo _ _ _) (State.setStandby_activePage _ _)

/-- A deferred entry of a slot leaves the list (R676). -/
theorem State.dropDeferred_hrp (s : State) (slot moves : Nat) :
    (s.dropDeferred slot moves).hrp = { s.hrp with deferred := s.hrp.deferred.filter (fun x => x.slot ≠ slot) } := by
  unfold State.dropDeferred
  split
  · next h =>
    have hall : s.hrp.deferred.filter (fun x => x.slot ≠ slot) = s.hrp.deferred := by
      rw [List.filter_eq_self]
      intro d hd
      simpa using List.find?_eq_none.mp h d hd
    rw [hall]
  · rfl

theorem State.dropDeferred_of_nil {s : State} (slot moves : Nat) (h : s.hrp.deferred = []) : s.dropDeferred slot moves = s := by
  unfold State.dropDeferred
  rw [h]
  rfl

/-- The list of deferred entries is no part of the pages. -/
theorem State.pages_of_deferred {s t : State} {l : List Deferred} (h : t.hrp = { s.hrp with deferred := l }) :
    t.standbyNo = s.standbyNo ∧ t.activeSide = s.activeSide ∧ t.standby = s.standby := by
  let u : State := { s with hrp := { s.hrp with deferred := l } }
  obtain ⟨hno, hact, hsby⟩ := State.pages_congr (s := u) h
  exact ⟨congrArg (1 - ·) hno, Prod.ext hno hact, hsby⟩

theorem State.noteHigh_hrp (s : State) (g : Nat) : ∃ l, (s.noteHigh g).hrp = { s.hrp with branchHigh := l } := by
  unfold State.noteHigh
  dsimp only
  split
  · exact ⟨_, rfl⟩
  · split
    · exact ⟨s.hrp.branchHigh, rfl⟩
    · exact ⟨_, State.event_hrp _ _ _ _ _⟩

theorem State.foldl_noteHigh_hrp (l : List Nat) (s : State) :
    ∃ b, (l.foldl State.noteHigh s).hrp = { s.hrp with branchHigh := b } := by
  induction l generalizing s with
  | nil => exact ⟨s.hrp.branchHigh, rfl⟩
  | cons g l ih =>
    obtain ⟨b, hb⟩ := s.noteHigh_hrp g
    obtain ⟨c, hc⟩ := ih (s.noteHigh g)
    exact ⟨c, by rw [List.foldl_cons, hc, hb]⟩

/-- Putting a page on the standby side: that page stands there, and the active side as before. -/
theorem State.putPage_pages (s : State) (p : Page) (gs : List Nat) :
    (s.putPage p gs).activeSide = s.activeSide ∧ (s.putPage p gs).standbyNo = s.standbyNo ∧ (s.putPage p gs).standby = p := by
  obtain ⟨b, hb⟩ := State.foldl_noteHigh_hrp gs (s.setStandby p)
  let u : State := { s.setStandby p with hrp := { (s.setStandby p).hrp with branchHigh := b } }
  obtain ⟨hno, hact, hsby⟩ := State.pages_congr (t := s.putPage p gs) (s := u) hb
  have hside := s.setStandby_activeSide p
  exact ⟨(Prod.ext hno hact).trans hside, congrArg (1 - ·) (hno.trans (congrArg Prod.fst hside)), hsby.trans (s.setStandby_standby p)⟩

theorem State.putPage_flp (s : State) (p : Page) (gs : List Nat) : (s.putPage p gs).flp = s.flp := State.flp_of_blank (by simp)

theorem State.checkRead_of_ok {s : State} {slot : Nat} (h : entryOk (s.standby.entry slot) = true) : s.checkRead slot = s :=
  if_pos (Or.inr h)

theorem State.checkRead_activeSide (s : State) (slot : Nat) : (s.checkRead slot).activeSide = s.activeSide := by
  unfold State.checkRead
  split
  · rfl
  · obtain ⟨-, hno, -, hact, -⟩ := s.entryFails_spec s.standbyNo slot (!s.uncopied slot) (Nat.sub_le _ _)
    exact Prod.ext hno hact

theorem State.dropDeferred_activeSide (s : State) (slot moves : Nat) : (s.dropDeferred slot moves).activeSide = s.activeSide :=
  (State.pages_of_deferred (s.dropDeferred_hrp slot moves)).2.1

theorem State.putNew_activeSide (s : State) (h slot k : Nat) (e : Word) (gs : List Nat) (noMove : Bool) :
    (s.putNew h slot k e gs noMove).s.activeSide = s.activeSide := by
  unfold State.putNew
  dsimp only
  split
  · rfl
  · split
    · split
      · rfl
      · exact (State.putPage_pages _ _ _).1.trans (s.dropDeferred_activeSide _ _)
    · split
      · rfl
      · exact (State.putPage_pages _ _ _).1.trans (s.dropDeferred_activeSide _ _)

theorem State.mapPut_activeSide (s : State) (prin h slot v : Nat) (noMove : Bool) :
    (s.mapPut prin h slot v noMove).s.activeSide = s.activeSide := by
  unfold State.mapPut
  dsimp only
  split
  · rfl
  · split
    · exact (State.putPage_pages _ _ _).1.trans (s.dropDeferred_activeSide _ _)
    · split
      · exact (State.putPage_pages _ _ _).1.trans (s.dropDeferred_activeSide _ _)
      · exact s.putNew_activeSide _ _ _ _ _ _

/-! ### The runs of a tick (R203, R218) -/

/-- Map writes of one tick lead from `v` to `t`: the active side stands and at most 32 write positions are used. -/
structure State.Writes (v t : State) : Prop where
  side : t.activeSide = v.activeSide
  used : t.clk.wrUsed ≤ max 32 v.clk.wrUsed

theorem State.Writes.of_eq {v t : State} (hh : t.hrp = v.hrp) (hu : t.clk.wrUsed = v.clk.wrUsed) : State.Writes v t :=
  ⟨State.activeSide_congr hh, by omega⟩

theorem State.Writes.refl (v : State) : State.Writes v v := .of_eq rfl rfl

theorem State.Writes.trans {v t u : State} (h : State.Writes v t) (k : State.Writes t u) : State.Writes v u :=
  ⟨k.side.trans h.side, by have := h.used; have := k.used; omega⟩

theorem State.noteRun_hrp (t : State) (j : MapJob) (idx slot v : Nat) (queued held : Bool) (st m : Nat) (d : Bool) (cost : Nat) :
    (t.noteRun j idx slot v queued held st m d cost).hrp = t.hrp := State.hrp_of_blank (by simp)

theorem State.noteRun_clk (t : State) (j : MapJob) (idx slot v : Nat) (queued held : Bool) (st m : Nat) (d : Bool) (cost : Nat) :
    (t.noteRun j idx slot v queued held st m d cost).clk = { t.clk with wrUsed := t.clk.wrUsed + cost } := by
  refine (State.clk_of_blank (t := t.noteRun j idx slot v queued held st m d cost)
    (s := { t with clk := { t.clk with wrUsed := t.clk.wrUsed + cost } }) ?_).trans rfl
  unfold State.noteRun
  simp

theorem State.mapPut_clk (s : State) (prin h slot v : Nat) (noMove : Bool) : (s.mapPut prin h slot v noMove).s.clk = s.clk :=
  State.clk_of_blank (by simp)

theorem State.runEntry_writes (s : State) (j : MapJob) (idx slot v : Nat) (queued held : Bool) :
    State.Writes s (s.runEntry j idx slot v queued held) := by
  have hside := ((s.checkRead slot).mapPut_activeSide j.prin j.h slot v j.noMove).trans (s.checkRead_activeSide slot)
  have hclk : ((s.checkRead slot).mapPut j.prin j.h slot v j.noMove).s.clk = s.clk :=
    (State.mapPut_clk _ _ _ _ _ _).trans (State.clk_of_blank (by simp))
  unfold State.runEntry
  dsimp only
  generalize (if ((s.checkRead slot).mapPut j.prin j.h slot v j.noMove).moves ≠ 0 then 8 else 1) = cost
  split
  · exact .of_eq rfl rfl
  · refine ⟨(State.activeSide_congr (State.noteRun_hrp _ _ _ _ _ _ _ _ _ _ _)).trans hside, ?_⟩
    rw [State.noteRun_clk, hclk]
    dsimp only
    omega

theorem State.Writes.held (s : State) (f : MapJob → MapJob) (h n : Nat) : State.Writes s ((s.setJobs f h).count 7 0 1 n) :=
  .of_eq (State.count_hrp _ _ _ _ _) (congrArg Clk.wrUsed (State.count_clk _ _ _ _ _))

theorem State.runNext_writes {s t : State} (h : s.runNext = some t) : State.Writes s t := by
  unfold State.runNext at h
  split at h
  · split at h
    · cases h
      refine State.Writes.trans ?_ (State.runEntry_writes _ _ _ _ _ _ _)
      exact State.Writes.held _ _ _ _
    · cases h
      exact .of_eq rfl rfl
  · split at h
    · cases h
    · split at h
      · cases h
      · cases h
        refine State.Writes.trans ?_ (State.runEntry_writes _ _ _ _ _ _ _)
        exact State.Writes.of_eq rfl rfl

theorem State.runMany_writes (n : Nat) (s : State) : State.Writes s (State.runMany n s) := by
  induction n generalizing s with
  | zero => exact .refl s
  | succ n ih =>
    unfold State.runMany
    split
    · exact .refl s
    · split
      · exact .refl s
      · next t ht =>
        split
        · exact .of_eq rfl rfl
        · exact (State.runNext_writes ht).trans (ih t)

theorem State.joinOne_wrUsed (s : State) (j : MapJob) : (s.joinOne j).clk.wrUsed = s.clk.wrUsed := by
  unfold State.joinOne
  split
  · rfl
  · dsimp only
    rw [State.recd_clk, State.count_clk]
    rfl

theorem State.joinMany_hrp (n : Nat) (s : State) : (State.joinMany n s).hrp = s.hrp := State.hrp_of_blank (by simp)

theorem State.joinMany_wrUsed (n : Nat) (s : State) : (State.joinMany n s).clk.wrUsed = s.clk.wrUsed := by
  induction n generalizing s with
  | zero => rfl
  | succ n ih =>
    unfold State.joinMany
    split
    · rfl
    · split
      · rfl
      · rw [ih, State.joinOne_wrUsed]

theorem State.endJobs_hrp (s : State) : s.endJobs.hrp = s.hrp := State.hrp_of_blank (by simp)

theorem State.endJobs_clk (s : State) : s.endJobs.clk = s.clk := State.clk_of_blank (by simp)

theorem State.mapTick_writes (s : State) : State.Writes s s.mapTick := by
  have hjoin : ∀ (c : Bool) (u : State), State.Writes u (if c then u.joinMany 32 else u) := by
    intro c u
    split
    · exact .of_eq (State.joinMany_hrp _ _) (State.joinMany_wrUsed _ _)
    · exact .refl u
  have hend : ∀ u : State, State.Writes u u.endJobs := fun u => .of_eq u.endJobs_hrp (congrArg Clk.wrUsed u.endJobs_clk)
  unfold State.mapTick
  split
  · exact .refl s
  · refine (State.Writes.trans ?_ (hjoin _ _)).trans (hend _)
    split
    · exact .refl s
    · exact State.runMany_writes 33 s

theorem State.mapNow_writes (s : State) : State.Writes s s.mapNow := by
  unfold State.mapNow
  split
  · exact .refl s
  · exact s.mapTick_writes

/-- In a Flip's window and during resync the writes only join the queue (R215, R217). -/
theorem State.mapNow_closed {s : State} (h : s.windowF.isSome = true ∨ s.resyncing = true) : s.mapNow.hrp = s.hrp := by
  have hc : (s.windowF.isSome || s.resyncing) = true := by simpa using h
  unfold State.mapNow
  split
  · rfl
  · unfold State.mapTick
    split
    · rfl
    · dsimp only
      rw [State.endJobs_hrp, hc, if_pos rfl]
      split
      · exact State.joinMany_hrp _ _
      · rfl

/-! ### One job of one entry (R503, R504) -/

theorem State.setJobs_hold_none (s : State) (h : Nat) : s.setJobs (fun y => y.hold none) h = s := by
  unfold State.setJobs
  simp [MapJob.hold]

/-- A job after the entry at its head was executed from its own list. -/
def MapJob.ran (y : MapJob) (idx : Nat) (held : Bool) (status moves : Nat) (deferred : Bool) : MapJob :=
  { y with
    rest := y.rest.drop 1
    idx := y.idx + 1
    open_ := y.open_ + b2n deferred
    written := y.written + (if status = 0 ∧ held = false then 1 else 0)
    moved := y.moved + moves
    firstRef := if status = 0 ∨ y.firstRef.isSome then y.firstRef else some (idx, status) }

theorem State.noteRun_flp (t : State) (j : MapJob) (idx slot v : Nat) (held : Bool) (st m : Nat) (d : Bool) (cost : Nat) :
    (t.noteRun j idx slot v false held st m d cost).flp.jobs =
        t.flp.jobs.map (fun y => if y.h = j.h then y.ran idx held st m d else y) ∧
      (t.noteRun j idx slot v false held st m d cost).flp.queue = t.flp.queue ∧
      (t.noteRun j idx slot v false held st m d cost).flp.carried = t.flp.carried + (if st = 0 then 1 else 0) := by
  unfold State.noteRun
  dsimp only
  rw [State.recd_flp, State.count_flp, State.count_flp]
  by_cases h : st = 0 <;> simp [h, State.setJobs, State.carry, MapJob.ran, b2n]

theorem State.runNext_of_idle {s : State} (hq : s.flp.queue = []) (hj : ∀ j ∈ s.flp.jobs, j.rest = []) : s.runNext = none := by
  have hfind : s.flp.jobs.find? (fun j => !j.rest.isEmpty) = none := by
    rw [List.find?_eq_none]
    intro j hm
    simp [hj j hm]
  unfold State.runNext
  rw [hq]
  dsimp only
  rw [hfind]

theorem State.runMany_of_idle {s : State} (n : Nat) (h : s.runNext = none) : State.runMany n s = s := by
  cases n with
  | zero => rfl
  | succ n =>
    unfold State.runMany
    rw [h]
    exact ite_self _

/-- A job whose every entry is done completes. -/
theorem State.endJobs_of_one {t : State} {j : MapJob} (hj : t.flp.jobs = [j]) (hr : j.rest = []) (ho : j.open_ = 0) (hh : j.held = 0) :
    t.endJobs = State.complete { t with flp := { t.flp with jobs := [] } } j.h j.status t.tnNow j.result := by
  unfold State.endJobs
  simp only [hj, hr, ho, hh, List.filter_cons, List.isEmpty_nil, decide_true, Bool.and_self, Bool.not_true, if_true,
    Bool.false_eq_true, if_false, List.filter_nil, List.foldl_cons, List.foldl_nil, ne_eq, not_true_eq_false]
  rfl

/-- One job of one entry, in a free tick with nothing held (R503). -/
structure State.LoneWrite (v : State) (j : MapJob) (slot e : Nat) : Prop where
  executes : v.executes = true
  unsealed : v.clk.sealDone = false
  kept : v.drops 3 = false
  window : v.windowF = none
  resync : v.resyncing = false
  queue : v.flp.queue = []
  deferred : v.hrp.deferred = []
  used : v.clk.wrUsed = 0
  joined : v.clk.joinUsed = 0
  going : v.clk.wrStop = false
  readable : entryOk (v.standby.entry slot) = true
  fresh : j = { h := j.h, ring := j.ring, prin := j.prin, noMove := j.noMove, acc := j.acc, rest := [(slot, e)] }
  jobs : v.flp.jobs = [j]
  inTime : v.missed j = none

section
variable {v : State} {j : MapJob} {slot e : Nat} (h : v.LoneWrite j slot e)
include h

theorem State.LoneWrite.fields : j.rest = [(slot, e)] ∧ j.idx = 0 ∧ j.open_ = 0 ∧ j.held = 0 ∧ j.written = 0 ∧ j.firstRef = none ∧
    j.moved = 0 := by
  rw [h.fresh]
  exact ⟨rfl, rfl, rfl, rfl, rfl, rfl, rfl⟩

/-- The write of the entry, where it moves no branch and is not deferred. -/
theorem State.LoneWrite.runNext (hm : (v.mapPut j.prin j.h slot e j.noMove).moves = 0)
    (hd : (v.mapPut j.prin j.h slot e j.noMove).deferred = false) :
    v.runNext = some ((v.mapPut j.prin j.h slot e j.noMove).s.noteRun j 0 slot e false false
      (v.mapPut j.prin j.h slot e j.noMove).status 0 false 1) := by
  obtain ⟨hrest, hidx, -⟩ := h.fields
  have hfind : v.flp.jobs.find? (fun j => !j.rest.isEmpty) = some j := by simp [h.jobs, hrest]
  unfold State.runNext
  rw [h.queue]
  dsimp only
  rw [hfind]
  dsimp only
  rw [hrest]
  dsimp only
  rw [h.inTime, State.setJobs_hold_none, hidx]
  unfold State.runEntry
  dsimp only [MapJob.hold]
  rw [State.checkRead_of_ok h.readable, hm, hd, h.used, h.joined]
  rfl

/-- The tick of the lone write: it is executed and its job completes. -/
theorem State.LoneWrite.mapNow (hm : (v.mapPut j.prin j.h slot e j.noMove).moves = 0)
    (hd : (v.mapPut j.prin j.h slot e j.noMove).deferred = false) (hf : (v.mapPut j.prin j.h slot e j.noMove).s.flp = v.flp) :
    ∃ u : State, ∃ y : MapJob, v.mapNow = u.complete j.h y.status v.tnNow y.result ∧
      y = j.ran 0 false (v.mapPut j.prin j.h slot e j.noMove).status 0 false ∧
      u.hrp = (v.mapPut j.prin j.h slot e j.noMove).s.hrp ∧ u.flp.jobs = [] ∧
      u.flp.carried = v.flp.carried + (if (v.mapPut j.prin j.h slot e j.noMove).status = 0 then 1 else 0) ∧ u.clk.wrUsed = 1 := by
  obtain ⟨hrest, hidx, hopen, hheld, -⟩ := h.fields
  have hnext := h.runNext hm hd
  have hclk0 : (v.mapPut j.prin j.h slot e j.noMove).s.clk = v.clk := State.mapPut_clk _ _ _ _ _ _
  generalize v.mapPut j.prin j.h slot e j.noMove = r at hnext hf hclk0 ⊢
  obtain ⟨hjobs, hqueue, hcar⟩ := r.s.noteRun_flp j 0 slot e false r.status 0 false 1
  have hclk := r.s.noteRun_clk j 0 slot e false false r.status 0 false 1
  have hhrp := r.s.noteRun_hrp j 0 slot e false false r.status 0 false 1
  generalize r.s.noteRun j 0 slot e false false r.status 0 false 1 = t at hnext hjobs hqueue hcar hclk hhrp
  rw [hclk0, h.used] at hclk
  rw [hf, h.jobs] at hjobs
  rw [hf, h.queue] at hqueue
  rw [hf] at hcar
  have hone : t.flp.jobs = [j.ran 0 false r.status 0 false] := by rw [hjobs]; simp
  have hidle : t.runNext = none := by
    refine State.runNext_of_idle hqueue fun y hy => ?_
    rw [hone, List.mem_singleton] at hy
    rw [hy]
    simp [MapJob.ran, hrest]
  have hrun : State.runMany 33 v = t := by
    unfold State.runMany
    rw [hnext]
    dsimp only
    rw [if_neg (by simp [h.going, h.used, h.joined]), if_neg (by simp [hclk, h.going]), State.runMany_of_idle _ hidle]
  have htick : v.mapNow = t.endJobs := by
    unfold State.mapNow State.mapTick
    rw [if_neg (by simp [h.unsealed, h.kept])]
    simp [h.executes, h.window, h.resync, hrun, hqueue]
  have hend := State.endJobs_of_one hone (by simp [MapJob.ran, hrest]) (by simp [MapJob.ran, hopen, b2n]) hheld
  refine ⟨{ t with flp := { t.flp with jobs := [] } }, _, ?_, rfl, hhrp, rfl, hcar, congrArg Clk.wrUsed hclk⟩
  rw [htick, hend, State.tnNow_congr (s := v) (by rw [hclk]) (by rw [hclk])]
  rfl

end

/-! ### What the write of an entry puts on the standby page (R199, R202, R206) -/

theorem State.mapPut_refused {s : State} {prin h slot v : Nat} (noMove : Bool) (hc : s.entryCheck prin slot v ≠ 0) :
    s.mapPut prin h slot v noMove = { s := s, status := s.entryCheck prin slot v } := if_pos hc

/-- An entry without a branch, or with one that stands already, goes to its slot at once. -/
theorem State.mapPut_placed {s : State} {prin h slot v : Nat} (noMove : Bool) (hc : s.entryCheck prin slot v = 0)
    (hd : s.hrp.deferred = [])
    (hb : entryBranch (mkEntry v) slot = none ∨ ∃ k, entryBranch (mkEntry v) slot = some k ∧ (s.standby.br.look {} k).refs ≠ 0) :
    ∃ (q : Page) (gs : List Nat), s.mapPut prin h slot v noMove = { s := s.putPage (q.store slot (mkEntry v) (entryOut (mkEntry v) slot)) gs } ∧
      q.ent = s.standby.ent := by
  unfold State.mapPut
  dsimp only
  rw [if_neg (by simp [hc]), State.dropDeferred_of_nil _ _ hd]
  rcases hb with hn | ⟨k, hk, hr⟩
  · rw [hn]
    exact ⟨_, _, rfl, Page.free_ent _ _⟩
  · rw [hk]
    dsimp only
    rw [if_pos hr]
    exact ⟨_, _, rfl, (Page.free_ent _ _).trans (Page.addRef_ent _ _ _)⟩

theorem Page.store_spec (q : Page) (slot : Nat) (e : Word) (o : EgOut) : (q.store slot e o).entry slot = e ∧
    (∀ i, i ≠ slot → (q.store slot e o).entry i = q.entry i) ∧ (q.store slot e o).eg.look {} slot = o :=
  ⟨Tab.look_put_self _ _ _ _, fun _ hi => Tab.look_put_of_ne _ _ _ _ hi, Tab.look_put_self _ _ _ _⟩

theorem State.LoneWrite.placed {v : State} {j : MapJob} {slot e : Nat} (h : v.LoneWrite j slot e)
    (hc : v.entryCheck j.prin slot e = 0)
    (hb : entryBranch (mkEntry e) slot = none ∨ ∃ k, entryBranch (mkEntry e) slot = some k ∧ (v.standby.br.look {} k).refs ≠ 0) :
    ∃ u : State, v.mapNow = u.complete j.h 0 v.tnNow (2 ^ 46 + 0x3FFFF * 2 ^ 10) ∧ u.standbyNo = v.standbyNo ∧
      u.standby.entry slot = mkEntry e ∧ (∀ i, i ≠ slot → u.standby.entry i = v.standby.entry i) ∧
      u.standby.eg.look {} slot = entryOut (mkEntry e) slot ∧ u.flp.jobs = [] ∧ u.flp.carried = v.flp.carried + 1 ∧
      u.clk.wrUsed = 1 := by
  obtain ⟨-, -, -, hheld, hwr, hfirst, hmoved⟩ := h.fields
  obtain ⟨q, gs, hput, hent⟩ := State.mapPut_placed (h := j.h) j.noMove hc h.deferred hb
  obtain ⟨-, hno, hsby⟩ := v.putPage_pages (q.store slot (mkEntry e) (entryOut (mkEntry e) slot)) gs
  obtain ⟨hself, hothers, heg⟩ := q.store_spec slot (mkEntry e) (entryOut (mkEntry e) slot)
  obtain ⟨u, y, hnow, hy, hhrp, hjobs, hcar, hused⟩ := h.mapNow (by rw [hput]) (by rw [hput]) (by rw [hput]; exact State.putPage_flp _ _ _)
  rw [hput] at hy hhrp hcar
  obtain ⟨hno', -, hsby'⟩ := State.pages_congr hhrp
  refine ⟨u, ?_, (congrArg (1 - ·) hno').trans hno, ?_, fun i hi => ?_, ?_, hjobs, hcar, hused⟩
  · rw [hnow, hy]
    simp [MapJob.status, MapJob.result, MapJob.ran, hheld, hwr, hfirst, hmoved]
  · rw [hsby', hsby, hself]
  · rw [hsby', hsby, hothers i hi, Page.entry, hent]
    rfl
  · rw [hsby', hsby, heg]

theorem State.LoneWrite.refused {v : State} {j : MapJob} {slot e : Nat} (h : v.LoneWrite j slot e)
    (hc : v.entryCheck j.prin slot e ≠ 0) :
    ∃ u : State, v.mapNow = u.complete j.h (v.entryCheck j.prin slot e) v.tnNow 0 ∧ u.hrp = v.hrp ∧ u.flp.jobs = [] ∧
      u.flp.carried = v.flp.carried := by
  obtain ⟨-, -, -, hheld, hwr, hfirst, hmoved⟩ := h.fields
  have hput := State.mapPut_refused (h := j.h) j.noMove hc
  obtain ⟨u, y, hnow, hy, hhrp, hjobs, hcar, -⟩ := h.mapNow (by rw [hput]) (by rw [hput]) (by rw [hput])
  rw [hput] at hy hhrp hcar
  refine ⟨u, ?_, hhrp, hjobs, hcar.trans (by simp [hc])⟩
  rw [hnow, hy]
  simp [MapJob.status, MapJob.result, MapJob.ran, hheld, hwr, hfirst, hmoved, hc]

/-! ### Deferred entries (R203, R235, R676) -/

/-- A deferred entry whose branch exists or has a common free slot is connected, without a move. -/
theorem State.placeDeferred_fits {s : State} {slot k : Nat} (ho : entryOk (s.standby.entry slot) = true)
    (hb : s.standby.branchAt slot = some k)
    (hp : (s.standby.br.look {} k).refs ≠ 0 ∨ ∃ q i, s.standby.place k s.keepBranches = .at_ q i 0) :
    ∃ q : Page, q.ent = s.standby.ent ∧ s.placeDeferred slot =
      some ((s.setStandby { q with eg := Tab.put {} q.eg slot ⟨0, k, 0⟩ }).dropDeferred slot 0, 0) := by
  unfold State.placeDeferred
  dsimp only
  rw [State.checkRead_of_ok ho, hb]
  dsimp only
  by_cases hr : (s.standby.br.look {} k).refs ≠ 0
  · rw [if_pos hr]
    exact ⟨_, Page.addRef_ent _ _ _, rfl⟩
  · obtain ⟨q, i, hq⟩ := hp.resolve_left hr
    rw [if_neg hr, hq]
    exact ⟨_, (Page.addRef_ent _ _ _).trans (Page.place_ent hq), rfl⟩

/-- The state after a deferred entry of `slot` is connected to branch `k` on page `q`. -/
theorem State.connected_spec (s : State) (q : Page) (slot k : Nat) :
    let t := (s.setStandby { q with eg := Tab.put {} q.eg slot ⟨0, k, 0⟩ }).dropDeferred slot 0
    t.standbyNo = s.standbyNo ∧ t.activeSide = s.activeSide ∧ t.standby.ent = q.ent ∧ t.standby.eg.look {} slot = { out := 0, br := k } ∧
      (∀ d ∈ t.hrp.deferred, d.slot ≠ slot) ∧ t.clk = s.clk := by
  intro t
  have hd := State.dropDeferred_hrp (s.setStandby { q with eg := Tab.put {} q.eg slot ⟨0, k, 0⟩ }) slot 0
  obtain ⟨hno, hside, hsby⟩ := State.pages_of_deferred hd
  rw [State.setStandby_standby] at hsby
  have hside' := s.setStandby_activeSide { q with eg := Tab.put {} q.eg slot ⟨0, k, 0⟩ }
  refine ⟨hno.trans (congrArg (1 - Prod.fst ·) hside'), hside.trans hside', by rw [hsby], ?_, ?_,
    State.clk_of_blank (by simp [t])⟩
  · rw [hsby]
    exact Tab.look_put_self ({} : EgOut) q.eg slot ⟨0, k, 0⟩
  · intro d hm
    rw [hd] at hm
    simpa using (List.mem_filter.mp hm).2

/-! ### The obligation -/

theorem execMapWriteExecute_of_executes {s : State} (h : s.executes = true) :
    exec .mapWriteExecute s = .next s.boundary.mapNow := congrArg Host.Outcome.next (if_pos h)

/-- DEFERRED_ENTRY_PLACE, where it is due and finds a place: what stays and what the standby page then holds. -/
theorem execDeferredEntryPlace_of_fits {s : State} {slot : Fin 524288} {k : Nat} (hx : s.executes = true) (hs : s.clk.wrStop = false)
    (hu : s.clk.wrUsed + 8 ≤ 32) (hd : ∃ d ∈ s.hrp.deferred, d.slot = slot.val) (ho : entryOk (s.standby.entry slot) = true)
    (hb : s.standby.branchAt slot = some k)
    (hp : (s.standby.br.look {} k).refs ≠ 0 ∨ ∃ q i, s.standby.place k s.keepBranches = .at_ q i 0) :
    ∃ t, exec (.deferredEntryPlace slot) s = .next t ∧ t.standbyNo = s.standbyNo ∧ t.standby.ent = s.standby.ent ∧
      t.activePage = s.activePage ∧ t.standby.eg.look {} slot = { out := 0, br := k } ∧ (∀ d ∈ t.hrp.deferred, d.slot ≠ slot) ∧
      t.clk.wrUsed = s.clk.wrUsed + 8 := by
  obtain ⟨q, hent, hplace⟩ := State.placeDeferred_fits ho hb hp
  obtain ⟨cno, cside, cent, ceg, cdef, cclk⟩ := s.connected_spec q slot k
  have hdue : (s.executes = true ∨ s.cal.role = .standby) ∧ s.clk.wrStop = false ∧ s.clk.wrUsed + 8 ≤ 32 ∧
      s.hrp.deferred.any (fun d => d.slot = slot.val) = true := ⟨Or.inl hx, hs, hu, by simpa using hd⟩
  generalize (s.setStandby { q with eg := Tab.put {} q.eg slot ⟨0, k, 0⟩ }).dropDeferred slot 0 = c at hplace cno cside cent ceg cdef cclk
  let t : State := { c.count 7 0 2 0 with clk := { c.clk with wrUsed := c.clk.wrUsed + 8 } }
  have hexec : exec (.deferredEntryPlace slot) s = .next t.endJobs := by
    show execDeferredEntryPlace slot s = _
    unfold execDeferredEntryPlace
    rw [if_pos hdue, hplace]
    exact congrArg Host.Outcome.next (if_pos hx)
  have hhrp : t.endJobs.hrp = c.hrp := t.endJobs_hrp
  obtain ⟨tno, tact, tsby⟩ := State.pages_congr hhrp
  refine ⟨_, hexec, (congrArg (1 - ·) tno).trans cno, ?_, tact.trans (congrArg Prod.snd cside), ?_, ?_, ?_⟩
  · rw [tsby, cent, hent]
  · rw [tsby, ceg]
  · rw [hhrp]
    exact cdef
  · rw [t.endJobs_clk]
    exact congrArg (·.wrUsed + 8) cclk

/-- Settles O38: every run of the tick's writes keeps the active side (`State.mapTick_writes`); a lone write is one run and the
end of its job (`State.LoneWrite.mapNow`). -/
theorem mapWritesOfTick : Obligations.MapWritesOfTick := by
  unfold Obligations.MapWritesOfTick
  intro s
  refine ⟨fun hx => ?_, fun hx => ?_, fun slot => ⟨fun hn => ?_, ?_⟩⟩
  · exact congrArg Host.Outcome.next (if_neg (by simp [hx]))
  · intro v
    have hexec : exec .mapWriteExecute s = .next v.mapNow := execMapWriteExecute_of_executes hx
    clear_value v
    refine ⟨?_, fun hdrop => ?_, fun hclosed => ?_, ?_⟩
    · obtain ⟨hside, hused⟩ := v.mapNow_writes
      exact ⟨_, hexec, congrArg Prod.fst hside, congrArg Prod.snd hside, hused⟩
    · exact hexec.trans (congrArg _ (if_pos hdrop))
    · exact ⟨_, hexec, State.mapNow_closed hclosed⟩
    · intro j slot e h1 h2 h3 h4 h5 h6 h7 h8 h9 h10 h11 h12 h13 h14
      have hlone : v.LoneWrite j slot e := ⟨h1, h2, h3, h4, h5, h6, h7, h8, h9, h10, h11, h12, h13, h14⟩
      refine ⟨fun hc hb => ?_, fun hc => ?_⟩
      · obtain ⟨u, hnow, hrest⟩ := hlone.placed hc hb
        exact ⟨u, hexec.trans (congrArg _ hnow), hrest⟩
      · obtain ⟨u, hnow, hrest⟩ := hlone.refused hc
        exact ⟨u, hexec.trans (congrArg _ hnow), hrest⟩
  · refine congrArg Host.Outcome.next (if_neg ?_)
    rintro ⟨hx, hs, hu, hd⟩
    rw [List.any_eq_true] at hd
    obtain ⟨d, hm, hslot⟩ := hd
    rcases hn with h | h | h | h
    · exact h hx
    · omega
    · exact Bool.false_ne_true (hs.symm.trans h)
    · exact h d hm (by simpa using hslot)
  · exact fun hx hs hu hd ho k hb hp => execDeferredEntryPlace_of_fits hx hs hu hd ho hb hp

end Sys2Proof.Machine

/-!
PROOFS. The rung ladder: capability words, its timers, rung switches and falls (R67 to R78).
-/
namespace Sys2Proof.Machine

/-! ### What an operation on the groups and lanes leaves -/

theorem State.group_congr {s t : State} (h : t.sds.group = s.sds.group) (g : Nat) : t.group g = s.group g := by
  unfold State.group
  rw [h]

/-- A field of the lanes named is set: those lanes change by it, the others stand. -/
theorem State.setLanes_lane {f : Lane → Lane} (hf : ∀ x, f (f x) = f x) (l : List Nat) (s : State) (n : Nat) :
    (l.foldl (fun s n => s.setLane n (f (s.lane n))) s).lane n = if n ∈ l then f (s.lane n) else s.lane n := by
  induction l generalizing s with
  | nil => rfl
  | cons a l ih =>
    rw [List.foldl_cons, ih]
    by_cases ha : n = a
    · subst ha
      simp [hf]
    · simp [ha, State.setLane_of_ne]

theorem State.event_group (s : State) (ps : List Nat) (a b c g : Nat) : (s.event ps a b c).group g = s.group g :=
  State.group_congr (congrArg Sds.group (State.event_sds s ps a b c)) g

theorem State.inService_group (s : State) (g : Nat) : (s.inService g).group g = { s.group g with st := .inService, sendAct := 0 } := by
  obtain ⟨u, hu, hg, -⟩ := State.inService_eq s g
  rw [hu, State.event_group, hg]

/-! ### Capability words (R69 to R73) -/

theorem State.tryNegotiate_of_other {s : State} {g : Nat} (h : (s.group g).st ≠ .r0Align) : s.tryNegotiate g = s :=
  if_neg fun hr => h hr.1

/-- The state on which a word acts: the OFFER of the lowest-numbered participating lane is the far end's. -/
def State.capNoted (s : State) (n : Nat) (w : BitVec 64) : State :=
  if (s.partLanes (n / 8)).head? = some n then s.setGroup (n / 8) { s.group (n / 8) with farOffer := bits w 51 48 } else s

theorem State.capNoted_eq (s : State) (n : Nat) (w : BitVec 64) :
    s.capNoted n w = { s with sds := { s.sds with group := (s.capNoted n w).sds.group } } := by
  unfold State.capNoted
  split <;> rfl

theorem State.capNoted_group (s : State) (n : Nat) (w : BitVec 64) (g : Nat) :
    (s.capNoted n w).group g = { s.group g with farOffer := ((s.capNoted n w).group g).farOffer } := by
  unfold State.capNoted
  split
  · by_cases h : g = n / 8
    · subst h
      rw [State.setGroup_self]
    · rw [State.setGroup_of_ne _ _ h]
  · rfl

/-- A word changes nothing that the answer to it depends on. -/
theorem State.capNoted_frame (s : State) (n : Nat) (w : BitVec 64) : (∀ g, (s.capNoted n w).partLanes g = s.partLanes g) ∧
    (∀ m k, (s.capNoted n w).offers m k = s.offers m k) ∧ (∀ m q, (s.capNoted n w).seqFits m q = s.seqFits m q) := by
  have hg := State.capNoted_group s n w
  have he := State.capNoted_eq s n w
  have hlane : ∀ m, (s.capNoted n w).lane m = s.lane m := fun m => by rw [he]; rfl
  have hrec : ∀ m k, (s.capNoted n w).btRec m k = s.btRec m k := fun m k => by rw [he]; rfl
  refine ⟨fun g => ?_, fun m k => ?_, fun m q => ?_⟩
  · unfold State.partLanes State.takesPart
    simp only [hlane]
  · unfold State.offers
    rw [hrec, hg]
  · unfold State.seqFits State.rungOf
    rw [hlane, hg]

/-- What a word does in the state that its OFFER leaves, by its action. -/
def State.onCap (s : State) (g n : Nat) (w : BitVec 64) : State :=
  if capAct w = 1 then s.onPropose g n w else if capAct w = 2 ∨ capAct w = 3 then s.onAnswer g n w else s

theorem exec_capabilityWord {s : State} {n : Fin 256} {w : BitVec 64} (hup : s.up = true) (hc : (s.lane n).cap = some w)
    (hk : capOk w = true) (hst : (s.group (n.val / 8)).st = .negotiate) :
    exec (.capabilityWord n w) s = .next ((s.capNoted n w).onCap (n.val / 8) n w) := by
  have hneg : (s.capNoted n w).tryNegotiate (n.val / 8) = s.capNoted n w :=
    State.tryNegotiate_of_other (by rw [State.capNoted_group]; simp [hst])
  have hx : exec (.capabilityWord n w) s = .next (((s.capNoted n w).tryNegotiate (n.val / 8)).onCap (n.val / 8) n w) :=
    (whenUp_of_up hup).trans (congrArg _ (if_pos ⟨hc, hk⟩))
  rw [hx, hneg]

section
variable {v : State} {g n : Nat} {w : BitVec 64}

theorem State.onCap_propose (ha : capAct w = 1) : v.onCap g n w = v.onPropose g n w := if_pos ha

theorem State.onCap_answer (ha : capAct w = 2 ∨ capAct w = 3) : v.onCap g n w = v.onAnswer g n w :=
  (if_neg (by omega)).trans (if_pos ha)

/-- An acceptable PROPOSE is answered with ACCEPT; a target of 0 is in service at once (R67, R72, R73). -/
theorem State.onPropose_accepts (hst : (v.group g).st = .negotiate) (hq : v.seqFits n (capSeqOf w) = true)
    (ho : (v.partLanes g).all (fun m => v.offers m (capTarget w)) = true) : ∃ q, (v.onPropose g n w).group g =
      if capTarget w = 0 then { v.group g with exch := capExch w, target := 0, ownSeq := some q, ownDone := false, st := .inService, sendAct := 2 }
      else { v.group g with exch := capExch w, target := capTarget w, ownSeq := some q, ownDone := false, sendAct := 2, st := .step,
                            farSeq := some (capSeqOf w), farDone := false } := by
  obtain ⟨q, hann⟩ := State.announce_group (v.setGroup g { v.group g with exch := capExch w }) g (capTarget w) 2
  refine ⟨q, ?_⟩
  unfold State.onPropose
  dsimp only
  rw [if_pos hst, if_neg (by simp [hq, ho])]
  split
  · next h0 => rw [State.setGroup_self, State.inService_group, hann, State.setGroup_self, h0]; rfl
  · rw [State.setGroup_self, hann, State.setGroup_self]; rfl

theorem State.onPropose_refuses (hst : (v.group g).st = .negotiate)
    (ho : (v.partLanes g).all (fun m => v.offers m (capTarget w)) = false) :
    v.onPropose g n w = v.setGroup g { v.group g with sendAct := 3, exch := capExch w } := by
  unfold State.onPropose
  dsimp only
  rw [if_pos hst, if_pos (.inr (by simp [ho]))]

/-- A qualified ACCEPT of the own proposal (R67, R72, R73). -/
theorem State.onAnswer_accept (hx : capExch w = (v.group g).exch) (ha : capAct w = 2) (hst : (v.group g).st = .negotiate)
    (hs : (v.group g).sendAct = 1) (hq : v.seqFits n (capSeqOf w) = true) (ht : capTarget w = (v.group g).target) :
    (v.onAnswer g n w).group g = if capTarget w = 0 then { v.group g with st := .inService, sendAct := 0 }
      else { v.group g with farSeq := some (capSeqOf w), farDone := false, st := .step } := by
  unfold State.onAnswer
  dsimp only
  rw [if_neg (not_not.mpr hx), if_pos ha, if_pos (.inl ⟨hst, hs, ht⟩), if_neg (by simp [hq])]
  by_cases h0 : capTarget w = 0
  · rw [if_pos ⟨hst, ht.symm.trans h0⟩, if_pos h0, State.inService_group]
  · rw [if_neg (fun h => h0 (ht.trans h.2)), if_neg h0, State.setGroup_self, if_pos hst]

theorem State.onAnswer_refuse (hx : capExch w = (v.group g).exch) (ha : capAct w = 3) (hst : (v.group g).st = .negotiate)
    (hs : (v.group g).sendAct = 1) : v.onAnswer g n w =
      (v.setGroup g { v.group g with cleared := (v.group g).cleared ||| BitVec.ofNat 4 (2 ^ (v.group g).target) }).propose g := by
  unfold State.onAnswer
  dsimp only
  rw [if_neg (not_not.mpr hx), if_neg (by omega), if_pos ⟨hst, hs⟩]

theorem State.onAnswer_other (hx : capExch w ≠ (v.group g).exch) : v.onAnswer g n w = v := if_pos hx
end

/-! ### The timers of R0_ALIGN and NEGOTIATE (R67, R71) -/

/-- The participating lanes that are not in frame in both directions are marked NO_PEER. -/
def State.markNoPeer (s : State) (g : Nat) : State :=
  ((s.partLanes g).filter (fun n => !s.bothInFrame n)).foldl (fun s n => s.setLane n { s.lane n with noPeer := true }) s

theorem State.markNoPeer_lane (s : State) (g n : Nat) : (s.markNoPeer g).lane n =
    if n ∈ s.partLanes g ∧ s.bothInFrame n = false then { s.lane n with noPeer := true } else s.lane n := by
  refine (State.setLanes_lane (f := fun x => { x with noPeer := true }) (fun _ => rfl) _ s n).trans ?_
  simp [List.mem_filter]

theorem exec_ladderTAlignExpiry {s : State} {g : Fin 32} (hup : s.up = true) (hst : (s.group g).st = .r0Align)
    (ht : (s.group g).since + s.tAlign g ≤ s.clk.tick) : exec (.ladderTAlignExpiry g) s = .next ((s.markNoPeer g).tryNegotiate g) :=
  (whenUp_of_up hup).trans (congrArg _ (if_pos ⟨hst, ht⟩))

/-- The far end leads, as a participating lane's word says. -/
def State.farLeads (s : State) (g : Nat) : Bool :=
  (s.partLanes g).any (fun n => match (s.lane n).cap with | some w => capLead w | none => false)

/-- NO_LEADER is set when neither end leads. -/
def State.noteLeader (s : State) (g : Nat) : State :=
  if s.grpLead g ∨ s.farLeads g then s else s.setSticky (Reg.grpStatus g) 0x00200000

theorem State.noteLeader_group (s : State) (g j : Nat) : (s.noteLeader g).group j = s.group j := by
  unfold State.noteLeader
  split <;> rfl

theorem State.noteLeader_clk (s : State) (g : Nat) : (s.noteLeader g).clk = s.clk := by
  unfold State.noteLeader
  split <;> rfl

theorem State.noteLeader_sticky (s : State) (g : Nat) : (s.noteLeader g).sticky =
    if s.grpLead g ∨ s.farLeads g then s.sticky else (s.setSticky (Reg.grpStatus g) 0x00200000).sticky := apply_ite _ _ _ _

theorem exec_ladderTNegExpiry {s : State} {g : Fin 32} (hup : s.up = true) (hst : (s.group g).st = .negotiate)
    (ht : (s.group g).since + s.tNeg g ≤ s.clk.tick) : exec (.ladderTNegExpiry g) s = .next ((s.noteLeader g).enterAlign g) :=
  (whenUp_of_up hup).trans (congrArg _ (if_pos ⟨hst, ht⟩))

/-- Settles O28: a word is answered in the state that its OFFER leaves (`State.capNoted_frame`), and each timer marks what it
found before the ladder moves. -/
theorem ladderNegotiates : Obligations.LadderNegotiates := by
  unfold Obligations.LadderNegotiates
  refine ⟨?propose, ?accept, ?refuse, ?other, ?align, ?neg⟩
  case propose =>
    intro n w s hup hc hk ha hst hq
    obtain ⟨hp, ho, hf⟩ := State.capNoted_frame s n w
    have hg := State.capNoted_group s n w (n.val / 8)
    have hst' : ((s.capNoted n w).group (n.val / 8)).st = .negotiate := by rw [hg]; exact hst
    refine ⟨_, (exec_capabilityWord hup hc hk hst).trans (congrArg _ (State.onCap_propose ha)), ?_⟩
    cases hall : (s.partLanes (n.val / 8)).all (fun m => s.offers m (capTarget w)) with
    | true =>
      obtain ⟨q, hx⟩ := State.onPropose_accepts hst' ((hf n _).trans hq) (by simpa only [hp, ho] using hall)
      rw [hx]
      by_cases h0 : capTarget w = 0 <;> simp [h0]
    | false =>
      rw [State.onPropose_refuses hst' (by simpa only [hp, ho] using hall), State.setGroup_self]
      simp [hst']
  case accept =>
    intro n w s hup hc hk ha hx hs hst hq ht
    have hg := State.capNoted_group s n w (n.val / 8)
    have hans := State.onAnswer_accept (v := s.capNoted n w) (g := n.val / 8) (n := n) (w := w) (by rw [hg]; exact hx) ha
      (by rw [hg]; exact hst) (by rw [hg]; exact hs) (((State.capNoted_frame s n w).2.2 n _).trans hq) (by rw [hg]; exact ht)
    refine ⟨_, (exec_capabilityWord hup hc hk hst).trans (congrArg _ (State.onCap_answer (.inl ha))), ?_⟩
    rw [hans, hg]
    by_cases h0 : capTarget w = 0 <;> simp [h0]
  case refuse =>
    intro n w s hup hc hk ha hx hst hs
    have hg := State.capNoted_group s n w (n.val / 8)
    have hans := State.onAnswer_refuse (v := s.capNoted n w) (g := n.val / 8) (n := n) (w := w) (by rw [hg]; exact hx) ha
      (by rw [hg]; exact hst) (by rw [hg]; exact hs)
    refine ⟨_, (exec_capabilityWord hup hc hk hst).trans (congrArg _ ((State.onCap_answer (.inr ha)).trans hans)), ?_, ?_, ?_⟩
    · rw [State.capNoted_eq]; rfl
    · rw [State.setGroup_self, hg]
    · rw [State.capNoted_eq]; rfl
  case other =>
    intro n w s hup hc hk ha hx hst
    have hans := State.onAnswer_other (v := s.capNoted n w) (g := n.val / 8) (n := n) (w := w)
      (by rw [State.capNoted_group]; exact hx)
    refine ⟨_, (exec_capabilityWord hup hc hk hst).trans (congrArg _ ((State.onCap_answer ha).trans hans)), ?_,
      State.capNoted_group s n w⟩
    rw [State.capNoted_eq]
  case align =>
    intro g s hup hst ht
    obtain ⟨hgroup, hsds⟩ := State.setLanes_group ((s.partLanes g).filter (fun n => !s.bothInFrame n))
      (fun s n => { s.lane n with noPeer := true }) s
    exact ⟨_, exec_ladderTAlignExpiry hup hst ht, hsds, hgroup, s.markNoPeer_lane g⟩
  case neg =>
    intro g s hup hst ht
    have hx := State.enterAlign_group (s.noteLeader g) g
    refine ⟨_, exec_ladderTNegExpiry hup hst ht, ?_, ?_, ?_, ?_, fun h hh => ?_, ?_⟩
    · rw [hx, if_pos rfl]
    · rw [hx, if_pos rfl]
    · rw [hx, if_pos rfl]
    · rw [hx, if_pos rfl, State.noteLeader_clk]
    · rw [hx, if_neg hh, State.noteLeader_group]
    · exact (State.enterAlign_sticky _ _).trans (s.noteLeader_sticky g)

end Sys2Proof.Machine

/-!
PROOFS. Rung switches, VERIFY, loss of frame in service and fallback (R67, R73 to R78).
-/
namespace Sys2Proof.Machine

/-! ### STEP_SWITCH (R73, R74) -/

/-- A group once one end has switched to the target rung: the far end's switch moves the receive direction, the own one the
transmit direction. -/
def Group.switch (x : Group) (far : Bool) : Group :=
  if far then { x with rung := x.target, farDone := true } else { x with txRung := x.target, ownDone := true }

/-- One end's direction of a group takes the target rung. -/
def State.takeTarget (s : State) (g : Nat) (far : Bool) : State := s.takeRung g (s.group g).target (!far)

/-- The end whose direction has taken the target rung is marked as done. -/
def State.markDone (s : State) (g : Nat) (far : Bool) : State :=
  s.setGroup g (if far then { s.group g with farDone := true } else { s.group g with ownDone := true })

theorem State.markDone_group (s : State) (g : Nat) (far : Bool) :
    ((s.takeTarget g far).markDone g far).group g = (s.group g).switch far := by
  unfold State.markDone State.takeTarget
  rw [State.setGroup_self, State.takeRung_group, if_pos rfl]
  cases far <;> rfl

theorem State.markDone_clk (s : State) (g : Nat) (far : Bool) : ((s.takeTarget g far).markDone g far).clk = s.clk :=
  State.clk_of_blank (by simp [State.markDone, State.takeTarget])

theorem exec_stepSwitch {s : State} {g : Fin 32} {far : Bool} {q : BitVec 24} (hup : s.up = true) (hst : (s.group g).st = .step)
    (hq : (if far then (s.group g).farSeq else (s.group g).ownSeq) = some q)
    (hd : (if far then (s.group g).farDone else (s.group g).ownDone) = false) (hr : s.seqReached q = true) :
    exec (.stepSwitch g far) s = .next (((s.takeTarget g far).markDone g far).switched g) := by
  refine (whenUp_of_up hup).trans (congrArg _ ?_)
  rw [hq]
  exact if_pos ⟨.inl hst, hd, hr⟩

/-- In STEP the later of the two switches starts VERIFY, and the earlier one changes nothing more. -/
theorem State.switched_step {v : State} {g : Nat} (hst : (v.group g).st = .step) : (v.switched g).group g =
    if (v.group g).ownDone = true ∧ (v.group g).farDone = true then { v.group g with st := .verify, since := v.clk.tick, sendAct := 0 }
    else v.group g := by
  unfold State.switched
  dsimp only
  by_cases h : (v.group g).ownDone = true ∧ (v.group g).farDone = true
  · rw [if_pos ⟨hst, h⟩, if_pos h, State.enterVerify_group, if_pos rfl]
  · rw [if_neg (fun hx => h hx.2), if_neg (by simp [hst]), if_neg h]

/-! ### LADDER_T_VERIFY_EXPIRY (R74, R75, R78) -/

/-- A participating lane passes VERIFY: it met the criteria and its far end reports READY. -/
def State.verifyOk (s : State) (g n : Nat) : Bool :=
  s.verified n (s.group g).since (s.tVerify g) &&
    (match (s.lane n).cap with | some w => capReady w && decide (capAct w ≠ 1) | none => false)

/-- The participating lanes that fail VERIFY. -/
def State.verifyBad (s : State) (g : Nat) : List Nat := (s.partLanes g).filter (fun n => !s.verifyOk g n)

theorem State.verifyOk_of_word {s : State} {g n : Nat} {w : BitVec 64} (hv : s.verified n (s.group g).since (s.tVerify g) = true)
    (hw : (s.lane n).cap = some w) (hr : capReady w = true) (ha : capAct w ≠ 1) : s.verifyOk g n = true := by
  simp [State.verifyOk, hv, hw, hr, ha]

theorem State.mem_verifyBad {s : State} {g n : Nat} (hn : n ∈ s.partLanes g)
    (hv : s.verified n (s.group g).since (s.tVerify g) = false) : n ∈ s.verifyBad g :=
  List.mem_filter.mpr ⟨hn, by simp [State.verifyOk, hv]⟩

section
variable {s : State} {g : Fin 32} (hup : s.up = true) (hst : (s.group g).st = .verify)
  (ht : (s.group g).since + s.tVerify g ≤ s.clk.tick)
include hup hst ht

theorem exec_ladderTVerifyExpiry_passed (hall : ∀ n ∈ s.partLanes g, s.verifyOk g n = true) :
    exec (.ladderTVerifyExpiry g) s = .next (s.inService g) := by
  have hbad : s.verifyBad g = [] := by simpa [State.verifyBad, List.filter_eq_nil_iff] using hall
  exact (whenUp_of_up hup).trans (congrArg _ ((if_pos ⟨hst, ht⟩).trans (if_pos hbad)))

theorem exec_ladderTVerifyExpiry_failed {n : Nat} (hn : n ∈ s.verifyBad g) (hi : s.grpIsolate g = false) :
    exec (.ladderTVerifyExpiry g) s = .next (s.fallback g (s.verifyBad g)) := by
  have hfall : s.laneFailure g (s.verifyBad g) = (s.fallback g (s.verifyBad g), true) := if_pos (by simp [hi])
  refine (whenUp_of_up hup).trans (congrArg _ ((if_pos ⟨hst, ht⟩).trans ((if_neg (List.ne_nil_of_mem hn)).trans ?_)))
  show (if (s.laneFailure g (s.verifyBad g)).2 then (s.laneFailure g (s.verifyBad g)).1 else _) = _
  rw [hfall, if_pos rfl]
end

/-! ### LANE_DROP (R75, R76) -/

theorem exec_laneDrop {s : State} {n : Fin 256} {d : Nat} (hup : s.up = true) (hd : (s.lane n).dropSince = some d)
    (hst : (s.group (n.val / 8)).st = .inService) (hp : s.takesPart n = true) (ht : d + s.dropTime (n.val / 8) ≤ s.clk.tick) :
    exec (.laneDrop n) s = .next (if (s.group (n.val / 8)).rung = 0 then
      (s.enterAlign (n.val / 8)).groupLinkDown (n.val / 8) else (s.laneFailure (n.val / 8) [n.val]).1) := by
  refine (whenUp_of_up hup).trans (congrArg _ ?_)
  rw [hd]
  exact if_pos ⟨hst, hp, ht⟩

theorem State.laneFailure_falls {s : State} {g : Nat} (bad : List Nat) (hi : s.grpIsolate g = false) :
    (s.laneFailure g bad).1 = s.fallback g bad := congrArg Prod.fst (if_pos (by simp [hi]))

/-- Under ISOLATE a lane goes out alone, unless it is the last one. -/
theorem State.laneFailure_isolates {s : State} {g n : Nat} (hi : s.grpIsolate g = true) (hl : (s.partLanes g).length ≠ 1) :
    (s.laneFailure g [n]).1 = s.setLane n { s.lane n with isolated := true } := by
  refine congrArg Prod.fst (if_neg ?_)
  simp [hi, Ne.symm hl]

/-- Settles O29: a switch of one end is `Group.switch`, VERIFY and a loss of frame end in service, in R0_ALIGN or in
`State.fallback`. -/
theorem ladderSwitchesAndFalls : Obligations.LadderSwitchesAndFalls := by
  unfold Obligations.LadderSwitchesAndFalls
  refine ⟨?switch, ?passed, ?failed, ?drop⟩
  case switch =>
    intro g far q s hup hst hq hd hr
    have hg := s.markDone_group g far
    have hclk := s.markDone_clk g far
    have hsw : (((s.takeTarget g far).markDone g far).group g).st = .step := by
      rw [hg]
      cases far <;> exact hst
    refine ⟨_, exec_stepSwitch hup hst hq hd hr, ?_⟩
    rw [State.switched_step hsw, hg, hclk]
    cases far with
    | true => cases ho : (s.group g).ownDone <;> simp [Group.switch, ho, hst]
    | false => cases ho : (s.group g).farDone <;> simp [Group.switch, ho, hst]
  case passed =>
    intro g s hup hst ht hall
    obtain ⟨u, hu, hg, hrest⟩ := State.inService_eq s g
    refine ⟨u, (exec_ladderTVerifyExpiry_passed hup hst ht fun n hn => ?_).trans (congrArg _ hu), ?_, ?_, hrest⟩
    · obtain ⟨hv, w, hw, hr, ha⟩ := hall n hn
      exact State.verifyOk_of_word hv hw hr ha
    · rw [hg]
    · rw [hg]
  case failed =>
    intro g s n hup hst ht hn hv hi
    obtain ⟨h1, h2, h3, h4, -⟩ := State.fallback_group s g (s.verifyBad g)
    exact ⟨_, exec_ladderTVerifyExpiry_failed hup hst ht (State.mem_verifyBad hn hv) hi, h1, h2, h3, h4⟩
  case drop =>
    intro n s d hup hd hst hp ht
    refine ⟨_, exec_laneDrop hup hd hst hp ht, fun h0 => ?_, fun h0 hi => ?_, fun h0 hi hl => ?_⟩
    · rw [if_pos h0, State.group_congr (congrArg Sds.group (State.groupLinkDown_sds _ _)), State.enterAlign_group, if_pos rfl]
    · rw [if_neg h0, State.laneFailure_falls _ hi]
      obtain ⟨h1, h2, -, h4, -⟩ := State.fallback_group s (n.val / 8) [n.val]
      exact ⟨h1, h2, h4⟩
    · rw [if_neg h0, State.laneFailure_isolates hi hl]

end Sys2Proof.Machine

/-!
PROOFS. The directions of a lane, loops, and the end of an eye scan (R81 to R94, R519).
-/
namespace Sys2Proof.Machine

/-! ### LANE_DIRECTION_SETTLED (R81, R83, R84) -/

section
variable {s : State} {n : Fin 256} {d : Nat} (hup : s.up = true) (ht : d ≤ s.clk.tick)
include hup ht

theorem exec_laneDirectionSettled_tx (hd : (s.lane n).txDue = some d) : exec (.laneDirectionSettled n false) s =
    .next ((s.setLane n { s.lane n with tx := (s.lane n).txCmd, txDue := none }).tryAlign (n.val / 8)) := by
  refine (whenUp_of_up hup).trans (congrArg _ ?_)
  rw [if_neg Bool.false_ne_true, hd]
  exact if_pos ht

theorem exec_laneDirectionSettled_rx (hd : (s.lane n).rxDue = some d) :
    exec (.laneDirectionSettled n true) s = .next ((s.settleRx n).tryAlign (n.val / 8)) := by
  refine (whenUp_of_up hup).trans (congrArg _ ?_)
  rw [if_pos rfl, hd]
  exact if_pos ht
end

/-- The receive direction takes its commanded state. -/
def State.commandRx (s : State) (n : Nat) : State :=
  s.setLane n { s.lane n with rx := (s.lane n).rxCmd, rxDue := none, rxReady := decide ((s.lane n).rxCmd = .active) }

/-- The receiver of a direction that leaves ACTIVE holds no frame. -/
def State.dropFrames (s : State) (n : Nat) : State :=
  (s.huntWheels n).setRx n { s.rx n with align := .hunt, good := false, frames := [] }

/-- A receive direction leaves ACTIVE: of the ladder it keeps no word and no running check. -/
def State.leaveRx (s : State) (n : Nat) : State := (s.dropFrames n).setLane n
  { (s.dropFrames n).lane n with dropSince := none, wakeDue := none, cap := none, capLast := none }

section
variable {s : State} {n : Nat}

theorem State.settleRx_active (h : (s.lane n).rxCmd = .active) : s.settleRx n = let v := (s.commandRx n).enterHunt n
    if (v.group (n / 8)).st = .inService then v.startWake n else v := if_pos h

theorem State.settleRx_left (h : (s.lane n).rxCmd ≠ .active) (hw : (s.lane n).rx = .active) :
    s.settleRx n = (((s.commandRx n).leaveRx n).clearDefects n).abortScan n 2 := (if_neg h).trans (if_pos hw)

theorem State.settleRx_idle (h : (s.lane n).rxCmd ≠ .active) (hw : (s.lane n).rx ≠ .active) :
    s.settleRx n = s.commandRx n := (if_neg h).trans (if_neg hw)

theorem State.startWake_rx (m : Nat) : (s.startWake n).rx m = s.rx m := rfl

theorem RxLane.setDefs_align (l : List Nat) (f : Nat → Defect) (x : RxLane) :
    (l.foldl (fun y d => y.setDef d (f d)) x).align = x.align := by
  induction l generalizing x with
  | nil => rfl
  | cons d l ih => exact ih (x.setDef d (f d))

theorem State.clearDefects_align : ((s.clearDefects n).rx n).align = (s.rx n).align := by
  unfold State.clearDefects
  rw [State.setRx_self]
  exact RxLane.setDefs_align _ _ _

theorem State.leaveRx_align : ((s.leaveRx n).rx n).align = .hunt := by
  have hdrop : ((s.dropFrames n).rx n).align = .hunt := by rw [State.dropFrames, State.setRx_self]
  exact hdrop

theorem State.settleRx_hunt (h : (s.lane n).rxCmd = .active ∨ (s.lane n).rx = .active) : ((s.settleRx n).rx n).align = .hunt := by
  by_cases hc : (s.lane n).rxCmd = .active
  · rw [State.settleRx_active hc]
    dsimp only
    split <;> simp only [State.startWake_rx, State.enterHunt_align, if_true]
  · rw [State.settleRx_left hc (h.resolve_left hc), (State.abortScan_lane _ _ _ _).2, State.clearDefects_align, State.leaveRx_align]

/-- What a command of the receive direction sets of its lane. -/
def Lane.rxState (l : Lane) : Pow × Option Nat × Bool := (l.rx, l.rxDue, l.rxReady)

theorem State.startWake_rxState (s : State) : ((s.startWake n).lane n).rxState = (s.lane n).rxState := by
  unfold State.startWake
  extract_lets
  rw [State.setLane_self]
  rfl

theorem State.leaveRx_rxState (s : State) : ((s.leaveRx n).lane n).rxState = (s.lane n).rxState := by
  unfold State.leaveRx
  rw [State.setLane_self]
  rfl

theorem State.clearDefects_lane (s : State) (m : Nat) : (s.clearDefects n).lane m = s.lane m := rfl

theorem State.settleRx_rxState :
    ((s.settleRx n).lane n).rxState = ((s.lane n).rxCmd, none, decide ((s.lane n).rxCmd = .active)) := by
  have hcmd : ((s.commandRx n).lane n).rxState = ((s.lane n).rxCmd, none, decide ((s.lane n).rxCmd = .active)) := by
    rw [State.commandRx, State.setLane_self]
    rfl
  rw [← hcmd]
  by_cases hc : (s.lane n).rxCmd = .active
  · have hunt := State.enterHunt_lane Lane.rxState (fun _ _ => rfl) (s.commandRx n) n n
    rw [State.settleRx_active hc]
    dsimp only
    split
    · rw [State.startWake_rxState, hunt]
    · exact hunt
  · by_cases hw : (s.lane n).rx = .active
    · rw [State.settleRx_left hc hw, (State.abortScan_lane _ _ _ _).1, State.clearDefects_lane, State.leaveRx_rxState]
    · rw [State.settleRx_idle hc hw]
end

/-! ### LANE_WAKE_VERIFY_EXPIRY (R84) -/

theorem exec_laneWakeVerifyExpiry {s : State} {n : Fin 256} {d : Nat} (hup : s.up = true) (hd : (s.lane n).wakeDue = some d)
    (ht : d ≤ s.clk.tick) (hst : (s.group (n.val / 8)).st = .inService) : exec (.laneWakeVerifyExpiry n) s =
      .next (s.setLane n { s.lane n with
        wakeDue := none, isolated := (s.lane n).isolated || !s.verified n (d - s.tVerify (n.val / 8)) (s.tVerify (n.val / 8)) }) := by
  refine (whenUp_of_up hup).trans (congrArg _ ?_)
  rw [hd]
  exact if_pos ⟨ht, hst⟩

/-! ### LANE_LOOP_APPLY and LOOP_GRANT_RELEASE (R46, R86 to R88) -/

/-- The state in which a loop acts: the Flips and pair commands of its tick have. -/
def State.beforeLoops (s : State) : State := s.flipsNow.firesNow.pairsNow

theorem State.beforeLoops_keeps {s : State} {a : Area} (h : a ∉ [Area.hrp, .flp, .col, .cal, .fab, .mgp, .cnt]) :
    s.keeps s.beforeLoops a :=
  State.keeps_of_blank (S := fun a => decide (a ∈ [Area.hrp, .flp, .col, .cal, .fab, .mgp, .cnt]))
    (by simp [State.beforeLoops]) a (decide_eq_false h)

theorem State.beforeLoops_loopDue (s : State) (n : Nat) : s.beforeLoops.loopDue n = s.loopDue n := by
  have hsds : s.beforeLoops.sds = s.sds := State.beforeLoops_keeps (a := .sds) (by decide)
  have hclk : s.beforeLoops.clk = s.clk := State.beforeLoops_keeps (a := .clk) (by decide)
  unfold State.loopDue State.dueAt State.tnNow
  rw [hsds, hclk]

theorem State.beforeLoops_loopOk (s : State) (n m : Nat) : s.beforeLoops.loopOk n m = s.loopOk n m := by
  have hsds : s.beforeLoops.sds = s.sds := State.beforeLoops_keeps (a := .sds) (by decide)
  have hregs : s.beforeLoops.regs = s.regs := State.beforeLoops_keeps (a := .regs) (by decide)
  unfold State.loopOk State.lane State.group State.foreign State.reg
  rw [hsds, hregs]

/-- The loop that an action leaves on its lane. -/
def State.loopAfter (s : State) (n mode : Nat) : Nat := if s.loopOk n mode then mode else 0

/-- The first action of a lane for this tick ends with its loop set, released or refused, and is an action no more. -/
theorem State.loopNow_due {v : State} {n : Nat} {a : LoopAct} (h : v.loopDue n = some a) : ∃ u : State,
    v.loopNow n = u.complete a.h (if a.mode = 0 ∨ v.loopOk n a.mode = true then 0 else eState) a.n 0 ∧
    (u.lane n).loop = v.loopAfter n a.mode ∧ u.sds.loops = v.sds.loops.filter (fun b => b.h ≠ a.h) := by
  let u : State := { v with sds := { v.sds with loops := v.sds.loops.filter (fun b => b.h ≠ a.h) } }
  have hset := fun m b => State.setLoop_lane u n m b
  unfold State.loopNow State.loopAfter
  rw [h]
  by_cases h0 : a.mode = 0
  · refine ⟨u.setLoop n 0 false, ?_, ?_, (hset 0 false).2.2⟩
    · exact (if_pos h0).trans (by rw [if_pos (.inl h0)])
    · rw [(hset 0 false).1, h0, ite_self]
  · by_cases hok : v.loopOk n a.mode = true
    · refine ⟨u.setLoop n a.mode a.maint, ?_, ?_, (hset a.mode a.maint).2.2⟩
      · exact ((if_neg h0).trans (if_pos hok)).trans (by rw [if_pos (.inr hok)])
      · rw [(hset a.mode a.maint).1, if_pos hok]
    · refine ⟨u.setLoop n 0 false, ?_, ?_, (hset 0 false).2.2⟩
      · exact ((if_neg h0).trans (if_neg hok)).trans (by rw [if_neg (by simp [h0, hok])])
      · rw [(hset 0 false).1, if_neg hok]

theorem exec_laneLoopApply {s : State} {n : Fin 256} {a : LoopAct} (hup : s.up = true) (h : s.loopDue n = some a) :
    exec (.laneLoopApply n) s = .next (s.beforeLoops.loopNow n) :=
  (whenUp_of_up hup).trans (congrArg _ (if_pos (by rw [h]; rfl)))

theorem exec_loopGrantRelease {s : State} {n : Fin 256} (hup : s.up = true) (hl : (s.lane n).loop ≠ 0)
    (hm : (s.lane n).loopMaint = true) (hg : s.granted n s.tnNow = false) :
    exec (.loopGrantRelease n) s = .next (s.setLoop n 0 false) :=
  (whenUp_of_up hup).trans (congrArg _ (if_pos ⟨hl, hm, hg⟩))

/-! ### EYE_SCAN_END (R92, R519) -/

theorem exec_eyeScanEnd {s : State} {n : Fin 256} {c : Scan} {b : Nat} (pts : List Nat) (v : BitVec 16) (hup : s.up = true)
    (hc : s.sds.scans.find? (fun c => decide (c.lane = n.val) && c.start.isSome) = some c) (hb : c.start = some b)
    (ht : b + 4096 * (c.dwell + 2) ≤ s.clk.tick) :
    exec (.eyeScanEnd n pts v) s = .next (s.endScan c 0 4096 v.toNat (pts.take 4096)) := by
  refine (whenUp_of_up hup).trans (congrArg _ ?_)
  rw [hc]
  exact if_pos (by rw [hb]; exact ht)

/-- The end of a scan is the completion of its command, with its start as TICK. -/
theorem State.endScan_complete (s : State) {c : Scan} {b : Nat} (hb : c.start = some b) (done vstep : Nat) (pts : List Nat) :
    ∃ u : State, s.endScan c 0 done vstep pts = u.complete c.h 0 (s.tnNow - (s.clk.tick - b)) done ∧
      u.sds = { s.sds with scans := s.sds.scans.filter (fun x => x.h ≠ c.h) } := by
  unfold State.endScan
  rw [hb]
  refine ⟨_, by rw [Nat.zero_mul, Nat.add_zero]; rfl, State.output_sds _ _ _ _ _ _⟩

/-- Settles O30: a settled direction and the group's ladder after it, and each loop or scan as the operation that ends it. -/
theorem laneDirections : Obligations.LaneDirections := by
  unfold Obligations.LaneDirections
  refine ⟨?tx, ?rx, ?wake, ?loop, ?grant, ?scan⟩
  case tx =>
    intro n s d hup hd ht
    refine ⟨_, exec_laneDirectionSettled_tx hup ht hd, ?_, ?_, ?_, ?_⟩
    · rw [State.tryAlign_lane Lane.tx (fun _ _ => rfl) (fun _ _ => rfl), State.setLane_self]
    · rw [State.tryAlign_lane Lane.txDue (fun _ _ => rfl) (fun _ _ => rfl), State.setLane_self]
    · rw [State.tryAlign_lane Lane.rx (fun _ _ => rfl) (fun _ _ => rfl), State.setLane_self]
    · rw [State.tryAlign_lane Lane.txCmd (fun _ _ => rfl) (fun _ _ => rfl), State.setLane_self]
  case rx =>
    intro n s d hup hd ht
    have hview := (State.tryAlign_lane Lane.rxState (fun _ _ => rfl) (fun _ _ => rfl) (s.settleRx n) (n.val / 8) n).trans
      State.settleRx_rxState
    obtain ⟨hrx, hdue, hready⟩ : _ ∧ _ ∧ _ := by simpa only [Lane.rxState, Prod.mk.injEq] using hview
    refine ⟨_, exec_laneDirectionSettled_rx hup ht hd, hrx, hdue, ?_, fun hc => ?_, fun _ hw => ?_⟩
    · rw [hready, decide_eq_true_iff]
    · exact State.tryAlign_hunt _ _ _ (State.settleRx_hunt (.inl hc))
    · exact State.tryAlign_hunt _ _ _ (State.settleRx_hunt (.inr hw))
  case wake =>
    exact fun n s d hup hd ht hst => exec_laneWakeVerifyExpiry hup hd ht hst
  case loop =>
    intro n s a hup ha
    obtain ⟨u, hu, hloop, hacts⟩ := State.loopNow_due (s.beforeLoops_loopDue n |>.trans ha)
    simp only [State.loopAfter, State.beforeLoops_loopOk] at hu hloop
    refine ⟨u, (exec_laneLoopApply hup ha).trans (congrArg _ hu), hloop, fun b hb => ?_⟩
    rw [hacts] at hb
    simpa using (List.mem_filter.mp hb).2
  case grant =>
    intro n s hup hl hm hg
    obtain ⟨h1, h2, -⟩ := State.setLoop_lane s n 0 false
    exact ⟨_, exec_loopGrantRelease hup hl hm hg, h1, h2⟩
  case scan =>
    intro n pts v s c b hup hc hb ht
    obtain ⟨u, hu, hsds⟩ := State.endScan_complete s hb 4096 v.toNat (pts.take 4096)
    exact ⟨u, (exec_eyeScanEnd pts v hup hc hb ht).trans (congrArg _ hu), by rw [hsds], by rw [hsds]⟩

end Sys2Proof.Machine

/-!
PROOFS. Frame alignment of a receiver: HUNT, IN_FRAME and out of frame (R113 to R120).
-/
namespace Sys2Proof.Machine

/-! ### What the steps of a frame leave of a receiver's place -/

/-- Where a receiver stands: its alignment, the position it expects, and the bad headers in a row there. -/
def RxLane.place (x : RxLane) : Align × Nat × Nat := (x.align, x.pos, x.bad)

theorem RxLane.place_eq {x : RxLane} {a : Align} {p b : Nat} (h : x.place = (a, p, b)) : x.align = a ∧ x.pos = p ∧ x.bad = b := by
  simpa only [RxLane.place, Prod.mk.injEq] using h

section
variable (s : State) (n : Nat) (f : RxFrame)

theorem State.setRx_place (x : RxLane) : ((s.setRx n x).rx n).place = x.place := congrArg RxLane.place (State.setRx_self s n x)

theorem State.rx_of_frm {s t : State} (h : t.frm = s.frm) (m : Nat) : t.rx m = s.rx m := by
  unfold State.rx
  rw [h]

theorem State.count_rx (a b c d m : Nat) : (s.count a b c d).rx m = s.rx m := State.rx_of_frm (State.count_frm ..) m

theorem State.takeCap_rx (good : Bool) : (s.takeCap n good f).rx n = s.rx n := by
  unfold State.takeCap
  dsimp only
  split
  · split <;> rfl
  · rfl

theorem State.takeOverhead_place (good : Bool) : ((s.takeOverhead n good f).rx n).place = (s.rx n).place := by
  unfold State.takeOverhead
  dsimp only
  split
  · split
    · rw [State.count_rx, State.setRx_place]; rfl
    · rw [State.count_rx]
  · rw [State.count_rx, State.setRx_place]; rfl
  · rfl

theorem State.holdCells_place (good : Bool) : ((s.holdCells n good f).rx n).place = (s.rx n).place := State.setRx_place ..

theorem State.goodHeader_place : ((s.goodHeader n f).rx n).place = (s.rx n).place := by
  unfold State.goodHeader
  dsimp only
  rw [State.setRx_place]
  split <;> rfl

/-- The errors that a frame at the expected position counts. -/
def State.countErrors : State :=
  let nrz := decide (s.rungOf n < 2)
  let be := match (s.rx n).bip with | some b => popCount (b ^^^ f.bip) | none => 0
  ((((s.count 0 n 0 (if nrz then 0 else f.corr)).count 0 n 1 (if nrz then 0 else popCount f.uncorr)).count 0 n 2
    (b2n !hcrcFits f.hdr)).count 0 n 3 be).count 0 n 6 (if nrz then f.sync.countP (fun b => !b) else 0)

theorem State.countErrors_rx : (s.countErrors n f).rx n = s.rx n := by
  unfold State.countErrors
  simp only [State.count_rx]

/-- The BIP-16 of the next frame is known. -/
def State.noteBip : State := s.setRx n { s.rx n with bip := some (frameBip f.ovh f.cells) }

theorem State.noteBip_place : ((s.noteBip n f).rx n).place = (s.rx n).place := State.setRx_place ..

theorem State.countFrame_frm : (s.countFrame n f).frm = ((s.countErrors n f).noteBip n f).frm := by
  unfold State.countFrame
  extract_lets
  split <;> rfl

theorem State.countFrame_place : ((s.countFrame n f).rx n).place = (s.rx n).place := by
  rw [State.rx_of_frm (State.countFrame_frm s n f)]
  rw [State.noteBip_place, State.countErrors_rx]

theorem State.toInFrame_place (p : Nat) : ((s.toInFrame n p).rx n).place = (.inFrame, p, 0) := by
  unfold State.toInFrame
  extract_lets x v w
  have hw : w.rx n = v.rx n := by
    show State.rx (if x.align = .hunt then v.huntWheels n else v) n = _
    split <;> rfl
  exact (congrArg RxLane.place hw).trans (State.setRx_place s n _)

theorem State.undoAccept_place (a : Accept) : ((s.undoAccept n a).rx n).place = (a.align, a.pos, a.bad) := State.setRx_place ..

theorem State.setSticky_rx (a : Nat) (m : Word) (k : Nat) : (s.setSticky a m).rx k = s.rx k := rfl

/-- The position of a header becomes the receiver's. -/
def State.takePlace : State :=
  ((if (s.rx n).align = .oof then s.setSticky (Reg.frmStatus n) 0x00100000 else s).goodHeader n f).toInFrame n f.pos

/-- What the receiver left stays known, and the BIP-16 of the next frame is. -/
def State.noteAccept (a : Accept) : State := s.setRx n { s.rx n with bip := some (frameBip f.ovh f.cells), acc := some a }

theorem State.noteAccept_place (a : Accept) : ((s.noteAccept n f a).rx n).place = (s.rx n).place := State.setRx_place ..

theorem State.acceptAt_eq : s.acceptAt n f = ((((s.takePlace n f).noteAccept n f ⟨s.clk.tick, (s.rx n).align, (s.rx n).pos,
    (s.rx n).bad, bit (s.stick (Reg.frmStatus n)) 20⟩).takeCap n true f).takeOverhead n true f).holdCells n true f := rfl

/-- The receiver that takes a position is in frame there (R118). -/
theorem State.acceptAt_place : ((s.acceptAt n f).rx n).place = (.inFrame, f.pos, 0) := by
  rw [State.acceptAt_eq, State.holdCells_place, State.takeOverhead_place, State.takeCap_rx, State.noteAccept_place]
  exact State.toInFrame_place _ _ _
end

/-! ### A frame at the expected position (R107, R118) -/

/-- What a frame at the expected position counts and holds before it moves the alignment. -/
def State.takeExpected (s : State) (n : Nat) (f : RxFrame) : State :=
  let good := s.passes n f
  let v := (if good ∧ (s.rx n).align = .oof then s.setRx n { s.rx n with bip := none } else s).countFrame n f
  ((v.takeCap n good f).takeOverhead n good f).holdCells n good f

/-- A header that passes at the expected position ends a run of bad ones. -/
def State.keepFrame (v : State) (n : Nat) (f : RxFrame) : State :=
  if (v.rx n).align = .oof then (v.goodHeader n f).toInFrame n (v.rx n).pos else v.goodHeader n f

/-- The arrival of a good header enters its lane's mean. -/
def State.noteArrival (v : State) (n : Nat) (f : RxFrame) : State :=
  if !v.foreign (n / 8) && !v.nearLoop n then
    v.setRx n { v.rx n with offSum := (v.rx n).offSum + f.arr, offCnt := (v.rx n).offCnt + 1 }
  else v

/-- The bad headers in a row once one more at the expected position has failed. -/
def RxLane.badNext (x : RxLane) : Nat := if x.align = .oof then x.bad + 1 else 1

theorem RxLane.badNext_congr {x y : RxLane} (h : x.place = y.place) : x.badNext = y.badNext :=
  congrArg (fun p : Align × Nat × Nat => if p.1 = .oof then p.2.2 + 1 else 1) h

/-- A header that fails at the expected position. -/
def State.missFrame (v : State) (n : Nat) : State :=
  if (v.rx n).badNext ≥ 8 then (v.enterHunt n).count 0 n 4 1
  else v.setRx n { v.rx n with align := .oof, bad := (v.rx n).badNext }

section
variable (s : State) (n : Nat) (f : RxFrame)

theorem State.atExpected_eq : s.atExpected n f = let v := s.takeExpected n f
    if s.passes n f then (v.keepFrame n f).noteArrival n f else v.missFrame n := rfl

theorem State.takeExpected_place : ((s.takeExpected n f).rx n).place = (s.rx n).place := by
  unfold State.takeExpected
  extract_lets good v
  rw [State.holdCells_place, State.takeOverhead_place, State.takeCap_rx, State.countFrame_place]
  split
  · exact State.setRx_place _ _ _
  · rfl

theorem State.noteArrival_place : ((s.noteArrival n f).rx n).place = (s.rx n).place := by
  unfold State.noteArrival
  split
  · exact State.setRx_place _ _ _
  · rfl

theorem State.keepFrame_place (ha : (s.rx n).align ≠ .hunt) :
    ((s.keepFrame n f).rx n).align = .inFrame ∧ ((s.keepFrame n f).rx n).pos = (s.rx n).pos := by
  unfold State.keepFrame
  cases hv : (s.rx n).align with
  | hunt => exact absurd hv ha
  | inFrame =>
    obtain ⟨h1, h2, -⟩ := RxLane.place_eq (s.goodHeader_place n f)
    rw [if_neg (by decide)]
    exact ⟨h1.trans hv, h2⟩
  | oof =>
    obtain ⟨h1, h2, -⟩ := RxLane.place_eq ((s.goodHeader n f).toInFrame_place n (s.rx n).pos)
    rw [if_pos rfl]
    exact ⟨h1, h2⟩

theorem State.missFrame_place : (8 ≤ (s.rx n).badNext → ((s.missFrame n).rx n).align = .hunt) ∧
    ((s.rx n).badNext < 8 → ((s.missFrame n).rx n).align = .oof ∧ ((s.missFrame n).rx n).bad = (s.rx n).badNext) := by
  unfold State.missFrame
  refine ⟨fun h => ?_, fun h => ?_⟩
  · rw [if_pos h, State.count_rx, State.enterHunt_align, if_pos rfl]
  · rw [if_neg (by omega), State.setRx_self]
    exact ⟨rfl, rfl⟩

variable {s n f}

theorem State.atExpected_passed (hp : s.passes n f = true) (ha : (s.rx n).align ≠ .hunt) :
    ((s.atExpected n f).rx n).align = .inFrame ∧ ((s.atExpected n f).rx n).pos = (s.rx n).pos := by
  obtain ⟨halign, hpos, -⟩ := RxLane.place_eq (s.takeExpected_place n f)
  obtain ⟨h1, h2⟩ := (s.takeExpected n f).keepFrame_place n f (fun h => ha (halign.symm.trans h))
  obtain ⟨h3, h4, -⟩ := RxLane.place_eq (((s.takeExpected n f).keepFrame n f).noteArrival_place n f)
  rw [State.atExpected_eq, if_pos hp]
  exact ⟨h3.trans h1, h4.trans (h2.trans hpos)⟩

theorem State.atExpected_failed (hp : s.passes n f = false) : (8 ≤ (s.rx n).badNext → ((s.atExpected n f).rx n).align = .hunt) ∧
    ((s.rx n).badNext < 8 → ((s.atExpected n f).rx n).align = .oof ∧ ((s.atExpected n f).rx n).bad = (s.rx n).badNext) := by
  have hbad : ((s.takeExpected n f).rx n).badNext = (s.rx n).badNext := RxLane.badNext_congr (s.takeExpected_place n f)
  rw [State.atExpected_eq, if_neg (by simp [hp]), ← hbad]
  exact (s.takeExpected n f).missFrame_place n
end

/-! ### The frame that is examined (R113, R114) -/

/-- Sync headers move block lock alone. -/
theorem RxLane.syncs_frame (l : List Bool) (x : RxLane) : ∃ b r w,
    l.foldl RxLane.sync x = { x with blockLock := b, syncRun := r, syncWin := w } := by
  induction l generalizing x with
  | nil => exact ⟨_, _, _, rfl⟩
  | cons a l ih =>
    obtain ⟨b, r, w, h1⟩ : ∃ b r w, x.sync a = { x with blockLock := b, syncRun := r, syncWin := w } := by
      unfold RxLane.sync
      dsimp only
      repeat' split
      all_goals exact ⟨_, _, _, rfl⟩
    obtain ⟨b', r', w', h2⟩ := ih (x.sync a)
    exact ⟨b', r', w', by rw [List.foldl_cons, h2, h1]⟩

/-- The receiver of a lane once the sync headers of a frame have come, which only NRZ rungs have. -/
def State.synced (s : State) (n : Nat) (f : RxFrame) : RxLane :=
  let nrz := decide (s.rungOf n < 2)
  if nrz then f.sync.foldl RxLane.sync (s.rx n) else s.rx n

theorem State.synced_nrz {s : State} {n : Nat} (f : RxFrame) (h : s.rungOf n < 2) :
    s.synced n f = f.sync.foldl RxLane.sync (s.rx n) := if_pos (decide_eq_true h)

theorem State.synced_frame (s : State) (n : Nat) (f : RxFrame) : ∃ b r w,
    s.synced n f = { s.rx n with blockLock := b, syncRun := r, syncWin := w } := by
  unfold State.synced
  dsimp only
  split
  · exact RxLane.syncs_frame _ _
  · exact ⟨_, _, _, rfl⟩

/-- The receiver of a lane once a frame has been received, before its header is examined. -/
def State.received (s : State) (n : Nat) (f : RxFrame) : RxLane :=
  { s.synced n f with decoded := true, lastRx := some ⟨f.hdr, f.ovh, f.cells, f.bip⟩ }

theorem State.received_frame (s : State) (n : Nat) (f : RxFrame) : ∃ b r w d l,
    s.received n f = { s.rx n with blockLock := b, syncRun := r, syncWin := w, decoded := d, lastRx := l } := by
  obtain ⟨b, r, w, h⟩ := s.synced_frame n f
  exact ⟨b, r, w, _, _, by rw [State.received, h]⟩

/-- The state in which a header moves the alignment: the frame is received and what its header shows is noted. -/
def State.examining (s : State) (n : Nat) (f : RxFrame) : State := (s.setRx n (s.received n f)).noteHeader n f

theorem State.noteHeader_eq (s : State) (n : Nat) (f : RxFrame) :
    s.noteHeader n f = { s with sticky := (s.noteHeader n f).sticky } := by
  unfold State.noteHeader
  dsimp only
  split <;> split <;> rfl

theorem State.examining_eq (s : State) (n : Nat) (f : RxFrame) : s.examining n f =
    { s with frm := (s.setRx n (s.received n f)).frm, sticky := (s.examining n f).sticky } :=
  State.noteHeader_eq _ _ _

theorem State.examining_rx (s : State) (n : Nat) (f : RxFrame) : (s.examining n f).rx n = s.received n f := by
  rw [State.examining_eq]
  exact State.setRx_self s n _

theorem State.examining_place (s : State) (n : Nat) (f : RxFrame) : ((s.examining n f).rx n).place = (s.rx n).place := by
  obtain ⟨b, r, w, d, l, h⟩ := s.received_frame n f
  rw [State.examining_rx, h]
  rfl

/-- The verdict on a header does not look at the receiver or at the sticky bits. -/
theorem State.examining_passes (s : State) (n : Nat) (f : RxFrame) : (s.examining n f).passes n f = s.passes n f := by
  rw [State.examining_eq]
  rfl

theorem State.examining_confirmed (s : State) (n : Nat) (f : RxFrame) : (s.examining n f).confirmed n f = s.confirmed n f := by
  obtain ⟨b, r, w, d, l, h⟩ := s.received_frame n f
  unfold State.confirmed
  rw [State.examining_passes, State.examining_rx, h]

theorem State.examining_fastFits (s : State) (n : Nat) (f : RxFrame) : (s.examining n f).fastFits n f = s.fastFits n f := by
  obtain ⟨b, r, w, d, l, h⟩ := s.received_frame n f
  unfold State.fastFits
  rw [State.examining_passes, State.examining_rx, h]

/-! ### What the header does (R116 to R118, R120) -/

theorem State.setSticky_stick_self (s : State) (a : Nat) (m : Word) : (s.setSticky a m).stick a = s.stick a ||| m :=
  Tab.look_put_self _ _ _ _

/-- A sticky bit stands when others are set. -/
theorem State.setSticky_keeps {s : State} {a i : Nat} (b : Nat) (m : Word) (h : (s.stick a).getLsbD i = true) :
    ((s.setSticky b m).stick a).getLsbD i = true := by
  by_cases hab : a = b
  · subst hab
    rw [State.setSticky_stick_self, BitVec.getLsbD_or, h, Bool.true_or]
  · rw [show (s.setSticky b m).stick a = s.stick a from Tab.look_put_of_ne _ _ _ _ hab]
    exact h

section
variable (s : State) (n : Nat) (f : RxFrame)

theorem State.noteCand_place : ((s.noteCand n f).rx n).place = (s.rx n).place := State.setRx_place ..

theorem State.noteCand_cand : ((s.noteCand n f).rx n).cands.look none f.pos =
    if s.passes n f then some (hdrLaneId f.hdr, hdrSeq f.hdr + BitVec.ofNat 24 (frameTicks (s.rungOf n))) else none := by
  unfold State.noteCand
  rw [State.setRx_self]
  exact Tab.look_put_self _ _ _ _

variable {s n f}

/-- A second position that the same method accepts within a frame length undoes the acceptance and sets AMBIG. -/
theorem State.atOff_ambiguous {a : Accept} (hacc : (s.rx n).acc = some a) (ht : s.clk.tick < a.tick + frameTicks (s.rungOf n))
    (h : a.align = .oof ∧ f.pos ≠ a.pos ∧ s.fastFits n f = true ∨ a.align = .hunt ∧ s.confirmed n f = true) :
    ((s.atOff n f).rx n).place = (a.align, a.pos, a.bad) ∧ ((s.atOff n f).stick (Reg.frmStatus n)).getLsbD 19 = true := by
  have hoff : ∃ v : State, s.atOff n f = (v.undoAccept n a).setSticky (Reg.frmStatus n) 0x00080000 := by
    have hopen : s.atOff n f = s.afterAccept n a f := by
      unfold State.atOff
      rw [hacc]
      exact if_pos ht
    rw [hopen]
    rcases h with ⟨ha, hp, hf⟩ | ⟨ha, hc⟩
    · exact ⟨s, (if_pos ha).trans ((if_neg hp).trans (if_pos hf))⟩
    · exact ⟨s.noteCand n f, (if_neg (by simp [ha])).trans (if_pos hc)⟩
  obtain ⟨v, hv⟩ := hoff
  rw [hv, State.setSticky_rx, State.undoAccept_place, State.setSticky_stick_self, BitVec.getLsbD_or]
  exact ⟨rfl, by simp⟩
end

/-! ### The end of a frame's work -/

/-- After its header, a frame moves the defects, the ladder, the fabric link and the skew of Wheels. -/
def State.frameDone (s : State) (n : Nat) : State :=
  (((s.noteDefects n).tryNegotiate (n / 8)).linkCheck (n / 8)).noteSkew n

theorem RxLane.setDef_three (x : RxLane) (a b c : Defect) :
    ∃ d, ((x.setDef 1 a).setDef 2 b).setDef 3 c = { x with defects := d } := ⟨_, rfl⟩

theorem State.noteDefects_rx (s : State) (n : Nat) : ∃ d, (s.noteDefects n).rx n = { s.rx n with defects := d } := by
  unfold State.noteDefects
  extract_lets
  rw [State.setRx_self]
  exact RxLane.setDef_three _ _ _ _

theorem State.frameDone_frm (s : State) (n : Nat) : (s.frameDone n).frm = (s.noteDefects n).frm :=
  State.keeps_of_blank (S := fun a => decide (a ≠ .frm)) (by simp [State.frameDone]) .frm rfl

theorem State.frameDone_rx (s : State) (n : Nat) : ∃ d, (s.frameDone n).rx n = { s.rx n with defects := d } := by
  rw [State.rx_of_frm (s.frameDone_frm n)]
  exact s.noteDefects_rx n

theorem State.frameDone_keeps {s : State} (n : Nat) {a i : Nat} (h : (s.stick a).getLsbD i = true) :
    ((s.frameDone n).stick a).getLsbD i = true := by
  have hend : (s.frameDone n).sticky = ((s.noteDefects n).tryNegotiate (n / 8)).sticky :=
    State.keeps_of_blank (S := fun a => decide (a ≠ .sticky)) (by simp [State.frameDone]) .sticky rfl
  rw [State.stick_congr hend]
  unfold State.tryNegotiate
  dsimp only
  split
  · split
    · exact State.setSticky_keeps _ _ h
    · have hneg : ((s.noteDefects n).enterNegotiate (n / 8)).sticky = s.sticky :=
        State.keeps_of_blank (S := fun a => decide (a ≠ .sticky)) (by simp) .sticky rfl
      rw [State.stick_congr hneg]
      exact h
  · exact h

/-! ### FRAME_RECEIVED -/

theorem exec_frameReceived_hidden {s : State} {n : Fin 256} (f : RxFrame) (h : (s.lane n).rx ≠ .active ∨ s.nearLoop n = true) :
    exec (.frameReceived n f) s = .next s := by
  show whenUp s _ = _
  rw [if_neg (by rintro ⟨h1, -, h3⟩; simp [h1, h3] at h)]
  exact congrArg Host.Outcome.next (ite_self _)

theorem exec_frameReceived {s : State} {n : Fin 256} (f : RxFrame) (hup : s.up = true) (ha : (s.lane n).rx = .active)
    (hr : (s.lane n).rxReady = true) (hl : s.nearLoop n = false) :
    exec (.frameReceived n f) s = .next ((s.takeFrame n f).noteSkew n) :=
  (whenUp_of_up hup).trans (congrArg _ (if_pos ⟨ha, hr, hl⟩))

/-- The state after the header of a received frame has moved the alignment. -/
def State.examined (s : State) (n : Nat) (f : RxFrame) : State := (s.setRx n (s.received n f)).examine n f

/-- The state after the header of a received frame has been examined or passed over. -/
def State.headed (s : State) (n : Nat) (f : RxFrame) : State :=
  let nrz := decide (s.rungOf n < 2)
  let v := s.setRx n (s.received n f)
  if nrz && (s.rx n).blockLock && !(s.synced n f).blockLock then
    (if (s.synced n f).align = .hunt then v else v.enterHunt n)
  else if nrz && !(s.rx n).blockLock then v
  else if positions (s.rungOf n) ≤ f.pos then v
  else s.examined n f

theorem State.takeFrame_eq (s : State) (n : Nat) (f : RxFrame) :
    (s.takeFrame n f).noteSkew n = (s.headed n (s.readLine n f)).frameDone n := rfl

/-- The row of R118 for a header that meets an alignment. -/
def State.moveAlign (v : State) (n : Nat) (f : RxFrame) : Align → State
  | .hunt => v.inHunt n f
  | .inFrame => if f.pos = (v.rx n).pos then v.atExpected n f else v.atOff n f
  | .oof => if f.pos = (v.rx n).pos then v.atExpected n f else v.atOther n f

section
variable {s : State} {n : Nat} {f : RxFrame}

theorem State.headed_lost (hr : s.rungOf n < 2) (hw : (s.rx n).blockLock = true) (hl : (s.synced n f).blockLock = false) :
    ((s.headed n f).rx n).align = .hunt := by
  unfold State.headed
  dsimp only
  rw [if_pos (by simp [hr, hw, hl])]
  split
  · next h => rw [State.setRx_self]; exact h
  · rw [State.enterHunt_align, if_pos rfl]

theorem State.headed_unlocked (hr : s.rungOf n < 2) (hw : (s.rx n).blockLock = false) :
    s.headed n f = s.setRx n (s.received n f) := by
  unfold State.headed
  dsimp only
  rw [if_neg (by simp [hw]), if_pos (by simp [hr, hw])]

theorem State.headed_examines (h : 2 ≤ s.rungOf n ∨ (s.rx n).blockLock = true ∧ (s.synced n f).blockLock = true)
    (hp : f.pos < positions (s.rungOf n)) : s.headed n f = s.examined n f := by
  unfold State.headed
  dsimp only
  rcases h with h | ⟨hw, hl⟩
  · rw [if_neg (by simp [Nat.not_lt.mpr h]), if_neg (by simp [Nat.not_lt.mpr h]), if_neg (by omega)]
  · rw [if_neg (by simp [hl]), if_neg (by simp [hw]), if_neg (by omega)]

/-! ### The header that is examined, by the alignment it meets (R118) -/

theorem State.examined_eq : s.examined n f = (s.examining n f).moveAlign n f (s.rx n).align := by
  obtain ⟨ha, -, -⟩ := RxLane.place_eq (s.examining_place n f)
  rw [← ha]
  rfl

theorem State.examined_hunt (h : (s.rx n).align = .hunt) : s.examined n f = (s.examining n f).inHunt n f := by
  rw [State.examined_eq, h]
  rfl

theorem State.examined_expected (h : (s.rx n).align ≠ .hunt) (hp : f.pos = (s.rx n).pos) :
    s.examined n f = (s.examining n f).atExpected n f := by
  obtain ⟨-, hpos, -⟩ := RxLane.place_eq (s.examining_place n f)
  rw [State.examined_eq]
  cases hs : (s.rx n).align with
  | hunt => exact absurd hs h
  | inFrame => exact if_pos (hp.trans hpos.symm)
  | oof => exact if_pos (hp.trans hpos.symm)

theorem State.examined_elsewhere (hp : f.pos ≠ (s.rx n).pos) :
    ((s.rx n).align = .oof → s.examined n f = (s.examining n f).atOther n f) ∧
    ((s.rx n).align = .inFrame → s.examined n f = (s.examining n f).atOff n f) := by
  obtain ⟨-, hpos, -⟩ := RxLane.place_eq (s.examining_place n f)
  have hne : f.pos ≠ ((s.examining n f).rx n).pos := fun h => hp (h.trans hpos)
  rw [State.examined_eq]
  refine ⟨fun h => ?_, fun h => ?_⟩
  · rw [h]
    exact if_neg hne
  · rw [h]
    exact if_neg hne

theorem State.examined_unconfirmed (h : (s.rx n).align = .hunt) (hc : s.confirmed n f = false) :
    ((s.examined n f).rx n).align = .hunt ∧ ((s.examined n f).rx n).cands.look none f.pos =
      if s.passes n f then some (hdrLaneId f.hdr, hdrSeq f.hdr + BitVec.ofNat 24 (frameTicks (s.rungOf n))) else none := by
  have hnote : s.examined n f = (s.examining n f).noteCand n f :=
    (State.examined_hunt h).trans (if_neg (by simp [State.examining_confirmed, hc]))
  have hrung : (s.examining n f).rungOf n = s.rungOf n := by rw [State.examining_eq]; rfl
  obtain ⟨ha, -, -⟩ := RxLane.place_eq (((s.examining n f).noteCand_place n f).trans (s.examining_place n f))
  rw [hnote, State.noteCand_cand, State.examining_passes, hrung]
  exact ⟨ha.trans h, rfl⟩

theorem State.examined_accepted
    (h : (s.rx n).align = .hunt ∧ s.confirmed n f = true ∨ (s.rx n).align = .oof ∧ f.pos ≠ (s.rx n).pos ∧ s.fastFits n f = true) :
    ((s.examined n f).rx n).align = .inFrame ∧ ((s.examined n f).rx n).pos = f.pos := by
  have hacc : ∃ v : State, s.examined n f = v.acceptAt n f := by
    rcases h with ⟨ha, hc⟩ | ⟨ha, hp, hf⟩
    · exact ⟨_, (State.examined_hunt ha).trans (if_pos ((s.examining_confirmed n f).trans hc))⟩
    · exact ⟨_, ((State.examined_elsewhere hp).1 ha).trans (if_pos ((s.examining_fastFits n f).trans hf))⟩
  obtain ⟨v, hv⟩ := hacc
  obtain ⟨ha, hp, -⟩ := RxLane.place_eq (v.acceptAt_place n f)
  rw [hv]
  exact ⟨ha, hp⟩

theorem State.examined_passed (h : (s.rx n).align ≠ .hunt) (hp : f.pos = (s.rx n).pos) (hh : s.passes n f = true) :
    ((s.examined n f).rx n).align = .inFrame ∧ ((s.examined n f).rx n).pos = f.pos := by
  obtain ⟨halign, hpos, -⟩ := RxLane.place_eq (s.examining_place n f)
  obtain ⟨h1, h2⟩ := State.atExpected_passed ((s.examining_passes n f).trans hh) (fun ha => h (halign.symm.trans ha))
  rw [State.examined_expected h hp]
  exact ⟨h1, (h2.trans hpos).trans hp.symm⟩

theorem State.examined_failed (h : (s.rx n).align ≠ .hunt) (hp : f.pos = (s.rx n).pos) (hh : s.passes n f = false) :
    (8 ≤ (s.rx n).badNext → ((s.examined n f).rx n).align = .hunt) ∧
    ((s.rx n).badNext < 8 → ((s.examined n f).rx n).align = .oof ∧ ((s.examined n f).rx n).bad = (s.rx n).badNext) := by
  have hbad : ((s.examining n f).rx n).badNext = (s.rx n).badNext := RxLane.badNext_congr (s.examining_place n f)
  rw [State.examined_expected h hp, ← hbad]
  exact State.atExpected_failed ((s.examining_passes n f).trans hh)

theorem State.examined_ambiguous {a : Accept} (h : (s.rx n).align = .inFrame) (hp : f.pos ≠ (s.rx n).pos)
    (hacc : (s.rx n).acc = some a) (ht : s.clk.tick < a.tick + frameTicks (s.rungOf n))
    (hm : a.align = .oof ∧ f.pos ≠ a.pos ∧ s.fastFits n f = true ∨ a.align = .hunt ∧ s.confirmed n f = true) :
    ((s.examined n f).rx n).place = (a.align, a.pos, a.bad) ∧ ((s.examined n f).stick (Reg.frmStatus n)).getLsbD 19 = true := by
  have hopen : ((s.examining n f).rx n).acc = some a := by
    obtain ⟨b, r, w, d, l, hr⟩ := s.received_frame n f
    rw [State.examining_rx, hr]
    exact hacc
  have htick : (s.examining n f).clk.tick < a.tick + frameTicks ((s.examining n f).rungOf n) := by
    rw [State.examining_eq]
    exact ht
  rw [(State.examined_elsewhere hp).2 h]
  exact State.atOff_ambiguous hopen htick (by rw [State.examining_fastFits, State.examining_confirmed]; exact hm)
end

/-- Settles O33: a frame's header is passed over (`State.headed_lost`, `State.headed_unlocked`) or examined, and each row of
R118 is one lemma on `State.examined`; what follows in the frame's work leaves the alignment. -/
theorem frameAlignment : Obligations.FrameAlignment := by
  unfold Obligations.FrameAlignment
  refine ⟨fun n f s h => exec_frameReceived_hidden f h, fun n f0 s hup ha hr hl => ?_⟩
  generalize hf : s.readLine n f0 = f
  obtain ⟨d, hd⟩ := (s.headed n f).frameDone_rx n
  refine ⟨(s.headed n f).frameDone n, ?_, ?_⟩
  · rw [exec_frameReceived f0 hup ha hr hl, State.takeFrame_eq, hf]
  rw [hd]
  refine ⟨fun h2 hw hlost => ?_, fun h2 hw => ?_, fun hlock hp => ?_⟩
  · exact State.headed_lost h2 hw ((congrArg RxLane.blockLock (State.synced_nrz f h2)).trans hlost)
  · rw [State.headed_unlocked h2 hw]
    obtain ⟨b, r, w, d', l, hx⟩ := s.received_frame n f
    rw [State.setRx_self, hx]
    exact ⟨rfl, rfl⟩
  · have hex : s.headed n f = s.examined n f := by
      by_cases h2 : s.rungOf n < 2
      · refine State.headed_examines (.inr ?_) hp
        rw [State.synced_nrz f h2]
        exact hlock.resolve_left (by omega)
      · exact State.headed_examines (.inl (by omega)) hp
    rw [hex]
    refine ⟨fun hh hc => ?_, fun hh hc => ?_, fun hh hpos hfail => ?_, fun hh hpos hfail hb => ?_, fun hh hpos hfail hb => ?_,
      fun hh hpos hpass => ?_, fun hh hpos hfit => ?_, fun a hh hpos hacc ht hm => ?_⟩
    · exact State.examined_unconfirmed hh hc
    · exact State.examined_accepted (.inl ⟨hh, hc⟩)
    · have hb : (s.rx n).badNext = 1 := if_neg (by simp [hh])
      have hmiss := (State.examined_failed (by simp [hh]) hpos hfail).2 (by omega)
      rwa [hb] at hmiss
    · have hb' : (s.rx n).badNext = (s.rx n).bad + 1 := if_pos hh
      have hmiss := (State.examined_failed (by simp [hh]) hpos hfail).2 (by omega)
      rwa [hb'] at hmiss
    · have hb' : (s.rx n).badNext = (s.rx n).bad + 1 := if_pos hh
      exact (State.examined_failed (by simp [hh]) hpos hfail).1 (by omega)
    · exact State.examined_passed hh hpos hpass
    · exact State.examined_accepted (.inr ⟨hh, hpos, hfit⟩)
    · obtain ⟨hplace, hstick⟩ := State.examined_ambiguous hh hpos hacc ht hm
      obtain ⟨ha, hp', -⟩ := RxLane.place_eq hplace
      exact ⟨ha, hp', State.frameDone_keeps n hstick⟩

end Sys2Proof.Machine

/-! PROOFS. The defects of a lane and their failures (R121 to R125). -/
namespace Sys2Proof.Machine

/-! ### One defect of a receiver -/

@[simp] theorem RxLane.setDef_self (x : RxLane) (d : Nat) (f : Defect) : (x.setDef d f).defects.look {} d = f :=
  Tab.look_put_self _ _ _ _

theorem RxLane.setDef_of_ne (x : RxLane) {d e : Nat} (f : Defect) (h : e ≠ d) :
    (x.setDef d f).defects.look {} e = x.defects.look {} e := Tab.look_put_of_ne _ _ _ _ h

/-- What is declared of a defect: whether it is, since when, and whether its failure is. -/
def Defect.verdict (x : Defect) : Bool × Nat × Bool := (x.declared, x.decSince, x.failed)

theorem Defect.verdict_eq {x : Defect} {v f : Bool} {t : Nat} (h : x.verdict = (v, t, f)) :
    x.declared = v ∧ x.decSince = t ∧ x.failed = f := by
  simpa only [Defect.verdict, Prod.mk.injEq] using h

theorem Defect.note_verdict (x : Defect) (raw : Bool) (t : Nat) : (x.note raw t).verdict = x.verdict := by
  unfold Defect.note
  split <;> rfl

/-- Following a raw condition declares nothing of any defect. -/
theorem RxLane.noteDef_verdict (x : RxLane) {y : Defect} (d e : Nat) (raw : Bool) (t : Nat) (hy : y = x.defects.look {} d) :
    ((x.setDef d (y.note raw t)).defects.look {} e).verdict = (x.defects.look {} e).verdict := by
  subst hy
  by_cases h : e = d
  · subst h; rw [RxLane.setDef_self, Defect.note_verdict]
  · rw [RxLane.setDef_of_ne _ _ h]

section
variable {s : State} {n : Nat}

@[simp] theorem State.setRx_laneDef (x : RxLane) (d : Nat) : (s.setRx n x).laneDef n d = x.defects.look {} d := by
  rw [State.laneDef, State.setRx_self]

theorem State.noteDefects_verdict (s : State) (n d : Nat) :
    ((s.noteDefects n).laneDef n d).verdict = (s.laneDef n d).verdict := by
  unfold State.noteDefects
  extract_lets x on los lof t x1 x2 x3
  rw [State.setRx_laneDef, RxLane.noteDef_verdict x2 3 d _ _ rfl, RxLane.noteDef_verdict x1 2 d _ _ rfl,
    RxLane.noteDef_verdict x 1 d _ _ rfl]
  rfl

theorem State.noteDefects_rx_of_ne (s : State) {k : Nat} (h : k ≠ n) : (s.noteDefects n).rx k = s.rx k :=
  State.setRx_of_ne s _ h

/-- A defect declared or cleared counts from this tick; its failure stands. -/
theorem State.setDeclared_verdict (s : State) (n d : Nat) (v : Bool) :
    ((s.setDeclared n d v).laneDef n d).verdict = (v, s.clk.tick, (s.laneDef n d).failed) := by
  unfold State.setDeclared
  rw [State.noteDefects_verdict, State.setRx_laneDef, RxLane.setDef_self]
  split <;> rfl

theorem State.setDeclared_rx_of_ne (s : State) (d : Nat) (v : Bool) {k : Nat} (h : k ≠ n) :
    (s.setDeclared n d v).rx k = s.rx k :=
  (State.noteDefects_rx_of_ne _ h).trans (State.setRx_of_ne s _ h)

/-- The loss of a fabric link leaves every receiver. -/
theorem State.linkLoss_rx (s : State) (g k : Nat) : (s.linkLoss g).rx k = s.rx k :=
  State.rx_of_frm (State.keeps_of_blank (S := fun a => decide (a ≠ .frm)) (by simp) .frm rfl) k

/-- The failure of a defect is marked or unmarked. -/
def State.markFailed (s : State) (n d : Nat) (v : Bool) : State :=
  s.setRx n ((s.rx n).setDef d { s.laneDef n d with failed := v })

theorem State.markFailed_laneDef (s : State) (n d : Nat) (v : Bool) :
    (s.markFailed n d v).laneDef n d = { s.laneDef n d with failed := v } := by
  rw [State.markFailed, State.setRx_laneDef, RxLane.setDef_self]

theorem State.markFailed_rx_of_ne (s : State) (d : Nat) (v : Bool) {k : Nat} (h : k ≠ n) :
    (s.markFailed n d v).rx k = s.rx k := State.setRx_of_ne s _ h
end

/-! ### The commands -/

section
variable {s : State} {n : Fin 256} {d : Fin 4} (hup : s.up = true)
include hup

theorem exec_laneDefectDeclare {m : Nat} (ha : (s.lane n).rx = .active) (hd : s.declared n d = false)
    (hm : s.heldFor n d m (s.laneSet n d) true = true) :
    exec (.laneDefectDeclare n d m) s = .next ((s.setDeclared n d true).linkLoss (n.val / 8)) :=
  (whenUp_of_up hup).trans (congrArg _ (if_pos ⟨ha, hd, hm⟩))

theorem exec_laneDefectClear {m : Nat} (hd : s.declared n d = true) (hm : s.heldFor n d m (s.laneClr n d) false = true) :
    exec (.laneDefectClear n d m) s = .next (s.setDeclared n d false) :=
  (whenUp_of_up hup).trans (congrArg _ (if_pos ⟨hd, hm⟩))

theorem exec_laneFail (hp : s.atPeriod = true) (hd : s.declared n d = true) (hf : (s.laneDef n d).failed = false)
    (ht : (s.laneDef n d).decSince + s.failSet (n.val / 8) ≤ s.clk.tick) :
    exec (.laneFail n d) s = .next ((s.markFailed n d true).laneEvent 0x0012 n d) :=
  (whenUp_of_up hup).trans (congrArg _ (if_pos ⟨hp, hd, hf, ht⟩))

theorem exec_laneClear (hp : s.atPeriod = true) (hd : s.declared n d = false) (hf : (s.laneDef n d).failed = true)
    (ht : (s.laneDef n d).decSince + s.failClr (n.val / 8) ≤ s.clk.tick) :
    exec (.laneClear n d) s = .next ((s.markFailed n d false).laneEvent 0x0013 n d) :=
  (whenUp_of_up hup).trans (congrArg _ (if_pos ⟨hp, hd, hf, ht⟩))
end

/-- Settles O31: each command writes one defect of one receiver; what follows it declares nothing and moves no receiver. -/
theorem laneDefectsAndFailures : Obligations.LaneDefectsAndFailures := by
  unfold Obligations.LaneDefectsAndFailures
  refine ⟨?declare, ?clear, ?fail, ?unfail⟩
  case declare =>
    intro n d m s hup ha hd hm
    have hrx := State.linkLoss_rx (s.setDeclared n d true) (n.val / 8)
    have hdef : (((s.setDeclared n d true).linkLoss (n.val / 8)).laneDef n d).verdict =
        (true, s.clk.tick, (s.laneDef n d).failed) := by
      rw [State.laneDef, hrx]
      exact State.setDeclared_verdict s n d true
    obtain ⟨hdec, hsince, hfailed⟩ := Defect.verdict_eq hdef
    exact ⟨_, exec_laneDefectDeclare hup ha hd hm, hdec, hsince, hfailed,
      fun k hk => (hrx k).trans (State.setDeclared_rx_of_ne s d true hk)⟩
  case clear =>
    intro n d m s hup hd hm
    obtain ⟨hdec, hsince, hfailed⟩ := Defect.verdict_eq (State.setDeclared_verdict s n d false)
    exact ⟨_, exec_laneDefectClear hup hd hm, hdec, hsince, hfailed, fun k hk => State.setDeclared_rx_of_ne s d false hk⟩
  case fail =>
    intro n d s hup hp hd hf ht
    exact ⟨s.markFailed n d true, exec_laneFail hup hp hd hf ht, rfl, State.markFailed_laneDef s n d true,
      fun k hk => State.markFailed_rx_of_ne s d true hk⟩
  case unfail =>
    intro n d s hup hp hd hf ht
    exact ⟨s.markFailed n d false, exec_laneClear hup hp hd hf ht, rfl, State.markFailed_laneDef s n d false,
      fun k hk => State.markFailed_rx_of_ne s d false hk⟩

end Sys2Proof.Machine

/-! PROOFS. The header CRC (R100). -/
namespace Sys2Proof.Machine

/-! ### The CRC register over a whole word -/

section
variable {n : Nat} {g : BitVec n}

theorem crcStep_eq (c : BitVec n) (b : Bool) :
    crcStep g c b = if (c.getLsbD (n - 1) ^^ b) = true then (c <<< 1) ^^^ g else c <<< 1 := rfl

/-- A register that differs from another by the bits still to come shifts as the other does over zeros. -/
theorem crcStep_xor_shift (a w : BitVec n) {k : Nat} (hk : k < n) :
    crcStep g (a ^^^ w <<< k) (w.getLsbD (n - 1 - k)) = crcStep g a false ^^^ w <<< (k + 1) := by
  have htop : ((a ^^^ w <<< k).getLsbD (n - 1) ^^ w.getLsbD (n - 1 - k)) = (a.getLsbD (n - 1) ^^ false) := by
    rw [BitVec.getLsbD_xor, BitVec.getLsbD_shiftLeft, decide_eq_true (by omega : n - 1 < n),
      decide_eq_false (by omega : ¬n - 1 < k)]
    simp
  rw [crcStep_eq, crcStep_eq, htop, BitVec.shiftLeft_xor_distrib, BitVec.shiftLeft_add]
  split
  · ac_rfl
  · rfl

/-- The register over the first `k` bits of a word: the word enters at once, zeros follow. -/
theorem crc_firstBits (c w : BitVec n) {k : Nat} (hk : k ≤ n) :
    ((List.range k).map (fun i => w.getLsbD (n - 1 - i))).foldl (crcStep g) c =
      (List.replicate k false).foldl (crcStep g) (c ^^^ w) ^^^ w <<< k := by
  induction k with
  | zero => simp
  | succ k ih =>
    rw [List.range_succ, List.map_append, List.foldl_append, ih (by omega), List.replicate_succ', List.foldl_append]
    exact crcStep_xor_shift _ w hk

theorem crc_word (c w : BitVec n) :
    (msbBits w).foldl (crcStep g) c = (List.replicate n false).foldl (crcStep g) (c ^^^ w) := by
  have h := crc_firstBits (g := g) c w (Nat.le_refl n)
  rwa [BitVec.shiftLeft_eq_zero (Nat.le_refl n), BitVec.xor_zero] at h

/-- With a generator that ends in 1, a zero bit brings no register but 0 to 0. -/
theorem crcStep_false_eq_zero (hg : g.getLsbD 0 = true) (c : BitVec n) : crcStep g c false = 0#n ↔ c = 0#n := by
  rw [crcStep_eq, Bool.xor_false]
  refine ⟨fun h => ?_, fun h => by simp [h]⟩
  split at h
  next htop =>
    have h0 := congrArg (BitVec.getLsbD · 0) h
    simp [hg] at h0
  next htop =>
    refine BitVec.eq_of_getLsbD_eq fun i hi => ?_
    rw [BitVec.getLsbD_zero]
    by_cases hlast : i = n - 1
    · rw [hlast]
      exact Bool.eq_false_of_not_eq_true htop
    · have hnext := congrArg (BitVec.getLsbD · (i + 1)) h
      simpa [show i + 1 < n by omega, BitVec.getLsbD_eq_getElem hi] using hnext

theorem crc_zeros_eq_zero (hg : g.getLsbD 0 = true) (k : Nat) (c : BitVec n) :
    (List.replicate k false).foldl (crcStep g) c = 0#n ↔ c = 0#n := by
  induction k generalizing c with
  | zero => rfl
  | succ k ih => rw [List.replicate_succ, List.foldl_cons, ih, crcStep_false_eq_zero hg]

/-- A word brings the register to 0 exactly if it is what the register held. -/
theorem crc_word_eq_zero (hg : g.getLsbD 0 = true) (c w : BitVec n) : (msbBits w).foldl (crcStep g) c = 0#n ↔ w = c := by
  rw [crc_word, crc_zeros_eq_zero hg, BitVec.xor_eq_zero_iff, eq_comm]
end

/-! ### HCRC in bits [15:0] of a header -/

theorem msbBits_take {m : Nat} (w : BitVec m) (k : Nat) (hk : k ≤ m) :
    (msbBits w).take k = (List.range k).map (fun i => w.getLsbD (m - 1 - i)) := by
  rw [msbBits, ← List.map_take, List.take_range, Nat.min_eq_left hk]

/-- Bits [127:16] come first, bits [15:0] last. -/
theorem msbBits_header (h : BitVec 128) : msbBits h = (msbBits h).take 112 ++ msbBits (BitVec.ofNat 16 h.toNat) := by
  have hlow : (List.range 16).map (fun i => h.getLsbD (127 - (112 + i))) = msbBits (BitVec.ofNat 16 h.toNat) := by
    refine List.map_congr_left fun i hi => ?_
    have hi : i < 16 := List.mem_range.mp hi
    rw [BitVec.getLsbD_ofNat, decide_eq_true (by omega : 16 - 1 - i < 16), Bool.true_and, BitVec.testBit_toNat]
    congr 1
    omega
  rw [msbBits_take h 112 (by decide), ← hlow]
  exact (congrArg (List.map _) (List.range_add (n := 112) (m := 16))).trans (by rw [List.map_append, List.map_map]; rfl)

/-- A receiver that runs all bits of a header through the register obtains 0 for a correct header (R100). -/
theorem hcrcFits_iff (h : BitVec 128) :
    hcrcFits h = true ↔ BitVec.ofNat 16 h.toNat = crc16 ((msbBits h).take 112) := by
  have hrun : crc16 (msbBits h) = (msbBits (BitVec.ofNat 16 h.toNat)).foldl (crcStep 0x8BB7#16) (crc16 ((msbBits h).take 112)) := by
    conv_lhs => rw [msbBits_header h]
    exact List.foldl_append
  rw [hcrcFits, decide_eq_true_iff, hrun]
  exact crc_word_eq_zero rfl _ _

/-- A header whose fields leave bits [15:0] clear, with a CRC added there. -/
def withLow (v : Nat) (c : BitVec 16) : BitVec 128 := BitVec.ofNat 128 (v + c.toNat)

theorem withLow_low {v : Nat} (hv : 2 ^ 16 ∣ v) (c : BitVec 16) : BitVec.ofNat 16 (withLow v c).toNat = c := by
  refine BitVec.eq_of_toNat_eq ?_
  rw [withLow, BitVec.toNat_ofNat, BitVec.toNat_ofNat]
  have hc := c.isLt
  omega

theorem withLow_high {v : Nat} (hv : 2 ^ 16 ∣ v) (c : BitVec 16) :
    (msbBits (withLow v c)).take 112 = (msbBits (BitVec.ofNat 128 v)).take 112 := by
  rw [msbBits_take _ _ (by decide), msbBits_take _ _ (by decide)]
  refine List.map_congr_left fun i hi => ?_
  have hi : i < 112 := List.mem_range.mp hi
  have hdiv : (v + c.toNat) / 2 ^ 16 = v / 2 ^ 16 := by
    have hc := c.isLt
    omega
  obtain ⟨j, hj⟩ : ∃ j, 128 - 1 - i = j + 16 := ⟨111 - i, by omega⟩
  rw [withLow, BitVec.getLsbD_ofNat, BitVec.getLsbD_ofNat, hj, ← Nat.testBit_div_two_pow, ← Nat.testBit_div_two_pow, hdiv]

/-- Fields followed by their own HCRC are a correct header (R99, R100). -/
theorem hcrcFits_withLow {v : Nat} (hv : 2 ^ 16 ∣ v) :
    hcrcFits (withLow v (crc16 ((msbBits (BitVec.ofNat 128 v)).take 112))) = true := by
  rw [hcrcFits_iff, withLow_low hv, withLow_high hv]

/-- The fields of the header that a lane sends (R99), bits [15:0] clear. -/
def State.txFields (s : State) (n : Nat) (ais : Bool) : Nat :=
  let rdi := s.declared n 0 || s.declared n 1
  alignWord.toNat * 2 ^ 80 + n % 1024 * 2 ^ 70 + s.secClock % 2 ^ 24 * 2 ^ 46 + s.txRungOf n * 2 ^ 42 + s.plane * 2 ^ 40
    + b2n ais * 2 ^ 39 + b2n rdi * 2 ^ 38 + s.qlOut % 16 * 2 ^ 34 + b2n (s.capSent n) * 2 ^ 33

theorem State.txHeader_eq (s : State) (n : Nat) (ais : Bool) : s.txHeader n ais =
    withLow (s.txFields n ais) (crc16 ((msbBits (BitVec.ofNat 128 (s.txFields n ais))).take 112)) := rfl

theorem State.txFields_lowClear (s : State) (n : Nat) (ais : Bool) : 2 ^ 16 ∣ s.txFields n ais := by
  unfold State.txFields
  extract_lets
  omega

/-- Settles O46: the low word of a header enters the register at once, so the register ends at 0 exactly if that word is the
HCRC of the bits before it; a header sent carries that word. -/
theorem headerCheck : Obligations.HeaderCheck := by
  unfold Obligations.HeaderCheck
  have hsent : ∀ (s : State) n ais, hcrcFits (s.txHeader n ais) = true := fun s n ais =>
    hcrcFits_withLow (s.txFields_lowClear n ais)
  have hexample : crc16 ((msbBits (0xF6F628A5D30C134E97040D080000F9E1 : BitVec 128)).take 112) = 0xF9E1#16 := by decide +kernel
  exact ⟨fun _ => rfl, hcrcFits_iff, fun s n ais => ⟨hsent s n ais, (hcrcFits_iff _).mp (hsent s n ais)⟩,
    (hcrcFits_iff _).mpr hexample.symm, hexample⟩

end Sys2Proof.Machine

/-!
PROOFS. The defects of a Wheel (R174 to R176).
-/
namespace Sys2Proof.Machine

/-! ### Following the raw conditions (R174) -/

@[simp] theorem Wheel.setDef_self (x : Wheel) (d : Nat) (f : Defect) : (x.setDef d f).def_ d = f := Tab.look_put_self _ _ _ _

theorem Wheel.setDef_of_ne (x : Wheel) {d e : Nat} (f : Defect) (h : e ≠ d) : (x.setDef d f).def_ e = x.def_ e :=
  Tab.look_put_of_ne _ _ _ _ h

/-- Follow the raw condition of one defect. -/
def Wheel.follow (fault : Bool) (x : Wheel) (d : Nat) : Wheel := x.setDef d ((x.def_ d).note (x.raw fault d) x.per)

theorem Wheel.dec_of_verdict {x y : Wheel} {e : Nat} (h : (y.def_ e).verdict = (x.def_ e).verdict) : y.dec e = x.dec e :=
  congrArg Prod.fst h

/-- Following the raw conditions of some defects touches only the defects, and declares nothing of any of them. -/
theorem Wheel.foldl_follow_keeps (fault : Bool) (l : List Nat) (x : Wheel) : ∃ t, l.foldl (Wheel.follow fault) x = { x with defects := t } ∧
    ∀ e, ((l.foldl (Wheel.follow fault) x).def_ e).verdict = (x.def_ e).verdict := by
  induction l generalizing x with
  | nil => exact ⟨_, rfl, fun _ => rfl⟩
  | cons d l ih =>
    obtain ⟨t, ht, hv⟩ := ih (x.follow fault d)
    refine ⟨t, ht, fun e => (hv e).trans ?_⟩
    by_cases h : e = d
    · subst h; rw [Wheel.follow, Wheel.setDef_self, Defect.note_verdict]
    · rw [Wheel.follow, Wheel.setDef_of_ne _ _ h]

theorem Wheel.note_eq (x : Wheel) (fault : Bool) : ∃ t, x.note fault = { x with defects := t } := by
  obtain ⟨t, ht, -⟩ := x.foldl_follow_keeps fault (List.range 5)
  exact ⟨t, ht⟩

theorem Wheel.note_verdict (x : Wheel) (fault : Bool) (e : Nat) : ((x.note fault).def_ e).verdict = (x.def_ e).verdict := by
  obtain ⟨_, -, hv⟩ := x.foldl_follow_keeps fault (List.range 5)
  exact hv e

@[simp] theorem Wheel.note_dec (x : Wheel) (fault : Bool) (e : Nat) : (x.note fault).dec e = x.dec e :=
  Wheel.dec_of_verdict (x.note_verdict fault e)

@[simp] theorem Wheel.note_defined (x : Wheel) (fault : Bool) : (x.note fault).defined = x.defined := by
  obtain ⟨t, ht⟩ := x.note_eq fault
  rw [ht]

@[simp] theorem Wheel.note_owner (x : Wheel) (fault : Bool) : (x.note fault).owner = x.owner := by
  obtain ⟨t, ht⟩ := x.note_eq fault
  rw [ht]

/-- AIS-W declared, or a member-lane fault, masks LOM-W, RDI-W, TIM-W and ADO. -/
theorem Wheel.raw_of_masked {x : Wheel} {fault : Bool} (hm : x.dec 0 = true ∨ fault = true) {d : Nat} (h1 : 1 ≤ d) (h4 : d ≤ 4) :
    x.raw fault d = false := by
  have hd : d = 1 ∨ d = 2 ∨ d = 3 ∨ d = 4 := by omega
  rcases hd with rfl | rfl | rfl | rfl <;> rcases hm with h | h <;> simp [Wheel.raw, h]

/-- Each masked defect that is followed has no raw condition afterwards. -/
theorem Wheel.foldl_follow_raw_of_masked {fault : Bool} {d : Nat} (h1 : 1 ≤ d) (h4 : d ≤ 4) (l : List Nat) (x : Wheel)
    (hm : x.dec 0 = true ∨ fault = true) (hd : (x.def_ d).raw = false ∨ d ∈ l) : ((l.foldl (Wheel.follow fault) x).def_ d).raw = false := by
  induction l generalizing x with
  | nil => simpa using hd
  | cons a l ih =>
    have hdec : (x.follow fault a).dec 0 = x.dec 0 := by
      obtain ⟨_, -, hv⟩ := x.foldl_follow_keeps fault [a]
      exact Wheel.dec_of_verdict (hv 0)
    refine ih (x.follow fault a) (by rwa [hdec]) ?_
    by_cases h : d = a
    · subst h
      left
      rw [Wheel.follow, Wheel.setDef_self, Wheel.raw_of_masked hm h1 h4, Defect.note]
      split
      · assumption
      · rfl
    · rw [Wheel.follow, Wheel.setDef_of_ne _ _ h]
      exact hd.imp_right fun hd => (List.mem_cons.mp hd).resolve_left h

theorem Wheel.note_raw_of_masked {x : Wheel} {fault : Bool} (hm : x.dec 0 = true ∨ fault = true) {d : Nat} (h1 : 1 ≤ d) (h4 : d ≤ 4) :
    ((x.note fault).def_ d).raw = false :=
  Wheel.foldl_follow_raw_of_masked h1 h4 _ _ hm (.inr (by simp; omega))

/-! ### Declaring and clearing (R175, R176) -/

/-- The state in which the raw conditions of a Wheel have been followed to this tick. -/
def State.followed (s : State) (n : Nat) : State := s.setWheel n ((s.wheel n).note (s.laneFault (s.wheel n)))

@[simp] theorem State.followed_wheel (s : State) (n : Nat) : (s.followed n).wheel n = (s.wheel n).note (s.laneFault (s.wheel n)) :=
  State.setWheel_self _ _ _

/-- The Wheel in which a defect is declared or cleared from this tick on. -/
def Wheel.declare (x : Wheel) (d : Nat) (v : Bool) (tick : Nat) : Wheel := x.setDef d { x.def_ d with declared := v, decSince := tick }

theorem Wheel.note_declare_spec (x : Wheel) (d : Nat) (v : Bool) (tick : Nat) (fault : Bool) :
    ((x.declare d v tick).note fault).dec d = v ∧ (((x.declare d v tick).note fault).def_ d).decSince = tick ∧
    ∀ e, e ≠ d → ((x.declare d v tick).note fault).dec e = x.dec e := by
  have hd : (x.declare d v tick).def_ d = { x.def_ d with declared := v, decSince := tick } := Wheel.setDef_self _ _ _
  have hv := (x.declare d v tick).note_verdict fault d
  rw [hd] at hv
  obtain ⟨hdec, hsince, -⟩ := Defect.verdict_eq hv
  refine ⟨hdec, hsince, fun e he => ?_⟩
  rw [Wheel.note_dec, Wheel.dec, Wheel.declare, Wheel.setDef_of_ne _ _ he, Wheel.dec]

/-- The state in which a Wheel's defect is declared or cleared, its report not yet on its way. -/
def State.whlDeclared (s : State) (n d : Nat) (v : Bool) : State :=
  let y := (s.wheel n).declare d v s.clk.tick
  s.setWheel n (y.note (s.laneFault y))

theorem State.setWhlDef_eq (s : State) (n d : Nat) (v : Bool) :
    s.setWhlDef n d v = (s.whlDeclared n d v).event [(s.wheel n).owner] 0x0020 n (d + 256 * b2n v) := rfl

/-- A defect declared or cleared counts from this tick and is reported to the Wheel's owner; nothing else is declared, and no
other Wheel is touched. -/
theorem State.setWhlDef_spec (s : State) (n d : Nat) (v : Bool) : ∃ u : State,
    (s.followed n).setWhlDef n d v = u.event [(s.wheel n).owner] 0x0020 n (d + 256 * b2n v) ∧ u = { s with whl := u.whl } ∧
    (u.wheel n).dec d = v ∧ ((u.wheel n).def_ d).decSince = s.clk.tick ∧ (∀ e, e ≠ d → (u.wheel n).dec e = (s.wheel n).dec e) ∧
    ∀ m, m ≠ n → u.wheel m = s.wheel m := by
  have hwheel : ((s.followed n).whlDeclared n d v).wheel n = _ := State.setWheel_self _ _ _
  refine ⟨(s.followed n).whlDeclared n d v, ?_, rfl, ?_⟩
  · rw [State.setWhlDef_eq, State.followed_wheel, Wheel.note_owner]
  · rw [hwheel]
    obtain ⟨hdec, hsince, hrest⟩ := Wheel.note_declare_spec ((s.followed n).wheel n) d v (s.followed n).clk.tick
      ((s.followed n).laneFault (((s.followed n).wheel n).declare d v (s.followed n).clk.tick))
    refine ⟨hdec, hsince, fun e he => (hrest e he).trans (by rw [State.followed_wheel, Wheel.note_dec]), fun m hm => ?_⟩
    exact (State.setWheel_of_ne _ _ hm).trans (State.setWheel_of_ne _ _ hm)

/-- Following the raw conditions alone changes no declaration. -/
theorem State.followed_spec (s : State) (n : Nat) : s.followed n = { s with whl := (s.followed n).whl } ∧
    ∀ e, ((s.followed n).wheel n).dec e = (s.wheel n).dec e :=
  ⟨rfl, fun e => by rw [State.followed_wheel, Wheel.note_dec]⟩

/-- The condition under which a defect is declared: for EXC by the periods judged above the threshold. -/
def State.declareDue (s : State) (x : Wheel) (d : Nat) : Prop :=
  if d = 5 then s.whlSet 5 ≤ x.excRun else (x.def_ d).raw = true ∧ s.whlSet d ≤ x.periodsOf (x.def_ d)

/-- The condition under which a defect is cleared. -/
def State.clearDue (s : State) (x : Wheel) (d : Nat) : Prop :=
  if d = 5 then s.whlClr 5 ≤ x.excOk else (x.def_ d).raw = false ∧ s.whlClr d ≤ x.periodsOf (x.def_ d)

theorem State.not_declareDue_of_masked {s : State} {x : Wheel} {fault : Bool} (hm : x.dec 0 = true ∨ fault = true) {d : Nat}
    (h1 : 1 ≤ d) (h4 : d ≤ 4) : ¬s.declareDue (x.note fault) d := by
  unfold State.declareDue
  rw [if_neg (by omega), Wheel.note_raw_of_masked hm h1 h4]
  simp

theorem State.declareDue_iff (s : State) (x : Wheel) (d : Fin 6) :
    (if d = 5 then decide (s.whlSet 5 ≤ x.excRun) else (x.def_ d).raw && decide (s.whlSet d ≤ x.periodsOf (x.def_ d))) = true ↔
      s.declareDue x d := by
  unfold State.declareDue
  by_cases h : d.val = 5
  · rw [if_pos (Fin.ext h), if_pos h, decide_eq_true_iff]
  · rw [if_neg (fun hd => h (congrArg Fin.val hd)), if_neg h, Bool.and_eq_true, decide_eq_true_iff]

theorem State.clearDue_iff (s : State) (x : Wheel) (d : Fin 6) :
    (if d = 5 then decide (s.whlClr 5 ≤ x.excOk) else !(x.def_ d).raw && decide (s.whlClr d ≤ x.periodsOf (x.def_ d))) = true ↔
      s.clearDue x d := by
  unfold State.clearDue
  by_cases h : d.val = 5
  · rw [if_pos (Fin.ext h), if_pos h, decide_eq_true_iff]
  · rw [if_neg (fun hd => h (congrArg Fin.val hd)), if_neg h, Bool.and_eq_true, decide_eq_true_iff, Bool.not_eq_true']

section
variable {s : State} {w : Fin 65536} {d : Fin 6} (hup : s.up = true)
include hup

theorem exec_wheelDefectDeclare_due (hf : (s.wheel w).defined = true) (hd : (s.wheel w).dec d = false)
    (hu : s.declareDue ((s.wheel w).note (s.laneFault (s.wheel w))) d) :
    exec (.wheelDefectDeclare w d) s = .next ((s.followed w).setWhlDef w d true) :=
  (whenUp_of_up hup).trans (congrArg _ (if_pos ⟨by rwa [Wheel.note_defined], by rwa [Wheel.note_dec], (State.declareDue_iff _ _ _).mpr hu⟩))

theorem exec_wheelDefectDeclare_notDue
    (hn : (s.wheel w).defined = false ∨ ¬s.declareDue ((s.wheel w).note (s.laneFault (s.wheel w))) d) :
    exec (.wheelDefectDeclare w d) s = .next (s.followed w) := by
  refine (whenUp_of_up hup).trans (congrArg _ (if_neg fun ⟨hf, _, hu⟩ => ?_))
  rw [Wheel.note_defined] at hf
  exact hn.elim (by simp [hf]) (fun hn => hn ((State.declareDue_iff _ _ _).mp hu))

theorem exec_wheelDefectClear_due (hf : (s.wheel w).defined = true) (hd : (s.wheel w).dec d = true)
    (hu : s.clearDue ((s.wheel w).note (s.laneFault (s.wheel w))) d) :
    exec (.wheelDefectClear w d) s = .next ((s.followed w).setWhlDef w d false) :=
  (whenUp_of_up hup).trans (congrArg _ (if_pos ⟨by rwa [Wheel.note_defined], by rwa [Wheel.note_dec], (State.clearDue_iff _ _ _).mpr hu⟩))

theorem exec_wheelDefectClear_notDue
    (hn : (s.wheel w).defined = false ∨ ¬s.clearDue ((s.wheel w).note (s.laneFault (s.wheel w))) d) :
    exec (.wheelDefectClear w d) s = .next (s.followed w) := by
  refine (whenUp_of_up hup).trans (congrArg _ (if_neg fun ⟨hf, _, hu⟩ => ?_))
  rw [Wheel.note_defined] at hf
  exact hn.elim (by simp [hf]) (fun hn => hn ((State.clearDue_iff _ _ _).mp hu))
end

/-- Settles O35: a command that is due declares or clears one defect and reports it, and any other follows the raw conditions
alone; a masked defect has no raw condition, so it is never due. -/
theorem wheelDefects : Obligations.WheelDefects := by
  unfold Obligations.WheelDefects
  intro w d s hup
  obtain ⟨hwhl, hdec⟩ := s.followed_spec w
  refine ⟨?declare, ?clear, ?masked, ?notDeclared, ?notCleared⟩
  case declare =>
    intro hf hd hu
    obtain ⟨u, hout, hkeep, hself, hsince, hrest, hothers⟩ := s.setWhlDef_spec w d true
    exact ⟨u, (exec_wheelDefectDeclare_due hup hf hd hu).trans (congrArg _ hout), hkeep, hself, hsince,
      fun e he => hrest e (Fin.val_ne_of_ne he), hothers⟩
  case clear =>
    intro hf hd hu
    obtain ⟨u, hout, hkeep, hself, hsince, hrest, hothers⟩ := s.setWhlDef_spec w d false
    exact ⟨u, (exec_wheelDefectClear_due hup hf hd hu).trans (congrArg _ hout), hkeep, hself, hsince,
      fun e he => hrest e (Fin.val_ne_of_ne he), hothers⟩
  case masked =>
    intro hm h1 h4
    exact ⟨_, exec_wheelDefectDeclare_notDue hup (.inr (State.not_declareDue_of_masked hm h1 h4)), hwhl, hdec d⟩
  case notDeclared => exact fun hn => ⟨_, exec_wheelDefectDeclare_notDue hup hn, hwhl, fun e => hdec e⟩
  case notCleared => exact fun hn => ⟨_, exec_wheelDefectClear_notDue hup hn, hwhl, fun e => hdec e⟩

end Sys2Proof.Machine

/-!
PROOFS. The multiframe alignment of a Wheel, and the skew of its member lanes (R156 to R160, R163).
-/
namespace Sys2Proof.Machine

/-! ### A good overhead (R150, R157) -/

theorem Wheel.takeTrace_eq_of_continued (x : Wheel) (oseq : BitVec 24) (b : Byte) : ∃ cyc prev n acc,
    x.takeTrace oseq b false = { x with trCyc := cyc, trPrev := prev, trCount := n, accTrace := acc } := by
  unfold Wheel.takeTrace
  rw [if_neg Bool.false_ne_true]
  extract_lets z i c n
  split_ifs <;> exact ⟨_, _, _, _, rfl⟩

/-- The trace byte moves nothing but what is kept of the trace; a jump first empties the cycle. -/
theorem Wheel.takeTrace_eq (x : Wheel) (oseq : BitVec 24) (b : Byte) (jump : Bool) : ∃ cyc prev n acc,
    x.takeTrace oseq b jump = { x with trCyc := cyc, trPrev := prev, trCount := n, accTrace := acc } := by
  cases jump with
  | false => exact x.takeTrace_eq_of_continued oseq b
  | true => exact ({ x with trCyc := [], trCount := 0 } : Wheel).takeTrace_eq_of_continued oseq b

/-- What a good overhead with Wheel tick 0 in tick `t0` brings. -/
theorem Wheel.takeGood_spec (x : Wheel) (h : BitVec 96) (t0 : Nat) (jump : Bool) :
    let y := x.takeGood h t0 jump
    y.align = .inMf ∧ y.bad = 0 ∧ y.t0 = t0 ∧ y.oseq = ohOseq h ∧ y.cnt = ohCnt h ∧ y.pt = ohPt h ∧ y.psig = ohPsig h ∧
      y.aisw = ohAis h ∧ y.rdiw = ohRdi h ∧ y.nextC = some (ohCnt h) := by
  obtain ⟨cyc, prev, n, acc, hy⟩ := Wheel.takeTrace_eq
    { x with goodAny := true, lastGoodT0 := t0, oseq := ohOseq h, oref := ohOseq h, cnt := ohCnt h, pt := ohPt h, psig := ohPsig h
             aisw := ohAis h, rdiw := ohRdi h, nextC := some (ohCnt h), align := .inMf, bad := 0, t0 := t0 } (ohOseq h) (ohTrace h) jump
  unfold Wheel.takeGood
  rw [hy]
  exact ⟨rfl, rfl, rfl, rfl, rfl, rfl, rfl, rfl, rfl, rfl⟩

/-! ### A whole multiframe, by the alignment it meets (R156 to R159) -/

/-- An aligned Wheel after the overhead at its next Wheel tick 0, before the fourth bad one in a row brings HUNT. -/
def Wheel.nextMf (x : Wheel) (h : BitVec 96) (t0 : Nat) (good : Bool) : Wheel :=
  let jump := decide (ohOseq h ≠ x.oref + 1)
  if good then { x.takeGood h t0 jump with oseqJump := x.oseqJump || jump, markNext := false }
  else { x with align := .oom, bad := x.bad + 1, oref := x.oref + 1, markNext := true, trCyc := [], trCount := 0, t0 := t0 }

section
variable {x : Wheel} {mf : RxMf} (ok : Bool) (tick : Nat) (hk : x.k ≠ 0) (hl : mf.words.length = 64 * x.k)
include hk hl

theorem Wheel.takeMf_whole : ¬(x.k = 0 ∨ mf.words.length ≠ 64 * x.k) := by simp [hk, hl]

theorem Wheel.takeMf_hunt_bad (hh : x.align = .hunt) (hg : ohGood (mfOh x.k mf.words) (areaOf x.k) = false) :
    (x.takeMf mf ok tick).w = x :=
  congrArg MfOut.w ((if_neg (Wheel.takeMf_whole hk hl)).trans ((if_pos hh).trans (if_pos (by simp [hg]))))

theorem Wheel.takeMf_hunt_new (hh : x.align = .hunt) (hg : ohGood (mfOh x.k mf.words) (areaOf x.k) = true)
    (hc : (mf.t0 - 64, ohOseq (mfOh x.k mf.words) - 1) ∉ x.cand) : (x.takeMf mf ok tick).w =
      { x with cand := x.cand.filter (fun c => mf.t0 < c.1 + 64) ++ [(mf.t0, ohOseq (mfOh x.k mf.words))] } :=
  congrArg MfOut.w ((if_neg (Wheel.takeMf_whole hk hl)).trans ((if_pos hh).trans ((if_neg (by simp [hg])).trans
    (if_neg fun ⟨_, hfit, _⟩ => hc hfit))))

theorem Wheel.takeMf_hunt_fits (hh : x.align = .hunt) (hg : ohGood (mfOh x.k mf.words) (areaOf x.k) = true)
    (hc : (mf.t0 - 64, ohOseq (mfOh x.k mf.words) - 1) ∈ x.cand) (ht : 64 ≤ mf.t0) (ho : ok = true) : ∃ bip,
    (x.takeMf mf ok tick).w =
      { x.takeGood (mfOh x.k mf.words) mf.t0 false with cand := [], presC := none, bip := bip, mark := mf.badCell, markNext := false } :=
  ⟨_, congrArg MfOut.w ((if_neg (Wheel.takeMf_whole hk hl)).trans ((if_pos hh).trans ((if_neg (by simp [hg])).trans
    (if_pos ⟨ho, hc, ht⟩))))⟩

theorem Wheel.takeMf_between (hh : x.align ≠ .hunt) (ht : mf.t0 ≠ x.t0 + 64) : (x.takeMf mf ok tick).w = x :=
  congrArg MfOut.w ((if_neg (Wheel.takeMf_whole hk hl)).trans ((if_neg hh).trans (if_pos ht)))

theorem Wheel.takeMf_aligned (hh : x.align ≠ .hunt) (ht : mf.t0 = x.t0 + 64) : ∃ bip mark,
    let y : Wheel := { x.nextMf (mfOh x.k mf.words) mf.t0 (ohGood (mfOh x.k mf.words) (areaOf x.k)) with presC := x.nextC, bip := bip, mark := mark }
    (x.takeMf mf ok tick).w = if y.bad ≥ 4 then y.toHunt tick else y :=
  ⟨_, _, congrArg MfOut.w ((if_neg (Wheel.takeMf_whole hk hl)).trans ((if_neg hh).trans (if_neg (not_not_intro ht))))⟩

theorem Wheel.takeMf_aligned_good (hh : x.align ≠ .hunt) (ht : mf.t0 = x.t0 + 64)
    (hg : ohGood (mfOh x.k mf.words) (areaOf x.k) = true) :
    let h := mfOh x.k mf.words
    let y := (x.takeMf mf ok tick).w
    y.align = .inMf ∧ y.bad = 0 ∧ y.oseq = ohOseq h ∧ y.cnt = ohCnt h ∧ y.t0 = mf.t0 ∧ y.presC = x.nextC ∧ y.nextC = some (ohCnt h) ∧
      y.oseqJump = (x.oseqJump || decide (ohOseq h ≠ x.oref + 1)) := by
  intro h y
  obtain ⟨bip, mark, hy⟩ := Wheel.takeMf_aligned ok tick hk hl hh ht
  have hnext : x.nextMf h mf.t0 (ohGood h (areaOf x.k)) =
      { x.takeGood h mf.t0 (decide (ohOseq h ≠ x.oref + 1)) with
        oseqJump := x.oseqJump || decide (ohOseq h ≠ x.oref + 1), markNext := false } := if_pos hg
  obtain ⟨halign, hbad, ht0, hoseq, hcnt, -, -, -, -, hnextC⟩ := x.takeGood_spec h mf.t0 (decide (ohOseq h ≠ x.oref + 1))
  have hy : y = _ := hy.trans (if_neg (Nat.not_le.mpr (by rw [hnext]; exact hbad.trans_lt (by decide))))
  rw [hy, hnext]
  exact ⟨halign, hbad, hoseq, hcnt, ht0, rfl, hnextC, rfl⟩

theorem Wheel.takeMf_aligned_bad (hh : x.align ≠ .hunt) (ht : mf.t0 = x.t0 + 64)
    (hg : ohGood (mfOh x.k mf.words) (areaOf x.k) = false) :
    let y := (x.takeMf mf ok tick).w
    (x.bad + 1 < 4 → y.align = .oom ∧ y.bad = x.bad + 1 ∧ y.oref = x.oref + 1 ∧ y.oseq = x.oseq ∧ y.presC = x.nextC ∧ y.nextC = x.nextC) ∧
    (4 ≤ x.bad + 1 → y.align = .hunt) := by
  intro y
  obtain ⟨bip, mark, hy⟩ := Wheel.takeMf_aligned ok tick hk hl hh ht
  have hnext : x.nextMf (mfOh x.k mf.words) mf.t0 (ohGood (mfOh x.k mf.words) (areaOf x.k)) =
      { x with align := .oom, bad := x.bad + 1, oref := x.oref + 1, markNext := true, trCyc := [], trCount := 0, t0 := mf.t0 } :=
    if_neg (by simp [hg])
  rw [hnext] at hy
  constructor
  · intro hb
    have hy : y = _ := hy.trans (if_neg (Nat.not_le.mpr hb))
    rw [hy]
    exact ⟨rfl, rfl, rfl, rfl, rfl, rfl⟩
  · intro hb
    have hy : y = _ := hy.trans (if_pos hb)
    rw [hy]
    rfl
end

/-! ### WHEEL_OVERHEAD (R156) -/

/-- From `x` to `y` only the marks of the selection periods, the periods, the Retimer and the defects change. -/
def Wheel.Rebooked (x y : Wheel) : Prop := ∃ cur nxt per tick ret defects,
  y = { x with excCur := cur, excNxt := nxt, per := per, perTick := tick, ret := ret, defects := defects }

theorem Wheel.Rebooked.refl (x : Wheel) : Wheel.Rebooked x x := ⟨_, _, _, _, _, _, rfl⟩

theorem Wheel.Rebooked.trans {x y z : Wheel} (h : Wheel.Rebooked x y) (k : Wheel.Rebooked y z) : Wheel.Rebooked x z := by
  obtain ⟨_, _, _, _, _, _, rfl⟩ := h
  obtain ⟨_, _, _, _, _, _, rfl⟩ := k
  exact ⟨_, _, _, _, _, _, rfl⟩

theorem Wheel.Rebooked.countMark (x : Wheel) (t0 : Nat) (err : Bool) : Wheel.Rebooked x (x.countMark t0 err) := by
  unfold Wheel.countMark
  split
  · exact ⟨_, _, _, _, _, _, rfl⟩
  · split
    · exact ⟨_, _, _, _, _, _, rfl⟩
    · exact .refl x

theorem Wheel.Rebooked.note (x : Wheel) (fault : Bool) : Wheel.Rebooked x (x.note fault) := by
  obtain ⟨t, ht⟩ := x.note_eq fault
  exact ⟨_, _, _, _, _, t, ht⟩

theorem State.wheel_congr {s t : State} (h : t.whl = s.whl) (m : Nat) : t.wheel m = s.wheel m := by
  unfold State.wheel
  rw [h]

theorem State.whl_of_blank {s t : State} (h : t.blank (fun a => decide (a ≠ .whl)) = s.blank (fun a => decide (a ≠ .whl))) :
    t.whl = s.whl := State.keeps_of_blank h .whl rfl

/-- Taking a multiframe leaves of the Wheel what its overhead made of it, with the books kept. -/
theorem State.takeMf_wheel (s : State) (n : Nat) (mf : RxMf) :
    Wheel.Rebooked ((s.wheel n).takeMf (s.mfOf (s.wheel n) mf) (s.huntOk (s.wheel n)) s.clk.tick).w ((s.takeMf n mf).1.wheel n) := by
  unfold State.takeMf
  extract_lets x o fault y1 y2 y3 y4 s1 free s2 s3 s4 chg s5
  have hwheel : s5.wheel n = y4 := by
    have hwhl : s5.whl = s1.whl := by simp [s5, s4, s3, s2]
    exact (State.wheel_congr hwhl n).trans (State.setWheel_self _ _ _)
  have h1 : Wheel.Rebooked o.w y1 := by
    dsimp only [y1]
    split
    · exact .countMark _ _ _
    · exact .refl _
  have h2 : Wheel.Rebooked y1 y2 := by
    dsimp only [y2]
    split
    · exact ⟨_, _, _, _, _, _, rfl⟩
    · exact .refl _
  have h3 : Wheel.Rebooked y2 y3 := by
    dsimp only [y3]
    split
    · exact ⟨_, _, _, _, _, _, rfl⟩
    · exact .refl _
  rw [hwheel]
  exact ((h1.trans h2).trans h3).trans (.note _ _)

/-- What follows the multiframe, at the protected pair and the sequence-keyed Flips, touches no Wheel. -/
theorem State.wheelOverhead_wheel (s : State) {n : Nat} (mf : RxMf) (hd : (s.wheel n).defined = true) (m : Nat) :
    (s.wheelOverhead n mf).wheel m = (s.takeMf n mf).1.wheel m := by
  unfold State.wheelOverhead
  rw [if_neg (by simp [hd])]
  dsimp only
  split
  · rfl
  · refine State.wheel_congr (State.whl_of_blank ?_) m
    split <;> simp

theorem exec_wheelOverhead {s : State} (n : Fin 65536) (mf : RxMf) (hup : s.up = true) :
    exec (.wheelOverhead n mf) s = .next (s.wheelOverhead n mf) := whenUp_of_up hup

theorem State.mfOf_length (s : State) (x : Wheel) (mf : RxMf) : (s.mfOf x mf).words.length = mf.words.length := by
  simp [State.mfOf]

/-! ### Skew (R163) -/

theorem Tab.look_map {α : Type} (d : α) (g : α → α) (hg : g d = d) (t : Tab α) (i : Nat) :
    Tab.look d (t.map (fun p => (p.1, g p.2))) i = g (Tab.look d t i) := by
  induction t with
  | nil => exact hg.symm
  | cons p t ih =>
    rw [List.map_cons, Tab.look, Tab.look]
    split
    · rfl
    · exact ih

/-- A foreign-timed Wheel with a member on lane `n` can be given its members' words of the sender's tick that held frame `f`
begins with only more than MAX_SKEW ticks apart. -/
def State.skewed (s : State) (n : Nat) (f : FrameIn) (w : Wheel) : Bool :=
  let l := s.readyTicks w (hdrSeq f.f.hdr)
  w.defined && w.onLane n && s.whlForeign w && decide (w.maxSkew + l.foldl min (l.headD 0) < l.foldl max 0)

/-- Such a Wheel is in HUNT with SKEW marked once the frame has been taken, and every other Wheel stands. -/
theorem State.noteSkew_wheel {s : State} {n : Nat} {f : FrameIn} (hf : (s.rx n).frames.getLast? = some f) (w : Nat) :
    (s.noteSkew n).wheel w =
      if s.skewed n f (s.wheel w) then { (s.wheel w).toHunt s.clk.tick with skew := true } else s.wheel w := by
  have hwhl : (s.noteSkew n).whl = s.whl.map (fun p =>
      (p.1, if s.skewed n f p.2 then { p.2.toHunt s.clk.tick with skew := true } else p.2)) := by
    unfold State.noteSkew
    rw [hf]
    exact List.map_congr_left fun p _ => (apply_ite (Prod.mk p.1) _ _ _).symm
  unfold State.wheel
  rw [hwhl]
  exact Tab.look_map {} (fun x => if s.skewed n f x then { x.toHunt s.clk.tick with skew := true } else x) rfl s.whl w

/-! ### The obligation -/

/-- Settles O34: the Wheel keeps its alignment through the books that follow the multiframe (`State.takeMf_wheel`), so each
row is that of `Wheel.takeMf`; the frame's skew is read off the map that `State.noteSkew` makes of the Wheels. -/
theorem wheelAlignment : Obligations.WheelAlignment := by
  unfold Obligations.WheelAlignment
  refine ⟨fun n mf s hup hd hk hl => ⟨_, exec_wheelOverhead n mf hup, ?_⟩, fun n f s hup ha hr hn => ⟨_, exec_frameReceived f hup ha hr hn, ?_⟩⟩
  · intro x y h good
    have hlen : (s.mfOf x mf).words.length = 64 * x.k := (s.mfOf_length x mf).trans hl
    obtain ⟨cur, nxt, per, tick, ret, defects, hy⟩ : Wheel.Rebooked (x.takeMf (s.mfOf x mf) (s.huntOk x) s.clk.tick).w y := by
      dsimp only [y]
      rw [State.wheelOverhead_wheel s mf hd]
      exact s.takeMf_wheel n mf
    rw [hy]
    refine ⟨fun hh hg => ?_, fun hh hg hc => ?_, fun hh hg hc ht ho => ?_, fun hh ht => ?_, fun hh ht => ⟨fun hg => ?_, fun hg => ?_, fun hg => ?_⟩⟩
    · rw [Wheel.takeMf_hunt_bad _ _ hk hlen hh hg]
      exact ⟨hh, rfl⟩
    · rw [Wheel.takeMf_hunt_new _ _ hk hlen hh hg hc]
      exact ⟨hh, List.mem_append_right _ (List.mem_singleton_self _)⟩
    · obtain ⟨bip, hw⟩ := Wheel.takeMf_hunt_fits (s.huntOk x) s.clk.tick hk hlen hh hg hc ht ho
      obtain ⟨halign, -, ht0, hoseq, hcnt, hpt, hpsig, haisw, hrdiw, hnextC⟩ := x.takeGood_spec h mf.t0 false
      rw [hw]
      exact ⟨halign, ht0, hoseq, hcnt, hpt, hpsig, haisw, hrdiw, hnextC, rfl⟩
    · rw [Wheel.takeMf_between _ _ hk hlen hh ht]
      exact ⟨rfl, rfl, rfl⟩
    · exact Wheel.takeMf_aligned_good _ _ hk hlen hh ht hg
    · exact (Wheel.takeMf_aligned_bad _ _ hk hlen hh ht hg).1
    · exact (Wheel.takeMf_aligned_bad _ _ hk hlen hh ht hg).2
  · intro u w fi hfi l apart
    have hapart : u.skewed n fi (u.wheel w) = true ↔ apart := by
      simp [State.skewed, apart, l, and_assoc]
    rw [State.noteSkew_wheel hfi w]
    exact ⟨fun ha => by rw [if_pos (hapart.mpr ha)]; exact ⟨rfl, rfl⟩, fun ha => if_neg (fun hs => ha (hapart.mp hs))⟩

end Sys2Proof.Machine

/-!
PROOFS. The commands that complete at their execution (R180, R223, R505, R507, R513, R514, R518, R525 to R533).
-/
namespace Sys2Proof.Machine

/-! ### Execution of an accepted command (R406, R461, R500) -/

/-- A command that is accepted and that no check refuses is its opcode's effect on the state after acceptance. -/
theorem State.runCmd_of_carries {s : State} {opc h : Nat} {chk : Check} {e : JEntry} (hc : s.carries opc chk h e) (eff : Effect) :
    s.runCmd opc chk eff h = eff h e (s.accept h e) := by
  obtain ⟨hjob, hopc, hacc, hcommon, hlocal, hchk⟩ := hc
  unfold State.runCmd
  rw [hjob]
  dsimp only
  rw [if_neg (by simp [hopc, hacc]), if_neg (not_not_intro hcommon), if_neg hlocal, if_neg (not_not_intro hchk)]

/-- The outcome of such a command, given what its effect comes to. -/
theorem next_runCmd_of_carries {s t : State} {opc h : Nat} {chk : Check} {eff : Effect} {e : JEntry} (hc : s.carries opc chk h e)
    (ht : eff h e (s.accept h e) = t) : (Host.Outcome.next (s.runCmd opc chk eff h) : Out) = .next t :=
  congrArg _ ((State.runCmd_of_carries hc eff).trans ht)

/-! ### WHEEL_DEFINE (R506, R507) -/

/-- The Wheel that a WHEEL_DEFINE brings, before the raw conditions of its defects are followed. -/
def State.newWheel (s : State) (e : JEntry) : Wheel :=
  { defined := true, owner := e.prin, members := wdMembers e, maxSkew := e.f 8 1
    timChk := e.f 9 1 % 2 = 1, timAis := e.f 9 1 / 2 % 2 = 1, excAis := e.f 9 1 / 4 % 2 = 1
    reverse := if e.f 9 1 / 8 % 2 = 1 then some (e.f 10 2) else none, trace := leBytes 16 (e.f 12 16)
    huntUntil := s.clk.tick + 128, excPer := s.secClock / 8000, perTick := s.clk.tick }

/-- It is set with some defects' raw conditions noted, its counters at 0. -/
theorem effWheelDefine_eq (h : Nat) (e : JEntry) (s : State) : ∃ t, effWheelDefine h e s =
    ((s.setWheel (e.f 4 2) { s.newWheel e with defects := t }).clearCounters 1 (e.f 4 2)).complete h 0 s.tnNow 0 := by
  obtain ⟨t, ht⟩ := (s.newWheel e).note_eq (s.laneFault (s.newWheel e))
  exact ⟨t, congrArg (fun x => ((s.setWheel (e.f 4 2) x).clearCounters 1 (e.f 4 2)).complete h 0 s.tnNow 0) ht⟩

/-! ### FLIP_CANCEL (R223, R238) -/

section
variable {h : Nat} {e : JEntry} {s : State} {x : Flip}

theorem effFlipCancel_fromManager (hm : e.f 4 1 = 0) (hx : s.flp.flips.find? (fun x => decide (x.f = e.f 8 8) && !x.cancelled) = some x)
    (hf : x.fromMgr = true) : effFlipCancel h e s =
      let t : State := { s with flp := { s.flp with flips := s.flp.flips.map (fun y => if y.id = x.id then { y with cancelled := true } else y) } }
      t.complete h 0 t.tnNow 0 := by
  simp [effFlipCancel, hm, hx, hf]

theorem effFlipCancel_fabric {y : FabFlip} (hm : e.f 4 1 = 0)
    (hx : s.flp.flips.find? (fun x => decide (x.f = e.f 8 8) && !x.cancelled) = some x)
    (hf : x.fromMgr = false) (hb : x.fabric = true) (hy : s.flp.fab.find? (fun y => y.id = x.id) = some y) :
    effFlipCancel h e s = let t := s.cancelFab y s.fabId 1; t.complete h 0 t.tnNow 0 := by
  simp [effFlipCancel, hm, hx, hf, hb, hy]

theorem effFlipCancel_own (hm : e.f 4 1 = 0) (hx : s.flp.flips.find? (fun x => decide (x.f = e.f 8 8) && !x.cancelled) = some x)
    (hf : x.fromMgr = false) (hb : x.fabric = false) : effFlipCancel h e s =
      let t := (({ s with flp := { s.flp with flips := s.flp.flips.filter (fun y => y.h ≠ x.h) } } : State).recEvt 2 x.h 0 0).complete
        x.h eAborted x.f (abortResult 0 1 0)
      t.complete h 0 t.tnNow 0 := by
  simp [effFlipCancel, hm, hx, hf, hb]

theorem effFlipCancel_sequence {f : SeqFlip} (hm : e.f 4 1 ≠ 0) (hf : s.seqNamed e.prin (e.f 8 8) = some f) :
    effFlipCancel h e s = let t := (s.recEvt 2 f.h 0 0).endSeq f eAborted 1 none false; t.complete h 0 t.tnNow 0 := by
  simp [effFlipCancel, hm, hf]
end

/-! ### PAIR_SET (R254, R514) -/

section
variable (h : Nat) {e : JEntry} {s : State}

theorem effPairSet_remove (hm : psMode e = 0) : effPairSet h e s = (s.removePair (e.f 4 2)).complete h 0 s.tnNow 0 := if_pos hm

theorem effPairSet_change (hm : psMode e ≠ 0) (hd : (s.pair (e.f 4 2)).defined = true) : effPairSet h e s =
    let p := s.pairAfter e
    let t := (s.setPair (e.f 4 2) p).setPair (e.f 4 2) p
    t.complete h 0 t.tnNow p.result := by
  simp only [effPairSet, if_neg hm, hd, Bool.not_true, Bool.false_eq_true, if_false]

theorem effPairSet_define (hm : psMode e ≠ 0) (hd : (s.pair (e.f 4 2)).defined = false) : effPairSet h e s =
    let p := s.pairAfter e
    let u := ((s.setPair (e.f 4 2) p).clearCounters 2 (e.f 4 2)).freshRetimers [p.wa, p.wb]
    let t := u.setPair (e.f 4 2) { p with reqCode := u.reqOf p }
    t.complete h 0 t.tnNow p.result := by
  simp only [effPairSet, if_neg hm, hd, Bool.not_false, if_true]
end

/-! ### RING_BIND (R526) -/

theorem effRingBind_unbind {h : Nat} {e : JEntry} {s : State} (hu : rbUnbind e = true) :
    effRingBind h e s = (s.complete h 0 s.tnNow 0).unbindRing (rbR e) := if_pos hu

/-! ### KEY_AGREE and ATTEST_QUOTE (R477, R527, R528) -/

theorem State.whenKey_ready {s : State} (h : Nat) (e : JEntry) (hk : s.rnd.ephBusyUntil = none) : s.whenKey h e = s.serveKey h :=
  if_neg (by simp [hk])

theorem State.whenKey_busy {s : State} (h : Nat) (e : JEntry) (hk : s.rnd.ephBusyUntil ≠ none) :
    s.whenKey h e = { s with rnd := { s.rnd with quotes := s.rnd.quotes ++ [⟨h, e.prin⟩] } } :=
  if_pos (Option.isSome_iff_ne_none.mpr hk)

/-- A command that needs the ephemeral key is answered at once while one stands and waits otherwise. -/
theorem next_whenKey_of_carries {s : State} {opc h : Nat} {chk : Check} {e : JEntry} (hc : s.carries opc chk h e) :
    let v := s.accept h e
    let out : Out := .next (s.runCmd opc chk (fun h e s => s.whenKey h e) h)
    (v.rnd.ephBusyUntil = none → out = .next (v.serveKey h)) ∧
    (v.rnd.ephBusyUntil ≠ none → out = .next { v with rnd := { v.rnd with quotes := v.rnd.quotes ++ [⟨h, e.prin⟩] } }) :=
  ⟨fun hk => next_runCmd_of_carries hc (State.whenKey_ready h e hk), fun hk => next_runCmd_of_carries hc (State.whenKey_busy h e hk)⟩

/-! ### MBX_POST (R531, R555) -/

theorem effMbxPost_full {h : Nat} {e : JEntry} {s : State} (hh : (s.mbox (e.f 4 1)).h ≠ some h) (hf : (s.mbox (e.f 4 1)).full = true) :
    effMbxPost h e s = (s.setSticky (Reg.mbxStatus (e.f 4 1)) mbRefusedBit).complete h eConflict s.tnNow 0 :=
  (if_neg hh).trans (if_pos hf)

theorem effMbxPost_empty {h : Nat} {e : JEntry} {s : State} (hh : (s.mbox (e.f 4 1)).h ≠ some h) (hf : (s.mbox (e.f 4 1)).full = false) :
    effMbxPost h e s =
      let l := e.items 16 64
      (s.setMbox (e.f 4 1) { s.mbox (e.f 4 1) with msg := if l.all (fun b => b = 0) then [] else l }).mbPost (e.f 4 1) (e.f 8 4) (some h) :=
  (if_neg hh).trans (if_neg (by simp [hf]))

/-! ### The obligation -/

/-- Settles O57: each command is its opcode's effect on the state after acceptance. -/
theorem immediateCommands : Obligations.ImmediateCommands := by
  unfold Obligations.ImmediateCommands
  intro h e s v
  refine ⟨?nop, ?mapRead, ?define, ?delete, ?flipCancel, ?pairSet, ?laneState, ?counterRead, ?partitionSet, ?ringBind, ?keyAgree,
    ?attestQuote, ?fwStage, ?fwActivate, ?mbxPost, ?budgetSet, ?sealing⟩
  case nop => exact fun hc => next_runCmd_of_carries hc rfl
  case mapRead => exact fun hc => next_runCmd_of_carries hc rfl
  case define =>
    intro hc
    obtain ⟨t, ht⟩ := effWheelDefine_eq h e v
    exact ⟨{ v.newWheel e with defects := t }, next_runCmd_of_carries hc ht, rfl, rfl, rfl, rfl, rfl, rfl, rfl, rfl, rfl⟩
  case delete => exact fun hc => next_runCmd_of_carries hc rfl
  case flipCancel =>
    intro hc
    refine ⟨fun hm x hx => ⟨fun hf => ?_, fun hf hb y hy => ?_, fun hf hb => ?_⟩, fun hm f hf => ?_⟩
    · exact next_runCmd_of_carries hc (effFlipCancel_fromManager hm hx hf)
    · exact next_runCmd_of_carries hc (effFlipCancel_fabric hm hx hf hb hy)
    · exact next_runCmd_of_carries hc (effFlipCancel_own hm hx hf hb)
    · exact next_runCmd_of_carries hc (effFlipCancel_sequence hm hf)
  case pairSet =>
    intro hc
    refine ⟨fun hm => ?_, fun hm => ⟨fun hd => ?_, fun hd => ?_⟩⟩
    · exact next_runCmd_of_carries hc (effPairSet_remove h hm)
    · exact next_runCmd_of_carries hc (effPairSet_change h hm hd)
    · exact next_runCmd_of_carries hc (effPairSet_define h hm hd)
  case laneState => exact fun hc => next_runCmd_of_carries hc rfl
  case counterRead =>
    intro hc hu
    exact (congrArg _ (if_pos hu)).trans (next_runCmd_of_carries hc rfl)
  case partitionSet => exact fun hc => next_runCmd_of_carries hc rfl
  case ringBind =>
    exact fun hc => ⟨fun hu => next_runCmd_of_carries hc (effRingBind_unbind hu),
      fun hu => next_runCmd_of_carries hc (if_neg (by simp [hu]))⟩
  case keyAgree => exact next_whenKey_of_carries
  case attestQuote => exact next_whenKey_of_carries
  case fwStage => exact fun hc => next_runCmd_of_carries hc rfl
  case fwActivate => exact fun hc => next_runCmd_of_carries hc rfl
  case mbxPost =>
    exact fun hc hh => ⟨fun hf => next_runCmd_of_carries hc (effMbxPost_full hh hf), fun hf => next_runCmd_of_carries hc (effMbxPost_empty hh hf)⟩
  case budgetSet => exact fun hc => next_runCmd_of_carries hc rfl
  case sealing => exact fun hc => next_runCmd_of_carries hc rfl

end Sys2Proof.Machine

/-! PROOFS. Which commands change the held part of State, and which of those the map. -/
namespace Sys2Proof

/-- Commands that may change some part of what `State.hold` holds. -/
def Instr.writesHold (c : Instr) : Bool :=
  c.writesMemory || c.writesRegs || c.writesSeal || c.writesFuses || c.writesPartitions || c.writesMap || c.latchesCounters

namespace Machine

/-- The commands of no writers' list leave all that is held, each by its own frame lemma. -/
theorem exec_hold (c : Instr) (hc : c.writesHold = false) (s : State) : ∀ t, exec c s = .next t → t.hold = s.hold := by
  cases c with
  | alertCauseChange cause on rails tDie tHbm => exact execAlertCauseChange_hold cause on rails tDie tHbm s
  | i2cAccess addr wr rd => exact execI2cAccess_hold addr wr rd s
  | jtagInstruction instr => exact execJtagInstruction_hold instr s
  | mailboxBlockReset qp => exact execMailboxBlockReset_hold qp s
  | mgmtPortBlockReset qp port => exact execMgmtPortBlockReset_hold qp port s
  | dumpEngineReset qp => exact execDumpEngineReset_hold qp s
  | whiskBlockReset qp => exact execWhiskBlockReset_hold qp s
  | calrinBlockReset qp => exact execCalrinBlockReset_hold qp s
  | laneGroupReset qp g => exact execLaneGroupReset_hold qp g s
  | tickFault unit => exact execTickFault_hold unit s
  | tnLoad qp => exact execTnLoad_hold qp s
  | loRegisterRead qp addr => exact execLoRegisterRead_hold qp addr s
  | ppsInEdge => exact execPpsInEdge_hold s
  | todMessage bytes => exact execTodMessage_hold bytes s
  | todOutSend => exact execTodOutSend_hold s
  | sourceActivityLoss last => exact execSourceActivityLoss_hold last s
  | sourceQualified src => exact execSourceQualified_hold src s
  | referenceWtrExpiry entry => exact execReferenceWtrExpiry_hold entry s
  | starterLock => exact execStarterLock_hold s
  | acqTmoExpiry => exact execAcqTmoExpiry_hold s
  | loopBandwidthStep => exact execLoopBandwidthStep_hold s
  | transitionEnd => exact execTransitionEnd_hold s
  | holdoverLimitExpiry => exact execHoldoverLimitExpiry_hold s
  | phaseStepEnd => exact execPhaseStepEnd_hold s
  | boardTableLoad qp => exact execBoardTableLoad_hold qp s
  | boardTableVerifyDone ecOk lmsOk => exact execBoardTableVerifyDone_hold ecOk lmsOk s
  | laneDirectionSettled lane rx => exact execLaneDirectionSettled_hold lane rx s
  | frameReceived lane f => exact execFrameReceived_hold lane f s
  | overheadPacket lane => exact execOverheadPacket_hold lane s
  | capabilityWord lane w => exact execCapabilityWord_hold lane w s
  | ladderTAlignExpiry g => exact execLadderTAlignExpiry_hold g s
  | ladderTNegExpiry g => exact execLadderTNegExpiry_hold g s
  | stepSwitch g far => exact execStepSwitch_hold g far s
  | ladderTVerifyExpiry g => exact execLadderTVerifyExpiry_hold g s
  | laneDrop lane => exact execLaneDrop_hold lane s
  | laneWakeVerifyExpiry lane => exact execLaneWakeVerifyExpiry_hold lane s
  | loopGrantRelease lane => exact execLoopGrantRelease_hold lane s
  | eyeScanEnd lane points vstep => exact execEyeScanEnd_hold lane points vstep s
  | laneDefectDeclare lane d held => exact execLaneDefectDeclare_hold lane d held s
  | laneDefectClear lane d held => exact execLaneDefectClear_hold lane d held s
  | laneFail lane d => exact execLaneFail_hold lane d s
  | laneClear lane d => exact execLaneClear_hold lane d s
  | wheelOverhead w mf => exact execWheelOverhead_hold w mf s
  | wheelDefectDeclare w d => exact execWheelDefectDeclare_hold w d s
  | wheelDefectClear w d => exact execWheelDefectClear_hold w d s
  | retimerDecide w => exact execRetimerDecide_hold w s
  | retimerCountDeadline w => exact execRetimerCountDeadline_hold w s
  | deferredEntryPlace slot => exact execDeferredEntryPlace_hold slot s
  | mapCheck => exact execMapCheck_hold s
  | flipFreeze => exact execFlipFreeze_hold s
  | resyncEnd => exact execResyncEnd_hold s
  | flipSeqExpire h => exact execFlipSeqExpire_hold h s
  | flipSeqDiff h => exact execFlipSeqDiff_hold h s
  | fabricFlipReadyTimeout h worker => exact execFabricFlipReadyTimeout_hold h worker s
  | fabricFlipResultTimeout h => exact execFabricFlipResultTimeout_hold h s
  | pairLock p => exact execPairLock_hold p s
  | colanderPlayout p => exact execColanderPlayout_hold p s
  | selectorEvaluate p => exact execSelectorEvaluate_hold p s
  | pairWtrExpiry p => exact execPairWtrExpiry_hold p s
  | caveRequestAbandon pc => exact execCaveRequestAbandon_hold pc s
  | stackMoveEnd p => exact execStackMoveEnd_hold p s
  | calrinFrame lane f => exact execCalrinFrame_hold lane f s
  | ackStall => exact execAckStall_hold s
  | heartbeatChange changes => exact execHeartbeatChange_hold changes s
  | heartbeatSilence => exact execHeartbeatSilence_hold s
  | settleDetachedExpiry => exact execSettleDetachedExpiry_hold s
  | reclaimSettleExpiry => exact execReclaimSettleExpiry_hold s
  | yieldComplete => exact execYieldComplete_hold s
  | calMateCtrlSwap qp => exact execCalMateCtrlSwap_hold qp s
  | syncComplete => exact execSyncComplete_hold s
  | takeoverHoldEnd => exact execTakeoverHoldEnd_hold s
  | tnAnnounce hd tn arrPs => exact execTnAnnounce_hold hd tn arrPs s
  | delayReq hd t2Tick t2Ps => exact execDelayReq_hold hd t2Tick t2Ps s
  | delayResp hd reqSerial t2Tick t2Ps t3Tick t4Tick t4Ps => exact execDelayResp_hold hd reqSerial t2Tick t2Ps t3Tick t4Tick t4Ps s
  | delaySampleTimeout link => exact execDelaySampleTimeout_hold link s
  | flipPropose hd flipId f => exact execFlipPropose_hold hd flipId f s
  | flipReady hd flipId status reason => exact execFlipReady_hold hd flipId status reason s
  | fabFlipCancel hd flipId failId => exact execFabFlipCancel_hold hd flipId failId s
  | flipResult hd flipId committed => exact execFlipResult_hold hd flipId committed s
  | fabCmd hd mserial principal d sigs => exact execFabCmd_hold hd mserial principal d sigs s
  | fabResult hd mserial c => exact execFabResult_hold hd mserial c s
  | fabEvent hd principal e => exact execFabEvent_hold hd principal e s
  | fabDump hd principal latchTn offset data => exact execFabDump_hold hd principal latchTn offset data s
  | fabMbx hd channel flags msg => exact execFabMbx_hold hd channel flags msg s
  | cmdData hd mserial offset data => exact execCmdData_hold hd mserial offset data s
  | outData hd mserial offset data => exact execOutData_hold hd mserial offset data s
  | fabStatus hd tn st defects => exact execFabStatus_hold hd tn st defects s
  | peerKeyingMessage hd m => exact execPeerKeyingMessage_hold hd m s
  | peerKeyingRetry link => exact execPeerKeyingRetry_hold link s
  | fabCmdRetry h => exact execFabCmdRetry_hold h s
  | fabWorkerLost worker => exact execFabWorkerLost_hold worker s
  | fabCmdAbandon h => exact execFabCmdAbandon_hold h s
  | mgmtLinkChange port up => exact execMgmtLinkChange_hold port up s
  | saTxSwitch port => exact execSaTxSwitch_hold port s
  | kick qp rkey addr len => exact execKick_hold qp rkey addr len s
  | doorbellPoll r => exact execDoorbellPoll_hold r s
  | doorbellReadDone r cmdProd cmpCons evtCons => exact execDoorbellReadDone_hold r cmdProd cmpCons evtCons s
  | descriptorFetchDone r ds => exact execDescriptorFetchDone_hold r ds s
  | batchReadDone r b => exact execBatchReadDone_hold r b s
  | descriptorTake => exact execDescriptorTake_hold s
  | completionPost r => exact execCompletionPost_hold r s
  | rdmaWriteAck qp => exact execRdmaWriteAck_hold qp s
  | qpAckTimeout qp => exact execQpAckTimeout_hold qp s
  | rdmaReadRequest qp rkey addr len => exact execRdmaReadRequest_hold qp rkey addr len s
  | nop h => exact execNop_hold h s
  | mapWrite h => exact execMapWrite_hold h s
  | mapRead h => exact execMapRead_hold h s
  | wheelDefine h => exact execWheelDefine_hold h s
  | wheelDelete h => exact execWheelDelete_hold h s
  | flipAt h => exact execFlipAt_hold h s
  | flipSeq h => exact execFlipSeq_hold h s
  | flipCancel h => exact execFlipCancel_hold h s
  | pairSet h => exact execPairSet_hold h s
  | pairCmd h => exact execPairCmd_hold h s
  | laneState h => exact execLaneState_hold h s
  | laneLoop h => exact execLaneLoop_hold h s
  | eyeScan h => exact execEyeScan_hold h s
  | refConfig h => exact execRefConfig_hold h s
  | refForce h => exact execRefForce_hold h s
  | phaseStep h => exact execPhaseStep_hold h s
  | counterRead h => exact execCounterRead_hold h s
  | counterPreset h => exact execCounterPreset_hold h s
  | dumpConfig h => exact execDumpConfig_hold h s
  | dumpImageStart principal => exact execDumpImageStart_hold principal s
  | ringBind h => exact execRingBind_hold h s
  | mbxPost h => exact execMbxPost_hold h s
  | budgetSet h => exact execBudgetSet_hold h s
  | controlRestart h => exact execControlRestart_hold h s
  | whiskRegionStart m => exact execWhiskRegionStart_hold m s
  | mbxCtrlPost master c => exact execMbxCtrlPost_hold master c s
  | mbxCtrlAck master c => exact execMbxCtrlAck_hold master c s
  | mbxCtrlWait master c => exact execMbxCtrlWait_hold master c s
  | mbxCtrlWithdraw master c => exact execMbxCtrlWithdraw_hold master c s
  | mbxTimeout c => exact execMbxTimeout_hold c s
  | mbxRemoteRetry c => exact execMbxRemoteRetry_hold c s
  | completionRingReadDone r slots => exact execCompletionRingReadDone_hold r slots s
  | mateRingKey hd ring key => exact execMateRingKey_hold hd ring key s
  | mateKeyAgreeResponse hd serial resp => exact execMateKeyAgreeResponse_hold hd serial resp s
  | mateDump hd principal latchTn offset data => exact execMateDump_hold hd principal latchTn offset data s
  | _ => cases hc

/-! ### A writer of another part leaves the map -/

theorem Hold.map_of_noMem {a b : Hold} (h : a.noMem = b.noMem) : a.map = b.map := show a.noMem.map = b.noMem.map from congrArg Hold.map h
theorem Hold.map_of_noRegs {a b : Hold} (h : a.noRegs = b.noRegs) : a.map = b.map := show a.noRegs.map = b.noRegs.map from congrArg Hold.map h
theorem Hold.map_of_noSeal {a b : Hold} (h : a.noSeal = b.noSeal) : a.map = b.map := show a.noSeal.map = b.noSeal.map from congrArg Hold.map h
theorem Hold.map_of_noFuse {a b : Hold} (h : a.noFuse = b.noFuse) : a.map = b.map := show a.noFuse.map = b.noFuse.map from congrArg Hold.map h
theorem Hold.map_of_noPrn {a b : Hold} (h : a.noPrn = b.noPrn) : a.map = b.map := show a.noPrn.map = b.noPrn.map from congrArg Hold.map h

/-- The map entries and the active page among what is held. A writer of another part leaves them with all parts but its own. -/
theorem exec_map (c : Instr) (hc : c.writesMap = false) (s t : State) (hx : exec c s = .next t) : t.hold.map = s.hold.map := by
  cases hw : c.writesHold with
  | false => exact congrArg Hold.map (exec_hold c hw s t hx)
  | true =>
    have hother : (c.writesHold && !c.writesMap) = true := by rw [hw, hc]; rfl
    cases c with
    | groupTimingWrite qp g foreign => exact Hold.map_of_noRegs (execGroupTimingWrite_noRegs qp g foreign s t hx)
    | caveBurstComplete pc uncorr => exact Hold.map_of_noMem (execCaveBurstComplete_noMem pc uncorr s t hx)
    | cavArbFreezeWrite qp v => exact Hold.map_of_noRegs (execCavArbFreezeWrite_noRegs qp v s t hx)
    | caveStackFault st training => exact Hold.map_of_noRegs (execCaveStackFault_noRegs st training s t hx)
    | partitionSet h => exact Hold.map_of_noPrn (execPartitionSet_noPrn h s t hx)
    | keyAgree h => exact Hold.map_of_noFuse (execKeyAgree_noFuse h s t hx)
    | fwStage h => exact Hold.map_of_noFuse (execFwStage_noFuse h s t hx)
    | fwActivate h => exact Hold.map_of_noFuse (execFwActivate_noFuse h s t hx)
    | attestQuote h => exact Hold.map_of_noFuse (execAttestQuote_noFuse h s t hx)
    | ephemeralKeyReady => exact Hold.map_of_noFuse (execEphemeralKeyReady_noFuse s t hx)
    | sealSetup h => exact Hold.map_of_noSeal (execSeal_noSeal h s t hx)
    | pantryOwnerWrite master bank newOwner => exact Hold.map_of_noMem (execPantryOwnerWrite_noMem master bank newOwner s t hx)
    | pantryAtomic master bank off swap v stall whisk => exact Hold.map_of_noMem (execPantryAtomic_noMem master bank off swap v stall whisk s t hx)
    | whiskRegionEnd m failed => exact Hold.map_of_noMem (execWhiskRegionEnd_noMem m failed s t hx)
    | mateKeyAgreeRequest hd req ecOk lmsOk => exact Hold.map_of_noFuse (execMateKeyAgreeRequest_noFuse hd req ecOk lmsOk s t hx)
    | _ => cases hother

/-- Settles O11: the two pages' entries and the choice of the active one are the map part of what is held. -/
theorem mapWriters : Obligations.MapWriters := by
  unfold Obligations.MapWriters
  intro c s t hc h
  have hm : t.hrp.part = s.hrp.part := exec_map c hc s t h
  obtain ⟨hactive, hp0, hp1⟩ := MapPart.mk.inj hm
  exact ⟨hactive, hp0, hp1⟩

end Machine

end Sys2Proof

/-! PROOFS. One tick of the map check (R197 to R199). -/
namespace Sys2Proof.Machine

/-! ### What stands while entries are checked -/

/-- From `s` to `t` the map entries of both pages and the whole active page stand, no bit of HRP_MAP_STATUS falls, and neither time
nor the entries that resync has still to copy move. -/
structure State.MapStands (s t : State) : Prop where
  clk : t.clk = s.clk
  activeNo : t.activeNo = s.activeNo
  ent : ∀ q, (t.page q).ent = (s.page q).ent
  activePage : t.activePage = s.activePage
  mark : ∀ b, bit (s.stick Reg.mapStatus) b = true → bit (t.stick Reg.mapStatus) b = true
  uncopied : t.uncopied = s.uncopied

theorem State.MapStands.refl (s : State) : s.MapStands s := ⟨rfl, rfl, fun _ => rfl, rfl, fun _ h => h, rfl⟩

theorem State.MapStands.trans {s t u : State} (h : s.MapStands t) (k : t.MapStands u) : s.MapStands u :=
  ⟨k.clk.trans h.clk, k.activeNo.trans h.activeNo, fun q => (k.ent q).trans (h.ent q), k.activePage.trans h.activePage,
    fun b hb => k.mark b (h.mark b hb), k.uncopied.trans h.uncopied⟩

theorem State.MapStands.standby_ent {s t : State} (h : s.MapStands t) : t.standby.ent = s.standby.ent := by
  unfold State.standby State.standbyNo
  rw [h.activeNo, h.ent]

theorem State.MapStands.entry {s t : State} (h : s.MapStands t) (q i : Nat) : (t.page q).entry i = (s.page q).entry i := by
  unfold Page.entry
  rw [h.ent]

theorem State.entryFails_stands (s : State) {pg : Nat} (i : Nat) (treat : Bool) (hp : pg ≤ 1) :
    s.MapStands (s.entryFails pg i treat) := by
  obtain ⟨hclk, hno, hent, hact, hmark, -, -, hunc⟩ := s.entryFails_spec pg i treat hp
  exact ⟨hclk, hno, hent, hact, hmark, hunc⟩

/-! ### One entry of the pass -/

theorem page_of_passEntry {n : Nat} (h : n < 1048576) : n / 524288 ≤ 1 := by omega

theorem State.checkEntry_of_ok {s : State} {n : Nat} (h : entryOk ((s.page (n / 524288)).entry (n % 524288)) = true) :
    s.checkEntry n = s := if_pos h

theorem State.checkEntry_of_bad {s : State} {n : Nat} (h : entryOk ((s.page (n / 524288)).entry (n % 524288)) = false) :
    s.checkEntry n = s.entryFails (n / 524288) (n % 524288) (!s.uncopied (n % 524288)) := if_neg (by simp [h])

theorem State.checkEntry_stands (s : State) {n : Nat} (h : n < 1048576) : s.MapStands (s.checkEntry n) := by
  cases ho : entryOk ((s.page (n / 524288)).entry (n % 524288)) with
  | true =>
    rw [State.checkEntry_of_ok ho]
    exact .refl s
  | false =>
    rw [State.checkEntry_of_bad ho]
    exact s.entryFails_stands _ _ (page_of_passEntry h)

/-- A check writes the standby page's egress table at its own slot only. -/
theorem State.checkEntry_eg_of_ne (s : State) {m n : Nat} (hm : m < 1048576) (hn : n < 1048576) (hne : m ≠ n)
    (hs : n / 524288 ≠ s.activeNo) :
    (s.checkEntry m).standby.eg.look {} (n % 524288) = s.standby.eg.look {} (n % 524288) := by
  cases ho : entryOk ((s.page (m / 524288)).entry (m % 524288)) with
  | true => rw [State.checkEntry_of_ok ho]
  | false =>
    rw [State.checkEntry_of_bad ho]
    obtain ⟨-, -, -, -, -, hactive, hstandby, -⟩ :=
      s.entryFails_spec _ (m % 524288) (!s.uncopied (m % 524288)) (page_of_passEntry hm)
    by_cases hp : m / 524288 = s.activeNo
    · rw [(hactive hp).2]
    · have hno := s.activeNo_le
      exact (hstandby hp).2.2 _ (.inl (by omega))

/-- How the failure of entry `n` shows: on the active page in CRC_ACT; on the standby page in CRC_STBY and, unless resync is
still to replace the entry, as AIS in its egress slot. -/
def State.ShowsFailure (s : State) (n : Nat) : Prop :=
  (n / 524288 = s.activeNo → bit (s.stick Reg.mapStatus) 31 = true) ∧
  (n / 524288 ≠ s.activeNo → bit (s.stick Reg.mapStatus) 30 = true ∧
    (s.uncopied (n % 524288) = false → s.standby.eg.look {} (n % 524288) = { out := 2 }))

theorem State.checkEntry_shows {s : State} {n : Nat} (hn : n < 1048576)
    (h : entryOk ((s.page (n / 524288)).entry (n % 524288)) = false) : (s.checkEntry n).ShowsFailure n := by
  rw [State.checkEntry_of_bad h]
  obtain ⟨-, hno, -, -, -, hactive, hstandby, hunc⟩ :=
    s.entryFails_spec _ (n % 524288) (!s.uncopied (n % 524288)) (page_of_passEntry hn)
  unfold State.ShowsFailure
  rw [hno, hunc]
  exact ⟨fun hp => (hactive hp).1, fun hp => ⟨(hstandby hp).1, fun hu => (hstandby hp).2.1 (by rw [hu]; rfl)⟩⟩

theorem State.ShowsFailure.checkEntry {s : State} {m n : Nat} (h : s.ShowsFailure n) (hm : m < 1048576) (hn : n < 1048576)
    (hne : m ≠ n) : (s.checkEntry m).ShowsFailure n := by
  have hst := s.checkEntry_stands hm
  unfold State.ShowsFailure
  rw [hst.activeNo, hst.uncopied]
  refine ⟨fun hp => hst.mark _ (h.1 hp), fun hp => ⟨hst.mark _ (h.2 hp).1, fun hu => ?_⟩⟩
  rw [s.checkEntry_eg_of_ne hm hn hne hp]
  exact (h.2 hp).2 hu

/-! ### The entries of one tick -/

theorem State.checkEntries_stand (l : List Nat) (hl : ∀ n ∈ l, n < 1048576) (s : State) : s.MapStands (l.foldl State.checkEntry s) := by
  induction l generalizing s with
  | nil => exact .refl s
  | cons n l ih =>
    obtain ⟨hn, hl⟩ := List.forall_mem_cons.mp hl
    exact (s.checkEntry_stands hn).trans (ih hl _)

theorem State.checkEntries_of_ok (l : List Nat) {s : State}
    (h : ∀ n ∈ l, entryOk ((s.page (n / 524288)).entry (n % 524288)) = true) : l.foldl State.checkEntry s = s := by
  induction l with
  | nil => rfl
  | cons n l ih =>
    obtain ⟨hn, hl⟩ := List.forall_mem_cons.mp h
    rw [List.foldl_cons, State.checkEntry_of_ok hn, ih hl]

theorem State.ShowsFailure.checkEntries {n : Nat} (hn : n < 1048576) (l : List Nat) (hl : ∀ m ∈ l, m < 1048576) (hne : n ∉ l)
    {s : State} (h : s.ShowsFailure n) : (l.foldl State.checkEntry s).ShowsFailure n := by
  induction l generalizing s with
  | nil => exact h
  | cons m l ih =>
    obtain ⟨hm, hl⟩ := List.forall_mem_cons.mp hl
    have hnm := List.ne_of_not_mem_cons hne
    exact ih hl (List.not_mem_of_not_mem_cons hne) (h.checkEntry hm hn hnm.symm)

/-- A failing entry shows after the tick's checks: those before it leave the entry as it stands, those after it what it shows. -/
theorem State.checkEntries_show {l : List Nat} (hl : ∀ m ∈ l, m < 1048576) (hd : l.Nodup) {s : State} {n : Nat} (hn : n ∈ l)
    (h : entryOk ((s.page (n / 524288)).entry (n % 524288)) = false) : (l.foldl State.checkEntry s).ShowsFailure n := by
  obtain ⟨before, after, rfl⟩ := List.append_of_mem hn
  obtain ⟨hb, hna⟩ := List.forall_mem_append.mp hl
  obtain ⟨hlt, ha⟩ := List.forall_mem_cons.mp hna
  have hnot : n ∉ after := (List.nodup_cons.mp hd.of_append_right).1
  rw [List.foldl_append, List.foldl_cons]
  refine .checkEntries hlt after ha hnot (State.checkEntry_shows hlt ?_)
  rw [(State.checkEntries_stand before hb s).entry, h]

/-- The entries that MAP_CHECK checks in this tick. -/
def State.passEntries (s : State) : List Nat := (List.range (min 132 (1048576 - s.hrp.checkPos))).map (s.hrp.checkPos + ·)

theorem State.passEntries_lt (s : State) : ∀ n ∈ s.passEntries, n < 1048576 := by
  intro n hn
  obtain ⟨i, hi, rfl⟩ := List.mem_map.mp hn
  have := List.mem_range.mp hi
  omega

theorem State.passEntries_nodup (s : State) : s.passEntries.Nodup := List.nodup_range.map (add_right_injective _)

theorem State.mem_passEntries (s : State) {i : Nat} (h : i < min 132 (1048576 - s.hrp.checkPos)) :
    s.hrp.checkPos + i ∈ s.passEntries := List.mem_map_of_mem (List.mem_range.mpr h)

theorem exec_mapCheck_again {s : State} (hup : s.up = true) (h : s.clk.checked = true) : exec .mapCheck s = .next s :=
  (whenUp_of_up hup).trans (congrArg _ (if_pos h))

/-- The first entry of the next tick's checks: a new pass starts after the last entry of page 1 (R197). -/
def State.passNext (s : State) : Nat :=
  let n := min 132 (1048576 - s.hrp.checkPos)
  if s.hrp.checkPos + n ≥ 1048576 then 0 else s.hrp.checkPos + n

theorem exec_mapCheck {s : State} (hup : s.up = true) (h : s.clk.checked = false) :
    ∃ c, exec .mapCheck s = .next (let u := s.passEntries.foldl State.checkEntry s
      { u with hrp := { u.hrp with checkPos := s.passNext }, clk := { u.clk with checked := true }, cal := c }) :=
  ⟨_, (whenUp_of_up hup).trans (congrArg Host.Outcome.next ((if_neg (by simp [h])).trans rfl))⟩

/-- Settles O39: the checks of a tick leave the entries and the active page, and each failing one leaves its mark. -/
theorem mapCheckPass : Obligations.MapCheckPass := by
  unfold Obligations.MapCheckPass
  intro s hup
  refine ⟨exec_mapCheck_again hup, fun hc => ?_⟩
  obtain ⟨c, hx⟩ := exec_mapCheck hup hc
  have hst := State.checkEntries_stand s.passEntries s.passEntries_lt s
  refine ⟨_, hx, ?clk, ?pos, hst.activeNo, hst.activePage, hst.standby_ent, ?pass, ?fail⟩
  case clk => exact congrArg (fun k : Clk => { k with checked := true }) hst.clk
  case pos => simp only [State.passNext, ge_iff_le, ← Nat.not_lt, ite_not]
  case pass =>
    intro hok
    have hall : ∀ n ∈ s.passEntries, entryOk ((s.page (n / 524288)).entry (n % 524288)) = true := by
      intro n hn
      obtain ⟨i, hi, rfl⟩ := List.mem_map.mp hn
      exact hok i (List.mem_range.mp hi)
    rw [State.checkEntries_of_ok _ hall]
    exact ⟨rfl, rfl, rfl⟩
  case fail =>
    intro i hi pg e _ hbad
    obtain ⟨hactive, hstandby⟩ := State.checkEntries_show s.passEntries_lt s.passEntries_nodup (s.mem_passEntries hi) hbad
    rw [hst.activeNo] at hactive hstandby
    rw [hst.uncopied] at hstandby
    exact ⟨hactive, hstandby⟩

end Sys2Proof.Machine

/-!
PROOFS. The commands that wait for their tick, their boundary or their job (R222, R237, R240, R271, R314, R319, R336, R502, R511, R518,
R521, R534).
-/
namespace Sys2Proof.Machine

/-! ### A control message of this device (R348, R369) -/

theorem State.recEvt_copies (s : State) (kind object tick value : Nat) : (s.recEvt kind object tick value).copies = s.copies := by
  unfold State.recEvt State.recd
  split <;> rfl

/-- A control message sent after work that leaves the fabric, the registers and the role goes out as it would have before. -/
theorem State.send_control {s t : State} (hfab : t.fab = s.fab) (hregs : t.regs = s.regs) (hcopies : t.copies = s.copies)
    (link : Option Link) {type : Nat} (htype : 0x10 ≤ type) (dest : Word) (body : List Byte) :
    (t.send link type dest body).fab.sendQ =
      s.fab.sendQ ++ [⟨link, type, s.fabId, dest, s.fab.serial + 1, body, s.copies⟩] := by
  have hid : t.fabId = s.fabId := State.reg_congr hregs _
  have hmate : (t.copies && decide (0x10 ≤ type)) = s.copies := by rw [decide_eq_true htype, Bool.and_true, hcopies]
  unfold State.send
  rw [hfab, hid, hmate]

/-! ### FLIP_AT (R222, R240, R508) -/

/-- A FLIP_AT has entered the schedule, with its event in the record (R386). -/
def State.flipEntered (s : State) (h : Nat) (e : JEntry) : State :=
  let x : Flip := { h := h, f := e.f 8 8, id := e.flipId, fabric := decide (e.f 4 1 % 2 = 1) }
  ({ s with flp := { s.flp with flips := s.flp.flips ++ [x] } } : State).recEvt 1 h (e.f 8 8) 0

/-- A fabric Flip has entered the manager's list as well (R240). -/
def State.flipListed (s : State) (h : Nat) (e : JEntry) : State :=
  let t := s.flipEntered h e
  { t with flp := { t.flp with fab := t.flp.fab ++
    [{ h := h, id := e.flipId, f := e.f 8 8, a := t.tnNow, ws := t.fab.workers.map (fun w => w.id) }] } }

theorem effFlipAt_own {h : Nat} {e : JEntry} {s : State} (hf : e.f 4 1 % 2 = 0) : effFlipAt h e s = s.flipEntered h e :=
  if_neg (by simp [hf])

/-- A fabric Flip is proposed to every worker (R240, R367). -/
theorem effFlipAt_fabric {h : Nat} {e : JEntry} {s : State} (hf : e.f 4 1 % 2 = 1) : effFlipAt h e s =
    (s.flipListed h e).send none 0x10 0xFFFFFFFF (beBytes 4 e.flipId.toNat ++ beBytes 8 (e.f 8 8)) :=
  if_pos (decide_eq_true hf)

theorem State.flipListed_flp (s : State) (h : Nat) (e : JEntry) : (s.flipListed h e).flp = { (s.flipEntered h e).flp with
    fab := s.flp.fab ++ [{ h := h, id := e.flipId, f := e.f 8 8, a := s.tnNow, ws := s.fab.workers.map (fun w => w.id) }] } := by
  have hfab : (s.flipEntered h e).fab = s.fab := State.recEvt_fab ..
  have hlist : (s.flipEntered h e).flp.fab = s.flp.fab := (congrArg Flp.fab (State.recEvt_flp ..) :)
  have hclk : (s.flipEntered h e).clk = s.clk := State.recEvt_clk ..
  have htn : (s.flipEntered h e).tnNow = s.tnNow := State.tnNow_congr (congrArg Clk.tnValid hclk) (congrArg Clk.tn hclk)
  dsimp only [State.flipListed]
  rw [hfab, hlist, htn]

theorem State.flipListed_proposal (s : State) (h : Nat) (e : JEntry) (body : List Byte) :
    ((s.flipListed h e).send none 0x10 0xFFFFFFFF body).fab.sendQ =
      s.fab.sendQ ++ [⟨none, 0x10, s.fabId, 0xFFFFFFFF, s.fab.serial + 1, body, s.copies⟩] :=
  State.send_control (State.recEvt_fab ..) (State.recEvt_regs ..) (State.recEvt_copies ..) none (by decide) _ _

/-! ### The obligation -/

/-- Settles O56: each command is its opcode's effect on the state after acceptance, and the effect puts it in the list in which it
waits. -/
theorem scheduledCommands : Obligations.ScheduledCommands := by
  unfold Obligations.ScheduledCommands
  intro h e s v
  refine ⟨?mapWrite, ?flipAt, ?flipSeq, ?pairCmd, ?laneLoop, ?eyeScan, ?refConfig, ?refForce, ?phaseStep, ?preset, ?dumpConfig, ?restart⟩
  case mapWrite => exact fun hc => next_runCmd_of_carries hc rfl
  case flipAt =>
    intro hc id t
    refine ⟨fun hf => next_runCmd_of_carries hc (effFlipAt_own hf), fun hf => ?_⟩
    exact ⟨_, next_runCmd_of_carries hc (effFlipAt_fabric hf), v.flipListed_flp h e, v.flipListed_proposal h e _⟩
  case flipSeq => exact fun hc => ⟨_, rfl, next_runCmd_of_carries hc rfl⟩
  case pairCmd => exact fun hc => next_runCmd_of_carries hc rfl
  case laneLoop => exact fun hc => next_runCmd_of_carries hc rfl
  case eyeScan => exact fun hc => next_runCmd_of_carries hc rfl
  case refConfig => exact fun hc => next_runCmd_of_carries hc rfl
  case refForce => exact fun hc => next_runCmd_of_carries hc rfl
  case phaseStep => exact fun hc => next_runCmd_of_carries hc rfl
  case preset => exact fun hc => next_runCmd_of_carries hc rfl
  case dumpConfig => exact fun hc => next_runCmd_of_carries hc rfl
  case restart => exact fun hc => next_runCmd_of_carries hc rfl

end Sys2Proof.Machine

/-!
PROOFS. Receiving a message over a fabric link or Calrin (R346, R349 to R352), and the delay of a link (R355, R356).
-/
namespace Sys2Proof.Machine

/-! ### Messages that the device does not act on (R346, R349 to R352) -/

section
variable {s : State} {hd : FabHdr} {type : Nat} {body : List Byte} {act : State → State}

theorem State.fabTake_of_shut (hs : s.fabShut hd type = true) : s.fabTake hd type body act = s := if_pos hs

theorem State.fabTake_of_untagged (hs : s.fabShut hd type = false) (ht : s.tagFits hd type body = false) :
    s.fabTake hd type body act = s.authFail hd.link := by
  unfold State.fabTake
  rw [if_neg (by simp [hs]), if_pos ht]

theorem State.fabTake_of_again (hs : s.fabShut hd type = false) (ht : s.tagFits hd type body = true) (ha : s.fabAgain hd type = true) :
    s.fabTake hd type body act = s := by
  unfold State.fabTake
  rw [if_neg (by simp [hs]), if_neg (by simp [ht]), if_pos ha]

theorem State.fabTake_of_foreign (hs : s.fabShut hd type = false) (ht : s.tagFits hd type body = true) (ha : s.fabAgain hd type = false)
    (hf : s.fabForeign hd type = true) : s.fabTake hd type body act =
      ((s.fabHeard hd type).setSticky (Reg.fabStatus (linkNo hd.link)) 0x04000000).event [0] 0x0064 (linkNo hd.link) hd.origin.toNat := by
  unfold State.fabTake
  rw [if_neg (by simp [hs]), if_neg (by simp [ht]), if_neg (by simp [ha]), if_pos hf]

theorem State.fabTake_of_other (hs : s.fabShut hd type = false) (ht : s.tagFits hd type body = true) (ha : s.fabAgain hd type = false)
    (hf : s.fabForeign hd type = false) (hl : linkLocal type = false) (hm : (s.fabNote hd type body).fabMine hd type = false) :
    s.fabTake hd type body act = s.fabNote hd type body := by
  unfold State.fabTake
  rw [if_neg (by simp [hs]), if_neg (by simp [ht]), if_neg (by simp [ha]), if_neg (by simp [hf])]
  dsimp only
  rw [if_neg (by simp [hl]), if_pos hm]

/-- The outcome of a message that the device receives, given what acting on it comes to. -/
theorem next_of_receives {t : State} (hr : s.receives hd type body = true) (ht : act (s.fabNote hd type body) = t) :
    (Host.Outcome.next (s.fabTake hd type body act) : Out) = .next t :=
  congrArg _ ((State.fabTake_of_receives s hd type body act hr).trans ht)
end

/-! ### What noting a message leaves (R351, R352) -/

section
variable (s : State) (hd : FabHdr) (type : Nat) (body : List Byte)

@[simp] theorem State.fabNote_clk : (s.fabNote hd type body).clk = s.clk := (congrArg State.clk (s.fabNote_eq hd type body) :)
@[simp] theorem State.fabNote_regs : (s.fabNote hd type body).regs = s.regs := (congrArg State.regs (s.fabNote_eq hd type body) :)
@[simp] theorem State.fabNote_str : (s.fabNote hd type body).str = s.str := (congrArg State.str (s.fabNote_eq hd type body) :)
@[simp] theorem State.fabNote_frm : (s.fabNote hd type body).frm = s.frm := (congrArg State.frm (s.fabNote_eq hd type body) :)
@[simp] theorem State.fabNote_hrp : (s.fabNote hd type body).hrp = s.hrp := (congrArg State.hrp (s.fabNote_eq hd type body) :)
@[simp] theorem State.fabNote_flp : (s.fabNote hd type body).flp = s.flp := (congrArg State.flp (s.fabNote_eq hd type body) :)
@[simp] theorem State.fabNote_cal : (s.fabNote hd type body).cal = s.cal := (congrArg State.cal (s.fabNote_eq hd type body) :)
@[simp] theorem State.fabNote_mgp : (s.fabNote hd type body).mgp = s.mgp := (congrArg State.mgp (s.fabNote_eq hd type body) :)

theorem State.fabNote_workers : (s.fabNote hd type body).fab.workers = s.fab.workers :=
  (congrArg Fab.workers (s.fabNote_parts hd type body) :)

theorem State.fabNote_serial : (s.fabNote hd type body).fab.serial = s.fab.serial :=
  (congrArg Fab.serial (s.fabNote_parts hd type body) :)

theorem State.fabNote_tnNow : (s.fabNote hd type body).tnNow = s.tnNow := State.tnNow_congr (by simp) (by simp)

theorem State.fabNote_frameBad (h : FabHdr) : (s.fabNote hd type body).frameBad h = s.frameBad h := by
  unfold State.frameBad State.rx
  rw [State.fabNote_frm]

theorem State.fabNote_fabId : (s.fabNote hd type body).fabId = s.fabId := State.reg_congr (by simp) _

theorem State.fabNote_mgrId : (s.fabNote hd type body).mgrId = s.mgrId := State.reg_congr (by simp) _

theorem State.fabNote_copies : (s.fabNote hd type body).copies = s.copies := by
  unfold State.copies
  rw [State.fabNote_cal]

theorem State.fabNote_ring (r : Nat) : (s.fabNote hd type body).ring r = s.ring r := by
  unfold State.ring
  rw [State.fabNote_mgp]

theorem State.relayMsg_seen : (s.relayMsg hd type body).fab.seen = s.fab.seen := by
  unfold State.relayMsg
  cases hd.link with
  | calrin => rfl
  | group g =>
    dsimp only
    repeat' split
    all_goals rfl

/-- A link-local message is passed on to none (R350). -/
theorem State.relayMsg_of_linkLocal {type : Nat} (hl : linkLocal type = true) : s.relayMsg hd type body = s := by
  unfold State.relayMsg
  cases hd.link with
  | calrin => rfl
  | group g => exact if_pos hl

theorem State.fabNote_sendQ_of_linkLocal {type : Nat} (hl : linkLocal type = true) :
    (s.fabNote hd type body).fab.sendQ = s.fab.sendQ := by
  unfold State.fabNote
  rw [State.relayMsg_of_linkLocal _ _ _ hl, State.fabHeard_eq]
end

/-- A serial that is noted has been seen (R352). -/
theorem Seen.has_note (x : Seen) (n : Nat) : (x.note n).has n = true := by
  unfold Seen.note Seen.has
  cases hx : x.any with
  | false => simp
  | true =>
    by_cases hn : x.high < n
    · simp [hn]
    · rcases Nat.eq_or_lt_of_le (Nat.not_lt.mp hn) with rfl | hlt
      · simp
      · by_cases hd : 64 < x.high - n
        · simp [hn, hlt, hd]
        · have hbit : x.high - 1 - n < 64 := by omega
          simp [hn, hlt, hbit]

theorem State.fabNote_seen {s : State} {hd : FabHdr} {type : Nat} (body : List Byte) (hc : countsSerial hd type = true) :
    ((s.fabNote hd type body).fab.seen.look {} hd.origin.toNat).has hd.serial = true := by
  have hheard : (s.fabHeard hd type).fab.seen =
      Tab.put {} s.fab.seen hd.origin.toNat ((s.fab.seen.look {} hd.origin.toNat).note hd.serial) := by
    unfold State.fabHeard
    rw [if_pos hc]
  unfold State.fabNote
  rw [State.relayMsg_seen, hheard, Tab.look_put_self]
  exact Seen.has_note _ _

/-! ### A link that fails (R243, R346, R370) -/

theorem State.plink_congr {s t : State} (hg : t.fab.link = s.fab.link) (hc : t.fab.calrin = s.fab.calrin) (l : Link) :
    t.plink l = s.plink l := by
  unfold State.plink
  rw [hg, hc]

theorem State.cancelFab_plink (s : State) (x : FabFlip) (w : Word) (r : Nat) (l : Link) : (s.cancelFab x w r).plink l = s.plink l := by
  refine State.plink_congr ?_ ?_ l <;>
  · unfold State.cancelFab
    split
    · rfl
    · dsimp only
      rw [State.recEvt_fab]
      split <;> rfl

theorem State.fabLinkFailed_plink (s : State) (g : Option Nat) (l : Link) : (s.fabLinkFailed g).plink l = s.plink l := by
  unfold State.fabLinkFailed
  refine foldl_keep (p := fun t : State => t.plink l) (fun t x => ?_) _ _
  split
  · split
    · exact State.cancelFab_plink _ _ _ _ _
    · rfl
  · rfl

theorem State.calLinkDown_plink {s : State} (hs : (s.plink .calrin).st ≠ .down) :
    (s.calLinkDown.plink .calrin).st = .down ∧ (s.calLinkDown.plink .calrin).keys = none := by
  have hset : s.calLinkDown = (s.setLinkSt .calrin .down).fabLinkFailed none := if_neg hs
  rw [hset, State.fabLinkFailed_plink, (State.setLinkSt_plink s .calrin .down hs).1, if_pos rfl]
  exact ⟨rfl, rfl⟩

/-! ### A delay sample (R346, R347, R355, R356, R382) -/

/-- The samples that a link holds after a further one, at most 16. -/
def PeerLink.samplesWith (x : PeerLink) (d : Nat) : List Nat := (x.samples ++ [d]).drop (x.samples.length + 1 - 16)

/-- A link with a further sample: its delay is the mean, and no request is outstanding. -/
def PeerLink.sampled (x : PeerLink) (d : Nat) : PeerLink :=
  { x with samples := x.samplesWith d, delayPs := meanDelay (x.samplesWith d), reqSerial := none }

section
variable {u : State} {l : Link} {d : Nat}

theorem State.addSample_of_few (h : ((u.plink l).samplesWith d).length < 16) :
    u.addSample l d = u.setPlink l ((u.plink l).sampled d) := if_pos h

theorem State.addSample_of_whole (h : 16 ≤ ((u.plink l).samplesWith d).length) (hs : (u.plink l).st = .measuring) (hl : l ≠ .calrin)
    (hm : meanDelay ((u.plink l).samplesWith d) ≤ 4294967295) :
    u.addSample l d = (u.setPlink l ((u.plink l).sampled d)).setLinkSt l .up := by
  refine (if_neg (Nat.not_lt.mpr h)).trans ?_
  cases l with
  | group g => exact if_pos ⟨hs, hm⟩
  | calrin => exact absurd rfl hl

theorem State.addSample_of_far (h : 16 ≤ ((u.plink .calrin).samplesWith d).length) (hs : (u.plink .calrin).st ≠ .down)
    (hm : 100000 < meanDelay ((u.plink .calrin).samplesWith d)) : u.addSample .calrin d =
      (u.setPlink .calrin ((u.plink .calrin).sampled d)).calLinkDown.event [0] 0x0071 0 (meanDelay ((u.plink .calrin).samplesWith d)) :=
  (if_neg (Nat.not_lt.mpr h)).trans ((if_pos hm).trans (if_neg hs))

/-- Fewer than 16 samples only give a delay. -/
theorem State.addSample_plink_of_few (h : ((u.plink l).samplesWith d).length < 16) :
    (u.addSample l d).plink l = (u.plink l).sampled d := by
  rw [State.addSample_of_few h, State.setPlink_self]

/-- The 16th sample brings a measured link UP. -/
theorem State.addSample_plink_of_whole (h : 16 ≤ ((u.plink l).samplesWith d).length) (hs : (u.plink l).st = .measuring)
    (hl : l ≠ .calrin) (hm : meanDelay ((u.plink l).samplesWith d) ≤ 4294967295) :
    (u.addSample l d).plink l = { (u.plink l).sampled d with st := .up } := by
  have hst : ((u.setPlink l ((u.plink l).sampled d)).plink l).st ≠ .up := by
    rw [State.setPlink_self]
    exact fun hup => LinkSt.noConfusion (hs.symm.trans hup)
  rw [State.addSample_of_whole h hs hl hm, (State.setLinkSt_plink _ l .up hst).1, if_neg (by decide), State.setPlink_self]

/-- A delay beyond the limit brings Calrin DOWN. -/
theorem State.addSample_plink_of_far (h : 16 ≤ ((u.plink .calrin).samplesWith d).length) (hs : (u.plink .calrin).st ≠ .down)
    (hm : 100000 < meanDelay ((u.plink .calrin).samplesWith d)) :
    ((u.addSample .calrin d).plink .calrin).st = .down ∧ ((u.addSample .calrin d).plink .calrin).keys = none := by
  rw [State.addSample_of_far h hs hm, State.event_plink]
  refine State.calLinkDown_plink ?_
  rwa [State.setPlink_self]
end

end Sys2Proof.Machine

/-!
PROOFS. What the link, Flip and status messages of the fabric do where the device receives them (R241 to R243, R355 to R357, R361,
R367, R488).
-/
namespace Sys2Proof.Machine

/-! ### Delay (R355) -/

/-- The answer to a DELAY_REQ. -/
theorem State.send_delayResp_sendQ (s : State) (hd : FabHdr) (body : List Byte) :
    ((s.fabNote hd 2 []).send (some hd.link) 3 hd.origin body).fab.sendQ =
      s.fab.sendQ ++ [⟨some hd.link, 3, s.fabId, hd.origin, s.fab.serial + 1, body, false⟩] := by
  have hmate : ((s.fabNote hd 2 []).copies && decide (0x10 ≤ 3)) = false := Bool.and_false _
  unfold State.send
  rw [State.fabNote_sendQ_of_linkLocal _ _ _ rfl, State.fabNote_serial, State.fabNote_fabId, hmate]

section
variable {s t : State} {hd : FabHdr} {rs t2 p2 t3 t4 p4 : Nat}
  (hr : s.receives hd 3 (beBytes 4 rs ++ beBytes 8 t2 ++ beBytes 4 p2) = true)
  (ht : s.fabNote hd 3 (beBytes 4 rs ++ beBytes 8 t2 ++ beBytes 4 p2) = t)
include hr ht

/-- A DELAY_RESP gives a sample where it answers the outstanding request in time, in a frame with a good header. -/
theorem execDelayResp_of_fitting {q : Nat} (hq : (t.plink hd.link).reqSerial = some q) (hs : q % 2 ^ 32 = rs)
    (h4 : t4 ≤ (t.plink hd.link).reqT1 + 80000) (hb : s.frameBad hd = false) : exec (.delayResp hd rs t2 p2 t3 t4 p4) s = .next
      (t.addSample hd.link (((((t4 : Int) * 125000 + p4) - ((t.plink hd.link).reqT1 : Int) * 125000)
        - ((t3 : Int) * 125000 - ((t2 : Int) * 125000 + p2))).ediv 2 + t.linkAsym hd.link).toNat) := by
  have hbad : t.frameBad hd = false := by rw [← ht, State.fabNote_frameBad, hb]
  refine next_of_receives hr ?_
  dsimp only
  rw [ht, hq]
  exact if_neg (not_or.mpr ⟨not_not_intro hs, not_or.mpr ⟨Nat.not_lt.mpr h4, by simp [hbad]⟩⟩)

theorem execDelayResp_of_other (hq : ∀ q, (t.plink hd.link).reqSerial = some q →
      q % 2 ^ 32 ≠ rs ∨ (t.plink hd.link).reqT1 + 80000 < t4 ∨ s.frameBad hd = true) :
    exec (.delayResp hd rs t2 p2 t3 t4 p4) s = .next t := by
  refine next_of_receives hr ?_
  dsimp only
  rw [State.fabNote_frameBad, ht]
  cases h : (t.plink hd.link).reqSerial with
  | none => rfl
  | some q => exact if_pos (hq q h)
end

/-! ### TN over a link (R357) -/

/-- The TN that a TN_ANNOUNCE gives the present tick: the announced one and the link's delay. -/
def State.announcedTn (s : State) (l : Link) (tn : Nat) (a : Int) : Nat :=
  ((tn : Int) + roundDiv (((s.plink l).delayPs : Int) - a) 125000).toNat

/-- A worker takes its TN from a link that is UP and that its locked Starter follows. -/
def State.tnFrom (s : State) (g : Fin 32) (l : Link) : Prop :=
  s.fabRole = 2 ∧ s.tnSrc = 2 ∧ s.follows_ g = true ∧ (s.plink l).st = .up ∧ s.str.st = .locked

/-- What a TN_ANNOUNCE does on such a worker. -/
def State.takeAnnounce (s : State) (g : Fin 32) (tn v : Nat) : State :=
  if s.clk.tnValid = false then s.takeTn v
  else if s.clk.tn = v then s
  else (s.setSticky (Reg.fabStatus g.val) 0x02000000).event [0] 0x0061 g.val tn

section
variable {s t : State} {hd : FabHdr} {tn : Nat} {a : Int} {g : Fin 32} (hl : hd.link = .group g)
  (hr : s.receives hd 1 (beBytes 8 tn) = true) (ht : s.fabNote hd 1 (beBytes 8 tn) = t)
include hl hr ht

theorem execTnAnnounce_of_followed (hf : t.tnFrom g hd.link) :
    exec (.tnAnnounce hd tn a) s = .next (t.takeAnnounce g tn (t.announcedTn hd.link tn a)) := by
  rw [hl] at hf ⊢
  refine next_of_receives hr ?_
  dsimp only
  rw [ht, hl]
  exact if_pos hf

theorem execTnAnnounce_of_other (hf : ¬t.tnFrom g hd.link) : exec (.tnAnnounce hd tn a) s = .next t := by
  rw [hl] at hf
  refine next_of_receives hr ?_
  dsimp only
  rw [ht, hl]
  exact if_neg hf
end

/-! ### FLIP_PROPOSE (R241, R367) -/

/-- The worker has armed a proposed Flip that it accepts and does not have yet. -/
def State.armed (s : State) (id : Word) (f : Nat) : State :=
  if s.proposeStatus f id ≠ 0 ∨ s.flp.flips.any (fun x => decide (x.id = id) && decide (x.f = f)) then s
  else
    let x : Flip := { h := 65536 + id.toNat, f := f, id := id, fabric := true, fromMgr := true }
    ({ s with flp := { s.flp with flips := s.flp.flips ++ [x] } } : State).recEvt 1 0xFFFF f id.toNat

section
variable {s : State} {id : Word} {f : Nat}

theorem State.armed_of_refused (hc : s.proposeStatus f id ≠ 0) : s.armed id f = s := if_pos (.inl hc)

theorem State.armed_of_known {x : Flip} (hx : x ∈ s.flp.flips) (hid : x.id = id) (hf : x.f = f) : s.armed id f = s :=
  if_pos (.inr (List.any_eq_true.mpr ⟨x, hx, by simp [hid, hf]⟩))

/-- An accepted Flip that the worker does not have yet joins its schedule. -/
theorem State.armed_flips (hc : s.proposeStatus f id = 0) (hn : ∀ x ∈ s.flp.flips, ¬(x.id = id ∧ x.f = f)) :
    (s.armed id f).flp.flips = s.flp.flips ++ [{ h := 65536 + id.toNat, f := f, id := id, fabric := true, fromMgr := true }] := by
  have hany : s.flp.flips.any (fun x => decide (x.id = id) && decide (x.f = f)) = false := by
    rw [List.any_eq_false]
    simpa using hn
  unfold State.armed
  rw [if_neg (by simp [hc, hany]), State.recEvt_flp]

theorem State.armed_has (hc : s.proposeStatus f id = 0) : ∃ x ∈ (s.armed id f).flp.flips, x.id = id ∧ x.f = f := by
  by_cases hn : ∀ x ∈ s.flp.flips, ¬(x.id = id ∧ x.f = f)
  · rw [State.armed_flips hc hn]
    exact ⟨_, List.mem_append_right _ (List.mem_singleton_self _), rfl, rfl⟩
  · push Not at hn
    obtain ⟨x, hx, hid, hf⟩ := hn
    rw [State.armed_of_known hx hid hf]
    exact ⟨x, hx, hid, hf⟩
end

theorem State.armed_keeps (s : State) (id : Word) (f : Nat) :
    (s.armed id f).fab = s.fab ∧ (s.armed id f).regs = s.regs ∧ (s.armed id f).copies = s.copies := by
  unfold State.armed
  split
  · exact ⟨rfl, rfl, rfl⟩
  · exact ⟨State.recEvt_fab .., State.recEvt_regs .., State.recEvt_copies ..⟩

/-- The worker answers with READY. -/
theorem State.armed_ready {s t : State} {hd : FabHdr} {type : Nat} {body : List Byte} (ht : s.fabNote hd type body = t) (id : Word)
    (f : Nat) (b : List Byte) : ((t.armed id f).send none 0x11 (t.armed id f).mgrId b).fab.sendQ =
      t.fab.sendQ ++ [⟨none, 0x11, s.fabId, s.mgrId, t.fab.serial + 1, b, s.copies⟩] := by
  obtain ⟨hfab, hregs, hcopies⟩ := t.armed_keeps id f
  have hmgr : (t.armed id f).mgrId = t.mgrId := State.reg_congr hregs _
  subst ht
  rw [State.send_control hfab hregs hcopies none (by decide), hmgr, State.fabNote_fabId, State.fabNote_mgrId, State.fabNote_copies]

/-! ### FLIP_READY (R243) -/

/-- A worker stands among those that are ready in the manager's record of its Flip. -/
def FabFlip.markReady (y : FabFlip) (id w : Word) : FabFlip :=
  if y.id = id ∧ w ∉ y.ready then { y with ready := y.ready ++ [w] } else y

theorem FabFlip.ready_markReady {y : FabFlip} {id w : Word} (hid : (y.markReady id w).id = id) : w ∈ (y.markReady id w).ready := by
  unfold FabFlip.markReady at *
  by_cases hc : y.id = id ∧ w ∉ y.ready
  · rw [if_pos hc]
    exact List.mem_append_right _ (List.mem_singleton_self _)
  · rw [if_neg hc] at hid ⊢
    exact not_not.mp fun hw => hc ⟨hid, hw⟩

/-- The manager has noted that a worker is ready. -/
def State.markReady (s : State) (id w : Word) : State :=
  { s with flp := { s.flp with fab := s.flp.fab.map (fun y => y.markReady id w) } }

section
variable {s t : State} {hd : FabHdr} {id : Word} {st re : Nat}
  (hr : s.receives hd 0x11 (beBytes 4 id.toNat ++ beBytes 1 st ++ beBytes 1 re) = true)
  (ht : s.fabNote hd 0x11 (beBytes 4 id.toNat ++ beBytes 1 st ++ beBytes 1 re) = t)
include hr ht

/-- What a FLIP_READY does to the Flip that it names. -/
theorem execFlipReady_of_found {x : FabFlip} (hx : s.flp.fab.find? (fun x => x.id = id) = some x) :
    exec (.flipReady hd id st re) s = .next
      (if hd.origin ∉ x.ws then t else if st = 0 then t.markReady id hd.origin
       else if t.tnNow < x.f then t.cancelFab x hd.origin 4 else t) := by
  have hfind : t.flp.fab.find? (fun x => x.id = id) = some x := by rw [← ht, State.fabNote_flp, hx]
  refine next_of_receives hr ?_
  dsimp only
  rw [ht, hfind]
  rfl

theorem execFlipReady_of_unknown (hx : s.flp.fab.find? (fun x => x.id = id) = none) : exec (.flipReady hd id st re) s = .next t := by
  have hfind : t.flp.fab.find? (fun x => x.id = id) = none := by rw [← ht, State.fabNote_flp, hx]
  refine next_of_receives hr ?_
  dsimp only
  rw [ht, hfind]
end

/-! ### FAB_FLIP_CANCEL (R242) -/

/-- A Flip of the manager is cancelled where its window is not open yet. -/
def Flip.cancelBefore (y : Flip) (id : Word) (tn : Nat) : Flip :=
  if y.fromMgr ∧ y.id = id ∧ tn + 4 < y.f then { y with cancelled := true } else y

theorem Flip.cancelled_cancelBefore {y : Flip} {id : Word} {tn : Nat} (hm : (y.cancelBefore id tn).fromMgr = true)
    (hid : (y.cancelBefore id tn).id = id) (hf : tn + 4 < (y.cancelBefore id tn).f) : (y.cancelBefore id tn).cancelled = true := by
  unfold Flip.cancelBefore at *
  by_cases hc : y.fromMgr ∧ y.id = id ∧ tn + 4 < y.f
  · rw [if_pos hc]
  · rw [if_neg hc] at hm hid hf
    exact absurd ⟨hm, hid, hf⟩ hc

/-- The worker has cancelled its Flips of an identifier. -/
def State.cancelFlips (s : State) (id : Word) : State :=
  ({ s with flp := { s.flp with flips := s.flp.flips.map (fun y => y.cancelBefore id s.tnNow) } } : State).recEvt 2 0xFFFF 0 id.toNat

theorem State.cancelFlips_flp (s : State) (id : Word) :
    (s.cancelFlips id).flp = { s.flp with flips := s.flp.flips.map (fun y => y.cancelBefore id s.tnNow) } := State.recEvt_flp ..

theorem State.cancelFlips_hrp (s : State) (id : Word) : (s.cancelFlips id).hrp = s.hrp := State.recEvt_hrp ..

/-! ### FLIP_RESULT (R367, R368) -/

/-- A device's outcome stands among the results in the manager's record of its Flip. -/
def FabFlip.noteResult (y : FabFlip) (id w : Word) (cm : Bool) : FabFlip :=
  if y.id = id ∧ w ∈ y.ws ∧ y.results.all (fun r => decide (r.1 ≠ w)) then { y with results := y.results ++ [(w, cm)] } else y

theorem FabFlip.results_noteResult {y : FabFlip} {id w : Word} {cm : Bool} (hid : (y.noteResult id w cm).id = id)
    (hw : w ∈ (y.noteResult id w cm).ws) : ∃ r ∈ (y.noteResult id w cm).results, r.1 = w := by
  unfold FabFlip.noteResult at *
  by_cases hc : y.id = id ∧ w ∈ y.ws ∧ y.results.all (fun r => decide (r.1 ≠ w))
  · rw [if_pos hc]
    exact ⟨(w, cm), List.mem_append_right _ (List.mem_singleton_self _), rfl⟩
  · rw [if_neg hc] at hid hw ⊢
    by_contra hnone
    push Not at hnone
    exact hc ⟨hid, hw, List.all_eq_true.mpr fun r hr => decide_eq_true (hnone r hr)⟩

/-- The manager has noted the outcome of a device. -/
def State.noteResult (s : State) (id w : Word) (cm : Bool) : State :=
  { s with flp := { s.flp with fab := s.flp.fab.map (fun y => y.noteResult id w cm) } }

/-! ### STATUS (R361, R365) -/

/-- A STATUS puts its worker at the end of the table, present again. -/
theorem execFabStatus_worker {s t : State} {hd : FabHdr} {tn st : Nat} {df : BitVec 56}
    (hr : s.receives hd 0x30 (beBytes 8 tn ++ beBytes 1 st ++ beBytes 7 df.toNat) = true)
    (ht : s.fabNote hd 0x30 (beBytes 8 tn ++ beBytes 1 st ++ beBytes 7 df.toNat) = t) : ∃ w : Worker,
      (w.id = hd.origin ∧ w.silent = 0 ∧ w.lost = false) ∧ exec (.fabStatus hd tn st df) s = .next
        { t with fab := { t.fab with workers := t.fab.workers.filter (fun o => o.id ≠ hd.origin) ++ [w] } } := by
  subst ht
  refine ⟨_, ?_, next_of_receives hr rfl⟩
  cases ho : (s.fabNote hd 0x30 (beBytes 8 tn ++ beBytes 1 st ++ beBytes 7 df.toNat)).worker hd.origin with
  | none => exact ⟨rfl, rfl, rfl⟩
  | some o =>
    dsimp only
    split_ifs
    · exact ⟨by simpa using List.find?_some ho, rfl, rfl⟩
    · exact ⟨rfl, rfl, rfl⟩

/-! ### The obligation -/

/-- Settles O48: a message is passed over by one of the guards of reception (`State.fabTake_of_shut` and those after it) or acts on the
state in which it has been noted (`next_of_receives`), and noting it leaves all but the fabric's serials and send queue. -/
theorem fabricLinkMessages : Obligations.FabricLinkMessages := by
  unfold Obligations.FabricLinkMessages
  refine ⟨?passedOver, ?noted, ?sample, fun hd s =>
    ⟨?delayBad, ?delayReq, ?delayResp, ?announce, ?propose, ?ready, ?cancel, ?result, ?status, ?ringKey⟩⟩
  case passedOver =>
    intro hd n₁ n₂ n₃ n₄ n₅ n₆ i w b d sg ce ee data ch fl df s m hm
    obtain ⟨act, hx⟩ : ∃ act, exec m.1 s = .next (s.fabTake hd m.2.1 m.2.2 act) := by
      simp only [List.mem_cons, List.not_mem_nil, or_false] at hm
      rcases hm with rfl | rfl | rfl | rfl | rfl | rfl | rfl | rfl | rfl | rfl | rfl | rfl | rfl | rfl <;> exact ⟨_, rfl⟩
    rw [hx]
    exact ⟨fun hs => congrArg _ (State.fabTake_of_shut hs), fun hs ht => congrArg _ (State.fabTake_of_untagged hs ht),
      fun hs ht ha => congrArg _ (State.fabTake_of_again hs ht ha), fun hs ht ha hf => congrArg _ (State.fabTake_of_foreign hs ht ha hf),
      fun hs ht ha hf hl hmine => congrArg _ (State.fabTake_of_other hs ht ha hf hl hmine)⟩
  case noted => exact fun hd type body s => ⟨s.fabNote_eq hd type body, State.fabNote_seen body⟩
  case sample =>
    intro l d u x ss y
    refine ⟨State.addSample_plink_of_few, fun h hst hl hm => ?_, fun h hst hl hm => ?_⟩
    · have hy : y = { x.sampled d with st := .up } := State.addSample_plink_of_whole h hst hl hm
      rw [hy]
      exact ⟨rfl, rfl, rfl⟩
    · subst hl
      exact State.addSample_plink_of_far h hst hm
  case delayBad =>
    exact fun t2 p2 hr hb => next_of_receives hr (if_pos (by rw [State.fabNote_frameBad, hb]))
  case delayReq =>
    intro t2 p2 hr hb
    refine ⟨_, next_of_receives hr (if_neg (by simp [State.fabNote_frameBad, hb])), ?_, State.send_delayResp_sendQ _ _ _⟩
    exact State.eq_fab ((State.send_blank rfl ..).trans (State.fabNote_blank rfl ..))
  case delayResp =>
    intro rs t2 p2 t3 t4 p4 B hr t x
    exact ⟨fun q hq hs h4 hb => execDelayResp_of_fitting hr rfl hq hs h4 hb, execDelayResp_of_other hr rfl⟩
  case announce =>
    intro tn a g hl hr t v
    have hclk : t.clk = s.clk := State.fabNote_clk ..
    have hstr : t.str = s.str := State.fabNote_str ..
    refine ⟨fun h1 h2 h3 h4 h5 => ?_, fun hn => execTnAnnounce_of_other hl hr rfl fun ⟨h1, h2, h3, h4, h5⟩ =>
      hn ⟨h1, h2, h3, h4, hstr ▸ h5⟩⟩
    rw [execTnAnnounce_of_followed hl hr rfl ⟨h1, h2, h3, h4, hstr ▸ h5⟩, State.takeAnnounce, hclk]
    refine ⟨fun hv => ?_, fun hv he => ?_, fun hv he => ?_⟩
    · rw [if_pos hv, State.takeTn, hclk]
      rfl
    · rw [if_neg (by simp [hv])]
      exact congrArg _ (if_pos he)
    · rw [if_neg (by simp [hv])]
      exact congrArg _ (if_neg he)
  case propose =>
    intro id f B hr t c
    have hflp : t.flp = s.flp := State.fabNote_flp ..
    refine ⟨(t.armed id f).send none 0x11 (t.armed id f).mgrId _, next_of_receives hr rfl, fun hc => ?_, State.armed_has, fun hc hn => ?_,
      State.armed_ready rfl id f _⟩
    · exact (congrArg State.flp (State.armed_of_refused hc)).trans hflp
    · rw [← hflp] at hn ⊢
      exact State.armed_flips hc hn
  case ready =>
    intro id st re B hr t
    have hflp : t.flp = s.flp := State.fabNote_flp ..
    refine ⟨fun x hx => ?_, execFlipReady_of_unknown hr rfl⟩
    rw [execFlipReady_of_found hr rfl hx]
    refine ⟨fun hst hw => ⟨t.markReady id hd.origin, ?_, fun y hy hid => ?_, ?_, ?_⟩, fun hst hw hf => ?_, fun hw => ?_⟩
    · rw [if_neg (not_not_intro hw), if_pos hst]
    · obtain ⟨z, -, rfl⟩ := List.mem_map.mp hy
      exact FabFlip.ready_markReady hid
    · rw [← hflp]
      exact List.length_map _
    · rw [← hflp]
      rfl
    · rw [if_neg (not_not_intro hw), if_neg hst, if_pos (by rwa [State.fabNote_tnNow])]
    · rw [if_pos hw]
  case cancel =>
    intro id fid B hr
    have hflp : ((s.fabNote hd 0x12 B).cancelFlips id).flp = { s.flp with flips := s.flp.flips.map (fun y => y.cancelBefore id s.tnNow) } := by
      rw [State.cancelFlips_flp, State.fabNote_flp, State.fabNote_tnNow]
    refine ⟨(s.fabNote hd 0x12 B).cancelFlips id, next_of_receives hr rfl, ?_, ?_, ?_, fun x hx hm hid hf => ?_⟩
    · rw [State.cancelFlips_hrp, State.fabNote_hrp]
    · rw [hflp]
    · rw [hflp]
      exact List.length_map _
    · rw [hflp] at hx
      obtain ⟨z, -, rfl⟩ := List.mem_map.mp hx
      exact Flip.cancelled_cancelBefore hm hid hf
  case result =>
    intro id cm B hr t
    have hflp : t.flp = s.flp := State.fabNote_flp ..
    refine ⟨t.noteResult id hd.origin cm, next_of_receives hr rfl, ?_, fun y hy hid hw => ?_⟩
    · rw [← hflp]
      rfl
    · obtain ⟨z, -, rfl⟩ := List.mem_map.mp hy
      exact FabFlip.results_noteResult hid hw
  case status =>
    intro tn st df B hr
    obtain ⟨w, ⟨hid, hsilent, hlost⟩, hx⟩ := execFabStatus_worker hr rfl
    refine ⟨_, w, hx, ?_, hid, hsilent, hlost, ?_⟩
    · rw [State.fabNote_workers]
    · exact State.eq_fab ((State.blank_fab rfl _ _).trans (State.fabNote_blank rfl ..))
  case ringKey =>
    intro r k hl hm hr
    refine ⟨_, (congrArg _ (if_pos ⟨hl, hm⟩)).trans (next_of_receives hr rfl), ?_, fun j hj => ?_⟩
    · rw [State.setRing_self, State.fabNote_ring]
    · rw [State.setRing_of_ne _ _ hj, State.fabNote_ring]

end Sys2Proof.Machine

/-!
PROOFS. The Cave's deadline arbiters, its freeze bits, a failed stack and the end of a move (R284 to R292).
-/
namespace Sys2Proof.Machine

/-! ### The request that wins, and the one served (R284, R286) -/

theorem winner_eq_none {l : List CavReq} (h : winner l = none) : l = [] := by
  cases l with
  | nil => rfl
  | cons a t =>
    unfold winner at h
    split at h
    · exact nomatch h
    · split at h <;> exact nomatch h

theorem winner_nearest (l : List CavReq) : ∀ r, winner l = some r →
    r ∈ l ∧ ∀ x ∈ l, r.deadline ≤ x.deadline ∧ (x.deadline = r.deadline → r.who ≤ x.who) := by
  induction l with
  | nil => exact fun _ h => nomatch h
  | cons a t ih =>
    intro r h
    unfold winner at h
    split at h
    next hw =>
      obtain rfl := Option.some.inj h
      simp [winner_eq_none hw]
    next w hw =>
      obtain ⟨hm, hall⟩ := ih w hw
      split at h
      next hlt =>
        obtain rfl := Option.some.inj h
        exact ⟨List.mem_cons_of_mem _ hm, List.forall_mem_cons.mpr ⟨by omega, hall⟩⟩
      next hge =>
        obtain rfl := Option.some.inj h
        refine ⟨List.mem_cons_self, List.forall_mem_cons.mpr ⟨by omega, fun x hx => ?_⟩⟩
        have := hall x hx
        omega

theorem served_of_none_granted {l : List CavReq} (h : l.find? (fun r => r.granted) = none) : served l = winner l := by
  unfold served
  rw [h]

/-- A grant is kept until a request with a nearer deadline revokes it (R286). -/
theorem served_of_granted {l : List CavReq} {g w : CavReq} (hg : l.find? (fun r => r.granted) = some g) (hw : winner l = some w) :
    served l = some (if w.deadline < g.deadline then w else g) := by
  unfold served
  rw [hg, hw]
  exact (apply_ite some _ _ _).symm

theorem served_mem {l : List CavReq} {r : CavReq} (h : served l = some r) : r ∈ l := by
  cases hg : l.find? (fun r => r.granted) with
  | none => exact (winner_nearest l r (served_of_none_granted hg ▸ h)).1
  | some g =>
    cases hw : winner l with
    | none =>
      unfold served at h
      rw [hg, hw] at h
      exact Option.some.inj h ▸ List.mem_of_find?_eq_some hg
    | some w =>
      rw [served_of_granted hg hw] at h
      obtain rfl := Option.some.inj h
      split
      · exact (winner_nearest l w hw).1
      · exact List.mem_of_find?_eq_some hg

/-- A request that is raised stands somewhere, and replacing it changes that place alone. -/
theorem replaceReq_split {r : CavReq} : ∀ {l : List CavReq}, r ∈ l →
    ∃ l₁ l₂, l = l₁ ++ r :: l₂ ∧ ∀ n, replaceReq r n l = l₁ ++ (n.toList ++ l₂)
  | [], h => nomatch h
  | a :: t, h => by
    by_cases ha : a = r
    · exact ⟨[], t, by rw [ha]; rfl, fun n => if_pos ha⟩
    · obtain ⟨l₁, l₂, rfl, hn⟩ := replaceReq_split ((List.mem_cons.mp h).resolve_left (Ne.symm ha))
      exact ⟨a :: l₁, l₂, rfl, fun n => (if_neg ha).trans (congrArg _ (hn n))⟩

/-! ### The requests and the stacks in the state -/

theorem State.reqsAt_congr {s t : State} (h : t.col.reqs = s.col.reqs) (m : Nat) : t.reqsAt m = s.reqsAt m := by
  unfold State.reqsAt
  rw [h]

theorem State.stack_congr {s t : State} (h : t.col.stack = s.col.stack) (k : Nat) : t.stack k = s.stack k := by
  unfold State.stack
  rw [h]

theorem State.stackRegions_congr {s t : State} (h : t.col.pair = s.col.pair) (k : Nat) : t.stackRegions k = s.stackRegions k := by
  unfold State.stackRegions
  rw [h]

theorem State.frozen_congr {s t : State} (h : t.regs = s.regs) (k : Nat) : t.frozen k = s.frozen k := by
  unfold State.frozen
  rw [State.reg_congr h]

@[simp] theorem State.setReqs_self (s : State) (m : Nat) (l : List CavReq) : (s.setReqs m l).reqsAt m = l := Tab.look_put_self _ _ _ _

theorem State.setReqs_of_ne (s : State) {i m : Nat} (l : List CavReq) (h : m ≠ i) : (s.setReqs i l).reqsAt m = s.reqsAt m :=
  Tab.look_put_of_ne _ _ _ _ h

@[simp] theorem State.caveTouched_col (s : State) (t : Nat) : (s.caveTouched t).col = s.col := by
  unfold State.caveTouched
  split <;> rfl

/-! ### A burst completes (R286, R288, R292) -/

/-- What a served request leaves: nothing after its last burst. -/
def CavReq.afterBurst (frozen : Bool) (r : CavReq) : Option CavReq :=
  if r.bursts ≤ 1 then none else some { r with bursts := r.bursts - 1, granted := !frozen }

/-- The requests after a burst of `r`: all others lose their grants. -/
def burstDone (frozen : Bool) (r : CavReq) (l : List CavReq) : List CavReq :=
  (replaceReq r (r.afterBurst frozen) l).map (fun x => if some x = r.afterBurst frozen then x else { x with granted := false })

/-- The request that a burst boundary serves (R288). -/
def State.servedAt (s : State) (pc : Nat) : Option CavReq :=
  if s.frozen (pc / 32) then (s.reqsAt pc).find? (fun r => r.granted) else served (s.reqsAt pc)

theorem exec_caveBurstComplete_idle {s : State} {pc : Fin 192} (unc : Bool) (hup : s.up = true) (h : s.servedAt pc = none) :
    exec (.caveBurstComplete pc unc) s = .next s := by
  refine (whenUp_of_up hup).trans (congrArg _ ?_)
  unfold State.servedAt at h
  rw [h]

/-- A burst of request `r` changes the requests of its pseudo-channel as `burstDone` says, and no pair. -/
theorem exec_caveBurstComplete_col {s : State} {pc : Fin 192} {r : CavReq} (unc : Bool) (hup : s.up = true)
    (h : s.servedAt pc = some r) : ∃ t : State, exec (.caveBurstComplete pc unc) s = .next t ∧ t.col.pair = s.col.pair ∧
      t.col.reqs = (s.setReqs pc (burstDone (s.frozen (pc / 32)) r (s.reqsAt pc))).col.reqs := by
  refine ⟨_, whenUp_of_up hup, ?_⟩
  unfold State.servedAt at h
  rw [h, List.map_id']
  have hcol : ∀ c : Prop, ∀ [Decidable c], (if c then s.count 4 (pc / 32) 3 1 else s).col = s.col := by
    intro c _
    split <;> simp
  have hfrozen : ∀ c : Prop, ∀ [Decidable c], (if c then s.count 4 (pc / 32) 3 1 else s).frozen (pc / 32) = s.frozen (pc / 32) := by
    intro c _
    split
    · exact State.frozen_congr (State.count_regs ..) _
    · rfl
  have hwritten : ∀ u : State, ∀ t, (if r.who = 0 then u.caveTouched t else u).col = u.col := by
    intro u t
    split <;> simp
  dsimp only
  rw [hfrozen]
  cases unc with
  | false => simp [State.setReqs, hwritten, hcol, burstDone, CavReq.afterBurst]
  | true => simp [State.setStack, State.setReqs, hwritten, hcol, burstDone, CavReq.afterBurst]

theorem exec_caveBurstComplete_serves {s : State} {pc : Fin 192} {r : CavReq} (unc : Bool) (hup : s.up = true)
    (h : s.servedAt pc = some r) : ∃ t : State, exec (.caveBurstComplete pc unc) s = .next t ∧ t.col.pair = s.col.pair ∧
      t.reqsAt pc = burstDone (s.frozen (pc / 32)) r (s.reqsAt pc) ∧ ∀ m, m ≠ pc.val → t.reqsAt m = s.reqsAt m := by
  obtain ⟨t, ht, hpair, hreqs⟩ := exec_caveBurstComplete_col unc hup h
  have hread := State.reqsAt_congr hreqs
  exact ⟨t, ht, hpair, by rw [hread, State.setReqs_self], fun m hm => by rw [hread, State.setReqs_of_ne _ _ hm]⟩

theorem burstDone_of_last {r : CavReq} {l l₁ l₂ : List CavReq} (frozen : Bool) (hr : r.bursts ≤ 1)
    (hl : ∀ n, replaceReq r n l = l₁ ++ (n.toList ++ l₂)) :
    burstDone frozen r l = (l₁ ++ l₂).map (fun x => { x with granted := false }) := by
  have hn : r.afterBurst frozen = none := if_pos hr
  unfold burstDone
  rw [hl, hn]
  simp

theorem burstDone_of_more {r : CavReq} {l l₁ l₂ : List CavReq} (hr : 1 < r.bursts) (hs : l = l₁ ++ r :: l₂)
    (hl : ∀ n, replaceReq r n l = l₁ ++ (n.toList ++ l₂)) :
    { r with bursts := r.bursts - 1, granted := true } ∈ burstDone false r l ∧ (burstDone false r l).length = l.length ∧
      ∀ x ∈ burstDone false r l, x.granted = true → x = { r with bursts := r.bursts - 1, granted := true } := by
  have hn : r.afterBurst false = some { r with bursts := r.bursts - 1, granted := true } := if_neg (Nat.not_le.mpr hr)
  unfold burstDone
  rw [hl, hn, hs]
  refine ⟨List.mem_map.mpr ⟨_, by simp, if_pos rfl⟩, by simp, fun x hx hg => ?_⟩
  obtain ⟨y, -, rfl⟩ := List.mem_map.mp hx
  split at hg
  next hy => rw [if_pos hy]; exact Option.some.inj hy
  next => exact nomatch hg

/-! ### A request is abandoned (R287) -/

/-- From `s` to `t` pair `n` alone changes, and it keeps its gaps; the requests stand. -/
structure State.KeepsGaps (n : Nat) (s t : State) : Prop where
  reqs : t.col.reqs = s.col.reqs
  holes : (t.pair n).holes = (s.pair n).holes
  missed : (t.pair n).missed = (s.pair n).missed
  others : ∀ m, m ≠ n → t.pair m = s.pair m

theorem State.KeepsGaps.refl (n : Nat) (s : State) : State.KeepsGaps n s s := ⟨rfl, rfl, rfl, fun _ _ => rfl⟩

theorem State.KeepsGaps.trans {n : Nat} {s t u : State} (h : State.KeepsGaps n s t) (k : State.KeepsGaps n t u) : State.KeepsGaps n s u :=
  ⟨k.reqs.trans h.reqs, k.holes.trans h.holes, k.missed.trans h.missed, fun m hm => (k.others m hm).trans (h.others m hm)⟩

theorem State.KeepsGaps.splice (n : Nat) (s : State) (t : Nat) (pay : List Bool) :
    State.KeepsGaps n s (s.setPair n ((s.pair n).splice t pay)) :=
  ⟨rfl, by rw [State.setPair_self]; rfl, by rw [State.setPair_self]; rfl, fun _ hm => State.setPair_of_ne _ _ hm⟩

theorem State.KeepsGaps.ite {n : Nat} {s t u : State} {c : Prop} [Decidable c] (h : State.KeepsGaps n s t) (k : State.KeepsGaps n s u) :
    State.KeepsGaps n s (if c then t else u) := by
  split
  · exact h
  · exact k

theorem State.spliceMiss_keepsGaps (s : State) (n x t : Nat) : State.KeepsGaps n s (s.spliceMiss n x t) := by
  unfold State.spliceMiss
  extract_lets p area first u q
  have hs : State.KeepsGaps n s u := by
    subst u
    split
    · exact .ite (.refl n s) (.splice n s _ _)
    · exact .refl n s
  refine hs.trans ?_
  split
  · exact .ite (.refl n u) (.splice n u _ _)
  · exact .refl n u

/-- The group of its chunk that an abandoned write or read leaves without its words (R287). -/
def Pair.noteGap (p : Pair) (r : CavReq) : Pair :=
  if r.who = 0 then { p with holes := (r.x, r.grp) :: p.holes } else { p with missed := (r.x, r.grp) :: p.missed }

theorem Pair.noteGap_holes (p : Pair) {r : CavReq} (h : r.who = 0) : (r.x, r.grp) ∈ (p.noteGap r).holes := by
  unfold Pair.noteGap
  rw [if_pos h]
  exact List.mem_cons_self

theorem Pair.noteGap_missed (p : Pair) {r : CavReq} (h : r.who = 1) : (r.x, r.grp) ∈ (p.noteGap r).missed := by
  unfold Pair.noteGap
  rw [if_neg (by omega)]
  exact List.mem_cons_self

/-- From `s` to `t` request `r` is taken out at pseudo-channel `pc`; of a write or a read its chunk's group is noted (R287). -/
structure State.Abandons (pc : Nat) (r : CavReq) (s t : State) : Prop where
  reqs : t.col.reqs = (s.setReqs pc (replaceReq r none (s.reqsAt pc))).col.reqs
  holes : r.who = 0 → (r.x, r.grp) ∈ (t.pair r.pair).holes
  missed : r.who = 1 → (r.x, r.grp) ∈ (t.pair r.pair).missed
  pair : 1 < r.who → t.col.pair = s.col.pair
  others : ∀ m, m ≠ r.pair → t.pair m = s.pair m

theorem State.Abandons.of_noted {pc : Nat} {r : CavReq} {s u t : State} (hr : ¬ 1 < r.who)
    (hu : u.col = (s.setReqs pc (replaceReq r none (s.reqsAt pc))).col)
    (h : State.KeepsGaps r.pair (u.setPair r.pair ((u.pair r.pair).noteGap r)) t) : State.Abandons pc r s t := by
  have hself := State.setPair_self u r.pair ((u.pair r.pair).noteGap r)
  exact {
    reqs := h.reqs.trans ((congrArg Col.reqs hu : u.col.reqs = _) :)
    holes := fun h0 => by rw [h.holes, hself]; exact Pair.noteGap_holes _ h0
    missed := fun h1 => by rw [h.missed, hself]; exact Pair.noteGap_missed _ h1
    pair := fun hgt => absurd hgt hr
    others := fun m hm => (h.others m hm).trans ((State.setPair_of_ne _ _ hm).trans (State.pair_congr hu m)) }

theorem exec_caveRequestAbandon {s : State} {pc : Fin 192} {r : CavReq} (hup : s.up = true)
    (h : (s.reqsAt pc).find? (fun r => decide (r.deadline < s.secClock)) = some r) :
    ∃ t : State, exec (.caveRequestAbandon pc) s = .next t ∧ State.Abandons pc r s t := by
  refine ⟨_, whenUp_of_up hup, ?_⟩
  rw [h]
  dsimp only
  split
  next hw => exact {
    reqs := by rw [State.count_col]
    holes := by omega
    missed := by omega
    pair := fun _ => by rw [State.count_col]; rfl
    others := fun m _ => State.pair_congr (State.count_col ..) m }
  next hw =>
    exact .of_noted hw ((State.count_col ..).trans (State.count_col ..)) (.ite (State.spliceMiss_keepsGaps ..) (.refl ..))

theorem exec_caveRequestAbandon_of_timely {s : State} {pc : Fin 192} (hup : s.up = true)
    (h : ∀ r ∈ s.reqsAt pc, s.secClock ≤ r.deadline) : exec (.caveRequestAbandon pc) s = .next s := by
  have hn : (s.reqsAt pc).find? (fun r => decide (r.deadline < s.secClock)) = none :=
    List.find?_eq_none.mpr fun r hr => by simpa using h r hr
  refine (whenUp_of_up hup).trans (congrArg _ ?_)
  rw [hn]

/-! ### The freeze bits (R288, R290, R291) -/

theorem bit_setBit (w : Word) {t : Nat} (k : Nat) (ht : t < 32) :
    bit (w ||| BitVec.ofNat 32 (2 ^ t)) k = (decide (k = t) || bit w k) := by
  unfold bit
  rw [BitVec.getLsbD_or, BitVec.getLsbD_ofNat, Nat.testBit_two_pow, Bool.or_comm]
  by_cases h : k = t
  · simp [h, ht]
  · simp [h, Ne.symm h]

theorem bit_clearBit (w : Word) {t k : Nat} (hk : k < 32) :
    bit (w &&& ~~~(BitVec.ofNat 32 (2 ^ t))) k = (!decide (k = t) && bit w k) := by
  unfold bit
  rw [BitVec.getLsbD_and, BitVec.getLsbD_not, BitVec.getLsbD_ofNat, Nat.testBit_two_pow, Bool.and_comm]
  by_cases h : k = t
  · simp [h, h ▸ hk]
  · simp [h, Ne.symm h, hk]

theorem State.setReg_frozen (s : State) (v : Word) (k : Nat) : (s.setReg Reg.arbFreeze v).frozen k = bit v k :=
  congrArg (bit · k) (State.setReg_reg_self s _ v)

theorem State.setReg_stack (s : State) (a : Nat) (v : Word) (k : Nat) : (s.setReg a v).stack k = s.stack k := rfl

/-- From `s` to `t` no stack changes, and no register (its sticky bits included). -/
structure State.StacksStand (s t : State) : Prop where
  regs : t.regs = s.regs
  sticky : t.sticky = s.sticky
  stack : t.col.stack = s.col.stack

theorem State.StacksStand.foldl {α : Type} {g : State → α → State} (hg : ∀ s a, State.StacksStand s (g s a)) (l : List α) (s : State) :
    State.StacksStand s (l.foldl g s) :=
  ⟨foldl_keep (fun s a => (hg s a).regs) l s, foldl_keep (fun s a => (hg s a).sticky) l s,
    foldl_keep (p := fun s => s.col.stack) (fun s a => (hg s a).stack) l s⟩

theorem State.setReqs_stacksStand (s : State) (m : Nat) (l : List CavReq) : State.StacksStand s (s.setReqs m l) := ⟨rfl, rfl, rfl⟩

theorem State.grantAt_eq (s : State) (m : Nat) : ∃ r, s.grantAt m = { s with col := { s.col with reqs := r } } := by
  unfold State.grantAt
  split <;> exact ⟨_, rfl⟩

theorem State.grantStack_stacksStand (s : State) (t : Nat) : State.StacksStand s (s.grantStack t) := by
  unfold State.grantStack
  refine .foldl (fun s i => ?_) _ _
  obtain ⟨r, hr⟩ := s.grantAt_eq (32 * t + i)
  rw [hr]
  exact ⟨rfl, rfl, rfl⟩

theorem State.grantStack_pair (s : State) (t : Nat) : (s.grantStack t).col.pair = s.col.pair := by
  unfold State.grantStack
  refine foldl_keep (p := fun s => s.col.pair) (fun s i => ?_) _ _
  obtain ⟨r, hr⟩ := s.grantAt_eq (32 * t + i)
  rw [hr]

theorem State.dropWhisk_stacksStand (s : State) (t : Nat) : State.StacksStand s (s.dropWhisk t) := by
  unfold State.dropWhisk
  exact .foldl (fun s _ => s.setReqs_stacksStand _ _) _ _

theorem State.dropWhisk_pair (s : State) (t : Nat) : (s.dropWhisk t).col.pair = s.col.pair := by
  unfold State.dropWhisk
  refine foldl_keep (p := fun s => s.col.pair) (fun s i => ?_) _ _
  rfl

/-- The freeze bit of stack `t` becomes `b`; no pair, no other stack and no other freeze bit changes. -/
structure State.Freezes (t : Nat) (b : Bool) (s u : State) : Prop where
  pair : u.col.pair = s.col.pair
  bitSelf : u.frozen t = b
  bitOther : ∀ k, k < 32 → k ≠ t → u.frozen k = s.frozen k
  stackOther : ∀ k, k ≠ t → u.stack k = s.stack k

theorem State.Freezes.of_setReg {t : Nat} {b : Bool} {s u : State} {v : Word} (hpair : u.col.pair = s.col.pair)
    (hv : bit v t = b ∧ ∀ k, k < 32 → k ≠ t → bit v k = s.frozen k) (hstack : ∀ k, k ≠ t → u.stack k = s.stack k) :
    State.Freezes t b s (u.setReg Reg.arbFreeze v) where
  pair := hpair
  bitSelf := (State.setReg_frozen ..).trans hv.1
  bitOther k hk hne := (State.setReg_frozen ..).trans (hv.2 k hk hne)
  stackOther := hstack

theorem State.freezeStack_eq (s : State) (t : Nat) : s.freezeStack t =
    (s.grantStack t).setReg Reg.arbFreeze (s.reg Reg.arbFreeze ||| BitVec.ofNat 32 (2 ^ t)) := by
  unfold State.freezeStack
  dsimp only
  rw [State.reg_congr (s.grantStack_stacksStand t).regs]

theorem State.freezeStack_freezes (s : State) {t : Nat} (ht : t < 32) : State.Freezes t true s (s.freezeStack t) := by
  rw [State.freezeStack_eq]
  refine .of_setReg (s.grantStack_pair t) ⟨?_, fun k _ hk => ?_⟩ fun k _ => State.stack_congr (s.grantStack_stacksStand t).stack k
  · rw [bit_setBit _ _ ht]
    simp
  · rw [bit_setBit _ _ ht]
    simp [hk, State.frozen]

/-- The stack as its freeze bit is cleared: it owes a test pass where it was out of service (R288, R291). -/
def Stack.thawed (x : Stack) (back : Bool) : Stack :=
  { x with failed := false, testing := x.testing || back, unproven := x.unproven || back }

/-- Clearing the bit of stack `t` changes that stack and the bit, and takes Whisk's requests off. -/
theorem State.thawStack_eq (s : State) (t : Nat) : ∃ u : State, u.col.pair = s.col.pair ∧
    u.col.stack = (s.setStack t ((s.stack t).thawed (s.oos t))).col.stack ∧
    s.thawStack t = u.setReg Reg.arbFreeze (s.reg Reg.arbFreeze &&& ~~~(BitVec.ofNat 32 (2 ^ t))) := by
  unfold State.thawStack
  extract_lets back x v w u
  have hu : u.regs = v.regs ∧ u.col.pair = v.col.pair ∧ u.col.stack = v.col.stack := by
    subst u
    split
    · have h := v.dropWhisk_stacksStand t
      rw [State.setWhisk_regs, State.setWhisk_col]
      exact ⟨h.regs, v.dropWhisk_pair t, h.stack⟩
    · exact ⟨rfl, rfl, rfl⟩
  obtain ⟨hregs, hpair, hstack⟩ := hu
  exact ⟨u, hpair, hstack, by rw [State.reg_congr (t := u) (s := s) hregs]⟩

theorem State.thawStack_freezes (s : State) {t : Nat} (ht : t < 32) : State.Freezes t false s (s.thawStack t) := by
  obtain ⟨u, hpair, hstack, hu⟩ := s.thawStack_eq t
  rw [hu]
  refine .of_setReg hpair ⟨?_, fun k hk hne => ?_⟩ fun k hk => (State.stack_congr hstack k).trans (State.setStack_of_ne _ _ hk)
  · rw [bit_clearBit _ ht]
    simp
  · rw [bit_clearBit _ hk]
    simp [hne, State.frozen]

theorem State.thawStack_stack_self (s : State) (t : Nat) : (s.thawStack t).stack t = (s.stack t).thawed (s.oos t) := by
  obtain ⟨u, -, hstack, hu⟩ := s.thawStack_eq t
  rw [hu, State.setReg_stack, State.stack_congr hstack, State.setStack_self]


/-- What a write of the freeze bits does to stack `k` (R288, R291). -/
structure State.FreezeWritten (v : Word) (k : Nat) (s u : State) : Prop where
  frozen : u.frozen k = bit v k
  back : bit v k = false → s.oos k = true → (u.stack k).testing = true ∧ (u.stack k).unproven = true
  same : s.frozen k = bit v k → u.stack k = s.stack k

/-- The part of a write of the freeze bits that concerns stack `t`. -/
def State.writeFreezeBit (v : Word) (s : State) (t : Nat) : State :=
  if s.frozen t = bit v t then s else if bit v t then s.freezeStack t else s.thawStack t

theorem State.writeFreeze_eq (s : State) (v : Word) : s.writeFreeze v = (List.range 6).foldl (State.writeFreezeBit v) s := rfl

theorem State.writeFreezeBit_freezes (v : Word) (s : State) {t : Nat} (ht : t < 32) :
    State.Freezes t (bit v t) s (State.writeFreezeBit v s t) := by
  unfold State.writeFreezeBit
  split
  next h => exact ⟨rfl, h, fun _ _ _ => rfl, fun _ _ => rfl⟩
  next =>
    split
    next h => rw [h]; exact s.freezeStack_freezes ht
    next h => rw [eq_false_of_ne_true h]; exact s.thawStack_freezes ht

theorem State.writeFreezeBit_written (v : Word) (s : State) {t : Nat} (ht : t < 32) :
    State.FreezeWritten v t s (State.writeFreezeBit v s t) where
  frozen := (State.writeFreezeBit_freezes v s ht).bitSelf
  back hv ho := by
    have hf : s.frozen t = true := (Bool.and_eq_true_iff.mp ho).1
    unfold State.writeFreezeBit
    rw [if_neg (by simp [hf, hv]), if_neg (by simp [hv]), State.thawStack_stack_self]
    simp [Stack.thawed, ho]
  same h := by
    unfold State.writeFreezeBit
    rw [if_pos h]

/-- The bits below `n` written, what the write does to any stack: all of it once it is reached, nothing before. -/
theorem State.writeFreezeBits (v : Word) (s : State) {k : Nat} (hk : k < 32) : ∀ n, n ≤ 32 →
    let u := (List.range n).foldl (State.writeFreezeBit v) s
    u.col.pair = s.col.pair ∧ (n ≤ k → u.frozen k = s.frozen k ∧ u.stack k = s.stack k) ∧ (k < n → State.FreezeWritten v k s u) := by
  intro n
  induction n with
  | zero => exact fun _ => ⟨rfl, fun _ => ⟨rfl, rfl⟩, fun h => absurd h (Nat.not_lt_zero k)⟩
  | succ n ih =>
    intro hn
    obtain ⟨hpair, hbefore, hafter⟩ := ih (Nat.le_of_succ_le hn)
    rw [List.range_succ, List.foldl_append, List.foldl_cons, List.foldl_nil]
    generalize (List.range n).foldl (State.writeFreezeBit v) s = u at hpair hbefore hafter ⊢
    have hf := State.writeFreezeBit_freezes v u (t := n) hn
    refine ⟨hf.pair.trans hpair, fun h => ?_, fun h => ?_⟩
    · obtain ⟨hfr, hst⟩ := hbefore (by omega)
      exact ⟨(hf.bitOther k hk (by omega)).trans hfr, (hf.stackOther k (by omega)).trans hst⟩
    · by_cases hkn : k = n
      · subst hkn
        obtain ⟨hfr, hst⟩ := hbefore (le_refl k)
        have hw := State.writeFreezeBit_written v u hk
        have hoos : u.oos k = s.oos k := by
          unfold State.oos
          rw [hfr, State.stackRegions_congr hpair]
        exact ⟨hw.frozen, fun hv ho => hw.back hv (hoos.trans ho), fun hs => (hw.same (hfr.trans hs)).trans hst⟩
      · have hw := hafter (by omega)
        have hfr := hf.bitOther k hk hkn
        have hst := hf.stackOther k hkn
        exact ⟨hfr.trans hw.frozen, fun hv ho => hst ▸ hw.back hv ho, fun hs => hst.trans (hw.same hs)⟩

theorem State.writeFreeze_pair (s : State) (v : Word) : (s.writeFreeze v).col.pair = s.col.pair := by
  rw [State.writeFreeze_eq]
  exact (State.writeFreezeBits v s (k := 0) (by omega) 6 (by omega)).1

theorem State.writeFreeze_written (s : State) (v : Word) {k : Nat} (hk : k < 6) : State.FreezeWritten v k s (s.writeFreeze v) := by
  rw [State.writeFreeze_eq]
  exact (State.writeFreezeBits v s (k := k) (by omega) 6 (by omega)).2.2 hk

theorem exec_cavArbFreezeWrite {s : State} (qp : Fin 16) (v : Word) (hup : s.up = true) :
    exec (.cavArbFreezeWrite qp v) s = .next (s.ownerWrite qp (fun s => s.writeFreeze v)) := whenUp_of_up hup

/-- A stack that owes a test pass admits no booking (R291). -/
theorem State.admits_of_testing {s : State} {k : Nat} (h : (s.stack k).testing = true) : s.admits k = false := by
  unfold State.admits
  rw [h]
  simp

/-! ### A failed stack (R292) -/

theorem State.missRead_stacksStand (s : State) (n x j : Nat) : State.StacksStand s (s.missRead n x j) := by
  unfold State.missRead
  refine ⟨State.count_regs .., State.count_sticky .., ?_⟩
  rw [State.count_col]
  rfl

theorem State.StacksStand.trans {s t u : State} (h : State.StacksStand s t) (k : State.StacksStand t u) : State.StacksStand s u :=
  ⟨k.regs.trans h.regs, k.sticky.trans h.sticky, k.stack.trans h.stack⟩

theorem State.missReads_stacksStand (s : State) (t : Nat) : State.StacksStand s (s.missReads t) := by
  unfold State.missReads
  exact .foldl (fun s i => (s.setReqs_stacksStand _ _).trans (.foldl (fun s r => s.missRead_stacksStand _ _ _) _ _)) _ _

theorem State.event_stacksStand (s : State) (ps : List Nat) (a b c : Nat) : State.StacksStand s (s.event ps a b c) :=
  ⟨State.event_regs .., State.event_sticky .., congrArg Col.stack (State.event_col ..)⟩

/-- Stack `k` marked failed and frozen, its reads not yet abandoned. -/
def State.markStackFailed (s : State) (k : Nat) : State :=
  let u := s.setSticky (Reg.stackStatus k) 0x20000000
  let u := u.setReg Reg.arbFreeze (u.reg Reg.arbFreeze ||| BitVec.ofNat 32 (2 ^ k))
  u.setStack k { u.stack k with failed := true, uncorr := 0 }

/-- The state with stack `k` failed and frozen, before a member of a pair yields. -/
def State.stackFailed (s : State) (k : Nat) : State := ((s.markStackFailed k).missReads k).event [0] 0x0041 k 0

theorem State.stackFailed_stacksStand (s : State) (k : Nat) : State.StacksStand (s.markStackFailed k) (s.stackFailed k) :=
  (State.missReads_stacksStand _ k).trans (State.event_stacksStand ..)

theorem State.markStackFailed_frozen (s : State) {k : Nat} (hk : k < 32) (j : Nat) :
    (s.markStackFailed k).frozen j = (decide (j = k) || s.frozen j) :=
  (State.setReg_frozen ..).trans (bit_setBit _ _ hk)

theorem State.markStackFailed_stick (s : State) (k : Nat) : ((s.markStackFailed k).stick (Reg.stackStatus k)).getLsbD 29 = true := by
  show ((s.setSticky (Reg.stackStatus k) 0x20000000).stick (Reg.stackStatus k)).getLsbD 29 = true
  rw [State.setSticky_stick_self, BitVec.getLsbD_or, show (0x20000000 : Word).getLsbD 29 = true from rfl, Bool.or_true]

theorem State.markStackFailed_stack_self (s : State) (k : Nat) :
    (s.markStackFailed k).stack k = { s.stack k with failed := true, uncorr := 0 } := State.setStack_self _ _ _

theorem State.markStackFailed_stack_of_ne (s : State) {k j : Nat} (h : j ≠ k) : (s.markStackFailed k).stack j = s.stack j :=
  State.setStack_of_ne _ _ h

theorem bits_15_0 (w : Word) : bits w 15 0 = w.toNat % 65536 := by simp [bits]

theorem exec_caveStackFault {s : State} (k : Fin 6) {training : Bool} (hup : s.up = true)
    (h : training = true ∨ (s.reg Reg.faultThr).toNat % 65536 < (s.stack k).uncorr) :
    exec (.caveStackFault k training) s = .next (if s.stackRegions k = 0 then s.stackFailed k else (s.stackFailed k).yield 3) := by
  refine (whenUp_of_up hup).trans (congrArg _ ?_)
  rw [bits_15_0, if_pos h]
  unfold State.stackFailed State.markStackFailed
  dsimp only
  by_cases hr : s.stackRegions k = 0
  · rw [if_pos hr, if_neg (by simpa using hr)]
  · rw [if_neg hr, if_pos (by simpa using hr)]

theorem exec_caveStackFault_of_few {s : State} (k : Fin 6) (hup : s.up = true)
    (h : (s.stack k).uncorr ≤ (s.reg Reg.faultThr).toNat % 65536) : exec (.caveStackFault k false) s = .next s := by
  refine (whenUp_of_up hup).trans (congrArg _ ?_)
  rw [bits_15_0]
  exact if_neg (by simpa using h)

/-! ### The end of a move (R289) -/

theorem exec_stackMoveEnd {s : State} (n : Fin 32768) (hup : s.up = true) {z : BitVec 6 × Nat} {l : List (BitVec 6 × Nat)}
    (ho : (s.pair n).old = z :: l) : exec (.stackMoveEnd n) s = .next (if (s.pair n).locked = false ∨ (s.pair n).at_ z.2 ≤ s.secClock
      then (s.setPair n { s.pair n with old := l }).pairEvent n 5 0 else s) := by
  refine (whenUp_of_up hup).trans (congrArg _ ?_)
  rw [ho]

theorem exec_stackMoveEnd_of_none {s : State} (n : Fin 32768) (hup : s.up = true) (ho : (s.pair n).old = []) :
    exec (.stackMoveEnd n) s = .next s := by
  refine (whenUp_of_up hup).trans (congrArg _ ?_)
  rw [ho]

/-! ### The obligation -/

/-- Settles O43: the arbiter is an induction over the requests; each command is its effect on the requests, the bits and the stacks. -/
theorem caveRequests : Obligations.CaveRequests := by
  unfold Obligations.CaveRequests
  refine ⟨winner_nearest, fun _ => served_of_none_granted, fun _ _ _ => served_of_granted, fun s hup =>
    ⟨?burst, ?burstFrozen, ?burstNone, ?abandon, ?timely, ?freeze, ?freezeRefused, ?fault, ?few, ?moveEnd, ?moveOn⟩⟩
  case burst =>
    intro pc unc hf r hr
    have hs : s.servedAt pc = some r := by
      unfold State.servedAt
      rw [hf]
      exact hr
    obtain ⟨t, ht, hpair, hself, hothers⟩ := exec_caveBurstComplete_serves unc hup hs
    obtain ⟨l₁, l₂, hl, hrep⟩ := replaceReq_split (served_mem hr)
    rw [hf] at hself
    refine ⟨t, ht, hothers, hpair, l₁, l₂, hl, fun hlast => ?_, fun hmore => ?_⟩
    · rw [hself, burstDone_of_last false hlast hrep]
    · rw [hself]
      exact burstDone_of_more hmore hl hrep
  case burstFrozen =>
    intro pc unc hf hg
    refine exec_caveBurstComplete_idle unc hup ?_
    unfold State.servedAt
    rw [hf, if_pos rfl, List.find?_eq_none]
    exact fun r hr => by simp [hg r hr]
  case burstNone =>
    intro pc unc hn
    refine exec_caveBurstComplete_idle unc hup ?_
    unfold State.servedAt
    rw [hn]
    exact ite_self none
  case abandon =>
    intro pc r hr
    obtain ⟨t, ht, h⟩ := exec_caveRequestAbandon hup hr
    obtain ⟨l₁, l₂, hl, hrep⟩ := replaceReq_split (List.mem_of_find?_eq_some hr)
    have hreqs : ∀ m, t.reqsAt m = (s.setReqs pc (replaceReq r none (s.reqsAt pc))).reqsAt m := State.reqsAt_congr h.reqs
    refine ⟨t, ht, ⟨l₁, l₂, hl, ?_⟩, fun m hm => ?_, h.holes, h.missed, h.pair, h.others⟩
    · rw [hreqs, State.setReqs_self, hrep]
      rfl
    · rw [hreqs, State.setReqs_of_ne _ _ hm]
  case timely => exact fun pc h => exec_caveRequestAbandon_of_timely hup h
  case freeze =>
    intro qp v ho
    refine ⟨_, (exec_cavArbFreezeWrite qp v hup).trans (congrArg _ (State.ownerWrite_of_owner ho)), State.answer_resp _ _ _, fun k hk => ?_⟩
    have hw := s.writeFreeze_written v hk
    have hstack := State.stack_congr (congrArg Col.stack (State.answer_col (s.writeFreeze v) qp .ack)) k
    refine ⟨?_, fun hv hoos => ?_, fun h => hstack.trans (hw.same h), ?_⟩
    · exact (State.frozen_congr (State.answer_regs ..) k).trans hw.frozen
    · obtain ⟨htest, hunproven⟩ := hw.back hv hoos
      rw [← hstack] at htest hunproven
      exact ⟨htest, hunproven, State.admits_of_testing htest⟩
    · refine State.stackRegions_congr ?_ k
      rw [State.answer_col, State.writeFreeze_pair]
  case freezeRefused =>
    intro qp v ho
    exact ⟨_, (exec_cavArbFreezeWrite qp v hup).trans (congrArg _ (State.ownerWrite_of_other ho)), State.answer_resp _ _ _,
      State.answer_regs _ _ _, State.answer_col _ _ _⟩
  case fault =>
    intro k training h
    have hk : k.val < 32 := by omega
    have hu := s.stackFailed_stacksStand k
    have hstack := State.stack_congr hu.stack
    have hfrozen : ∀ j, (s.stackFailed k).frozen j = (decide (j = k.val) || s.frozen j) := fun j =>
      (State.frozen_congr hu.regs j).trans (s.markStackFailed_frozen hk j)
    refine ⟨s.stackFailed k, exec_caveStackFault k hup h, ?_, ?_, ?_, ?_, fun j _ hj => ⟨?_, ?_⟩⟩
    · simp [hfrozen]
    · rw [hstack, State.markStackFailed_stack_self]
    · rw [hstack, State.markStackFailed_stack_self]
    · rw [State.stick_congr hu.sticky]
      exact s.markStackFailed_stick k
    · simp [hfrozen, hj]
    · exact (hstack j).trans (s.markStackFailed_stack_of_ne hj)
  case few => exact fun k h => exec_caveStackFault_of_few k hup h
  case moveEnd => exact fun n z l ho hdue => (exec_stackMoveEnd n hup ho).trans (congrArg _ (if_pos hdue))
  case moveOn =>
    rintro n (ho | ⟨z, l, ho, hlocked, hlater⟩)
    · exact exec_stackMoveEnd_of_none n hup ho
    · exact (exec_stackMoveEnd n hup ho).trans (congrArg _ (if_neg (by simp [hlocked, hlater])))

end Sys2Proof.Machine

/-! PROOFS. The Starter's selection from its own table. -/
namespace Sys2Proof.Machine

/-! ### The best of some entries (R315) -/

/-- Entry `k` is not behind entry `j`: it ranks better, or it ranks equal and its index is no higher. -/
def State.ahead (s : State) (k j : Nat) : Prop := s.entRank k < s.entRank j ∨ (s.entRank k = s.entRank j ∧ k ≤ j)

theorem State.ahead_refl (s : State) (k : Nat) : s.ahead k k := .inr ⟨rfl, le_rfl⟩

theorem State.ahead_trans {s : State} {k j i : Nat} (h : s.ahead k j) (h' : s.ahead j i) : s.ahead k i := by
  unfold State.ahead at *
  omega

theorem State.ahead_of_not {s : State} {k j : Nat} (h : ¬ (s.entRank k < s.entRank j ∨ (s.entRank k = s.entRank j ∧ k < j))) :
    s.ahead j k := by
  unfold State.ahead
  omega

/-- The better of the best so far and the next entry, as `State.bestOf` takes it. -/
def State.better (s : State) (b : Option Nat) (k : Nat) : Option Nat :=
  match b with
  | none => some k
  | some j => if s.entRank k < s.entRank j ∨ (s.entRank k = s.entRank j ∧ k < j) then some k else some j

theorem State.bestOf_eq (s : State) (ks : List Nat) : s.bestOf ks = ks.foldl s.better none := rfl

/-- The better of two entries is one of them and not behind either. -/
theorem State.better_some (s : State) (j k : Nat) :
    ∃ b, s.better (some j) k = some b ∧ (b = j ∨ b = k) ∧ s.ahead b j ∧ s.ahead b k := by
  unfold State.better
  dsimp only
  split
  · next h => exact ⟨k, rfl, .inr rfl, h.imp_right fun ⟨he, hl⟩ => ⟨he, hl.le⟩, s.ahead_refl k⟩
  · next h => exact ⟨j, rfl, .inl rfl, s.ahead_refl j, State.ahead_of_not h⟩

theorem State.foldl_better (s : State) (ks : List Nat) (j : Nat) :
    ∃ b, ks.foldl s.better (some j) = some b ∧ b ∈ j :: ks ∧ ∀ i ∈ j :: ks, s.ahead b i := by
  induction ks generalizing j with
  | nil => exact ⟨j, rfl, by simp, by simpa using s.ahead_refl j⟩
  | cons k ks ih =>
    obtain ⟨m, hm, hmem, hj, hk⟩ := s.better_some j k
    obtain ⟨b, hb, hbm, hall⟩ := ih m
    have hbest : s.ahead b m := hall m List.mem_cons_self
    refine ⟨b, by rw [List.foldl_cons, hm, hb], ?_, ?_⟩
    · rcases List.mem_cons.mp hbm with rfl | hin
      · rcases hmem with rfl | rfl <;> simp
      · simp [hin]
    · simp only [List.forall_mem_cons] at hall ⊢
      exact ⟨State.ahead_trans hbest hj, State.ahead_trans hbest hk, hall.2⟩

/-- The best of some entries is one of them, and none of them is ahead of it. -/
theorem State.bestOf_spec {s : State} {ks : List Nat} {k : Nat} (h : s.bestOf ks = some k) : k ∈ ks ∧ ∀ j ∈ ks, s.ahead k j := by
  rw [State.bestOf_eq] at h
  cases ks with
  | nil => exact absurd h (by simp)
  | cons j ks =>
    obtain ⟨b, hb, hmem, hall⟩ := s.foldl_better ks j
    cases hb.symm.trans h
    exact ⟨hmem, hall⟩

theorem State.bestOf_eq_none_iff {s : State} {ks : List Nat} : s.bestOf ks = none ↔ ks = [] := by
  rw [State.bestOf_eq]
  cases ks with
  | nil => simp
  | cons j ks =>
    obtain ⟨b, hb, -⟩ := s.foldl_better ks j
    exact iff_of_false (fun h => absurd (hb.symm.trans h) (by simp)) (by simp)

/-! ### The outcome (R312, R317, R319) -/

theorem State.mem_selectables {s : State} {k : Nat} : k ∈ (List.range 16).filter s.selectable ↔ k < 16 ∧ s.selectable k = true := by
  simp

theorem State.choose_forced {s : State} {k : Nat} (h : s.str.forced = some k) (hu : s.entUsed k = true)
    (hq : s.qualified (s.entSource k) = true) : s.choose = some k := by
  have hkept : s.str.forced.filter (fun k => s.entUsed k && s.qualified (s.entSource k)) = some k := by
    rw [h, Option.filter_some, if_pos (by simp [hu, hq])]
  unfold State.choose
  rw [hkept]

/-- Nothing is forced, and nothing selectable is selected: the best of the selectable entries. -/
theorem State.choose_afresh {s : State} (hf : s.str.forced = none) (hs : ∀ j, s.str.sel = some j → s.selectable j = false) :
    s.choose = s.bestOf ((List.range 16).filter s.selectable) := by
  unfold State.choose
  cases hj : s.str.sel with
  | none => simp [hf]
  | some j => simp [hf, hs j hj]

/-- Nothing is forced, and a selectable entry is selected, in non-revertive operation. -/
theorem State.choose_stays {s : State} {j : Nat} (hf : s.str.forced = none) (hj : s.str.sel = some j) (hs : s.selectable j = true)
    (hr : s.selRevert = false) : s.choose = some j := by
  simp [State.choose, hf, hj, hs, hr]

/-- Settles O27: afresh the outcome is the best of the selectable entries, and a forced or a kept entry is the outcome itself. -/
theorem selectionIsBest : Obligations.SelectionIsBest := by
  unfold Obligations.SelectionIsBest
  refine ⟨fun s k hf hs hk => ?_, fun s hf hs => ?_, fun s k => State.choose_forced, fun s j => State.choose_stays⟩
  · rw [State.choose_afresh hf hs] at hk
    obtain ⟨hmem, hall⟩ := State.bestOf_spec hk
    obtain ⟨hlt, hsel⟩ := State.mem_selectables.mp hmem
    exact ⟨hlt, hsel, fun j hj hjs => hall j (State.mem_selectables.mpr ⟨hj, hjs⟩)⟩
  · rw [State.choose_afresh hf hs, State.bestOf_eq_none_iff]
    simp [List.filter_eq_nil_iff]

end Sys2Proof.Machine

/-! PROOFS. The sources of the Starter, and its states. -/
namespace Sys2Proof.Machine

/-! ### Disqualifying a source (R309, R310) -/

/-- A source's own record once it is disqualified for a reason. -/
def Src.disqualified (x : Src) (r : Nat) : Src :=
  { x with qualified := false, reason := r, since := none, outlier := x.outlier || decide (r = 4) }

section
variable (s : State) (i r : Nat)

theorem State.disqualify_def : s.disqualify i r =
    if (s.src i).qualified then (s.setSrc i ((s.src i).disqualified r)).loseRef i else s.setSrc i ((s.src i).disqualified r) := rfl

/-- The loss of the selected reference changes what holds the loop, and no more. -/
theorem State.loseRef_eq : ∃ held loss, s.loseRef i = { s with str := { s.str with held := held, lossTick := loss } } := by
  unfold State.loseRef
  split
  · exact ⟨_, _, rfl⟩
  · exact ⟨_, _, rfl⟩

/-- Disqualifying writes the source's record and changes what holds the loop, and no more. -/
theorem State.disqualify_eq : ∃ held loss, s.disqualify i r = { s with str := { s.str with
    held := held, lossTick := loss, srcs := Tab.put {} s.str.srcs i ((s.src i).disqualified r) } } := by
  rw [State.disqualify_def]
  split
  · exact (s.setSrc i ((s.src i).disqualified r)).loseRef_eq i
  · exact ⟨_, _, rfl⟩

theorem State.disqualify_src_self : (s.disqualify i r).src i = (s.src i).disqualified r := by
  obtain ⟨held, loss, h⟩ := s.disqualify_eq i r
  rw [h]
  exact Tab.look_put_self _ _ _ _

theorem State.disqualify_src_of_ne {j : Nat} (h : j ≠ i) : (s.disqualify i r).src j = s.src j := by
  obtain ⟨held, loss, heq⟩ := s.disqualify_eq i r
  rw [heq]
  exact Tab.look_put_of_ne _ _ _ _ h

end

/-- The selected reference, disqualified, leaves the loop held. -/
theorem State.disqualify_held {s : State} {i : Nat} (r : Nat) (hq : (s.src i).qualified = true) (hs : s.selects i = true) :
    (s.disqualify i r).str.held = true := by
  have hlost : (s.setSrc i ((s.src i).disqualified r)).selects i = true := hs
  rw [State.disqualify_def, if_pos hq, State.loseRef, if_pos hlost]
  rfl

/-! ### SOURCE_ACTIVITY_LOSS, SOURCE_QUALIFIED and REFERENCE_WTR_EXPIRY (R307, R309, R318) -/

/-- A source that is lost: disqualified, inactive and without measurements, its loss dated. -/
def State.sourceLost (s : State) (i t : Nat) : State :=
  (s.disqualify i 1).setSrc i { (s.disqualify i 1).src i with
    active := false, inWindow := false, freq := 0, hist := [], lostAt := some t }

theorem exec_sourceActivityLoss {s : State} {i : Fin 38} {e : Nat} (hup : s.up = true) (ha : (s.src i).active = true)
    (he : s.edgeFree i (max e (s.src i).edgeAt) = true) :
    exec (.sourceActivityLoss ⟨i, e⟩) s = .next (s.sourceLost i (max e (s.src i).edgeAt)) :=
  (whenUp_of_up hup).trans (congrArg _ (if_pos ⟨ha, he⟩))

theorem exec_sourceQualified {s : State} {i : Fin 38} {n : Nat} (hup : s.up = true) (hn : (s.src i).since = some n)
    (ha : (s.src i).active = true) (hw : (s.src i).inWindow = true) (hq : (s.src i).qualified = false) (hb : s.srcBar i = 0)
    (ht : n + s.qualTime ≤ s.clk.tick) : exec (.sourceQualified i) s =
      .next (s.setSrc i { s.src i with qualified := true, reason := 0, outlier := false }) := by
  refine (whenUp_of_up hup).trans (congrArg _ ?_)
  rw [hn]
  dsimp only
  rw [if_pos ⟨ha, hw, hq, hb, ht⟩, hn]

theorem exec_referenceWtrExpiry {s : State} {k : Fin 16} {n : Nat} (hup : s.up = true) (hn : s.str.selSince.look 0 k = n + 1)
    (ht : n + s.selWtr ≤ s.clk.tick) : exec (.referenceWtrExpiry k) s =
      .next { s with str := { s.str with wtrDone := Tab.put false s.str.wtrDone k true } } := by
  refine (whenUp_of_up hup).trans (congrArg _ (if_pos ?_))
  rw [hn]
  exact ⟨n.succ_ne_zero, ht⟩

/-- Settles O21: a lost source is one disqualified and then marked; the other two commands write one entry of a table. -/
theorem sourceStates : Obligations.SourceStates := by
  unfold Obligations.SourceStates
  refine ⟨?lost, ?qualified, ?wtr⟩
  case lost =>
    intro i e s hup ha he
    refine ⟨_, exec_sourceActivityLoss hup ha he, ?_, fun hq hs => State.disqualify_held 1 hq hs, ?_⟩
    · rw [State.sourceLost, State.setSrc_self, State.disqualify_src_self]
      simp [Src.disqualified]
    · have hother : ∀ j, j ≠ i.val → (s.sourceLost i (max e (s.src i).edgeAt)).src j = s.src j := fun j hj =>
        (State.setSrc_of_ne _ _ hj).trans (s.disqualify_src_of_ne i 1 hj)
      obtain ⟨held, loss, h⟩ := s.disqualify_eq i 1
      refine ⟨?_, ?_, hother, ?_⟩
      all_goals
        unfold State.sourceLost
        rw [h]
        rfl
  case qualified =>
    intro i s n hup hn ha hw hq hb ht
    exact ⟨_, exec_sourceQualified hup hn ha hw hq hb ht, State.setSrc_self _ _ _, fun j hj => State.setSrc_of_ne _ _ hj, rfl⟩
  case wtr =>
    intro k s n hup hn ht
    exact ⟨_, exec_referenceWtrExpiry hup hn ht, Tab.look_put_self false s.str.wtrDone k true,
      fun j hj => Tab.look_put_of_ne false false s.str.wtrDone true hj, rfl⟩

/-! ### Entering a state (R320, R393) -/

/-- The Starter in a state that it has entered, before the event that tells of it. -/
def State.entered (s : State) (st : StrState) : State :=
  s.onStr (fun x => { x with
    st := st
    enterTick := s.clk.tick
    bwStep := if st = .locked then 0 else 4
    lockedOnce := x.lockedOnce || decide (st = .locked)
    secLocked := x.secLocked && decide (st = .locked)
    goodSince := none })

/-- A state that is entered, and told of with its number. -/
def State.enteredTold (s : State) (st : StrState) : State :=
  (s.entered st).event [0] 0x0050 st.num (s.str.sel.getD 0)

theorem State.enter_of_ne {s : State} {st : StrState} (h : s.str.st ≠ st) :
    s.enter st = if st = .lost then (s.enteredTold st).yield 2 else s.enteredTold st := by
  unfold State.enter
  rw [if_neg h]
  cases st <;> rfl

theorem State.enteredTold_str (s : State) (st : StrState) : (s.enteredTold st).str = (s.entered st).str := State.event_str _ _ _ _ _

/-- A device that is neither ACTIVE nor SUSPENDED has no role to yield. -/
theorem State.yield_of_other {s : State} (c : Nat) (ha : s.cal.role ≠ .active) (hs : s.cal.role ≠ .suspended) : s.yield c = s :=
  if_neg (by simp [ha, hs])

/-! ### The commands at a boundary (R316, R321, R322, R326, R331) -/

theorem exec_starterLock {s : State} {n : Nat} (hup : s.up = true) (hn : s.str.goodSince = some n) (hp : s.atPeriod = true)
    (hst : s.str.st = .acquiring) (ht : n + 8000000 ≤ s.clk.tick) : exec .starterLock s = .next (s.enteredTold .locked) := by
  refine (whenUp_of_up hup).trans (congrArg _ ?_)
  rw [hn]
  exact (if_pos ⟨hp, hst, ht⟩).trans (State.enter_of_ne (by simp [hst]))

theorem exec_holdoverLimitExpiry {s : State} (hup : s.up = true) (hp : s.atPeriod = true) (hst : s.str.st = .holdover)
    (ht : s.str.enterTick + s.hoLimit ≤ s.clk.tick) : exec .holdoverLimitExpiry s = .next ((s.enteredTold .lost).yield 2) :=
  (whenUp_of_up hup).trans (congrArg _ ((if_pos ⟨hp, hst, ht⟩).trans (State.enter_of_ne (by simp [hst]))))

theorem exec_acqTmoExpiry {s : State} {k : Nat} (hup : s.up = true) (hk : s.str.sel = some k) (hp : s.atPeriod = true)
    (hst : s.str.st = .acquiring) (ht : s.str.selTick + s.acqTmo ≤ s.clk.tick) :
    exec .acqTmoExpiry s = .next (s.disqualify (s.entSource k) 5) := by
  refine (whenUp_of_up hup).trans (congrArg _ ?_)
  rw [hk]
  exact if_pos ⟨hp, hst, ht⟩

theorem exec_loopBandwidthStep {s : State} (hup : s.up = true) (hp : s.atPeriod = true) (hst : s.str.st = .locked)
    (hb : s.str.bwStep < 4) (ht : s.str.enterTick + 15 * 8000000 * (s.str.bwStep + 1) ≤ s.clk.tick) :
    exec .loopBandwidthStep s = .next { s with str := { s.str with bwStep := s.str.bwStep + 1 } } :=
  (whenUp_of_up hup).trans (congrArg _ (if_pos ⟨hp, hst, hb, ht⟩))

theorem exec_transitionEnd {s : State} (hup : s.up = true) (ht : s.str.trans = true) (ho : s.offsetNow = 0) :
    exec .transitionEnd s = .next { s with str := { s.str with trans := false, offset := 0, offTick := s.clk.tick } } :=
  (whenUp_of_up hup).trans (congrArg _ (if_pos ⟨ht, ho⟩))

/-- Settles O22: LOCKED and LOST as states entered and told of, the yield that follows LOST, and the three other commands. -/
theorem starterTransitions : Obligations.StarterTransitions := by
  unfold Obligations.StarterTransitions
  refine ⟨?lock, ?limit, ?timeout, fun s => exec_loopBandwidthStep, fun s => exec_transitionEnd⟩
  case lock =>
    intro s n hup hn hp hst ht
    exact ⟨s.entered .locked, exec_starterLock hup hn hp hst ht, rfl, rfl, rfl, rfl, Bool.or_true _, rfl, rfl⟩
  case limit =>
    intro s hup hp hst ht
    have hstr : ((s.enteredTold .lost).yield 2).str = (s.entered .lost).str :=
      (State.yield_str _ _).trans (s.enteredTold_str .lost)
    have hrole : (s.enteredTold .lost).cal.role = s.cal.role := State.event_role _ _ _ _ _
    refine ⟨_, exec_holdoverLimitExpiry hup hp hst ht, by rw [hstr]; rfl, by rw [hstr]; rfl, by rw [hstr]; rfl, fun ha hs => ?_,
      fun ha hy => ?_⟩
    · rw [State.yield_of_other 2 (hrole.trans_ne ha) (hrole.trans_ne hs), State.enteredTold_str]
      exact ⟨s.entered .lost, rfl, rfl⟩
    · have hyield := State.yield_of_active 2 (hrole.trans ha) ((State.event_yieldAt _ _ _ _ _).trans hy)
      rwa [State.enteredTold, State.event_clk] at hyield
  case timeout =>
    intro s k hup hk hp hst ht
    have hsrc := s.disqualify_src_self (s.entSource k) 5
    obtain ⟨held, loss, h⟩ := s.disqualify_eq (s.entSource k) 5
    refine ⟨_, exec_acqTmoExpiry hup hk hp hst ht, by rw [hsrc]; rfl, by rw [hsrc]; rfl, by rw [hsrc]; rfl, ?_⟩
    rw [h]
    exact ⟨hst, rfl, rfl⟩

end Sys2Proof.Machine

/-! PROOFS. REF_CONFIG, REF_FORCE and PHASE_STEP as they take effect. -/
namespace Sys2Proof.Machine

/-! ### Some registers of a list written (R314) -/

/-- Write the registers that a list picks. -/
def State.setRegs (P : Nat → Prop) [DecidablePred P] (addr : Nat → Nat) (w : Nat → Word) (l : List Nat) (s : State) : State :=
  l.foldl (fun (s : State) k => if P k then s.setReg (addr k) (w k) else s) s

section
variable {P : Nat → Prop} [DecidablePred P] {addr : Nat → Nat} {w : Nat → Word}

theorem State.setRegs_cons (k : Nat) (l : List Nat) (s : State) :
    s.setRegs P addr w (k :: l) = (if P k then s.setReg (addr k) (w k) else s).setRegs P addr w l := rfl

theorem State.setRegs_eq (l : List Nat) (s : State) : s.setRegs P addr w l = { s with regs := (s.setRegs P addr w l).regs } := by
  induction l generalizing s with
  | nil => rfl
  | cons k l ih =>
    rw [State.setRegs_cons, ih]
    split <;> rfl

/-- A register that is not picked stands. -/
theorem State.setRegs_reg_of_ne {a : Nat} {l : List Nat} (h : ∀ k ∈ l, P k → a ≠ addr k) (s : State) :
    (s.setRegs P addr w l).reg a = s.reg a := by
  induction l generalizing s with
  | nil => rfl
  | cons k l ih =>
    rw [State.setRegs_cons, ih (fun j hj => h j (List.mem_cons_of_mem _ hj))]
    split
    · next hk => exact State.setReg_reg _ _ _ _ (h k List.mem_cons_self hk)
    · rfl

/-- A register that is picked holds its word, where no other place of the list has its address. -/
theorem State.setRegs_reg_of_mem {k : Nat} {l : List Nat} (hk : k ∈ l) (hP : P k)
    (hinj : ∀ j ∈ l, addr k = addr j → k = j) (s : State) : (s.setRegs P addr w l).reg (addr k) = w k := by
  induction l generalizing s with
  | nil => exact absurd hk List.not_mem_nil
  | cons j l ih =>
    have hrest : ∀ i ∈ l, addr k = addr i → k = i := fun i hi => hinj i (List.mem_cons_of_mem _ hi)
    rw [State.setRegs_cons]
    by_cases hl : k ∈ l
    · exact ih hl hrest _
    · obtain rfl : k = j := (List.mem_cons.mp hk).resolve_right hl
      rw [State.setRegs_reg_of_ne (fun i hi _ he => hl (hrest i hi he ▸ hi)), if_pos hP, State.setReg_reg_self]

end

/-! ### REF_CONFIG_APPLY (R313, R314, R322) -/

/-- The 25 registers of a REF_CONFIG are different registers. -/
theorem rcReg_injOn : ∀ k < 25, ∀ j < 25, rcReg k = rcReg j → k = j := by decide

/-- The word that a REF_CONFIG writes to a register of its batch. -/
def RefCfg.word (c : RefCfg) (k : Nat) : Word := if k < 16 then prioWord (c.words.getD k 0) else c.words.getD k 0

/-- The action is taken from those that wait, and the offset reached so far is kept. -/
def State.cfgBegun (s : State) (c : RefCfg) : State :=
  s.onStr (fun x => { x with cfgs := x.cfgs.filter (fun y => y.h ≠ c.h), offset := s.offsetNow, offTick := s.clk.tick })

/-- The registers whose mask bits are set are written. -/
def State.cfgWritten (s : State) (c : RefCfg) : State :=
  (s.cfgBegun c).setRegs (fun k => c.mask / 2 ^ k % 2 = 1) rcReg c.word (List.range 25)

/-- A REF_CONFIG as it has taken effect, before its completion: a changed TRACK_BW applies in one step. -/
def State.cfgTaken (s : State) (c : RefCfg) : State :=
  if bits ((s.cfgWritten c).reg Reg.loopCfg) 13 0 ≠ bits (s.reg Reg.loopCfg) 13 0 ∧ (s.cfgWritten c).str.st = .locked then
    (s.cfgWritten c).onStr (fun x => { x with bwStep := 4 })
  else s.cfgWritten c

theorem State.cfgNow_of_due {s : State} {c : RefCfg} (hd : s.cfgDue = some c) (h7 : s.drops 7 = false) :
    s.cfgNow = (s.cfgTaken c).complete c.h 0 c.at_ 0 := by
  unfold State.cfgNow
  rw [if_neg (by simp [h7]), hd]
  rfl

section
variable (s : State) (c : RefCfg)

theorem State.cfgWritten_eq : s.cfgWritten c = { s.cfgBegun c with regs := (s.cfgWritten c).regs } := State.setRegs_eq _ _

theorem State.cfgTaken_eq : ∃ b, s.cfgTaken c =
    { s with regs := (s.cfgWritten c).regs, str := { (s.cfgBegun c).str with bwStep := b } } := by
  unfold State.cfgTaken
  rw [s.cfgWritten_eq c]
  split
  · exact ⟨4, rfl⟩
  · exact ⟨(s.cfgBegun c).str.bwStep, rfl⟩

theorem State.cfgTaken_reg (a : Nat) : (s.cfgTaken c).reg a = (s.cfgWritten c).reg a := by
  obtain ⟨b, h⟩ := s.cfgTaken_eq c
  rw [h]
  rfl

theorem State.cfgTaken_reg_picked {k : Nat} (hk : k < 25) (hm : c.mask / 2 ^ k % 2 = 1) : (s.cfgTaken c).reg (rcReg k) = c.word k := by
  rw [State.cfgTaken_reg]
  exact State.setRegs_reg_of_mem (List.mem_range.mpr hk) hm (fun j hj => rcReg_injOn k hk j (List.mem_range.mp hj)) _

theorem State.cfgTaken_reg_other {a : Nat} (h : ∀ k, k < 25 → c.mask / 2 ^ k % 2 = 1 → a ≠ rcReg k) :
    (s.cfgTaken c).reg a = s.reg a := by
  rw [State.cfgTaken_reg]
  exact State.setRegs_reg_of_ne (fun k hk => h k (List.mem_range.mp hk)) _

end

theorem exec_refConfigApply {s : State} {c : RefCfg} (hup : s.up = true) (hd : s.cfgDue = some c) (h7 : s.drops 7 = false) :
    exec .refConfigApply s = .next ((s.cycle1.cfgTaken c).complete c.h 0 c.at_ 0) := by
  obtain ⟨hcfg, -, -, -, -, -, hdrops, -, -⟩ := s.cycle1_due
  have hnow := State.cfgNow_of_due (hcfg.trans hd) ((hdrops 7).trans h7)
  exact (whenUp_of_up hup).trans (congrArg _ ((if_pos (by rw [hd]; rfl)).trans hnow))

/-! ### REF_FORCE_APPLY (R319) -/

theorem Str.force_force (x : Str) (k : Nat) : x.force 0 k = { x with forced := some k } := rfl

theorem Str.force_lockOut (x : Str) (k : Nat) :
    x.force 1 k = { x with lockout := if k ∈ x.lockout then x.lockout else x.lockout ++ [k] } := rfl

theorem Str.force_release (x : Str) (k : Nat) : x.force 2 k =
    { x with forced := if x.forced = some k then none else x.forced, lockout := x.lockout.filter (fun j => j ≠ k) } := rfl

theorem Str.force_releaseAll (x : Str) (k : Nat) :
    x.force 3 k = { x with forced := none, lockout := [], hoForced := false, hoDone := false } := rfl

theorem Str.force_holdover (x : Str) (k : Nat) : x.force 4 k = { x with hoForced := true, hoDone := false } := rfl

theorem Str.mem_lockout_force (x : Str) (k : Nat) : k ∈ (x.force 1 k).lockout := by
  rw [Str.force_lockOut]
  dsimp only
  split
  · assumption
  · simp

theorem Str.force_st (x : Str) (a k : Nat) : (x.force a k).st = x.st := by
  unfold Str.force
  repeat' split
  all_goals rfl

/-- A REF_FORCE as it has taken effect, before its completion. -/
def State.forceTaken (s : State) (c : RefForce) : State :=
  s.onStr (fun x => { x.force c.action c.entry with forces := x.forces.filter (fun y => y.h ≠ c.h) })

theorem State.forceNow_of_due {s : State} {c : RefForce} (hd : s.forceDue = some c) (h7 : s.drops 7 = false) :
    s.forceNow = (s.forceTaken c).complete c.h 0 c.at_ 0 := by
  unfold State.forceNow
  rw [if_neg (by simp [h7]), hd]
  rfl

theorem exec_refForceApply {s : State} {c : RefForce} (hup : s.up = true) (hd : s.forceDue = some c) (h7 : s.drops 7 = false) :
    exec .refForceApply s = .next ((s.cycle1.forceTaken c).complete c.h 0 c.at_ 0) := by
  obtain ⟨-, hforce, -, -, -, -, hdrops, -, -⟩ := s.cycle1_due
  have hnow := State.forceNow_of_due (hforce.trans hd) ((hdrops 7).trans h7)
  exact (whenUp_of_up hup).trans (congrArg _ ((if_pos (by rw [hd]; rfl)).trans hnow))

/-! ### PHASE_STEP_APPLY and PHASE_STEP_END (R334, R335) -/

/-- A phase step that runs, before its completion. -/
def State.stepTaken (s : State) (x : Step) : State :=
  (s.onStr (fun y => { y with steps := y.steps.filter (fun z => z.h ≠ x.h) })).onStr (fun y => y.begin_ x)

theorem State.stepNow_of_due {s : State} {x : Step} (hd : s.stepDue = some x) (h7 : s.drops 7 = false) :
    s.stepNow = (s.stepTaken x).complete x.h 0 x.n 0 := by
  unfold State.stepNow
  rw [hd]
  exact if_neg (by simp [State.drops] at h7 ⊢; exact h7)

/-- What cycle 3 looks at stands through the cycles before it. -/
theorem State.refsNow_cycle1_due (s : State) : s.cycle1.refsNow.stepDue = s.stepDue ∧ s.cycle1.refsNow.drops 7 = s.drops 7 ∧
    s.cycle1.refsNow.atPeriod = s.atPeriod ∧ s.cycle1.refsNow.clk.perDone = s.clk.perDone := by
  obtain ⟨-, -, hstep, -, hat, hper, hdrops, -, -⟩ := s.cycle1_due
  obtain ⟨hclk, hsteps, -, -⟩ := s.cycle1.refsNow_due
  rw [← hstep, ← hat, ← hper, ← hdrops 7]
  unfold State.stepDue State.dueAt State.tnNow State.drops State.atPeriod State.secClock
  rw [hclk, hsteps]
  exact ⟨rfl, rfl, rfl, rfl⟩

/-- The running step, the steps that wait and the phase target reach cycle 3 as they were. -/
theorem State.refsNow_cycle1_str (s : State) : s.cycle1.refsNow.str.steps = s.str.steps ∧ s.cycle1.refsNow.str.step = s.str.step ∧
    s.cycle1.refsNow.str.phase = s.str.phase := by
  obtain ⟨-, hsteps, hstep, hphase⟩ := s.cycle1.refsNow_due
  obtain ⟨_, _, _, _, _, _, hstr⟩ := s.cycle1_str
  rw [hsteps, hstep, hphase, hstr]
  exact ⟨rfl, rfl, rfl⟩

/-- Off a period boundary, and on one whose outcome stands, nothing keeps a phase step waiting. -/
theorem State.boundary_of_ready {s : State} (hp : s.atPeriod = false ∨ s.clk.perDone = true) :
    s.boundary = s.cycle1.refsNow.stepNow := by
  obtain ⟨-, -, hat, hper⟩ := s.refsNow_cycle1_due
  unfold State.boundary
  dsimp only
  rw [hat, hper, if_neg]
  rcases hp with h | h <;> simp [h]

theorem exec_phaseStepApply {s : State} (hup : s.up = true) (hd : s.stepDue.isSome = true) :
    exec .phaseStepApply s = .next s.boundary :=
  (whenUp_of_up hup).trans (congrArg _ (if_pos hd))

/-- The phase step of a tick begins, and its command is completed. -/
theorem State.boundary_begins {s : State} {x : Step} (hd : s.stepDue = some x) (h7 : s.drops 7 = false)
    (hp : s.atPeriod = false ∨ s.clk.perDone = true) :
    s.boundary = (s.cycle1.refsNow.stepTaken x).complete x.h 0 x.n 0 := by
  obtain ⟨hdue, hdrops, -, -⟩ := s.refsNow_cycle1_due
  rw [State.boundary_of_ready hp, State.stepNow_of_due (hdue.trans hd) (hdrops.trans h7)]

theorem exec_phaseStepEnd {s : State} {x : Step} (hup : s.up = true) (hx : s.str.step = some x) (hn : x.n + x.m ≤ s.tnNow + 1) :
    exec .phaseStepEnd s = .next { s with str := { s.str with step := none, phase := s.str.phase + x.s } } := by
  refine (whenUp_of_up hup).trans (congrArg _ ?_)
  rw [hx]
  exact if_pos hn

/-- Settles O23: each action as taken after cycles 0 and 1, which change of the Starter only its holdover history. -/
theorem starterCommandsApply : Obligations.StarterCommandsApply := by
  unfold Obligations.StarterCommandsApply
  refine ⟨?config, ?force, ?apply, fun s x => exec_phaseStepEnd⟩
  case config =>
    intro s c hup hd h7
    obtain ⟨-, -, -, hoff, -, -, -, hreg, htick⟩ := s.cycle1_due
    obtain ⟨_, _, _, _, _, _, hstr⟩ := s.cycle1_str
    obtain ⟨b, h⟩ := s.cycle1.cfgTaken_eq c
    refine ⟨_, exec_refConfigApply hup hd h7, ?_, fun k => s.cycle1.cfgTaken_reg_picked c,
      fun a ha => (s.cycle1.cfgTaken_reg_other c ha).trans (hreg a), ?_⟩
    · rw [h]
    · rw [h, ← hoff, ← htick]
      simp [State.cfgBegun, State.onStr, hstr]
  case force =>
    intro s c hup hd h7
    obtain ⟨_, _, _, _, _, _, hstr⟩ := s.cycle1_str
    refine ⟨_, exec_refForceApply hup hd h7, rfl, ?_⟩
    generalize s.cycle1 = v at hstr
    unfold State.forceTaken State.onStr
    dsimp only
    refine ⟨by rw [hstr], by rw [Str.force_st, hstr], fun ha => ?_, fun ha => ?_, fun ha => ?_, fun ha => ?_, fun ha => ?_⟩
    all_goals rw [ha]
    · rw [Str.force_force, hstr]
      exact ⟨rfl, rfl, rfl⟩
    · refine ⟨Str.mem_lockout_force _ _, ?_⟩
      rw [Str.force_lockOut, hstr]
      exact ⟨rfl, rfl⟩
    · rw [Str.force_release, hstr]
      simp +contextual
    · rw [Str.force_releaseAll]
      exact ⟨rfl, rfl, rfl⟩
    · rw [Str.force_holdover, hstr]
      exact ⟨rfl, rfl, rfl⟩
  case apply =>
    intro s x hup hd h7 hp
    obtain ⟨hsteps, hstep, hphase⟩ := s.refsNow_cycle1_str
    refine ⟨_, (exec_phaseStepApply hup (by rw [hd]; rfl)).trans (congrArg _ (State.boundary_begins hd h7 hp)), ?_⟩
    generalize s.cycle1.refsNow = v at hsteps hstep hphase
    rw [← hsteps, ← hstep, ← hphase]
    refine ⟨rfl, rfl, rfl, ?_⟩
    cases h : v.str.step <;> simp [State.stepTaken, State.onStr, Str.begin_, h]

end Sys2Proof.Machine

/-!
PROOFS. Keying of a link, and the time limits of fabric links, workers and remote commands (R346, R355, R358, R361, R362, R489, R490).
-/
namespace Sys2Proof.Machine

/-! ### HELLO (R489) -/

section
variable {s : State} {l : Link}

theorem State.takeHello_of_keying (n : BitVec 256) (e : BitVec 768) (h : (s.plink l).st = .keying) :
    s.takeHello l n e = (s.setPlink l { s.plink l with helloFar := some (n, e) }).quotePeer (linkNo l) := by
  have hdown : ¬ (s.plink l).st = .down := by simp [h]
  unfold State.takeHello
  dsimp only
  rw [if_neg hdown, if_pos h]

theorem State.takeHello_of_keyed (n : BitVec 256) (e : BitVec 768) (hk : (s.plink l).st ≠ .keying) (hd : (s.plink l).st ≠ .down) :
    s.takeHello l n e = s := by
  unfold State.takeHello
  dsimp only
  rw [if_neg hd, if_neg hk]

/-! ### The peer's quote (R489, R490) -/

/-- The salt of an exchange: both nonces, the lower DEVICE_ID's first. -/
def keyingSalt (i : Nat) (far : BitVec 256) (id : Digest) : List Byte :=
  if decide (Config.deviceId.toNat < id.toNat) then beBytes 32 (Config.nonce i).toNat ++ beBytes 32 far.toNat
  else beBytes 32 far.toNat ++ beBytes 32 (Config.nonce i).toNat

/-- The keys of an exchange with the device of an identity. -/
def keyingKeys (i : Nat) (hello : BitVec 256 × BitVec 768) (id : Digest) : PeerKeys :=
  let salt := keyingSalt i hello.1 id
  { tx := peerKey i hello.2 salt Config.deviceId, rx := peerKey i hello.2 salt id
    recTx := recordKey i hello.2 salt Config.deviceId, recRx := recordKey i hello.2 salt id }

/-- The checks of R490 on a peer's quote. -/
def State.quoteFits (s : State) (i : Nat) (hello : BitVec 256 × BitVec 768) (d b q : Bool) (id : Digest) (lc : Nat) (o fw : Digest)
    (n : BitVec 256) : Prop :=
  d = true ∧ b = true ∧ q = true ∧ lc = 2 ∧ o = s.ownerDigest ∧ (bit (s.reg Reg.peerCfg) 0 = true → fw = s.rnd.mFw) ∧
    beBytes 32 n.toNat = peerNonce (helloBytes (Config.nonce i) (Config.ephPub i)) (helloBytes hello.1 hello.2)
      (decide (Config.deviceId.toNat < id.toNat))

section
variable (d b q : Bool) (id : Digest) (lc : Nat) (o fw : Digest) (n : BitVec 256)

theorem State.takePeerQuote_of_idle (h : (s.plink l).st ≠ .keying ∨ (s.plink l).nonceOwn = none ∨ (s.plink l).helloFar = none) :
    s.takePeerQuote l d b q id lc o fw n = s := by
  unfold State.takePeerQuote
  dsimp only
  split
  next hi hf => exact if_pos (by simpa [hi, hf] using h)
  next => rfl

section
variable {i : Nat} {hello : BitVec 256 × BitVec 768} (hst : (s.plink l).st = .keying) (hi : (s.plink l).nonceOwn = some i)
  (hf : (s.plink l).helloFar = some hello)
include hst hi hf

theorem State.takePeerQuote_of_fitting (hq : s.quoteFits i hello d b q id lc o fw n) : s.takePeerQuote l d b q id lc o fw n =
    (s.setPlink l { s.plink l with keys := some (keyingKeys i hello id) }).setLinkSt l .measuring := by
  unfold State.takePeerQuote
  dsimp only
  rw [hi, hf]
  dsimp only
  rw [if_neg (not_not_intro hst)]
  exact if_pos (by simpa [State.quoteFits, and_assoc, imp_iff_not_or] using hq)

theorem State.takePeerQuote_of_unfit (hq : ¬s.quoteFits i hello d b q id lc o fw n) :
    s.takePeerQuote l d b q id lc o fw n = s.keyingFailed l := by
  unfold State.takePeerQuote
  dsimp only
  rw [hi, hf]
  dsimp only
  rw [if_neg (not_not_intro hst)]
  exact if_neg fun hok => hq (by simpa [State.quoteFits, and_assoc, imp_iff_not_or] using hok)
end

end

theorem State.keyingFailed_plink (h : (s.plink l).st ≠ .down) :
    (s.keyingFailed l).plink l = { s.plink l with
      st := .down, keys := none, samples := [], nonceOwn := none, helloFar := none, reqSerial := none, delayPs := 0,
      retryAt := some ((s.keyingFailed l).clk.tick + 8000000) } ∧
    ∀ k, k ≠ l → (s.keyingFailed l).plink k = s.plink k := by
  obtain ⟨hself, hrest⟩ := State.setLinkSt_plink s l .down h
  unfold State.keyingFailed
  dsimp only
  rw [State.setPlink_self, hself, State.setPlink_clk]
  exact ⟨rfl, fun k hk => (State.setPlink_of_ne _ _ hk).trans (hrest k hk)⟩

/-- A link with keys that goes from KEYING to MEASURING. -/
theorem State.keyed_plink (h : (s.plink l).st = .keying) (ks : PeerKeys) (k : Link) :
    ((s.setPlink l { s.plink l with keys := some ks }).setLinkSt l .measuring).plink k =
      if k = l then { s.plink l with st := .measuring, keys := some ks } else s.plink k := by
  obtain ⟨hself, hrest⟩ := State.setLinkSt_plink (s.setPlink l { s.plink l with keys := some ks }) l .measuring
    (by rw [State.setPlink_self]; simp [h])
  split_ifs with hk
  · rw [hk, hself, if_neg (by decide), State.setPlink_self]
  · rw [hrest k hk, State.setPlink_of_ne _ _ hk]

/-! ### Keying again (R346, R490) -/

/-- A link in DOWN may begin keying. -/
def State.keyable (s : State) : Link → Prop
  | .group g => s.fabRole ≠ 0 ∧ s.isFabricLink g = true ∧ (s.group g).st = .inService ∧ 2 ≤ (s.fabricInFrame g).length
  | .calrin => s.anyPort = true

/-- A link tries to begin keying. -/
def State.tryKeying (s : State) : Link → State
  | .group g => s.linkCheck g.val
  | .calrin => if s.anyPort then s.startKeying .calrin else s

theorem State.setPlink_keyable (s : State) (l : Link) (x : PeerLink) : (s.setPlink l x).keyable l ↔ s.keyable l := by
  cases l <;> exact Iff.rfl

theorem State.linkCheck_eq (s : State) (g : Fin 32) : s.linkCheck g.val =
    if (s.plink (.group g)).st = .down ∧ s.fabRole ≠ 0 ∧ s.isFabricLink g ∧ (s.group g).st = .inService
      ∧ 2 ≤ (s.fabricInFrame g).length ∧ (s.plink (.group g)).retryAt.isNone then s.startKeying (.group g) else s := dif_pos g.isLt

theorem State.tryKeying_of_keyable (hd : (s.plink l).st = .down) (hr : (s.plink l).retryAt = none) (hk : s.keyable l) :
    s.tryKeying l = s.startKeying l := by
  cases l with
  | group g =>
    obtain ⟨hrole, hlink, hsrv, hfr⟩ := hk
    exact (s.linkCheck_eq g).trans (if_pos ⟨hd, hrole, hlink, hsrv, hfr, by rw [hr]; rfl⟩)
  | calrin => exact if_pos hk

theorem State.tryKeying_of_not (hk : ¬s.keyable l) : s.tryKeying l = s := by
  cases l with
  | group g => exact (s.linkCheck_eq g).trans (if_neg fun ⟨_, hrole, hlink, hsrv, hfr, _⟩ => hk ⟨hrole, hlink, hsrv, hfr⟩)
  | calrin => exact if_neg hk

/-- A link in DOWN that tries to begin keying does so where it may, and stays as it was otherwise. -/
theorem State.tryKeying_plink (hd : (s.plink l).st = .down) (hr : (s.plink l).retryAt = none) :
    (s.keyable l → (s.tryKeying l).plink l =
      { s.plink l with st := .keying, nonceOwn := some s.fresh, helloFar := none, retryAt := none }) ∧
    (¬s.keyable l → (s.tryKeying l).plink l = s.plink l) ∧ ∀ k, k ≠ l → (s.tryKeying l).plink k = s.plink k := by
  by_cases hk : s.keyable l
  · obtain ⟨hself, hrest⟩ := s.startKeying_plink l hd
    rw [State.tryKeying_of_keyable hd hr hk]
    exact ⟨fun _ => hself, fun hn => absurd hk hn, hrest⟩
  · rw [State.tryKeying_of_not hk]
    exact ⟨fun h => absurd h hk, fun _ => rfl, fun _ _ => rfl⟩

section
variable (hup : s.up = true)
include hup

theorem exec_peerKeyingRetry_of_due {a : Nat} (ha : (s.plink l).retryAt = some a) (hd : (s.plink l).st = .down)
    (ht : a ≤ s.clk.tick) : exec (.peerKeyingRetry l) s = .next ((s.setPlink l { s.plink l with retryAt := none }).tryKeying l) := by
  refine (whenUp_of_up hup).trans (congrArg _ ?_)
  rw [ha]
  cases l <;> exact if_pos ⟨hd, ht⟩

theorem exec_peerKeyingRetry_of_early
    (h : (s.plink l).retryAt = none ∨ (s.plink l).st ≠ .down ∨ ∃ a, (s.plink l).retryAt = some a ∧ s.clk.tick < a) :
    exec (.peerKeyingRetry l) s = .next s := by
  refine (whenUp_of_up hup).trans (congrArg _ ?_)
  cases ha : (s.plink l).retryAt with
  | none => rfl
  | some a => exact if_neg (by simpa [ha, imp_iff_not_or] using h)

/-! ### A delay request without response (R355) -/

theorem exec_delaySampleTimeout_of_due (hr : (s.plink l).reqSerial.isSome = true) (ht : (s.plink l).reqT1 + 80000 ≤ s.clk.tick) :
    exec (.delaySampleTimeout l) s = .next (s.setPlink l { s.plink l with reqSerial := none }) :=
  (whenUp_of_up hup).trans (congrArg _ (if_pos ⟨hr, ht⟩))

theorem exec_delaySampleTimeout_of_early (h : (s.plink l).reqSerial = none ∨ s.clk.tick < (s.plink l).reqT1 + 80000) :
    exec (.delaySampleTimeout l) s = .next s := by
  refine (whenUp_of_up hup).trans (congrArg _ (if_neg fun ⟨hr, ht⟩ => ?_))
  rcases h with h | h
  · simp [h] at hr
  · exact absurd ht (Nat.not_le.mpr h)

/-! ### A lost worker (R361) -/

/-- The worker table with a worker marked lost, and the event of it. -/
def State.workerLost (s : State) (w : Word) : State :=
  ({ s with fab := { s.fab with workers := s.fab.workers.map (fun x =>
    if x.id = w then { x with lost := true, lostTick := s.clk.tick } else x) } } : State).event [0] 0x0062 w.toNat 0

theorem exec_fabWorkerLost_of_silent {w : Word} {x : Worker} (hx : s.worker w = some x)
    (h : s.fabRole = 1 ∧ 3 ≤ x.silent ∧ x.lost = false) : exec (.fabWorkerLost w) s = .next (s.workerLost w) := by
  refine (whenUp_of_up hup).trans (congrArg _ ?_)
  rw [hx]
  exact if_pos h

theorem exec_fabWorkerLost_of_heard {w : Word}
    (h : ∀ x, s.worker w = some x → ¬(s.fabRole = 1 ∧ 3 ≤ x.silent ∧ x.lost = false)) : exec (.fabWorkerLost w) s = .next s := by
  refine (whenUp_of_up hup).trans (congrArg _ ?_)
  cases hx : s.worker w with
  | none => rfl
  | some x => exact if_neg (h x hx)
end
end

/-! ### A remote command without RESULT (R358, R362) -/

/-- The manager's records of remote commands with one of them changed. -/
def State.setCmd (s : State) (h : Nat) (f : RemoteCmd → RemoteCmd) : State :=
  { s with fab := { s.fab with cmds := s.fab.cmds.map (fun x => if x.h = h then f x else x) } }

section
variable {s : State} {h : Nat} {c : RemoteCmd} {e : JEntry} (hfw : s.fw = true)
  (hc : s.fab.cmds.find? (fun c => c.h = h) = some c) (he : s.job h = some e)
include hfw hc he

theorem exec_fabCmdRetry : exec (.fabCmdRetry h) s = .next
    (if c.abandoned = false ∧ e.cmp.isNone ∧ c.sentTick + s.retry ≤ s.clk.tick then
      (s.setCmd h (fun x => { x with sentTick := s.clk.tick })).sendCmd h e c.worker else s) := by
  refine (whenFw_of_fw hfw).trans (congrArg _ ?_)
  rw [hc, he]
  rfl

theorem exec_fabCmdAbandon_of_known {w : Worker} (hw : s.worker c.worker = some w) : exec (.fabCmdAbandon h) s = .next
    (if c.abandoned = false ∧ w.lost ∧ w.lostTick + 64000000 ≤ s.clk.tick then
      (s.setCmd h (fun x => { x with abandoned := true })).completeEntry h
        ⟨e.d.serial, e.d.opcode, eAborted, true, e.d.ring, c.worker, s.tnNow, 0xFFFFFFFFFFFFFFFF⟩ else s) := by
  refine (whenFw_of_fw hfw).trans (congrArg _ ?_)
  rw [hc, he]
  dsimp only
  rw [hw]
  rfl

theorem exec_fabCmdAbandon_of_unknown (hw : s.worker c.worker = none) : exec (.fabCmdAbandon h) s = .next s := by
  refine (whenFw_of_fw hfw).trans (congrArg _ ?_)
  rw [hc, he]
  dsimp only
  rw [hw]
end

/-! ### The obligation -/

/-- Settles O50: each command is its guard before one operation (`State.takePeerQuote_of_fitting` and the lemmas after it), and what the
operation does to a link is read off `State.setLinkSt_plink` and `State.startKeying_plink`, what it sends off `State.sendCmd_sendQ`. -/
theorem fabricTimers : Obligations.FabricTimers := by
  unfold Obligations.FabricTimers
  intro s hup
  refine ⟨?hello, ?keyed, ?quote, ?idle, ?links, fun w => ⟨fun x hx hrole h3 hl => exec_fabWorkerLost_of_silent hup hx ⟨hrole, h3, hl⟩,
    exec_fabWorkerLost_of_heard hup⟩, fun h c e hfw hc he => ⟨?retry, ?waits, ?abandon, ?holds⟩⟩
  case hello => exact fun hd n e hk => (whenUp_of_up hup).trans (congrArg _ (State.takeHello_of_keying n e hk))
  case keyed => exact fun hd n e hk hdn => (whenUp_of_up hup).trans (congrArg _ (State.takeHello_of_keyed n e hk hdn))
  case quote =>
    intro hd d b q id lc o fw n fn fe i l x hst hi hf low own salt accepts
    have hexec : exec (.peerKeyingMessage hd (.quote d b q id lc o fw n)) s = .next (s.takePeerQuote l d b q id lc o fw n) :=
      whenUp_of_up hup
    by_cases ha : accepts
    · rw [State.takePeerQuote_of_fitting d b q id lc o fw n hst hi hf ha] at hexec
      refine ⟨_, hexec, fun k hk => ?_, fun _ => ?_, fun hn => absurd ha hn⟩
      · rw [State.keyed_plink hst, if_neg hk]
      · rw [State.keyed_plink hst, if_pos rfl]
        rfl
    · have hdown : (s.plink l).st ≠ .down := fun h => LinkSt.noConfusion (hst.symm.trans h)
      obtain ⟨hself, hrest⟩ := State.keyingFailed_plink hdown
      rw [State.takePeerQuote_of_unfit d b q id lc o fw n hst hi hf ha] at hexec
      refine ⟨_, hexec, hrest, fun h => absurd h ha, fun _ => ?_⟩
      rw [hself]
      exact ⟨rfl, rfl, rfl, rfl⟩
  case idle =>
    exact fun hd d b q id lc o fw n h => (whenUp_of_up hup).trans (congrArg _ (State.takePeerQuote_of_idle d b q id lc o fw n h))
  case links =>
    intro l x ready
    refine ⟨fun a ha hd ht => ?_, exec_peerKeyingRetry_of_early hup, exec_delaySampleTimeout_of_due hup,
      exec_delaySampleTimeout_of_early hup⟩
    have hready : ready ↔ (s.setPlink l { s.plink l with retryAt := none }).keyable l := by
      rw [State.setPlink_keyable]
      cases l <;> exact Iff.rfl
    have hself := s.setPlink_self l { s.plink l with retryAt := none }
    obtain ⟨hkeying, hstays, hrest⟩ := State.tryKeying_plink ((congrArg PeerLink.st hself).trans hd) (congrArg PeerLink.retryAt hself)
    refine ⟨_, exec_peerKeyingRetry_of_due hup ha hd ht, fun k hk => (hrest k hk).trans (s.setPlink_of_ne _ hk), fun hr => ?_,
      fun hr => (hstays (mt hready.mpr hr)).trans hself⟩
    rw [hkeying (hready.mp hr), hself, State.setPlink_fresh]
  case retry =>
    intro ha hcmp ht
    obtain ⟨hsent, hcmds⟩ := State.sendCmd_sendQ (s.setCmd h (fun x => { x with sentTick := s.clk.tick })) h e c.worker
    refine ⟨_, (exec_fabCmdRetry hfw hc he).trans (congrArg _ (if_pos ⟨ha, by simp [hcmp], ht⟩)), hcmds, hsent⟩
  case waits =>
    intro hn
    refine (exec_fabCmdRetry hfw hc he).trans (congrArg _ (if_neg fun ⟨ha, hcmp, ht⟩ => ?_))
    rcases hn with hn | hn | hn
    · simp [hn] at ha
    · exact hn (Option.isNone_iff_eq_none.mp hcmp)
    · exact absurd ht (Nat.not_le.mpr hn)
  case abandon =>
    exact fun w hw ha hl ht => (exec_fabCmdAbandon_of_known hfw hc he hw).trans (congrArg _ (if_pos ⟨ha, hl, ht⟩))
  case holds =>
    intro hn
    cases hw : s.worker c.worker with
    | none => exact exec_fabCmdAbandon_of_unknown hfw hc he hw
    | some w =>
      refine (exec_fabCmdAbandon_of_known hfw hc he hw).trans (congrArg _ (if_neg fun ⟨ha, hl, ht⟩ => ?_))
      rcases hn w hw with h' | h' | h'
      · simp [h'] at ha
      · simp [h'] at hl
      · exact absurd ht (Nat.not_le.mpr h')

end Sys2Proof.Machine

/-!
PROOFS. Remote commands at the worker and at the manager, their events, dumps and mailbox messages, and the key agreement and dump
messages of a mate (R350, R358, R359, R362 to R364, R488, R559, R586).
-/
namespace Sys2Proof.Machine

/-! ### What noting a message leaves, seen by the remote commands (R351, R352) -/

section
variable (s : State) (hd : FabHdr) (type : Nat) (body : List Byte)

theorem State.fabNote_sealed : (s.fabNote hd type body).sealed = s.sealed := (congrArg State.sealed (s.fabNote_eq hd type body) :)

theorem State.fabNote_fw : (s.fabNote hd type body).fw = s.fw := (congrArg State.fw (s.fabNote_eq hd type body) :)

theorem State.fabNote_job (h : Nat) : (s.fabNote hd type body).job h = s.job h := by
  unfold State.job
  rw [State.fabNote_mgp]

theorem State.fabNote_cmds : (s.fabNote hd type body).fab.cmds = s.fab.cmds :=
  (congrArg Fab.cmds (s.fabNote_parts hd type body) :)

theorem State.fabNote_wcmds : (s.fabNote hd type body).fab.wcmds = s.fab.wcmds :=
  (congrArg Fab.wcmds (s.fabNote_parts hd type body) :)

/-- A device that has no sealed configuration, or whose firmware does not run, takes no commands. -/
theorem State.fabNote_stopped : (!(s.fabNote hd type body).sealed) = true ∨ (!(s.fabNote hd type body).fw) = true ↔
    s.sealed = false ∨ s.fw = false := by
  rw [State.fabNote_sealed, State.fabNote_fw, Bool.not_eq_true', Bool.not_eq_true']
end

/-! ### The worker's record of a manager serial (R359, R364) -/

/-- The worker's record of a manager serial, empty before its first mention. -/
def State.wcmd (s : State) (m : Nat) : WorkerCmd := (s.fab.wcmds.find? (fun w => w.mserial = m)).getD { mserial := m, prin := 0 }

theorem State.fabNote_wcmd (s : State) (hd : FabHdr) (type : Nat) (body : List Byte) (m : Nat) :
    (s.fabNote hd type body).wcmd m = s.wcmd m := by
  unfold State.wcmd
  rw [State.fabNote_wcmds]

theorem State.needWcmd_sendQ (s : State) (m : Nat) : (s.needWcmd m).fab.sendQ = s.fab.sendQ := by
  unfold State.needWcmd
  split <;> rfl

/-- Noting a message and its manager serial changes the fabric area only. -/
theorem State.needWcmd_fabNote_eq (s : State) (hd : FabHdr) (type : Nat) (body : List Byte) (m : Nat) :
    (s.fabNote hd type body).needWcmd m = { s with fab := ((s.fabNote hd type body).needWcmd m).fab } :=
  State.eq_fab ((State.needWcmd_blank rfl ..).trans (State.fabNote_blank rfl ..))

/-- The record of a command with batch bytes put at an offset, where it still takes them. -/
def WorkerCmd.putBatch (w : WorkerCmd) (copies : Bool) (off : Nat) (data : List Byte) : WorkerCmd :=
  if (w.h.isNone ∨ copies) ∧ off ≤ w.batch.length then { w with batch := w.batch.take off ++ data } else w

theorem WorkerCmd.putBatch_mserial (w : WorkerCmd) (copies : Bool) (off : Nat) (data : List Byte) :
    (w.putBatch copies off data).mserial = w.mserial := by
  unfold WorkerCmd.putBatch
  split <;> rfl

/-! ### A stored RESULT sent again (R359, R364) -/

/-- What a message waiting to be sent says, and to whom. -/
def OutMsg.content (x : OutMsg) : Nat × Word × List Byte := (x.type, x.dest, x.body)

theorem State.send_content (s : State) (link : Option Link) (type : Nat) (dest : Word) (body : List Byte) :
    (s.send link type dest body).fab.sendQ.map OutMsg.content = s.fab.sendQ.map OutMsg.content ++ [(type, dest, body)] :=
  List.map_append

theorem State.foldl_send_content {α : Type} (link : Option Link) (type : Nat) (dest : Word) (f : α → List Byte) (l : List α) (s : State) :
    (l.foldl (fun t a => t.send link type dest (f a)) s).fab.sendQ.map OutMsg.content =
      s.fab.sendQ.map OutMsg.content ++ l.map (fun a => (type, dest, f a)) := by
  induction l generalizing s with
  | nil => simp
  | cons a l ih => rw [List.foldl_cons, ih, State.send_content, List.map_cons, List.append_assoc, List.singleton_append]

theorem State.resendResult_content (s : State) (w : WorkerCmd) (c : CmpEntry) :
    (s.resendResult w c).fab.sendQ.map OutMsg.content = s.fab.sendQ.map OutMsg.content
      ++ w.output.map (fun o => (0x26, s.mgrId, beBytes 8 w.mserial ++ beBytes 4 o.1 ++ o.2))
      ++ [(0x21, s.mgrId, beBytes 8 w.mserial ++ cmpBytes c 0)] :=
  (State.send_content ..).trans (congrArg (· ++ _) (State.foldl_send_content ..))

theorem State.resendResult_mgp (s : State) (w : WorkerCmd) (c : CmpEntry) : (s.resendResult w c).mgp = s.mgp :=
  foldl_keep (p := State.mgp) (fun _ _ => State.send_mgp ..) _ _

/-! ### CMD (R359, R364, R637) -/

/-- The journal entry of a manager command. -/
def State.remoteEntry (s : State) (m p : Nat) (d : Desc) (b : Option Batch) : JEntry :=
  { ring := 0, prin := p, origin := .manager m, d := { d with tag := BitVec.ofNat 128 m }, batch := b, j := s.clk.tick, jtn := s.tnNow
    recTn := if s.cal.role = .active then some s.tnNow else none }

theorem State.journalRemote_mgp (s : State) (m p : Nat) (d : Desc) (b : Option Batch) : (s.journalRemote m p d b).mgp =
    { s.mgp with nextH := (s.mgp.nextH + 1) % 65536, journal := s.mgp.journal ++ [(s.mgp.nextH, s.remoteEntry m p d b)] } :=
  State.recd_mgp ..

theorem State.journalRemote_fab (s : State) (m p : Nat) (d : Desc) (b : Option Batch) : (s.journalRemote m p d b).fab =
    (s.setWcmd m (fun w => { w with prin := p, h := some s.mgp.nextH })).fab :=
  State.recd_fab ..

theorem State.journalRemote_find (s : State) (m p : Nat) (d : Desc) (b : Option Batch) :
    (s.journalRemote m p d b).fab.wcmds.find? (fun w => w.mserial = m) =
      (s.fab.wcmds.find? (fun w => w.mserial = m)).map (fun w => { w with prin := p, h := some s.mgp.nextH }) := by
  rw [State.journalRemote_fab]
  exact State.setWcmd_find _ _ _ (fun _ => rfl)

/-- Length of a command's batch; 0 without one. -/
def batchLen (d : Desc) : Nat := if descHasBatch d then fld d.body 72 4 else 0

/-- The batch of a manager command, from the bytes that have come. -/
def WorkerCmd.batchOf (w : WorkerCmd) (d : Desc) (sg : FwSigs) : Option Batch :=
  if descHasBatch d then some ⟨w.batch.take (batchLen d), true, true, sg⟩ else none

/-- What a worker does with a CMD, given its record of the command. -/
def State.answerCmd (s : State) (w : WorkerCmd) (m p : Nat) (d : Desc) (sg : FwSigs) : State :=
  match w.h, w.result with
  | some _, some c => s.resendResult w c
  | some _, none => s
  | none, _ => if w.batch.length < batchLen d then s else s.journalRemote m p d (w.batchOf d sg)

section
variable {s t : State} {hd : FabHdr} {m p : Nat} {d : Desc} {sg : FwSigs}
  (hr : s.receives hd 0x20 (beBytes 8 m ++ beBytes 1 p ++ descBytes d) = true)
  (ht : s.fabNote hd 0x20 (beBytes 8 m ++ beBytes 1 p ++ descBytes d) = t)
include hr ht

theorem execFabCmd_of_stopped (h : s.sealed = false ∨ s.fw = false) : exec (.fabCmd hd m p d sg) s = .next t :=
  next_of_receives hr ((if_pos ((State.fabNote_stopped ..).mpr h)).trans ht)

theorem execFabCmd_of_running (hs : s.sealed = true) (hf : s.fw = true) :
    exec (.fabCmd hd m p d sg) s = .next ((t.needWcmd m).answerCmd (s.wcmd m) m p d sg) := by
  refine next_of_receives hr ((if_neg (mt (State.fabNote_stopped ..).mp (by simp [hs, hf]))).trans ?_)
  dsimp only
  rw [State.needWcmd_find, ← State.wcmd, State.fabNote_wcmd, ht]
  rfl
end

section
variable {s : State} {w : WorkerCmd} (m p : Nat) {d : Desc} (sg : FwSigs)

theorem State.answerCmd_of_pending (hh : w.h ≠ none) (hw : w.result = none) : s.answerCmd w m p d sg = s := by
  obtain ⟨h, hh⟩ := Option.ne_none_iff_exists'.mp hh
  unfold State.answerCmd
  rw [hh, hw]

theorem State.answerCmd_of_done {r : CmpEntry} (hh : w.h ≠ none) (hw : w.result = some r) :
    s.answerCmd w m p d sg = s.resendResult w r := by
  obtain ⟨h, hh⟩ := Option.ne_none_iff_exists'.mp hh
  unfold State.answerCmd
  rw [hh, hw]

theorem State.answerCmd_of_short (hh : w.h = none) (hb : w.batch.length < batchLen d) : s.answerCmd w m p d sg = s := by
  unfold State.answerCmd
  rw [hh]
  exact if_pos hb

theorem State.answerCmd_of_whole (hh : w.h = none) (hb : batchLen d ≤ w.batch.length) :
    s.answerCmd w m p d sg = s.journalRemote m p d (w.batchOf d sg) := by
  unfold State.answerCmd
  rw [hh]
  exact if_neg (Nat.not_lt.mpr hb)
end

/-! ### CMD_DATA (R364) -/

section
variable {s t : State} {hd : FabHdr} {m off : Nat} {data : List Byte}
  (hr : s.receives hd 0x25 (beBytes 8 m ++ beBytes 4 off ++ data) = true)
  (ht : s.fabNote hd 0x25 (beBytes 8 m ++ beBytes 4 off ++ data) = t)
include hr ht

theorem execCmdData_of_stopped (h : s.sealed = false ∨ s.fw = false) : exec (.cmdData hd m off data) s = .next t :=
  next_of_receives hr ((if_pos ((State.fabNote_stopped ..).mpr h)).trans ht)

theorem execCmdData_of_running (hs : s.sealed = true) (hf : s.fw = true) :
    exec (.cmdData hd m off data) s = .next ((t.needWcmd m).setWcmd m (fun w => w.putBatch s.copies off data)) := by
  refine next_of_receives hr ((if_neg (mt (State.fabNote_stopped ..).mp (by simp [hs, hf]))).trans ?_)
  rw [State.fabNote_copies, ht]
  rfl
end

/-! ### OUT_DATA and RESULT (R358, R362, R364) -/

/-- The manager's record of a remote command, where a worker's answer names it. -/
def State.cmdAt (s : State) (m : Nat) (w : Word) : Option RemoteCmd :=
  s.fab.cmds.find? (fun c => decide (c.h = m) && decide (c.worker = w))

theorem State.fabNote_cmdAt (s : State) (hd : FabHdr) (type : Nat) (body : List Byte) (m : Nat) (w : Word) :
    (s.fabNote hd type body).cmdAt m w = s.cmdAt m w := by
  unfold State.cmdAt
  rw [State.fabNote_cmds]

theorem State.output_of_ring {s : State} {h : Nat} {e : JEntry} (he : s.job h = some e) (ho : e.origin = .ring) (addr hkey off : Nat)
    (bytes : List Byte) : s.output h addr hkey off bytes =
      (s.setJob h (fun e => { e with outLeft := e.outLeft + 1 })).issue e.ring ⟨.output h, addr + off, hkey, bytes, bytes.length⟩ := by
  unfold State.output
  rw [he]
  dsimp only
  rw [ho]

section
variable {s t : State} {hd : FabHdr} {m off : Nat} {data : List Byte}
  (hr : s.receives hd 0x26 (beBytes 8 m ++ beBytes 4 off ++ data) = true)
  (ht : s.fabNote hd 0x26 (beBytes 8 m ++ beBytes 4 off ++ data) = t)
include hr ht

theorem execOutData_of_known {e : JEntry} {c : RemoteCmd} (he : s.job m = some e) (hc : s.cmdAt m hd.origin = some c) :
    exec (.outData hd m off data) s =
      .next (if c.abandoned ∨ e.cmp.isSome then t else t.output m e.outRef.1 e.outRef.2 off data) := by
  refine next_of_receives hr ?_
  rw [State.fabNote_job, ← State.cmdAt, State.fabNote_cmdAt, he, hc, ht]

theorem execOutData_of_unknown (h : s.job m = none ∨ s.cmdAt m hd.origin = none) : exec (.outData hd m off data) s = .next t := by
  refine next_of_receives hr ?_
  rw [State.fabNote_job, ← State.cmdAt, State.fabNote_cmdAt, ht]
  split
  next he hc => simp [he, hc] at h
  next => rfl
end

/-- The manager has no record of a remote command any more. -/
def State.dropCmd (s : State) (m : Nat) : State := { s with fab := { s.fab with cmds := s.fab.cmds.filter (fun y => y.h ≠ m) } }

section
variable {s t : State} {hd : FabHdr} {m : Nat} {r : CmpEntry}
  (hr : s.receives hd 0x21 (beBytes 8 m ++ cmpBytes r 0) = true) (ht : s.fabNote hd 0x21 (beBytes 8 m ++ cmpBytes r 0) = t)
include hr ht

theorem execFabResult_of_unknown (hc : s.cmdAt m hd.origin = none) : exec (.fabResult hd m r) s = .next t := by
  refine next_of_receives hr ?_
  dsimp only
  rw [← State.cmdAt, State.fabNote_cmdAt, hc, ht]

section
variable {c : RemoteCmd} (hc : s.cmdAt m hd.origin = some c)
include hc

theorem execFabResult_of_late (ha : c.abandoned = true) : exec (.fabResult hd m r) s = .next
    ((t.dropCmd m).event [(s.ring r.ring).prin] 0x0065 hd.origin.toNat (r.serial % 2 ^ 56 * 256 + r.status % 256)) := by
  have hring : (t.dropCmd m).ring r.ring = s.ring r.ring := ht ▸ s.fabNote_ring hd 0x21 _ r.ring
  refine next_of_receives hr ?_
  dsimp only
  rw [← State.cmdAt, State.fabNote_cmdAt, hc, ht, ← hring]
  exact if_pos ha

theorem execFabResult_of_live (ha : c.abandoned = false) {e : JEntry} (he : s.job m = some e) : exec (.fabResult hd m r) s = .next
    ((if e.d.opcode = 0x70 ∧ r.status = 0 then (t.dropCmd m).noteHolds hd.origin e else t.dropCmd m).completeEntry m
      { r with remote := true, device := hd.origin, ring := e.ring, serial := e.d.serial }) := by
  have hjob : (t.dropCmd m).job m = some e := (ht ▸ s.fabNote_job hd 0x21 _ m :).trans he
  refine next_of_receives hr ?_
  dsimp only
  rw [← State.cmdAt, State.fabNote_cmdAt, hc, ht]
  dsimp only
  rw [if_neg (by simp [ha]), ← State.dropCmd, hjob]

theorem execFabResult_of_forgotten (ha : c.abandoned = false) (he : s.job m = none) :
    exec (.fabResult hd m r) s = .next (t.dropCmd m) := by
  have hjob : (t.dropCmd m).job m = none := (ht ▸ s.fabNote_job hd 0x21 _ m :).trans he
  refine next_of_receives hr ?_
  dsimp only
  rw [← State.cmdAt, State.fabNote_cmdAt, hc, ht]
  dsimp only
  rw [if_neg (by simp [ha]), ← State.dropCmd, hjob]
end
end

/-! ### The mate's key agreement (R488) -/

/-- A mate's request for its own ports passes its checks. -/
def State.mateRequestFits (s : State) (req : List Byte) (ec lms : Bool) : Prop :=
  kaRange req = true ∧ kaForMate req = true ∧ ec = true ∧ lms = true ∧ kaKeyDigest req = s.ownerDigest ∧
    BitVec.ofNat 384 (beNat ((req.drop 320).take 48)) = Config.deviceId

section
variable {s t : State} {hd : FabHdr} {req : List Byte} {ec lms : Bool} (hl : hd.link = .calrin) (hm : s.mated = true)
  (hr : s.receives hd 0x51 req = true) (ht : s.fabNote hd 0x51 req = t)
include hl hm hr ht

theorem execMateKeyAgreeRequest_of_fitting (hf : t.mateRequestFits req ec lms) : exec (.mateKeyAgreeRequest hd req ec lms) s = .next
    ((t.draw.2.takeLeaf.2.kaInstall 0 req t.draw.1).send (some .calrin) 0x52 0
      (beBytes 8 (leAt req 8 8) ++ t.draw.2.signed t.draw.2.takeLeaf.1 (kaBody req t.draw.1))) := by
  refine (congrArg _ (if_pos ⟨hl, hm⟩)).trans (next_of_receives hr ?_)
  rw [ht]
  exact if_pos (by simpa [State.mateRequestFits, and_assoc] using hf)

theorem execMateKeyAgreeRequest_of_unfit (hf : ¬t.mateRequestFits req ec lms) : exec (.mateKeyAgreeRequest hd req ec lms) s = .next
    (t.send (some .calrin) 0x52 0 (beBytes 8 (leAt req 8 8))) := by
  refine (congrArg _ (if_pos ⟨hl, hm⟩)).trans (next_of_receives hr ?_)
  rw [ht]
  exact if_neg fun hok => hf (by simpa [State.mateRequestFits, and_assoc] using hok)
end

/-- The owner's KEY_AGREE of a serial that waits for the mate's response. -/
def State.mateWaiting (s : State) (m : Nat) : Option (Nat × JEntry) :=
  s.mgp.journal.find? (fun x => decide (x.2.d.opcode = 0x72) && decide (x.2.d.serial = m) && decide (x.2.prin = 0)
    && x.2.accepted.isSome && x.2.cmp.isNone && kaForMate x.2.bytes)

section
variable {s t : State} {hd : FabHdr} {m : Nat} {resp : List Byte} (hl : hd.link = .calrin) (hm : s.mated = true)
  (hr : s.receives hd 0x52 (beBytes 8 m ++ resp) = true) (ht : s.fabNote hd 0x52 (beBytes 8 m ++ resp) = t)
include hl hm hr ht

theorem execMateKeyAgreeResponse_of_unknown (hx : s.mateWaiting m = none) : exec (.mateKeyAgreeResponse hd m resp) s = .next t := by
  refine (congrArg _ (if_pos ⟨hl, hm⟩)).trans (next_of_receives hr ?_)
  rw [State.fabNote_mgp, ← State.mateWaiting, hx, ht]

theorem execMateKeyAgreeResponse_of_waiting {y : Nat × JEntry} (hx : s.mateWaiting m = some y) :
    exec (.mateKeyAgreeResponse hd m resp) s = .next
      (if resp = [] then t.complete y.1 eAuth s.tnNow 0
       else (t.output y.1 (y.2.f 8 8) (y.2.f 16 4) 32 resp).complete y.1 0 s.tnNow 0) := by
  refine (congrArg _ (if_pos ⟨hl, hm⟩)).trans (next_of_receives hr ?_)
  rw [State.fabNote_mgp, ← State.mateWaiting, hx, State.fabNote_tnNow, ht]
  simp only [List.isEmpty_iff]
end

/-! ### The obligation -/

/-- Settles O49: a message that the device receives acts on the state in which it has been noted (`next_of_receives`), which shows the
commands, the journal and the worker's records as they were; what a CMD comes to is read off the worker's record of its serial
(`State.answerCmd_of_done` and the lemmas beside it), what a RESULT comes to off the manager's record. -/
theorem fabricCommands : Obligations.FabricCommands := by
  unfold Obligations.FabricCommands
  intro hd m s
  refine ⟨?cmd, ?data, ?result, ?event, ?dump, ?mbx, ?keyRequest, ?keyResponse⟩
  case cmd =>
    intro p d sg B hr t c w n
    refine ⟨execFabCmd_of_stopped hr rfl, fun hs hf => ?_⟩
    have hexec : exec c s = .next ((t.needWcmd m).answerCmd w m p d sg) := execFabCmd_of_running hr rfl hs hf
    have hsend : (t.needWcmd m).fab.sendQ = t.fab.sendQ := t.needWcmd_sendQ m
    have hrest : t.needWcmd m = { s with fab := (t.needWcmd m).fab } := s.needWcmd_fabNote_eq hd 0x20 B m
    have hfind : (t.needWcmd m).fab.wcmds.find? (fun w => w.mserial = m) = some w :=
      (t.needWcmd_find m).trans (congrArg some (s.fabNote_wcmd hd 0x20 B m))
    refine ⟨fun hh hw => ?pending, fun r hh hw => ?done, fun hh hb => ?short, fun hh hb => ?whole⟩
    case pending => rw [hexec, State.answerCmd_of_pending m p sg hh hw]
    case done =>
      have hmgr : (t.needWcmd m).mgrId = s.mgrId := State.reg_congr (congrArg State.regs hrest) _
      refine ⟨_, hexec.trans (congrArg _ (State.answerCmd_of_done m p sg hh hw)), ?_, ?_⟩
      · rw [State.resendResult_mgp, hrest]
      · rw [← hsend, ← hmgr]
        exact State.resendResult_content _ w r
    case short => rw [hexec, State.answerCmd_of_short m p sg hh hb]
    case whole =>
      refine ⟨_, hexec.trans (congrArg _ (State.answerCmd_of_whole m p sg hh hb)), ?_, ?_, ?_⟩
      · rw [State.journalRemote_mgp, hrest]
        rfl
      · rw [State.journalRemote_fab, ← hsend]
        rfl
      · rw [State.journalRemote_find, hfind, hrest]
        rfl
  case data =>
    intro off data B w
    refine ⟨fun hr => ⟨execCmdData_of_stopped hr rfl, fun hs hf => ?_⟩, fun hr => ?_⟩
    · refine ⟨_, execCmdData_of_running hr rfl hs hf, ?_, State.needWcmd_sendQ .., ?_⟩
      · exact State.eq_fab ((State.setWcmd_blank rfl ..).trans ((State.needWcmd_blank rfl ..).trans (State.fabNote_blank rfl ..)))
      · rw [State.setWcmd_find _ _ _ (fun w => w.putBatch_mserial _ _ _), State.needWcmd_find, ← State.wcmd, State.fabNote_wcmd]
        simp only [Option.map_some, WorkerCmd.putBatch, Option.isNone_iff_eq_none]
        rfl
    · intro t
      refine ⟨fun e c he hc => ⟨fun ha hcmp ho => ?_, fun h => ?_⟩, execOutData_of_unknown hr rfl⟩
      · rw [execOutData_of_known hr rfl he hc, if_neg (by simp [ha, hcmp]), State.output_of_ring ((State.fabNote_job ..).trans he) ho]
      · rw [execOutData_of_known hr rfl he hc, if_pos (by simpa [Option.isSome_iff_ne_none] using h)]
  case result =>
    intro r B hr t y
    have hy : y = t.dropCmd m := by
      unfold State.dropCmd
      rw [State.fabNote_cmds]
    rw [hy]
    exact ⟨execFabResult_of_unknown hr rfl, fun c hc => ⟨execFabResult_of_late hr rfl hc,
      fun e ha he => execFabResult_of_live hr rfl hc ha he, execFabResult_of_forgotten hr rfl hc⟩⟩
  case event => exact fun p e hr => next_of_receives hr rfl
  case mbx => exact fun ch fl msg hr => next_of_receives hr rfl
  case dump =>
    intro p l off data B
    refine ⟨fun hr => next_of_receives hr ?_, fun hf hl hm hr => ?_⟩
    · rw [State.fabNote_fw]
    · exact (whenFw_of_fw hf).trans ((congrArg _ (if_pos ⟨hl, hm⟩)).trans (next_of_receives hr rfl))
  case keyRequest =>
    exact fun req ec lms hl hm hr => ⟨execMateKeyAgreeRequest_of_fitting hl hm hr rfl, execMateKeyAgreeRequest_of_unfit hl hm hr rfl⟩
  case keyResponse =>
    exact fun resp hl hm hr => ⟨execMateKeyAgreeResponse_of_unknown hl hm hr rfl,
      fun y hx => execMateKeyAgreeResponse_of_waiting hl hm hr rfl hx⟩

end Sys2Proof.Machine

/-! PROOFS. The areas that each command may change. -/
namespace Sys2Proof

/-- The areas of a command, as the set that `State.blank` takes. -/
abbrev Instr.mayChange (c : Instr) : Machine.Area → Bool := fun a => decide (a ∈ c.areas)

/-- A broad command may change every area. -/
theorem Instr.mayChange_of_broad {c : Instr} (hc : c.broad = true) (a : Machine.Area) : c.mayChange a = true := by
  cases c with
  | coldPowerUp | resetNRise | resetNFall | pwrGoodFall | pwrGoodRise | glbRstCtrlWarm | controlRestartStart | controlRestartEnd
  | watchdogExpiry | ladleRecordApply | silenceTakeover | registerWrite | mgmtFrameReceived | rackAccess => cases a <;> rfl
  | _ => cases hc

namespace Machine

/-- A command that is not broad leaves every area outside its own: each command's own law says so of the state blanked there. -/
theorem exec_blank (c : Instr) (hc : c.broad = false) (s t : State) (hx : exec c s = .next t) :
    t.blank c.mayChange = s.blank c.mayChange := by
  cases c with
  | alertCauseChange cause on rails tDie tHbm => exact execAlertCauseChange_blank rfl cause on rails tDie tHbm s t hx
  | i2cAccess addr wr rd => exact execI2cAccess_blank rfl addr wr rd s t hx
  | jtagInstruction instr => exact execJtagInstruction_blank rfl instr s t hx
  | mailboxBlockReset qp => exact execMailboxBlockReset_blank rfl rfl rfl qp s t hx
  | mgmtPortBlockReset qp port => exact execMgmtPortBlockReset_blank rfl rfl rfl qp port s t hx
  | dumpEngineReset qp => exact execDumpEngineReset_blank rfl rfl rfl qp s t hx
  | whiskBlockReset qp => exact execWhiskBlockReset_blank rfl rfl rfl qp s t hx
  | calrinBlockReset qp => exact execCalrinBlockReset_blank rfl rfl rfl qp s t hx
  | laneGroupReset qp g => exact execLaneGroupReset_blank rfl rfl rfl qp g s t hx
  | tickFault unit => exact execTickFault_blank rfl rfl rfl rfl rfl rfl unit s t hx
  | tnLoad qp => exact execTnLoad_blank rfl rfl rfl qp s t hx
  | loRegisterRead qp addr => exact execLoRegisterRead_blank rfl rfl rfl qp addr s t hx
  | ppsInEdge => exact execPpsInEdge_blank rfl rfl rfl rfl rfl rfl rfl s t hx
  | todMessage bytes => exact execTodMessage_blank rfl bytes s t hx
  | todOutSend => exact execTodOutSend_blank rfl rfl s t hx
  | secondBoundary => exact execSecondBoundary_blank rfl rfl rfl rfl rfl rfl rfl rfl rfl rfl rfl rfl rfl s t hx
  | selectionPeriodBoundary m => exact execSelectionPeriodBoundary_blank rfl rfl rfl rfl rfl rfl rfl rfl rfl rfl rfl rfl rfl rfl rfl rfl rfl rfl m s t hx
  | sourceActivityLoss last => exact execSourceActivityLoss_blank rfl last s t hx
  | sourceQualified src => exact execSourceQualified_blank rfl src s t hx
  | referenceWtrExpiry entry => exact execReferenceWtrExpiry_blank rfl entry s t hx
  | starterLock => exact execStarterLock_blank rfl rfl rfl rfl rfl s t hx
  | acqTmoExpiry => exact execAcqTmoExpiry_blank rfl s t hx
  | loopBandwidthStep => exact execLoopBandwidthStep_blank rfl s t hx
  | transitionEnd => exact execTransitionEnd_blank rfl s t hx
  | holdoverLimitExpiry => exact execHoldoverLimitExpiry_blank rfl rfl rfl rfl rfl s t hx
  | phaseStepApply => exact execPhaseStepApply_blank rfl rfl rfl rfl rfl rfl rfl rfl rfl rfl rfl rfl rfl rfl s t hx
  | phaseStepEnd => exact execPhaseStepEnd_blank rfl s t hx
  | refConfigApply => exact execRefConfigApply_blank rfl rfl rfl rfl rfl rfl rfl rfl rfl rfl rfl rfl rfl rfl s t hx
  | refForceApply => exact execRefForceApply_blank rfl rfl rfl rfl rfl rfl rfl rfl rfl rfl rfl rfl rfl s t hx
  | boardTableLoad qp => exact execBoardTableLoad_blank rfl rfl rfl qp s t hx
  | boardTableVerifyDone ecOk lmsOk => exact execBoardTableVerifyDone_blank rfl ecOk lmsOk s t hx
  | laneDirectionSettled lane rx => exact execLaneDirectionSettled_blank rfl rfl rfl rfl rfl rfl rfl rfl rfl rfl lane rx s t hx
  | frameReceived lane f => exact execFrameReceived_blank rfl rfl rfl rfl rfl rfl rfl rfl rfl rfl rfl lane f s t hx
  | overheadPacket lane => exact execOverheadPacket_blank rfl lane s t hx
  | capabilityWord lane w => exact execCapabilityWord_blank rfl rfl rfl rfl rfl rfl rfl rfl rfl lane w s t hx
  | ladderTAlignExpiry g => exact execLadderTAlignExpiry_blank rfl rfl rfl g s t hx
  | ladderTNegExpiry g => exact execLadderTNegExpiry_blank rfl rfl rfl rfl rfl rfl rfl rfl rfl rfl g s t hx
  | stepSwitch g far => exact execStepSwitch_blank rfl rfl rfl rfl rfl rfl rfl rfl rfl g far s t hx
  | ladderTVerifyExpiry g => exact execLadderTVerifyExpiry_blank rfl rfl rfl rfl rfl rfl rfl rfl g s t hx
  | laneDrop lane => exact execLaneDrop_blank rfl rfl rfl rfl rfl rfl rfl rfl rfl rfl rfl lane s t hx
  | laneWakeVerifyExpiry lane => exact execLaneWakeVerifyExpiry_blank rfl rfl rfl rfl rfl rfl lane s t hx
  | laneLoopApply lane => exact execLaneLoopApply_blank rfl rfl rfl rfl rfl rfl rfl rfl rfl rfl rfl lane s t hx
  | loopGrantRelease lane => exact execLoopGrantRelease_blank rfl rfl rfl rfl rfl rfl rfl rfl rfl lane s t hx
  | eyeScanEnd lane points vstep => exact execEyeScanEnd_blank rfl rfl rfl rfl rfl lane points vstep s t hx
  | laneDefectDeclare lane d held => exact execLaneDefectDeclare_blank rfl rfl rfl rfl rfl rfl lane d held s t hx
  | laneDefectClear lane d held => exact execLaneDefectClear_blank rfl lane d held s t hx
  | laneFail lane d => exact execLaneFail_blank rfl rfl rfl rfl rfl lane d s t hx
  | laneClear lane d => exact execLaneClear_blank rfl rfl rfl rfl rfl lane d s t hx
  | groupTimingWrite qp g foreign => exact execGroupTimingWrite_blank rfl rfl rfl qp g foreign s t hx
  | wheelOverhead w mf => exact execWheelOverhead_blank rfl rfl rfl rfl rfl rfl rfl w mf s t hx
  | wheelDefectDeclare w d => exact execWheelDefectDeclare_blank rfl rfl rfl rfl rfl w d s t hx
  | wheelDefectClear w d => exact execWheelDefectClear_blank rfl rfl rfl rfl rfl w d s t hx
  | retimerDecide w => exact execRetimerDecide_blank rfl rfl w s t hx
  | retimerCountDeadline w => exact execRetimerCountDeadline_blank rfl rfl rfl w s t hx
  | mapWriteExecute => exact execMapWriteExecute_blank rfl rfl rfl rfl rfl rfl rfl rfl rfl rfl rfl rfl rfl rfl rfl s t hx
  | deferredEntryPlace slot => exact execDeferredEntryPlace_blank rfl rfl rfl rfl rfl rfl rfl rfl slot s t hx
  | mapCheck => exact execMapCheck_blank rfl rfl rfl rfl rfl rfl rfl rfl s t hx
  | flipFreeze => exact execFlipFreeze_blank rfl s t hx
  | flipCommit => exact execFlipCommit_blank rfl rfl rfl rfl rfl rfl s t hx
  | resyncEnd => exact execResyncEnd_blank rfl s t hx
  | flipSeqFire h => exact execFlipSeqFire_blank rfl rfl rfl rfl rfl rfl h s t hx
  | flipSeqExpire h => exact execFlipSeqExpire_blank rfl rfl rfl rfl rfl h s t hx
  | flipSeqDiff h => exact execFlipSeqDiff_blank rfl rfl rfl rfl rfl rfl h s t hx
  | fabricFlipReadyTimeout h worker => exact execFabricFlipReadyTimeout_blank rfl rfl rfl h worker s t hx
  | fabricFlipResultTimeout h => exact execFabricFlipResultTimeout_blank rfl rfl rfl rfl rfl h s t hx
  | pairLock p => exact execPairLock_blank rfl rfl rfl rfl rfl p s t hx
  | colanderPlayout p => exact execColanderPlayout_blank rfl rfl p s t hx
  | selectorEvaluate p => exact execSelectorEvaluate_blank rfl rfl rfl rfl rfl p s t hx
  | pairCmdApply p => exact execPairCmdApply_blank rfl rfl rfl rfl rfl rfl rfl p s t hx
  | pairWtrExpiry p => exact execPairWtrExpiry_blank rfl rfl rfl rfl rfl p s t hx
  | caveBurstComplete pc uncorr => exact execCaveBurstComplete_blank rfl rfl rfl pc uncorr s t hx
  | caveRequestAbandon pc => exact execCaveRequestAbandon_blank rfl rfl pc s t hx
  | cavArbFreezeWrite qp v => exact execCavArbFreezeWrite_blank rfl rfl rfl rfl rfl qp v s t hx
  | stackMoveEnd p => exact execStackMoveEnd_blank rfl rfl rfl rfl rfl p s t hx
  | caveStackFault st training => exact execCaveStackFault_blank rfl rfl rfl rfl rfl rfl rfl st training s t hx
  | calrinFrame lane f => exact execCalrinFrame_blank rfl rfl rfl rfl rfl rfl rfl rfl lane f s t hx
  | ackStall => exact execAckStall_blank rfl rfl rfl rfl s t hx
  | heartbeatChange changes => exact execHeartbeatChange_blank rfl rfl rfl rfl changes s t hx
  | heartbeatSilence => exact execHeartbeatSilence_blank rfl rfl rfl rfl rfl s t hx
  | settleDetachedExpiry => exact execSettleDetachedExpiry_blank rfl rfl rfl rfl rfl s t hx
  | reclaimSettleExpiry => exact execReclaimSettleExpiry_blank rfl s t hx
  | yieldComplete => exact execYieldComplete_blank rfl rfl rfl rfl s t hx
  | calMateCtrlSwap qp => exact execCalMateCtrlSwap_blank rfl rfl rfl qp s t hx
  | syncComplete => exact execSyncComplete_blank rfl rfl rfl rfl s t hx
  | takeoverHoldEnd => exact execTakeoverHoldEnd_blank rfl rfl rfl s t hx
  | tnAnnounce hd tn arrPs => exact execTnAnnounce_blank rfl rfl rfl rfl rfl rfl rfl hd tn arrPs s t hx
  | delayReq hd t2Tick t2Ps => exact execDelayReq_blank rfl rfl rfl rfl rfl rfl hd t2Tick t2Ps s t hx
  | delayResp hd reqSerial t2Tick t2Ps t3Tick t4Tick t4Ps => exact execDelayResp_blank rfl rfl rfl rfl rfl rfl hd reqSerial t2Tick t2Ps t3Tick t4Tick t4Ps s t hx
  | delaySampleTimeout link => exact execDelaySampleTimeout_blank rfl link s t hx
  | flipPropose hd flipId f => exact execFlipPropose_blank rfl rfl rfl rfl rfl rfl hd flipId f s t hx
  | flipReady hd flipId status reason => exact execFlipReady_blank rfl rfl rfl rfl rfl rfl hd flipId status reason s t hx
  | fabFlipCancel hd flipId failId => exact execFabFlipCancel_blank rfl rfl rfl rfl rfl rfl hd flipId failId s t hx
  | flipResult hd flipId committed => exact execFlipResult_blank rfl rfl rfl rfl rfl rfl hd flipId committed s t hx
  | fabCmd hd mserial principal d sigs => exact execFabCmd_blank rfl rfl rfl rfl rfl rfl hd mserial principal d sigs s t hx
  | fabResult hd mserial c => exact execFabResult_blank rfl rfl rfl rfl rfl rfl hd mserial c s t hx
  | fabEvent hd principal e => exact execFabEvent_blank rfl rfl rfl rfl rfl rfl hd principal e s t hx
  | fabDump hd principal latchTn offset data => exact execFabDump_blank rfl rfl rfl rfl rfl rfl hd principal latchTn offset data s t hx
  | fabMbx hd channel flags msg => exact execFabMbx_blank rfl rfl rfl rfl rfl rfl rfl rfl hd channel flags msg s t hx
  | cmdData hd mserial offset data => exact execCmdData_blank rfl rfl rfl rfl rfl rfl hd mserial offset data s t hx
  | outData hd mserial offset data => exact execOutData_blank rfl rfl rfl rfl rfl rfl hd mserial offset data s t hx
  | fabStatus hd tn st defects => exact execFabStatus_blank rfl rfl rfl rfl rfl rfl hd tn st defects s t hx
  | peerKeyingMessage hd m => exact execPeerKeyingMessage_blank rfl rfl rfl rfl rfl rfl rfl rfl hd m s t hx
  | peerKeyingRetry link => exact execPeerKeyingRetry_blank rfl rfl rfl rfl rfl rfl rfl link s t hx
  | fabCmdRetry h => exact execFabCmdRetry_blank rfl h s t hx
  | fabWorkerLost worker => exact execFabWorkerLost_blank rfl rfl rfl rfl worker s t hx
  | fabCmdAbandon h => exact execFabCmdAbandon_blank rfl rfl rfl rfl h s t hx
  | mgmtLinkChange port up => exact execMgmtLinkChange_blank rfl port up s t hx
  | saTxSwitch port => exact execSaTxSwitch_blank rfl port s t hx
  | kick qp rkey addr len => exact execKick_blank rfl rfl qp rkey addr len s t hx
  | doorbellPoll r => exact execDoorbellPoll_blank rfl rfl r s t hx
  | doorbellReadDone r cmdProd cmpCons evtCons => exact execDoorbellReadDone_blank rfl rfl rfl rfl r cmdProd cmpCons evtCons s t hx
  | descriptorFetchDone r ds => exact execDescriptorFetchDone_blank rfl rfl r ds s t hx
  | batchReadDone r b => exact execBatchReadDone_blank rfl rfl rfl r b s t hx
  | descriptorTake => exact execDescriptorTake_blank rfl rfl rfl rfl rfl s t hx
  | completionPost r => exact execCompletionPost_blank rfl rfl rfl rfl r s t hx
  | rdmaWriteAck qp => exact execRdmaWriteAck_blank rfl rfl qp s t hx
  | qpAckTimeout qp => exact execQpAckTimeout_blank rfl rfl rfl rfl qp s t hx
  | rdmaReadRequest qp rkey addr len => exact execRdmaReadRequest_blank rfl rfl rfl qp rkey addr len s t hx
  | nop h => exact execNop_blank rfl rfl rfl rfl h s t hx
  | mapWrite h => exact execMapWrite_blank rfl rfl rfl rfl rfl h s t hx
  | mapRead h => exact execMapRead_blank rfl rfl rfl rfl h s t hx
  | wheelDefine h => exact execWheelDefine_blank rfl rfl rfl rfl rfl h s t hx
  | wheelDelete h => exact execWheelDelete_blank rfl rfl rfl rfl rfl h s t hx
  | flipAt h => exact execFlipAt_blank rfl rfl rfl rfl rfl h s t hx
  | flipSeq h => exact execFlipSeq_blank rfl rfl rfl rfl rfl rfl rfl h s t hx
  | flipCancel h => exact execFlipCancel_blank rfl rfl rfl rfl rfl h s t hx
  | pairSet h => exact execPairSet_blank rfl rfl rfl rfl rfl rfl h s t hx
  | pairCmd h => exact execPairCmd_blank rfl rfl rfl rfl rfl h s t hx
  | laneState h => exact execLaneState_blank rfl rfl rfl rfl rfl rfl rfl rfl rfl rfl rfl h s t hx
  | laneLoop h => exact execLaneLoop_blank rfl rfl rfl rfl rfl h s t hx
  | eyeScan h => exact execEyeScan_blank rfl rfl rfl rfl rfl h s t hx
  | refConfig h => exact execRefConfig_blank rfl rfl rfl rfl rfl h s t hx
  | refForce h => exact execRefForce_blank rfl rfl rfl rfl rfl h s t hx
  | phaseStep h => exact execPhaseStep_blank rfl rfl rfl rfl rfl h s t hx
  | counterRead h => exact execCounterRead_blank rfl rfl rfl rfl rfl h s t hx
  | counterPreset h => exact execCounterPreset_blank rfl rfl rfl rfl h s t hx
  | counterPresetApply => exact execCounterPresetApply_blank rfl rfl rfl rfl rfl rfl rfl rfl rfl rfl rfl rfl rfl s t hx
  | dumpConfig h => exact execDumpConfig_blank rfl rfl rfl rfl h s t hx
  | dumpConfigApply => exact execDumpConfigApply_blank rfl rfl rfl rfl rfl rfl rfl rfl rfl rfl rfl rfl rfl s t hx
  | dumpImageStart principal => exact execDumpImageStart_blank rfl rfl rfl rfl principal s t hx
  | partitionSet h => exact execPartitionSet_blank rfl rfl rfl rfl rfl h s t hx
  | ringBind h => exact execRingBind_blank rfl rfl rfl rfl h s t hx
  | keyAgree h => exact execKeyAgree_blank rfl rfl rfl rfl rfl rfl h s t hx
  | fwStage h => exact execFwStage_blank rfl rfl rfl rfl rfl rfl h s t hx
  | fwActivate h => exact execFwActivate_blank rfl rfl rfl rfl rfl rfl h s t hx
  | attestQuote h => exact execAttestQuote_blank rfl rfl rfl rfl rfl rfl h s t hx
  | ephemeralKeyReady => exact execEphemeralKeyReady_blank rfl rfl rfl rfl rfl rfl s t hx
  | mbxPost h => exact execMbxPost_blank rfl rfl rfl rfl rfl rfl rfl h s t hx
  | budgetSet h => exact execBudgetSet_blank rfl rfl rfl rfl rfl h s t hx
  | sealSetup h => exact execSeal_blank rfl rfl rfl rfl rfl rfl rfl rfl h s t hx
  | controlRestart h => exact execControlRestart_blank rfl rfl rfl rfl rfl h s t hx
  | pantryOwnerWrite master bank newOwner => exact execPantryOwnerWrite_blank rfl rfl rfl rfl master bank newOwner s t hx
  | pantryAtomic master bank off swap v stall whisk => exact execPantryAtomic_blank rfl rfl rfl rfl master bank off swap v stall whisk s t hx
  | whiskRegionStart m => exact execWhiskRegionStart_blank rfl rfl m s t hx
  | whiskRegionEnd m failed => exact execWhiskRegionEnd_blank rfl rfl rfl rfl rfl rfl rfl m failed s t hx
  | mbxCtrlPost master c => exact execMbxCtrlPost_blank rfl rfl rfl rfl rfl master c s t hx
  | mbxCtrlAck master c => exact execMbxCtrlAck_blank rfl rfl rfl rfl rfl rfl master c s t hx
  | mbxCtrlWait master c => exact execMbxCtrlWait_blank rfl rfl rfl master c s t hx
  | mbxCtrlWithdraw master c => exact execMbxCtrlWithdraw_blank rfl rfl rfl rfl rfl master c s t hx
  | mbxTimeout c => exact execMbxTimeout_blank rfl rfl rfl rfl rfl rfl rfl c s t hx
  | mbxRemoteRetry c => exact execMbxRemoteRetry_blank rfl rfl c s t hx
  | slotProcessing => exact execSlotProcessing_blank rfl rfl rfl rfl rfl rfl rfl rfl rfl rfl rfl rfl rfl rfl rfl s t hx
  | ladleRecordSeal => exact execLadleRecordSeal_blank rfl rfl rfl rfl rfl rfl rfl rfl rfl rfl rfl rfl rfl rfl rfl s t hx
  | completionRingReadDone r slots => exact execCompletionRingReadDone_blank rfl rfl r slots s t hx
  | mateRingKey hd ring key => exact execMateRingKey_blank rfl rfl rfl rfl rfl rfl hd ring key s t hx
  | mateKeyAgreeRequest hd req ecOk lmsOk => exact execMateKeyAgreeRequest_blank rfl rfl rfl rfl rfl rfl rfl rfl hd req ecOk lmsOk s t hx
  | mateKeyAgreeResponse hd serial resp => exact execMateKeyAgreeResponse_blank rfl rfl rfl rfl rfl rfl hd serial resp s t hx
  | mateDump hd principal latchTn offset data => exact execMateDump_blank rfl rfl rfl rfl rfl rfl hd principal latchTn offset data s t hx
  | _ => cases hc

/-- Settles O13: a broad command may change every area, and any other keeps what it keeps of the blanked state. -/
theorem footprints : Obligations.Footprints := by
  unfold Obligations.Footprints
  intro c s t a ha hx
  have hout : c.mayChange a = false := decide_eq_false ha
  cases hb : c.broad with
  | false => exact State.keeps_of_blank (exec_blank c hb s t hx) a hout
  | true =>
    rw [Instr.mayChange_of_broad hb a] at hout
    cases hout

end Machine

end Sys2Proof

/-! PROOFS. Acceptance and execution of the host commands, and the completion of one. -/
namespace Sys2Proof.Machine

/-! ### The journal -/

theorem State.job_congr {s t : State} (hj : t.mgp.journal = s.mgp.journal) (h : Nat) : t.job h = s.job h := by
  unfold State.job
  rw [hj]

theorem State.ring_congr {s t : State} (hr : t.mgp.ring = s.mgp.ring) (r : Nat) : t.ring r = s.ring r := by
  unfold State.ring
  rw [hr]

/-- What goes into the record under construction of an ACTIVE device (R384). -/
theorem State.recd_cur {s : State} (ha : s.cal.role = .active) (f : LRec → LRec) : (s.recd f).cal.cur = f s.cal.cur := by
  unfold State.recd
  rw [if_pos ha]

/-- A changed command reads back. -/
theorem State.setJob_job_self {s : State} {h : Nat} {e : JEntry} (f : JEntry → JEntry) (he : s.job h = some e) :
    (s.setJob h f).job h = some (f e) := by
  obtain ⟨p, hp, rfl⟩ := Option.map_eq_some_iff.mp he
  have hkey : p.1 = h := by simpa using List.find?_some hp
  have hsame : (fun q : Nat × JEntry => decide ((if q.1 = h then (q.1, f q.2) else q).1 = h)) = fun q => decide (q.1 = h) := by
    funext q
    split <;> rfl
  have hfind : (s.mgp.journal.map (fun q => if q.1 = h then (q.1, f q.2) else q)).find? (fun q => q.1 = h) = some (h, f p.2) := by
    rw [List.find?_map]
    show Option.map _ (s.mgp.journal.find? (fun q : Nat × JEntry => decide ((if q.1 = h then (q.1, f q.2) else q).1 = h))) = _
    rw [hsame, hp, Option.map_some, if_pos hkey, hkey]
  exact congrArg (Option.map (fun q : Nat × JEntry => q.2)) hfind

/-! ### Acceptance (R406) -/

section
variable {s : State} {h : Nat} {e : JEntry}

/-- Acceptance changes the management ports, the counters and the record for the mate only. -/
theorem State.accept_areas (s : State) (h : Nat) (e : JEntry) :
    s.accept h e = { s with mgp := (s.accept h e).mgp, cnt := (s.accept h e).cnt, cal := (s.accept h e).cal } := by
  have hb : (s.accept h e).blank (fun a => decide (a ∈ [Area.cal, .mgp, .cnt])) = s.blank (fun a => decide (a ∈ [Area.cal, .mgp, .cnt])) :=
    State.accept_blank rfl rfl rfl s h e
  exact congrArg (fun x : State => { x with mgp := (s.accept h e).mgp, cnt := (s.accept h e).cnt, cal := (s.accept h e).cal }) hb

/-- A command that has not been accepted before moves the consumer index of its ring set. -/
theorem State.accept_of_new (ho : e.origin = .ring) (hr : e.resume = false) : s.accept h e =
    let t := s.setJob h (fun e => { e with accepted := some s.clk.tick, resume := false })
    let x := s.ring e.ring
    ((t.setRing e.ring { x with cmdCons := x.cmdCons + 1, dirty := true }).count 3 e.ring 0 1).recd
      (fun c => { c with rings := c.rings ++ [⟨e.ring, 0, x.cmdCons + 1⟩] }) := by
  unfold State.accept
  rw [ho, hr]
  rfl

/-- A command accepted before, or one of a manager, is only marked as accepted. -/
theorem State.accept_of_resumed (hr : e.resume = true ∨ e.origin ≠ .ring) :
    s.accept h e = s.setJob h (fun e => { e with accepted := some s.clk.tick, resume := false }) := by
  unfold State.accept
  split
  · rfl
  · exact if_pos (hr.resolve_right (not_not_intro ‹_›))

theorem State.accept_journal (s : State) (h : Nat) (e : JEntry) : (s.accept h e).mgp.journal =
    (s.setJob h (fun e => { e with accepted := some s.clk.tick, resume := false })).mgp.journal := by
  by_cases hn : e.origin = .ring ∧ e.resume = false
  · rw [State.accept_of_new hn.1 hn.2]
    dsimp only
    rw [State.recd_mgp, State.count_mgp]
    rfl
  · rw [State.accept_of_resumed (by cases hr : e.resume <;> simp_all)]

/-- The consumer index of the command's ring set advances. -/
theorem State.accept_cmdCons (ho : e.origin = .ring) (hr : e.resume = false) :
    ((s.accept h e).ring e.ring).cmdCons = (s.ring e.ring).cmdCons + 1 := by
  rw [State.accept_of_new ho hr]
  dsimp only
  rw [State.ring_congr (congrArg Mgp.ring (State.recd_mgp _ _)), State.count_ring, State.setRing_self]

/-! ### Execution (R461, R463, R500) -/

variable {opc : Nat} {chk : Check} (eff : Effect)

theorem State.runCmd_of_unknown (hj : s.job h = none) : s.runCmd opc chk eff h = s := by
  unfold State.runCmd
  rw [hj]

theorem State.runCmd_of_waiting (hj : s.job h = some e) (hw : e.d.opcode ≠ opc ∨ s.acceptable h e = false) :
    s.runCmd opc chk eff h = s := by
  unfold State.runCmd
  rw [hj]
  exact if_pos hw

theorem State.runCmd_of_accepted (hj : s.job h = some e) (ho : e.d.opcode = opc) (ha : s.acceptable h e = true) :
    s.runCmd opc chk eff h =
      let v := s.accept h e
      if v.commonCheck e ≠ 0 then v.refuse h (v.commonCheck e)
      else if e.origin = .ring ∧ e.target ≠ 0 then v.remote h e
      else if (chk e v).1 ≠ 0 then v.complete h (chk e v).1 v.tnNow (chk e v).2 else eff h e v := by
  unfold State.runCmd
  rw [hj]
  exact if_neg (by simp [ho, ha])

end

/-- The host commands under a handle, each with its opcode, the checks of its own and its effect (R494). -/
def hostCommands (h : Nat) : List (Instr × Nat × Check × Effect) :=
  [(.nop h, 0x00, fun _ _ => (0, 0), fun h _ s => s.complete h 0 s.tnNow 0), (.mapWrite h, 0x10, chkMapWrite, effMapWrite),
    (.mapRead h, 0x11, chkMapRead, effMapRead), (.wheelDefine h, 0x12, chkWheelDefine, effWheelDefine),
    (.wheelDelete h, 0x13, chkWheelDelete, effWheelDelete), (.flipAt h, 0x20, chkFlipAt, effFlipAt),
    (.flipSeq h, 0x21, chkFlipSeq, effFlipSeq), (.flipCancel h, 0x22, chkFlipCancel, effFlipCancel),
    (.pairSet h, 0x30, chkPairSet, effPairSet), (.pairCmd h, 0x31, chkPairCmd, effPairCmd),
    (.laneState h, 0x40, chkLaneState, effLaneState), (.laneLoop h, 0x41, chkLaneLoop, effLaneLoop),
    (.eyeScan h, 0x42, chkEyeScan, effEyeScan), (.refConfig h, 0x50, chkRefConfig, effRefConfig),
    (.refForce h, 0x51, chkRefForce, effRefForce), (.phaseStep h, 0x52, chkPhaseStep, effPhaseStep),
    (.counterRead h, 0x60, chkCounterRead, effCounterRead), (.counterPreset h, 0x61, chkCounterPreset, effCounterPreset),
    (.dumpConfig h, 0x62, chkDumpConfig, effDumpConfig), (.partitionSet h, 0x70, chkPartitionSet, effPartitionSet),
    (.ringBind h, 0x71, chkRingBind, effRingBind), (.keyAgree h, 0x72, chkKeyAgree, fun h e s => s.whenKey h e),
    (.fwStage h, 0x73, chkFwStage, effFwStage), (.fwActivate h, 0x74, chkFwActivate, effFwActivate),
    (.attestQuote h, 0x75, chkAttestQuote, fun h e s => s.whenKey h e), (.mbxPost h, 0x80, chkMbxPost, effMbxPost),
    (.budgetSet h, 0x81, chkBudgetSet, effBudgetSet), (.sealSetup h, 0x82, chkSeal, effSeal),
    (.controlRestart h, 0x83, chkControlRestart, effControlRestart)]

/-- A COUNTER_READ where one has executed in this tick (R575). -/
abbrev State.readSpent (s : State) (opc : Nat) : Prop := opc = 0x60 ∧ s.clk.readUsed ≠ 0

/-- Each host command runs its opcode's check and effect, but for a second COUNTER_READ of a tick. -/
theorem exec_hostCommand (h : Nat) (s : State) : ∀ m ∈ hostCommands h,
    exec m.1 s = .next (if s.readSpent m.2.1 then s else s.runCmd m.2.1 m.2.2.1 m.2.2.2 h) := by
  have hread : exec (.counterRead h) s = .next (if s.readSpent 0x60 then s else s.runCmd 0x60 chkCounterRead effCounterRead h) := by
    show Host.Outcome.next (if s.clk.readUsed = 0 then _ else s) = _
    by_cases hu : s.clk.readUsed = 0
    · rw [if_pos hu, if_neg (fun hs => hs.2 hu)]
    · rw [if_neg hu, if_pos ⟨rfl, hu⟩]
  unfold hostCommands
  simp only [List.forall_mem_cons, List.not_mem_nil, false_implies, implies_true, and_true]
  refine ⟨rfl, rfl, rfl, rfl, rfl, rfl, rfl, rfl, rfl, rfl, rfl, rfl, rfl, rfl, rfl, rfl, hread, rfl, rfl, rfl, rfl, rfl, rfl, rfl, rfl,
    rfl, rfl, rfl, rfl⟩

/-! ### Completion (R408, R432) -/

section
variable {s : State} {h : Nat} {e : JEntry}

/-- The completion of an uncompleted command of a ring that has a completion ring, on a device that does not copy its mate: the
journal entry is written, the command goes to the end of the posting order, and the record tells of it. -/
theorem State.complete_of_ring (hj : s.job h = some e) (hc : e.cmp = none) (ho : e.origin = .ring) (hs : s.copies = false)
    (hb : (s.ring e.ring).boot = false) (st tick result : Nat) :
    let x := s.ring e.ring
    let c : CmpEntry := ⟨e.d.serial, e.d.opcode, st, false, e.d.ring, 0, tick, BitVec.ofNat 64 result⟩
    let slot := x.cmpProd + x.overflow.length
    ∃ u : State, u.mgp = (s.setJob h (fun e => { e with cmp := some c, slot := some slot, posted := false, recTn := none })).mgp ∧
      u.cal = s.cal ∧ s.complete h st tick result =
        (u.setRing e.ring { x with overflow := x.overflow ++ [h] }).recd (fun k => { k with cmps := k.cmps ++ [⟨e.ring, h, slot, c⟩] }) := by
  intro x c slot
  let t := s.setJob h (fun e => { e with cmp := some c, slot := some slot, posted := false, recTn := none })
  refine ⟨if st = 0 ∨ st = 10 then t else t.count 3 e.ring 1 1, ?_, ?_, ?_⟩
  · split
    · rfl
    · exact State.count_mgp ..
  · split
    · rfl
    · exact State.count_cal ..
  · unfold State.complete
    rw [hj]
    unfold State.completeEntry
    rw [hj]
    simp [hc, ho, hs, hb, t, c, x, slot]

end

/-! ### The obligation -/

/-- Settles O55: each host command runs its check and effect, so the branches of `State.runCmd` are its cases; acceptance and
completion write the journal entry, the ring set and the record. -/
theorem commandsAccepted : Obligations.CommandsAccepted := by
  unfold Obligations.CommandsAccepted
  refine ⟨fun h s m hm => ?run, fun h e s hj => ?accept, fun h e s st tick result hj hc ho hs hb => ?complete⟩
  case run =>
    have hexec := exec_hostCommand h s m hm
    refine ⟨fun hw => ?_, fun e hj hread => ⟨fun hw => ?_, fun hopc hacc => ?_⟩⟩
    · rw [hexec]
      split
      · rfl
      · exact congrArg _ (State.runCmd_of_unknown _ (hw.resolve_right ‹_›))
    all_goals rw [hexec, if_neg (fun hs => hs.2 (hread hs.1))]
    · exact congrArg _ (State.runCmd_of_waiting _ hj hw)
    · have hrun := State.runCmd_of_accepted (chk := m.2.2.1) m.2.2.2 hj hopc hacc
      refine ⟨fun hc => ?_, fun hc ho ht => ?_, fun hc hl hk => ?_, fun hcarries => next_runCmd_of_carries hcarries rfl⟩
      · exact congrArg _ (hrun.trans (if_pos hc))
      · exact congrArg _ (hrun.trans ((if_neg (not_not_intro hc)).trans (if_pos ⟨ho, ht⟩)))
      · exact congrArg _ (hrun.trans ((if_neg (not_not_intro hc)).trans ((if_neg hl).trans (if_pos hk))))
  case accept =>
    refine ⟨?_, s.accept_areas h e, State.accept_cmdCons, fun hr => ?_⟩
    · rw [State.job_congr (s.accept_journal h e), State.setJob_job_self _ hj]
    · rw [State.accept_of_resumed (.inl hr)]
      rfl
  case complete =>
    intro x c t
    obtain ⟨u, hmgp, hcal, ht⟩ := State.complete_of_ring hj hc ho hs hb st tick result
    have hmgp' : t.mgp = (u.setRing e.ring { x with overflow := x.overflow ++ [h] }).mgp := by rw [show t = _ from ht, State.recd_mgp]
    refine ⟨?_, ?_, fun ha => ?_⟩
    · have hjournal : t.mgp.journal = u.mgp.journal := (congrArg Mgp.journal hmgp').trans rfl
      rw [State.job_congr (hjournal.trans (congrArg Mgp.journal hmgp)), State.setJob_job_self _ hj]
    · rw [State.ring_congr (congrArg Mgp.ring hmgp'), State.setRing_self]
    · have hrole : (u.setRing e.ring { x with overflow := x.overflow ++ [h] }).cal.role = .active := (congrArg Cal.role hcal).trans ha
      rw [show t = _ from ht, State.recd_cur hrole, ← hcal]
      rfl

end Sys2Proof.Machine

/-! PROOFS. Completions posted, acknowledged, retried and posted again. -/
namespace Sys2Proof.Machine

/-! ### RDMA operations of a ring set (R421, R441) -/

theorem State.qp_congr {s t : State} (hq : t.mgp.qp = s.mgp.qp) (q : Nat) : t.qp q = s.qp q := by
  unfold State.qp
  rw [hq]

theorem State.count_dump (s : State) (sc o j n r : Nat) : (s.count sc o j n).dump r = s.dump r := by
  unfold State.count State.setCounter
  dsimp only
  repeat' split
  all_goals rfl

/-- The queue pair on which a ring set's next operation is issued. -/
abbrev State.issueQp (s : State) (r : Nat) : Nat := (s.workQp r).getD (s.ring r).qpLo

/-- An operation goes behind those of its queue pair. -/
theorem State.issue_ops (s : State) (r : Nat) (o : RdmaOp) :
    ((s.issue r o).qp (s.issueQp r)).ops = (s.qp (s.issueQp r)).ops ++ [o] := by
  unfold State.issue
  rw [State.qp_congr (congrArg Mgp.qp (State.count_mgp ..)), State.setQp_self]

theorem State.issue_dump (s : State) (r : Nat) (o : RdmaOp) (i : Nat) : (s.issue r o).dump i = s.dump i := by
  unfold State.issue
  rw [State.count_dump]
  rfl

/-! ### COMPLETION_POST (R408, R441, R442) -/

/-- The operation that posts a completion at a slot of its ring. -/
def Ring.postOp (x : Ring) (r slot : Nat) (c : CmpEntry) : RdmaOp :=
  ⟨.completion r, x.cmpBase + 32 * (slot % x.cmpSize), x.hkeys.getD 1 0, cmpBytes c (phaseBit slot x.cmpSize), 32⟩

/-- A completion posted at the next slot of its ring. -/
def State.postedAtSlot (s : State) (r h : Nat) (e : JEntry) (c : CmpEntry) : State :=
  let x := s.ring r
  let t := (s.issue r (x.postOp r x.cmpProd c)).setRing r { x with cmpProd := x.cmpProd + 1, overflow := x.overflow.drop 1, dirty := true }
  (t.setJob h (fun _ => { e with posted := true, slot := some x.cmpProd })).recd
    (fun k => { k with rings := k.rings ++ [⟨r, 1, x.cmpProd + 1⟩] })

/-- A completion posted at a place of its own. -/
def State.postedAtPlace (s : State) (r h a k ph : Nat) (c : CmpEntry) : State :=
  let x := s.ring r
  ((s.issue r ⟨.completion r, a, k, cmpBytes c ph, 32⟩).setRing r { x with overflow := x.overflow.drop 1 }).dropJob h

section
variable (s : State) (r h : Nat) (e : JEntry) (c : CmpEntry)

theorem State.postOne_of_slot (hd : e.dest = none) : s.postOne r h e c = (s.postedAtSlot r h e c).refreshBusy r := by
  unfold State.postOne
  dsimp only
  split
  case h_1 hplace => cases hd.symm.trans hplace
  case h_2 => rfl

theorem State.postOne_of_place {a k ph : Nat} (hd : e.dest = some (a, k, ph)) : s.postOne r h e c = s.postedAtPlace r h a k ph c := by
  unfold State.postOne
  rw [hd]
  rfl

/-- Posting at a slot, seen at the management ports. -/
theorem State.postedAtSlot_mgp : (s.postedAtSlot r h e c).mgp =
    let x := s.ring r
    let t := (s.issue r (x.postOp r x.cmpProd c)).setRing r { x with cmpProd := x.cmpProd + 1, overflow := x.overflow.drop 1, dirty := true }
    (t.setJob h (fun _ => { e with posted := true, slot := some x.cmpProd })).mgp := State.recd_mgp _ _

theorem State.postedAtSlot_ring_self : (s.postedAtSlot r h e c).ring r =
    { s.ring r with cmpProd := (s.ring r).cmpProd + 1, overflow := (s.ring r).overflow.drop 1, dirty := true } :=
  (State.ring_congr (congrArg Mgp.ring (s.postedAtSlot_mgp r h e c)) r).trans (State.setRing_self _ _ _)

theorem State.postedAtSlot_ring_of_ne {j : Nat} (hj : j ≠ r) : (s.postedAtSlot r h e c).ring j = s.ring j :=
  (State.ring_congr (congrArg Mgp.ring (s.postedAtSlot_mgp r h e c)) j).trans
    ((State.setRing_of_ne _ _ hj).trans ((s.issue_mgp_parts r _).1 j))

theorem State.postedAtSlot_ops : ((s.postedAtSlot r h e c).qp (s.issueQp r)).ops =
    (s.qp (s.issueQp r)).ops ++ [(s.ring r).postOp r (s.ring r).cmpProd c] :=
  (congrArg Qp.ops (State.qp_congr (congrArg Mgp.qp (s.postedAtSlot_mgp r h e c)) _)).trans (s.issue_ops r _)

theorem State.postedAtSlot_job {e₀ : JEntry} (he : s.job h = some e₀) :
    (s.postedAtSlot r h e c).job h = some { e with posted := true, slot := some (s.ring r).cmpProd } := by
  rw [State.job_congr (congrArg Mgp.journal (s.postedAtSlot_mgp r h e c))]
  exact State.setJob_job_self _ ((State.job_congr (s.issue_mgp_parts r _).2.1 h).trans he)

theorem State.postedAtSlot_record (ha : s.cal.role = .active) :
    (s.postedAtSlot r h e c).cal.cur.rings = s.cal.cur.rings ++ [⟨r, 1, (s.ring r).cmpProd + 1⟩] := by
  let t := (s.issue r ((s.ring r).postOp r (s.ring r).cmpProd c)).setRing r
    { s.ring r with cmpProd := (s.ring r).cmpProd + 1, overflow := (s.ring r).overflow.drop 1, dirty := true }
  have hcal : (t.setJob h (fun _ => { e with posted := true, slot := some (s.ring r).cmpProd })).cal = s.cal := State.issue_cal ..
  exact (congrArg LRec.rings (State.recd_cur ((congrArg Cal.role hcal).trans ha) _)).trans
    (congrArg (fun x : Cal => x.cur.rings ++ [⟨r, 1, (s.ring r).cmpProd + 1⟩]) hcal)
end

theorem State.dropJob_job_self (s : State) (h : Nat) : (s.dropJob h).job h = none := by
  have hnone : (s.mgp.journal.filter (fun p => p.1 ≠ h)).find? (fun p => p.1 = h) = none := by
    rw [List.find?_eq_none]
    intro p hp
    simpa using (List.mem_filter.mp hp).2
  exact congrArg (Option.map (fun p : Nat × JEntry => p.2)) hnone

section
variable {s : State} {r : Fin 16} {h : Nat} {rest : List Nat} {e : JEntry} {c : CmpEntry}

/-- COMPLETION_POST with a journaled completion in front of the posting order. -/
theorem exec_completionPost (hw : s.writesHost = true) (hf : (s.ring r).cmpFree ≠ 0) (hr : s.cmpReadOut r = false)
    (ho : (s.ring r).overflow = h :: rest) (hj : s.job h = some e) (hc : e.cmp = some c) : exec (.completionPost r) s =
      .next (if s.ackedRec e = true ∧ e.outLeft = 0 ∧ e.notBefore ≤ s.clk.tick then (s.postOne r h e c).dropOldKey r else s) := by
  show execCompletionPost r s = _
  unfold execCompletionPost
  dsimp only
  rw [if_pos ⟨hw, hf, hr⟩, ho]
  dsimp only
  rw [hj]
  dsimp only
  rw [hc]
end

/-! ### RDMA_WRITE_ACK (R420, R442, R499, R583) -/

/-- The oldest WRITE of a queue pair is taken off, and its retries begin anew. -/
def State.writeTaken (s : State) (q : Nat) : State :=
  s.setQp q { s.qp q with ops := dropFirst (fun o => !o.kind.isRead) (s.qp q).ops, retries := 0, timer := s.clk.tick }

/-- What follows the acknowledgement of a WRITE, by what it was for. -/
def State.ackedFor (v : State) : OpKind → State
  | .output h => v.setJob h (fun e => { e with outLeft := e.outLeft - 1 })
  | .dump r i => v.dumpAcked r i
  | .trailer r i =>
    match (v.dump r).imgs.find? (fun y => y.seq = i) with
    | some y => v.setDump r { v.dump r with
        imgs := (v.dump r).imgs.filter (fun y => y.seq ≠ i), prev := Tab.put (0, 0) (v.dump r).prev y.src (y.latch, 0) }
    | none => v
  | _ => v

section
variable {s : State} {q : Nat} {o : RdmaOp}

theorem State.writeAcked_of_none (ho : (s.qp q).ops.find? (fun o => !o.kind.isRead) = none) : s.writeAcked q = s := by
  unfold State.writeAcked
  dsimp only
  rw [ho]

theorem State.writeAcked_of_some (ho : (s.qp q).ops.find? (fun o => !o.kind.isRead) = some o) :
    s.writeAcked q = (s.writeTaken q).ackedFor o.kind := by
  unfold State.writeAcked
  dsimp only
  rw [ho]
  dsimp only
  cases o.kind <;> rfl

end

section
variable {v : State} {r i : Nat} {m : DumpImg}

/-- The writes of a dump image that are still outstanding on a queue pair of its ring set. -/
abbrev State.dumpLeft (v : State) (r i q : Nat) : Bool := (v.qp q).ops.any (fun o => decide (o.kind = .dump r i))

theorem State.dumpAcked_of_more (hm : (v.dump r).imgs.find? (fun y => y.seq = i && !y.sent) = some m)
    (hl : v.dumpLeft r i (v.ring r).qpLo = true ∨ v.dumpLeft r i (v.ring r).qpHi = true) : v.dumpAcked r i = v := by
  unfold State.dumpAcked
  dsimp only
  rw [hm]
  exact if_pos hl

/-- The last write of a dump image: its trailer is issued and the image marked. -/
theorem State.dumpAcked_of_last (hm : (v.dump r).imgs.find? (fun y => y.seq = i && !y.sent) = some m)
    (hlo : v.dumpLeft r i (v.ring r).qpLo = false) (hhi : v.dumpLeft r i (v.ring r).qpHi = false) : v.dumpAcked r i =
      (v.setDump r { v.dump r with imgs := (v.dump r).imgs.map (fun x => if x.seq = i then { x with sent := true } else x) }).issue r
        ⟨.trailer r i, m.tail, (v.dump r).hkey, leBytes 8 m.latch ++ leBytes 8 i, 16⟩ := by
  unfold State.dumpAcked
  dsimp only
  rw [hm]
  exact if_neg (fun hl => hl.elim (fun h => Bool.false_ne_true (hlo.symm.trans h)) (fun h => Bool.false_ne_true (hhi.symm.trans h)))

end

/-- Among images of which those with a sequence number are marked as sent, each with that number is. -/
theorem sent_of_marked {l : List DumpImg} {i : Nat} {y : DumpImg}
    (hy : y ∈ l.map (fun x => if x.seq = i then { x with sent := true } else x)) (hi : y.seq = i) : y.sent = true := by
  obtain ⟨z, -, rfl⟩ := List.mem_map.mp hy
  by_cases hz : z.seq = i
  · rw [if_pos hz]
  · rw [if_neg hz] at hi
    exact absurd hi hz

/-- The trailer of an image ends it, and its latch is the one before the next (R581, R583). -/
theorem State.ackedFor_trailer {v : State} {r i : Nat} {m : DumpImg} (hm : (v.dump r).imgs.find? (fun y => y.seq = i) = some m) :
    v.ackedFor (.trailer r i) = v.setDump r { v.dump r with
      imgs := (v.dump r).imgs.filter (fun y => y.seq ≠ i), prev := Tab.put (0, 0) (v.dump r).prev m.src (m.latch, 0) } := by
  unfold State.ackedFor
  dsimp only
  rw [hm]

/-! ### COMPLETION_RING_READ_DONE (R409) -/

/-- A journaled completion is posted again where its slot lies between the indices and does not hold it. -/
theorem State.repost_of_completed {s : State} {r h : Nat} {slots : List (Nat × CmpEntry)} {e : JEntry} {c : CmpEntry} {k : Nat}
    (hj : s.job h = some e) (hc : e.cmp = some c) (hk : e.slot = some k) : s.repost r slots h =
      if k < (s.ring r).cmpCons ∨ (s.ring r).cmpProd ≤ k ∨ (k % (s.ring r).cmpSize, c) ∈ slots then s
      else s.issue r ((s.ring r).postOp r k c) := by
  have hmem : slots.any (fun z => decide (z.1 = k % (s.ring r).cmpSize) && decide (z.2 = c)) = true ↔ (k % (s.ring r).cmpSize, c) ∈ slots := by
    rw [List.any_eq_true]
    refine ⟨fun ⟨z, hz, hzk⟩ => ?_, fun hz => ⟨_, hz, by simp⟩⟩
    have hfit : z.1 = k % (s.ring r).cmpSize ∧ z.2 = c := by simpa using hzk
    exact (Prod.ext hfit.1 hfit.2 : z = (k % (s.ring r).cmpSize, c)) ▸ hz
  unfold State.repost
  rw [hj]
  dsimp only
  rw [hc, hk]
  simp only [hmem]
  rfl

/-! ### The obligation -/

/-- Settles O53: a completion goes to its slot or its place, an acknowledged WRITE is followed by what it was for, and a timeout and
a completion ring's READ are their guards before one operation. -/
theorem completions : Obligations.Completions := by
  unfold Obligations.Completions
  refine ⟨?post, ?ack, ?timeout, ?repost⟩
  case post =>
    intro r s h rest e c x q hw hf hr ho hj hc ready
    have hexec := exec_completionPost hw hf hr ho hj hc
    have hrest : x.overflow.drop 1 = rest := by rw [show x.overflow = _ from ho]; rfl
    refine ⟨fun hn => hexec.trans (congrArg _ (if_neg hn)), fun hy hd => ?_, fun hy a k ph hd => ?_⟩
    · refine ⟨s.postedAtSlot r h e c, ?_, ?_, fun i hne => ?_, ?_, ?_, ?_⟩
      · rw [hexec, if_pos hy, State.postOne_of_slot _ _ _ _ _ hd]
      · rw [← hrest]
        exact s.postedAtSlot_ring_self r h e c
      · exact s.postedAtSlot_ring_of_ne r h e c hne
      · exact s.postedAtSlot_ops r h e c
      · exact s.postedAtSlot_job r h e c hj
      · exact s.postedAtSlot_record r h e c
    · refine ⟨s.postedAtPlace r h a k ph c, ?_, ?_, State.dropJob_job_self _ h, s.issue_ops r _⟩
      · rw [hexec, if_pos hy, State.postOne_of_place _ _ _ _ _ hd]
      · rw [← hrest]
        exact State.setRing_self _ _ _
  case ack =>
    intro q s hup x v
    have hexec : exec (.rdmaWriteAck q) s = .next (s.writeAcked q) := whenUp_of_up hup
    refine ⟨fun hn => hexec.trans (congrArg _ (State.writeAcked_of_none hn)), fun o ho => ?_⟩
    refine ⟨v.ackedFor o.kind, hexec.trans (congrArg _ (State.writeAcked_of_some ho)), fun h hk => ?_, fun r i m hk hm => ⟨fun hl => ?_, fun hlo hhi => ?_⟩,
      fun r i m hk hm => ?_, fun r hk => ?_⟩
    · rw [hk]
      rfl
    · rw [hk]
      exact State.dumpAcked_of_more hm hl
    · rw [hk, show v.ackedFor (.dump r i) = _ from State.dumpAcked_of_last hm hlo hhi]
      refine ⟨State.issue_ops _ _ _, fun y hy => ?_⟩
      rw [State.issue_dump, State.setDump_self] at hy
      exact sent_of_marked hy
    · rw [hk, show v.ackedFor (.trailer r i) = _ from State.ackedFor_trailer hm]
      refine ⟨rfl, ?_, ?_⟩
      · rw [State.setDump_self]
        rfl
      · rw [State.setDump_self]
        exact Tab.look_put_self _ _ _ _
    · rcases hk with hk | hk | hk <;> rw [hk] <;> rfl
  case timeout =>
    intro q s x due
    refine ⟨fun hn => congrArg _ (if_neg hn), fun hd hr => ?_, fun hd hr => ?_⟩
    · exact congrArg _ ((if_pos hd).trans (if_pos hr))
    · exact congrArg _ ((if_pos hd).trans (if_neg (Nat.not_lt.mpr hr)))
  case repost =>
    intro r slots s hfw
    refine ⟨fun hn => ?_, fun hy => ?_, ?_⟩
    · exact (whenFw_of_fw hfw).trans (congrArg _ (if_neg (by simp [hn])))
    · exact (whenFw_of_fw hfw).trans (congrArg _ (if_pos hy))
    intro h e c k x hj hc hk
    refine ⟨fun hn => ?_, fun hlo hhi hmem => ?_⟩
    · rw [State.repost_of_completed hj hc hk, if_pos hn]
    · rw [State.repost_of_completed hj hc hk, if_neg (fun h => h.elim (Nat.not_lt.mpr hlo) (fun h => h.elim (Nat.not_le.mpr hhi) hmem))]
      exact s.issue_ops r _

end Sys2Proof.Machine

/-! PROOFS. The roles of a mate pair (R391 to R403, R409). -/
namespace Sys2Proof.Machine

/-! ### What follows from the heartbeat and the ports (R395, R399) -/

section
variable (s : State)

/-- The heartbeat of an ACTIVE mate moves a SUSPENDED member to DETACHED, and a DETACHED one with a port to SYNCING; nothing else
that follows moves the role, and what the heartbeat shows stands. -/
theorem State.resolve_cal : (s.resolve).cal.role = (if s.cal.mateHb = .active ∧ s.cal.role = .suspended then .detached
      else if s.cal.mateHb = .active ∧ s.cal.role = .detached ∧ s.anyPort = true then .syncing else s.cal.role) ∧
    (s.resolve).cal.mateHb = s.cal.mateHb ∧ (s.resolve).cal.hbNoneSince = s.cal.hbNoneSince ∧ (s.resolve).cal.lone = s.cal.lone := by
  unfold State.resolve
  split
  case h_1 hrole hhb =>
    obtain ⟨hr, hm, -, -, hn, hl, -, -⟩ := s.setRole_ne .detached (by simp [hrole])
    exact ⟨by rw [hr, if_pos ⟨hhb, hrole⟩], hm, hn, hl⟩
  case h_2 hrole hhb =>
    have hkeep : ∀ t : State, t.cal.role = s.cal.role → t.cal.role = if s.cal.mateHb = .active ∧ s.cal.role = .suspended then .detached
        else if s.cal.mateHb = .active ∧ s.cal.role = .detached ∧ s.anyPort = true then .syncing else s.cal.role := fun t ht => by
      simp [ht, hhb]
    split
    · obtain ⟨hr, hm, hn, hl⟩ := s.yield_keeps 8
      exact ⟨hkeep _ hr, hm, hn, hl⟩
    · exact ⟨hkeep _ rfl, rfl, rfl, rfl⟩
  case h_3 hrole hhb =>
    split
    case isTrue hport =>
      obtain ⟨hr, -, -, -, hl, hm, hn⟩ := s.enterSyncing_rest
      exact ⟨hr.trans (by simp [hhb, hrole, hport]), hm, hn, hl⟩
    case isFalse hport => exact ⟨by simp [hrole, hport], rfl, rfl, rfl⟩
  case h_4 hsus hsus' hdet =>
    refine ⟨?_, rfl, rfl, rfl⟩
    rw [if_neg (fun h => hsus h.2 h.1), if_neg (fun h => hdet h.2.1 h.1)]

/-- A SUSPENDED member yields to a STANDBY mate while a port works (R395). -/
theorem State.resolve_of_standby {s : State} (hr : s.cal.role = .suspended) (hm : s.cal.mateHb = .standby) (hp : s.anyPort = true) :
    s.resolve = s.yield 8 := by
  unfold State.resolve
  rw [hr, hm]
  exact if_pos hp

end

/-! ### The end of a takeover hold (R409) -/

/-- A bound ring set with an index record is marked for publication. -/
def Ring.marked (x : Ring) : Ring := if x.st = .unbound ∨ x.boot = true then x else { x with dirty := true }

/-- The completion ring of a bound ring set is read, and its consumer index is to be published. -/
def State.readBack (s : State) (r : Nat) : State :=
  let x := s.ring r
  if x.st = .unbound ∨ x.boot then s
  else (s.setRing r { x with dirty := true }).issue r ⟨.cmpRing r, x.cmpBase, x.hkeys.getD 1 0, [], 32 * x.cmpSize⟩

theorem State.readBack_cal (s : State) (r : Nat) : (s.readBack r).cal = s.cal := by
  unfold State.readBack
  dsimp only
  split
  · rfl
  · exact State.issue_cal ..

theorem State.readBack_ring (s : State) (r j : Nat) : (s.readBack r).ring j = if j = r then (s.ring r).marked else s.ring j := by
  unfold State.readBack Ring.marked
  dsimp only
  by_cases hb : (s.ring r).st = .unbound ∨ (s.ring r).boot = true
  · rw [if_pos hb, if_pos hb]
    split
    · rw [‹j = r›]
    · rfl
  · rw [if_neg hb, if_neg hb, (State.issue_mgp_parts _ _ _).1]
    split
    · rw [‹j = r›, State.setRing_self]
    · exact State.setRing_of_ne _ _ ‹_›

/-- A change of each of the first ring sets in turn, each of its own alone. -/
theorem foldl_range_ring {g : State → Nat → State} {f : Ring → Ring}
    (hg : ∀ s r j, (g s r).ring j = if j = r then f (s.ring r) else s.ring j) (s : State) (j : Nat) :
    ∀ n, ((List.range n).foldl g s).ring j = if j < n then f (s.ring j) else s.ring j
  | 0 => rfl
  | n + 1 => by
    rw [List.range_succ, List.foldl_append, List.foldl_cons, List.foldl_nil, hg, foldl_range_ring hg s n n, foldl_range_ring hg s j n,
      if_neg (Nat.lt_irrefl n)]
    by_cases hj : j = n
    · rw [if_pos hj, if_pos (by omega), hj]
    · rw [if_neg hj]
      exact if_congr (by omega) rfl rfl

/-! ### A stalled acknowledgement and the mate's heartbeat (R391, R392, R395, R399, R400) -/

section
variable {s : State}

theorem whenUp_self (s : State) : whenUp s s = .next s := congrArg _ (ite_self s)

/-- A command whose guard fails changes nothing. -/
theorem whenUp_else {c : Prop} [Decidable c] {t : State} (hc : ¬c) : whenUp s (if c then t else s) = .next s := by
  rw [if_neg hc]
  exact whenUp_self s

/-- A command whose guard holds is its effect. -/
theorem whenUp_then {c : Prop} [Decidable c] {t : State} (hup : s.up = true) (hc : c) : whenUp s (if c then t else s) = .next t := by
  rw [if_pos hc]
  exact whenUp_of_up hup

/-- ACK_STALL: the member is SUSPENDED, and what follows from the heartbeat happens at once. -/
theorem exec_ackStall (hup : s.up = true) (hr : s.cal.role = .active) (hl : s.cal.lone = false) (hy : s.cal.yieldAt = none)
    (hs : s.pwr.restart = none) (ht : s.cal.ackTick + 8 ≤ s.clk.tick) : exec .ackStall s = .next (s.setRole .suspended).resolve :=
  whenUp_then hup ⟨hr, hl, by rw [hy]; rfl, by rw [hs]; rfl, ht⟩

/-- The level that the mate's heartbeat shows, by the changes of the last 8 ticks (R392). -/
def hbOf (ch : BitVec 8) : Hb := if popCount ch = 8 then .active else if popCount ch = 2 then .standby else .none

/-- The heartbeat classified anew. -/
def State.hbNoted (s : State) (hb : Hb) : State :=
  { s with cal := { s.cal with
      mateHb := hb
      hbNoneSince := if hb = .none then (if s.cal.mateHb = .none then s.cal.hbNoneSince else some s.clk.tick) else none } }

theorem exec_heartbeatChange (hup : s.up = true) (hm : s.mated = true) (ch : BitVec 8) :
    exec (.heartbeatChange ch) s = .next ((s.hbNoted (hbOf ch)).setLone.resolve) :=
  (whenUp_of_up hup).trans (congrArg _ (if_neg (by simp [hm])))

/-- A device that becomes ACTIVE while its mate is silent is LONE. -/
theorem State.becomeActive_lone (s : State) (hs : s.hbSilent 16 = true) : s.becomeActive.cal.lone = true := by
  obtain ⟨-, -, -, hlone⟩ := s.becomeActive_rest
  rw [hs] at hlone
  generalize s.becomeActive = x at hlone ⊢
  exact hlone

/-- What a silent mate makes of each role (R391, R395, R399, R400). -/
def State.silenced (s : State) : State :=
  match s.cal.role with
  | .suspended => ({ s with cal := { s.cal with ackTick := s.clk.tick } }).setRole .active
  | .syncing => s.setRole .detached
  | .detached => if s.primary && !s.cal.fromSync then s.becomeActive else s
  | _ => s

theorem exec_heartbeatSilence (hup : s.up = true) (hm : s.mated = true) (hs : s.hbSilent 16 = true) :
    exec .heartbeatSilence s = .next s.setLone.silenced :=
  (whenUp_of_up hup).trans (congrArg _ (if_neg (by simp [hm, hs])))

theorem State.silenced_cal (hl : s.cal.lone = true) (hs : s.hbSilent 16 = true) : (s.silenced).cal.lone = true ∧
    (s.silenced).cal.role = (if s.cal.role = .suspended then .active else if s.cal.role = .syncing then .detached
      else if s.cal.role = .detached ∧ s.primary = true ∧ s.cal.fromSync = false then .active else s.cal.role) ∧
    (s.cal.role = .syncing → (s.silenced).cal.fromSync = true) := by
  unfold State.silenced
  split
  case h_1 hr =>
    obtain ⟨hrole, -, -, -, -, hlone, -, -⟩ :=
      State.setRole_ne { s with cal := { s.cal with ackTick := s.clk.tick } } .active (by simp [hr])
    exact ⟨hlone.trans hl, hrole.trans (by simp [hr]), fun h => by simp [hr] at h⟩
  case h_2 hr =>
    obtain ⟨hrole, -, -, -, -, hlone, -, hfrom⟩ := s.setRole_ne .detached (by simp [hr])
    exact ⟨hlone.trans hl, hrole.trans (by simp [hr]), fun h => hfrom h rfl⟩
  case h_3 hr =>
    split
    case isTrue hp =>
      have hp' : s.primary = true ∧ s.cal.fromSync = false := by simpa using hp
      obtain ⟨hrole, -, -⟩ := s.becomeActive_cal
      exact ⟨s.becomeActive_lone hs, hrole.trans (by simp [hr, hp'.1, hp'.2]), fun h => by simp [hr] at h⟩
    case isFalse hp =>
      have hp' : ¬(s.primary = true ∧ s.cal.fromSync = false) := by simpa using hp
      refine ⟨hl, ?_, fun h => by simp [hr] at h⟩
      rw [if_neg (by simp [hr]), if_neg (by simp [hr]), if_neg (fun h => hp' h.2)]
  case h_4 hsus hsyn hdet =>
    refine ⟨hl, ?_, fun h => absurd h hsyn⟩
    rw [if_neg hsus, if_neg hsyn, if_neg (fun h => hdet h.1)]

/-! ### A yield, a swap, the end of synchronisation and of a takeover hold (R393, R397, R402, R409) -/

theorem exec_yieldComplete (hup : s.up = true) {w : Nat} (hw : s.cal.yieldAt = some w) (ht : w ≤ s.clk.tick) :
    exec .yieldComplete s = .next s.enterSyncing := by
  show execYieldComplete s = _
  unfold execYieldComplete
  rw [hw]
  exact whenUp_then hup ht

theorem exec_yieldComplete_early (hw : ∀ w, s.cal.yieldAt = some w → s.clk.tick < w) : exec .yieldComplete s = .next s := by
  show execYieldComplete s = _
  unfold execYieldComplete
  split
  case h_1 w hy => exact whenUp_else (Nat.not_le.mpr (hw w hy))
  case h_2 => exact whenUp_self s

theorem exec_takeoverHoldEnd (hup : s.up = true) {w : Nat} (hw : s.cal.holdUntil = some w) (ht : w ≤ s.clk.tick) :
    exec .takeoverHoldEnd s = .next ((List.range 16).foldl State.readBack { s with cal := { s.cal with holdUntil := none } }) := by
  show execTakeoverHoldEnd s = _
  unfold execTakeoverHoldEnd
  rw [hw]
  exact whenUp_then hup ht

theorem exec_takeoverHoldEnd_early (hw : ∀ w, s.cal.holdUntil = some w → s.clk.tick < w) : exec .takeoverHoldEnd s = .next s := by
  show execTakeoverHoldEnd s = _
  unfold execTakeoverHoldEnd
  split
  case h_1 w hy => exact whenUp_else (Nat.not_le.mpr (hw w hy))
  case h_2 => exact whenUp_self s

theorem exec_calMateCtrlSwap_owner (hup : s.up = true) {qp : Fin 16} (ha : s.accessor qp = some 0) :
    exec (.calMateCtrlSwap qp) s = .next (s.swap.answer qp .ack) :=
  (whenUp_of_up hup).trans (congrArg _ (State.ownerWrite_of_owner ha))

theorem State.swap_of_active (hr : s.cal.role = .active) (hm : s.cal.mateHb = .standby) : s.swap = s.yield 6 := if_pos ⟨hr, hm⟩

theorem State.swap_of_other (hn : s.cal.role ≠ .active ∨ s.cal.mateHb ≠ .standby) : s.swap = s :=
  if_neg (fun h => hn.elim (fun hr => hr h.1) (fun hm => hm h.2))

theorem State.swap_role (s : State) : s.swap.cal.role = s.cal.role := by
  unfold State.swap
  split
  · exact (s.yield_keeps 6).1
  · rfl

theorem State.syncReady_spec (hs : s.syncReady = true) : s.cal.snapDone = true ∧ s.cal.snap = [] ∧ s.cal.store = [] ∧ s.cal.owed = [] ∧
    s.cal.passOk = true ∧ s.str.st = .locked ∧ s.str.followMate = true ∧ 1 ≤ s.cal.diffPeriods := by
  simp only [State.syncReady, Bool.and_eq_true, decide_eq_true_eq, List.isEmpty_iff] at hs
  obtain ⟨⟨⟨⟨⟨⟨⟨⟨⟨hdone, hsnap⟩, hstore⟩, howed⟩, hpass⟩, hst⟩, hfollow⟩, -⟩, -⟩, hdiff⟩ := hs
  exact ⟨hdone, hsnap, hstore, howed, hpass, hst, hfollow, hdiff⟩

end

/-! ### The obligation -/

/-- Settles O44: each command is its guard before one change of role, and what a change of role, a yield and the heartbeat's
consequences do is said by one lemma each. -/
theorem mateRoles : Obligations.MateRoles := by
  unfold Obligations.MateRoles
  intro s hup
  refine ⟨?stall, ?stallElse, ?change, ?silence, ?silenceElse, ?settle, whenUp_else, ?reclaim, whenUp_else, ?yield, ?yieldElse,
    ?swap, ?swapOther, ?sync, whenUp_else, ?hold, ?holdElse, ?takeover, ?takeoverElse⟩
  case stall =>
    intro hr hl hy hs ht
    have hne : s.cal.role ≠ .suspended := by simp [hr]
    obtain ⟨hrole, hhb, hyield, hlanes, -⟩ := s.setRole_ne .suspended hne
    refine ⟨_, exec_ackStall hup hr hl hy hs ht, ?_, fun hm hp => ?_⟩
    · obtain ⟨hres, -⟩ := (s.setRole .suspended).resolve_cal
      rw [hres, hhb, hrole]
      simp
    · have hport : (s.setRole .suspended).anyPort = true := by
        rw [← hp]
        unfold State.anyPort State.portWorks
        rw [hlanes]
      rw [State.resolve_of_standby hrole (hhb.trans hm) hport]
      simp [State.yield, hrole, hyield, hy]
  case stallElse => exact fun hn => whenUp_else (by simpa [Option.isNone_iff_eq_none] using hn)
  case change =>
    intro ch hm
    obtain ⟨hrole, hhb, hsince, hlone⟩ := (s.hbNoted (hbOf ch)).setLone.resolve_cal
    refine ⟨_, exec_heartbeatChange hup hm ch, hhb, hsince, ?_, hrole⟩
    rw [hlone, hsince]
    rfl
  case silence =>
    intro hm hs
    have hlone : s.setLone.cal.lone = true := by simp [State.setLone, hs]
    exact ⟨_, exec_heartbeatSilence hup hm hs, State.silenced_cal hlone hs⟩
  case silenceElse => exact fun h => (congrArg (whenUp s) (if_pos h)).trans (whenUp_self s)
  case settle =>
    intro hr hf hs
    obtain ⟨hrole, hhold, hyield⟩ := s.becomeActive_cal
    exact ⟨_, whenUp_then hup ⟨hr, hf, hs⟩, hrole, hhold, hyield⟩
  case reclaim => exact fun hr hp hm ht => whenUp_then hup ⟨hr, hp, hm, ht⟩
  case yield =>
    intro w hw ht
    exact ⟨_, exec_yieldComplete hup hw ht, s.enterSyncing_cal⟩
  case yieldElse => exact exec_yieldComplete_early
  case swap =>
    intro qp ha
    refine ⟨_, exec_calMateCtrlSwap_owner hup ha, State.answer_resp .., ?_, fun hr hm hy => ?_, fun hn => ?_⟩
    all_goals rw [State.answer_cal]
    · exact s.swap_role
    · rw [State.swap_of_active hr hm]
      exact State.yield_of_active 6 hr hy
    · rw [State.swap_of_other hn]
  case swapOther =>
    intro qp ha
    exact ⟨_, (whenUp_of_up hup).trans (congrArg _ (State.ownerWrite_of_other ha)), State.answer_resp .., State.answer_cal ..⟩
  case sync =>
    intro hr hs
    obtain ⟨hdone, hsnap, hstore, howed, hpass, hst, hfollow, hdiff⟩ := State.syncReady_spec hs
    obtain ⟨hrole, -, -, -, -, -, hrec, -⟩ :=
      State.setRole_ne { s with cal := { s.cal with recTick := s.clk.tick } } .standby (by simp [hr])
    exact ⟨hdone, hsnap, hstore, howed, hpass, hst, hfollow, hdiff, _, whenUp_then hup ⟨hr, hs⟩, hrole, hrec⟩
  case hold =>
    intro w hw ht
    refine ⟨_, exec_takeoverHoldEnd hup hw ht, ?_, fun r hr => ?_⟩
    · exact foldl_keep (p := State.cal) State.readBack_cal _ _
    · rw [foldl_range_ring State.readBack_ring, if_pos hr]
      rfl
  case holdElse => exact exec_takeoverHoldEnd_early
  case takeover =>
    intro hr ht
    refine ⟨_, whenUp_then hup ⟨hr, ht⟩, ?_, fun hs => ?_⟩
    · dsimp only
      split
      · rw [(State.becomeActive_cal _).1]
        decide
      · assumption
    · rw [hs, show applyDue ([] : List LRec).length s = s from rfl, if_pos hr]
      obtain ⟨hrole, hhold, -⟩ := s.becomeActive_cal
      exact ⟨hrole, hhold⟩
  case takeoverElse => exact fun h => whenUp_else (fun hc => h.elim (fun h => h hc.1) (fun h => Nat.not_le.mpr h hc.2))

end Sys2Proof.Machine

/-! PROOFS. Sealing a record of the Ladle (R375, R380, R381, R384 to R387). -/
namespace Sys2Proof.Machine

/-! ### The frames of the next tick (R380, R381) -/

/-- The fields of the header that a Calrin lane sends (R380), bits [15:0] clear. -/
def State.calFields (s : State) (lane : Nat) : Nat :=
  let ack := match s.cal.ackOwn with | some a => some (min a (s.tnNow - 3)) | none => none
  0x3C5A96E1 * 2 ^ 96 + lane * 2 ^ 94 + s.plane * 2 ^ 92 + s.cal.role.num * 2 ^ 89 + b2n s.thin * 2 ^ 88
    + b2n s.cal.reclaimOut * 2 ^ 87 + b2n ack.isSome * 2 ^ 86 + (s.tnNow + 1) % 2 ^ 24 * 2 ^ 62
    + ack.getD 0 % 2 ^ 24 * 2 ^ 38 + b2n s.primary * 2 ^ 37

theorem State.calHdr_eq (s : State) (lane : Nat) : s.calHdr lane =
    withLow (s.calFields lane) (crc16 ((msbBits (BitVec.ofNat 128 (s.calFields lane))).take 112)) := rfl

theorem State.calFields_lowClear (s : State) (lane : Nat) : 2 ^ 16 ∣ s.calFields lane := by
  unfold State.calFields
  extract_lets
  omega

/-- A header that is sent passes the receiver's CRC. -/
theorem State.calHdr_crc (s : State) (lane : Nat) : crc16 (msbBits (s.calHdr lane)) = 0 := by
  rw [State.calHdr_eq]
  exact of_decide_eq_true (hcrcFits_withLow (s.calFields_lowClear lane))

/-- The frame of a lane, behind those composed so far. -/
def calStep (b : List Byte) (x : State × List CalOut) (l : Nat) : State × List CalOut :=
  let y := x.1.calFrame b l
  (y.1, x.2 ++ [y.2])

/-- Composing frames leaves the clock and the mate-pair state; there is one frame for each lane, its header with a correct CRC. -/
theorem calSteps_spec (b : List Byte) (ls : List Nat) (x : State × List CalOut) (hx : ∀ o ∈ x.2, crc16 (msbBits o.hdr) = 0) :
    (ls.foldl (calStep b) x).1.clk = x.1.clk ∧ (ls.foldl (calStep b) x).1.cal = x.1.cal ∧
    (ls.foldl (calStep b) x).2.map (fun o => o.lane) = x.2.map (fun o => o.lane) ++ ls ∧
    ∀ o ∈ (ls.foldl (calStep b) x).2, crc16 (msbBits o.hdr) = 0 := by
  induction ls generalizing x with
  | nil => exact ⟨rfl, rfl, (List.append_nil _).symm, hx⟩
  | cons l ls ih =>
    have hblank : (x.1.calFrame b l).1.blank (fun a => decide (a ∈ [Area.frm, .fab])) = x.1.blank (fun a => decide (a ∈ [Area.frm, .fab])) :=
      State.calFrame_blank rfl rfl x.1 b l
    have hnew : ∀ o ∈ x.2 ++ [(x.1.calFrame b l).2], crc16 (msbBits o.hdr) = 0 := by
      intro o ho
      rcases List.mem_append.mp ho with ho | ho
      · exact hx o ho
      · rw [List.mem_singleton.mp ho]
        exact x.1.calHdr_crc l
    obtain ⟨hclk, hcal, hlanes, hcrc⟩ := ih (calStep b x l) hnew
    refine ⟨hclk.trans (State.keeps_of_blank hblank .clk rfl), hcal.trans (State.keeps_of_blank hblank .cal rfl), ?_, hcrc⟩
    rw [List.foldl_cons, hlanes]
    simp [calStep, State.calFrame]

/-! ### The record (R384, R385, R387, R401) -/

section
variable (s : State)

/-- A snapshot part changes nothing else of a record. -/
theorem State.addSnap_record (r : LRec) : (s.addSnap r).2 = { r with snap := (s.addSnap r).2.snap, snapOff := (s.addSnap r).2.snapOff } := by
  unfold State.addSnap
  split
  · rfl
  · dsimp only

/-- Which of the mate-pair state a snapshot part changes. -/
theorem State.addSnap_cal (r : LRec) : (s.addSnap r).1.cal = { s.cal with
    t0 := (s.addSnap r).1.cal.t0, snap := (s.addSnap r).1.cal.snap, snapOff := (s.addSnap r).1.cal.snapOff } := by
  unfold State.addSnap
  split
  · rfl
  · cases s.cal.t0 with
    | some t => dsimp only
    | none => dsimp only

/-- An ACTIVE or SUSPENDED member seals the record of its tick and carries the rest on. -/
theorem State.sealOwn_of_sender (hr : s.cal.role = .active ∨ s.cal.role = .suspended) :
    (s.sealOwn).1.cal = { (s.addSnap s.sealRec.1).1.cal with cur := s.sealRec.2, sealed_ := some (s.addSnap s.sealRec.1).2 } := by
  unfold State.sealOwn
  rw [if_pos hr]
  dsimp only
  rw [foldl_keep (p := State.cal) (fun s c => State.setJob_cal ..)]

/-- Any other member seals none. -/
theorem State.sealOwn_of_other (hr : ¬(s.cal.role = .active ∨ s.cal.role = .suspended)) :
    s.sealOwn = ({ s with cal := { s.cal with sealed_ := none } }, []) := if_neg hr

theorem State.sealOwn_clk : (s.sealOwn).1.clk = s.clk :=
  State.keeps_of_blank (S := fun a => decide (a ∈ [Area.cal, .mgp])) (State.sealOwn_blank rfl rfl s) .clk rfl

theorem State.sealTick_eq : s.sealTick =
    let z := (List.range 4).foldl (calStep s.sealOwn.2) (s.sealOwn.1.routeMsgs, [])
    { z.1 with cal := { z.1.cal with out := z.2 } } := by
  unfold State.sealTick calStep
  dsimp only

/-- The seal of a tick: the record as `State.sealOwn` leaves it, and a frame for each of the four lanes. -/
theorem State.sealTick_spec : (s.sealTick).clk = s.clk ∧ (s.sealTick).cal = { (s.sealOwn).1.cal with out := (s.sealTick).cal.out } ∧
    (s.sealTick).cal.out.map (fun o => o.lane) = [0, 1, 2, 3] ∧ ∀ o ∈ (s.sealTick).cal.out, crc16 (msbBits o.hdr) = 0 := by
  have hframes := calSteps_spec s.sealOwn.2 (List.range 4) (s.sealOwn.1.routeMsgs, []) (fun o ho => by cases ho)
  rw [State.sealTick_eq]
  generalize (List.range 4).foldl (calStep s.sealOwn.2) (s.sealOwn.1.routeMsgs, []) = z at hframes
  obtain ⟨hclk, hcal, hlanes, hcrc⟩ := hframes
  exact ⟨hclk.trans s.sealOwn_clk, congrArg (fun c : Cal => { c with out := z.2 }) hcal, hlanes, hcrc⟩

theorem State.sealTick_of_other (hr : ¬(s.cal.role = .active ∨ s.cal.role = .suspended)) :
    (s.sealTick).cal.role = s.cal.role ∧ (s.sealTick).cal.cur = s.cal.cur ∧ (s.sealTick).cal.sealed_ = none := by
  obtain ⟨-, hcal, -, -⟩ := s.sealTick_spec
  rw [State.sealOwn_of_other s hr] at hcal
  rw [hcal]
  exact ⟨rfl, rfl, rfl⟩

theorem State.sealTick_of_sender (hr : s.cal.role = .active ∨ s.cal.role = .suspended) :
    (s.sealTick).cal.role = s.cal.role ∧ (s.sealTick).cal.cur = s.sealRec.2 ∧
    ∃ part off, (s.sealTick).cal.sealed_ = some { s.sealRec.1 with snap := part, snapOff := off } := by
  obtain ⟨-, hcal, -, -⟩ := s.sealTick_spec
  rw [State.sealOwn_of_sender s hr, State.addSnap_cal] at hcal
  rw [hcal]
  exact ⟨rfl, rfl, _, _, congrArg some (s.addSnap_record s.sealRec.1)⟩

end

/-! ### LADLE_RECORD_SEAL (R23, R384, R385) -/

/-- The tick's record counts as sealed. -/
def State.sealNoted (s : State) : State := { s with clk := { s.clk with sealDone := true } }

/-- What a record takes of the content that waits, and what it leaves (R385). -/
theorem State.sealRec_spec (s : State) : let r := s.sealRec.1
    let left := s.sealRec.2
    (r.tn = s.tnNow ∧ r.yield_ = s.cal.cur.yield_ ∧ r.thin = s.thin ∧ r.accs = s.cal.cur.accs.take 4 ∧ r.cmps = s.cal.cur.cmps.take 12 ∧
      r.maps = s.cal.cur.maps.take 32 ∧ r.evts = (evtOrder s.cal.cur.evts).take 8 ∧ r.rings = (lastIdx s.cal.cur.rings).take 8 ∧
      (s.thin = true → r.cnts = []) ∧ r.cnts.length ≤ 1536) ∧
    left.accs = s.cal.cur.accs.drop 4 ∧ left.cmps = s.cal.cur.cmps.drop 12 ∧ left.maps = s.cal.cur.maps.drop 32 ∧
    left.evts = (evtOrder s.cal.cur.evts).drop 8 ∧ left.rings = (lastIdx s.cal.cur.rings).drop 8 ∧ left.yield_ = false := by
  unfold State.sealRec
  dsimp only
  refine ⟨⟨rfl, rfl, rfl, rfl, rfl, rfl, rfl, rfl, fun ht => by rw [if_pos ht], ?_⟩, rfl, rfl, rfl, rfl, rfl, rfl⟩
  split
  · exact Nat.zero_le _
  · exact List.length_take_le _ _

/-- A Ladle whose work of the tick is discarded seals nothing and sends nothing (R23; log 74). -/
theorem State.sealNow_of_dropped {v : State} (hd : v.drops 5 = true) :
    v.sealNow = { v with clk := { v.clk with sealDone := true }, cal := { v.cal with sealed_ := none, out := [] } } := if_pos hd

theorem State.sealNow_of_kept {v : State} (hd : v.drops 5 = false) : v.sealNow = v.sealNoted.sealTick :=
  if_neg (fun h => Bool.false_ne_true (hd.symm.trans h))

/-- The seal keeps the role of the member. -/
theorem State.sealTick_role (s : State) : (s.sealTick).cal.role = s.cal.role := by
  by_cases hr : s.cal.role = .active ∨ s.cal.role = .suspended
  · exact (s.sealTick_of_sender hr).1
  · exact (s.sealTick_of_other hr).1

theorem exec_ladleRecordSeal {s : State} (hup : s.up = true) (hm : s.mated = true) (hs : s.sealed = true) (ht : s.clk.tnValid = true)
    (hd : s.clk.sealDone = false) : exec .ladleRecordSeal s = .next s.boundary.slotsNow.sealNow :=
  whenUp_then hup (by simp [State.sealDue, hm, hs, ht, hd])

theorem exec_ladleRecordSeal_undue {s : State}
    (hn : ¬(s.mated = true ∧ s.sealed = true ∧ s.clk.tnValid = true ∧ s.clk.sealDone = false)) : exec .ladleRecordSeal s = .next s :=
  whenUp_else (fun h => hn (by simpa [State.sealDue, and_assoc] using h))

end Sys2Proof.Machine

/-! PROOFS. Applying records of the Ladle (R388, R393, R297). -/
namespace Sys2Proof.Machine

/-! ### What a record leaves that says nothing of a unit -/

/-- What a table reads at an index is its default or listed. -/
theorem Tab.look_cases {α : Type} (d : α) (t : Tab α) (i : Nat) : t.look d i = d ∨ (i, t.look d i) ∈ t := by
  induction t with
  | nil => exact .inl rfl
  | cons p t ih =>
    rw [Tab.look]
    split
    case isTrue h => exact .inr (h ▸ List.mem_cons_self)
    case isFalse => exact ih.imp_right (List.mem_cons_of_mem _)

section
variable {s : State}

/-- Where this device's own changes of preferred copy are later than the record, none is missed (R270). -/
theorem State.mateQuiet_of_later {tn : Nat} (hq : ∀ p ∈ s.col.pair, ∀ c ∈ p.2.ownChg, tn < c.1) : s.mateQuiet tn = s := by
  have hpair : ∀ n, (s.pair n).ownChg.any (fun c => decide (c.1 ≤ tn)) = false := by
    intro n
    rw [List.any_eq_false]
    intro c hc
    have hlater : tn < c.1 := by
      rcases Tab.look_cases {} s.col.pair n with hp | hp
      · rw [State.pair, hp] at hc
        cases hc
      · exact hq _ hp c hc
    simpa using hlater
  exact List.foldl_fixed' (fun n => if_neg (by simp [hpair n])) _

/-- Where every accepted command was accepted before the record, no worker is told of one (R369). -/
theorem State.mateRemote_of_old {old : List Nat} (ho : ∀ p ∈ s.mgp.journal, p.2.accepted.isSome = true → p.1 ∈ old) :
    s.mateRemote old = s := by
  have hnone : s.mgp.journal.filter (fun (p : Nat × JEntry) => p.2.accepted.isSome && p.2.cmp.isNone && decide (p.2.origin = .ring)
      && decide (p.2.target ≠ 0) && decide (p.1 ∉ old) && !(s.fab.cmds.any (fun c => decide (c.h = p.1)))) = [] := by
    refine List.filter_eq_nil_iff.mpr fun p hp hall => ?_
    simp only [Bool.and_eq_true, decide_eq_true_eq] at hall
    obtain ⟨⟨⟨⟨⟨hacc, -⟩, -⟩, -⟩, hnew⟩, -⟩ := hall
    exact hnew (ho p hp hacc)
  unfold State.mateRemote
  rw [hnone]
  rfl

/-- A record of the Starter section alone: the holdover value and the QL, and the takeover where it carries YIELD (R297, R393). -/
theorem State.applyRec_of_starter {r : LRec} (hrings : r.rings = []) (haccs : r.accs = []) (hcmps : r.cmps = []) (hmaps : r.maps = [])
    (hevts : r.evts = []) (hcnts : r.cnts = []) (hq : ∀ p ∈ s.col.pair, ∀ c ∈ p.2.ownChg, r.tn < c.1) : s.applyRec r =
      if r.yield_ = true ∧ s.cal.role = .standby then (s.mateStr r.str).becomeActive else s.mateStr r.str := by
  have hquiet : (s.mateStr r.str).mateQuiet r.tn = s.mateStr r.str := State.mateQuiet_of_later hq
  have hremote : (s.mateStr r.str).mateRemote ((s.mgp.journal.filter (fun p => p.2.accepted.isSome)).map (fun p => p.1)) = s.mateStr r.str :=
    State.mateRemote_of_old fun p hp hacc => List.mem_map.mpr ⟨p, List.mem_filter.mpr ⟨hp, hacc⟩, rfl⟩
  unfold State.applyRec
  rw [hrings, haccs, hcmps, hmaps, hevts, hcnts]
  simp only [List.foldl_nil, List.zip_nil_right, hquiet, hremote]
  rfl

/-! ### LADLE_RECORD_APPLY -/

/-- Without a snapshot and without commands that wait for a batch, the due records are all that is applied. -/
theorem exec_ladleRecordApply (hup : s.up = true) (ho : s.cal.owed = []) (hs : s.cal.snap = []) :
    exec .ladleRecordApply s = .next (applyDue s.cal.store.length s) := by
  have hsnap : s.applySnap = s := if_pos (.inr (by rw [hs]; rfl))
  refine (whenUp_of_up hup).trans (congrArg _ ?_)
  dsimp only
  rw [hsnap, ho]
  rfl

/-- A record is not applied before four ticks after its own (R388). -/
theorem applyDue_of_early (hw : ∀ r ∈ s.cal.store.head?, s.tnNow < r.tn + 4) (n : Nat) : applyDue n s = s := by
  cases n with
  | zero => rfl
  | succ n =>
    unfold applyDue
    split
    case h_1 => rfl
    case h_2 r rest hstore => exact if_neg (fun h => Nat.not_le.mpr (hw r (by rw [hstore]; rfl)) h.2.1)

/-- The one record that is stored is taken off. -/
def State.storeTaken (s : State) : State := { s with cal := { s.cal with store := [] } }

/-- A standby applies the one record that it stores once it is due. -/
theorem applyDue_of_due {r : LRec} (hstore : s.cal.store = [r]) (hr : s.cal.role = .standby) (hd : r.tn + 4 ≤ s.tnNow) :
    applyDue s.cal.store.length s = s.storeTaken.applyRec r := by
  have hcopies : s.copies = true := by simp [State.copies, hr]
  rw [hstore]
  show applyDue 1 s = _
  unfold applyDue
  rw [hstore]
  exact if_pos ⟨hcopies, hd, .inl hr⟩

theorem State.becomeActive_str (s : State) : s.becomeActive.str = s.str :=
  State.keeps_of_blank (S := fun a => decide (a ≠ .str)) (State.becomeActive_blank rfl rfl rfl rfl rfl s) .str rfl

end

end Sys2Proof.Machine

/-! PROOFS. A frame of the mate (R375, R379, R389, R390). -/
namespace Sys2Proof.Machine

/-! ### What a link that begins or fails leaves (R243, R382, R489) -/

theorem State.cancelFab_calRest (s : State) (x : FabFlip) (w : Word) (r : Nat) : (s.cancelFab x w r).calRest = s.calRest := by
  unfold State.cancelFab
  split
  · rfl
  · refine (State.recd_calRest _ _).trans (State.calRest_of ?_)
    dsimp only
    split <;> rfl

theorem State.fabLinkFailed_calRest (s : State) (g : Option Nat) : (s.fabLinkFailed g).calRest = s.calRest := by
  unfold State.fabLinkFailed
  refine foldl_keep (p := State.calRest) (fun t x => ?_) _ _
  split
  · split
    · exact State.cancelFab_calRest _ _ _ _
    · rfl
  · rfl

theorem State.setLinkSt_calrin_cal (s : State) (st : LinkSt) : (s.setLinkSt .calrin st).cal = s.cal := by
  unfold State.setLinkSt
  dsimp only
  split <;> rfl

theorem State.calLink_calRest (s : State) (was : Bool) : (s.calLink was).calRest = s.calRest := by
  unfold State.calLink
  split
  · exact State.calRest_of (State.setLinkSt_calrin_cal _ _)
  · split
    · unfold State.calLinkDown
      split
      · rfl
      · exact (State.fabLinkFailed_calRest _ _).trans (State.calRest_of (State.setLinkSt_calrin_cal _ _))
    · rfl

/-! ### What the mate's headers have shown, and the lanes in frame -/

/-- Role, PLANE and PRIMARY of the mate, and the lanes in frame. -/
def Cal.seen (c : Cal) : Nat × Nat × Option Bool × BitVec 4 := (c.mateRole, c.matePlane, c.matePrimary, c.lanesUp)

theorem State.seen_of_rest {s t : State} (h : t.calRest = s.calRest) : t.cal.seen = s.cal.seen :=
  (congrArg Cal.seen h : t.calRest.seen = s.calRest.seen)

theorem State.ite_seen {c : Prop} [Decidable c] {a b s : State} (ha : a.cal.seen = s.cal.seen) (hb : b.cal.seen = s.cal.seen) :
    (if c then a else b).cal.seen = s.cal.seen := by
  split
  · exact ha
  · exact hb

section
variable (s : State)

theorem State.setRole_seen (r : Role) : (s.setRole r).cal.seen = s.cal.seen := by
  have hrest : (s.setRole r).calRest.seen = _ := congrArg Cal.seen (s.setRole_rest r)
  refine hrest.trans ?_
  split <;> rfl

theorem State.yield_seen (c : Nat) : (s.yield c).cal.seen = s.cal.seen := State.ite_seen (State.ite_seen rfl rfl) rfl

theorem State.enterSyncing_seen : s.enterSyncing.cal.seen = s.cal.seen := State.setRole_seen _ _

theorem State.recordGap_seen : s.recordGap.cal.seen = s.cal.seen := by
  unfold State.recordGap
  exact State.ite_seen (State.enterSyncing_seen _) rfl

theorem State.resolve_seen : s.resolve.cal.seen = s.cal.seen := by
  unfold State.resolve
  split
  · exact State.setRole_seen _ _
  · exact State.ite_seen (State.yield_seen _ _) rfl
  · exact State.ite_seen (State.enterSyncing_seen _) rfl
  · rfl

theorem State.takeAck_seen (a : BitVec 24) : (s.takeAck a).cal.seen = s.cal.seen := by
  unfold State.takeAck
  exact State.ite_seen rfl (State.ite_seen (State.setRole_seen _ _) rfl)

theorem State.storeRec_seen (r : LRec) : (s.storeRec r).cal.seen = s.cal.seen := by
  unfold State.storeRec
  refine State.ite_seen (State.ite_seen rfl rfl) ?_
  split
  · exact State.ite_seen rfl (State.ite_seen s.recordGap_seen rfl)
  · rfl

theorem State.takeShare_seen (lane tn : Nat) (thin : Bool) (b : List Byte) : (s.takeShare lane tn thin b).cal.seen = s.cal.seen := by
  unfold State.takeShare
  dsimp only
  split
  · rfl
  · split
    · exact State.recordGap_seen _
    · exact State.storeRec_seen _ _

theorem State.takeRecord_seen (lane : Nat) (f : CalFrame) : (s.takeRecord lane f).cal.seen = s.cal.seen := by
  unfold State.takeRecord
  refine State.ite_seen rfl (State.ite_seen ?_ s.recordGap_seen)
  dsimp only
  split
  · exact State.ite_seen rfl (State.takeShare_seen _ _ _ _ _)
  · exact State.takeShare_seen _ _ _ _ _

/-- What the mate's header shows stands in the status. -/
def State.hdrShown (h : BitVec 128) : State :=
  { s with cal := { s.cal with matePrimary := some (bit h 37), matePlane := calPlane h, mateRole := calRole h } }

/-- The status after a header of the mate, before its ACK and its RECLAIM are taken. -/
def State.hdrNoted (h : BitVec 128) : State :=
  (if decide (calPlane h = (s.hdrShown h).plane) || decide (bit h 37 = (s.hdrShown h).primaryCfg)
    then (s.hdrShown h).setSticky Reg.mateStatus 0x00100000
    else s.hdrShown h).setLone

/-- The status after the ACK of the header, where the member awaits one. -/
def State.hdrAcked (h : BitVec 128) : State :=
  match calAck h with
  | some a => if decide (s.cal.role = .active) || decide (s.cal.role = .suspended) then s.takeAck a else s
  | none => s

theorem State.takeCalHdr_eq (h : BitVec 128) : s.takeCalHdr h =
    if bit h 87 && decide (((s.hdrNoted h).hdrAcked h).cal.role = .active) then ((s.hdrNoted h).hdrAcked h).yield 7
    else (s.hdrNoted h).hdrAcked h := by
  unfold State.takeCalHdr State.hdrAcked State.hdrNoted State.hdrShown
  cases calAck h <;> dsimp only

theorem State.hdrAcked_seen (h : BitVec 128) : (s.hdrAcked h).cal.seen = s.cal.seen := by
  unfold State.hdrAcked
  split
  · exact State.ite_seen (State.takeAck_seen _ _) rfl
  · rfl

theorem State.hdrAcked_of_standby (hr : s.cal.role = .standby) (h : BitVec 128) : s.hdrAcked h = s := by
  unfold State.hdrAcked
  rw [hr]
  split <;> rfl

theorem State.hdrNoted_cal (h : BitVec 128) : (s.hdrNoted h).cal = { (s.hdrShown h).cal with lone := (s.hdrNoted h).cal.lone } := by
  unfold State.hdrNoted
  split <;> rfl

/-- A good header gives what the mate shows, and leaves the lanes. -/
theorem State.takeCalHdr_seen (h : BitVec 128) :
    (s.takeCalHdr h).cal.seen = (calRole h, calPlane h, some (bit h 37), s.cal.lanesUp) := by
  have hnoted : (s.hdrNoted h).cal.seen = (calRole h, calPlane h, some (bit h 37), s.cal.lanesUp) := congrArg Cal.seen (s.hdrNoted_cal h)
  rw [State.takeCalHdr_eq, ← hnoted]
  exact (State.ite_seen (State.yield_seen _ _) rfl).trans (State.hdrAcked_seen _ _)

/-- A STANDBY takes neither an ACK nor a RECLAIM. -/
theorem State.takeCalHdr_of_standby (hr : s.cal.role = .standby) (h : BitVec 128) : s.takeCalHdr h = s.hdrNoted h := by
  have hrole : (s.hdrNoted h).cal.role = .standby := (congrArg Cal.role (s.hdrNoted_cal h)).trans hr
  rw [State.takeCalHdr_eq, State.hdrAcked_of_standby _ hrole, if_neg (by simp [hrole])]

end

/-! ### A bad share of a record (R390) -/

section
variable {s : State}

/-- A lost record takes a STANDBY to SYNCING and sets RECORD_GAP. -/
theorem State.recordGap_of_standby (hr : s.cal.role = .standby) :
    s.recordGap.cal.role = .syncing ∧ (s.recordGap.stick Reg.mateStatus).getLsbD 19 = true := by
  have hgap : s.recordGap = let t := (s.setSticky Reg.mateStatus 0x00080000).enterSyncing
      { t with cal := { t.cal with ackOwn := s.cal.ackOwn } } := if_pos hr
  have hsticky : (s.setSticky Reg.mateStatus 0x00080000).enterSyncing.sticky = (s.setSticky Reg.mateStatus 0x00080000).sticky :=
    (State.setRole_sticky ..).trans rfl
  rw [hgap]
  refine ⟨(State.enterSyncing_cal _).1, ?_⟩
  show (Tab.look 0 (State.sticky (State.enterSyncing _)) Reg.mateStatus).getLsbD 19 = true
  rw [hsticky]
  show ((s.setSticky Reg.mateStatus 0x00080000).stick Reg.mateStatus).getLsbD 19 = true
  rw [State.setSticky_stick_self, BitVec.getLsbD_or, show (0x00080000 : Word).getLsbD 19 = true from rfl, Bool.or_true]

/-- A share that fails its CRC, from a sender of records, is a lost record for a STANDBY. -/
theorem State.takeRecord_of_bad (hr : s.cal.role = .standby) (lane : Nat) {f : CalFrame} (hs : calRole f.hdr = 1 ∨ calRole f.hdr = 5)
    (hc : f.crcOk = false) : s.takeRecord lane f = s.recordGap := by
  unfold State.takeRecord
  dsimp only
  rw [if_neg (by rcases hs with hs | hs <;> simp [State.copies, hr, hs]), if_neg (by simp [hc])]

/-- Nothing follows from the heartbeat for a member that is SYNCING. -/
theorem State.resolve_of_syncing (hr : s.cal.role = .syncing) : s.resolve = s := by
  unfold State.resolve
  rw [hr]

/-! ### CALRIN_FRAME (R375, R379) -/

/-- The bit of a lane follows whether it is in frame. -/
theorem getLsbD_laneSet (l : Fin 4) (x : BitVec 4) (up : Prop) [Decidable up] :
    (if up then x ||| BitVec.ofNat 4 (2 ^ l.val) else x &&& ~~~(BitVec.ofNat 4 (2 ^ l.val))).getLsbD l = decide up := by
  have hl : (BitVec.ofNat 4 (2 ^ l.val)).getLsbD l = true := by
    rw [BitVec.getLsbD_ofNat, Nat.testBit_two_pow]
    simp
  split <;> rename_i hup
  · rw [BitVec.getLsbD_or, hl, Bool.or_true, decide_eq_true hup]
  · rw [BitVec.getLsbD_and, BitVec.getLsbD_not, hl, Bool.not_true, Bool.and_false, Bool.and_false, decide_eq_false hup]

variable (s)

/-- The receiver of a lane, and whether it accepts the header, after a frame. -/
def State.calRxNext (l : Nat) (g : CalFrame) : CalRx × Bool :=
  (s.cal.rxs.look {} l).take s.clk.tick g.pos (calGood l g.hdr) (calSeq g.hdr)

/-- The alignment of the lane followed, and the link with it. -/
def State.laneFollowed (l : Nat) (g : CalFrame) : State :=
  (s.calAlign l g.pos (calGood l g.hdr) (calSeq g.hdr)).1.calLink s.anyPort

/-- The status after a frame that does not carry the device's own PLANE. -/
def State.frameTaken (l : Nat) (g : CalFrame) : State :=
  (if calGood l g.hdr && (s.calRxNext l g).2 then ((s.laneFollowed l g).takeCalHdr g.hdr).takeRecord l g else s.laneFollowed l g).resolve

theorem State.laneFollowed_calRest (l : Nat) (g : CalFrame) :
    (s.laneFollowed l g).calRest = (s.calAlign l g.pos (calGood l g.hdr) (calSeq g.hdr)).1.calRest := State.calLink_calRest _ _

theorem State.laneFollowed_role (l : Nat) (g : CalFrame) : (s.laneFollowed l g).cal.role = s.cal.role :=
  (State.role_of (s.laneFollowed_calRest l g)).trans rfl

theorem State.laneFollowed_seen (l : Nat) (g : CalFrame) : (s.laneFollowed l g).cal.seen =
    (s.cal.mateRole, s.cal.matePlane, s.cal.matePrimary, (s.laneFollowed l g).cal.lanesUp) := by
  have hseen := State.seen_of_rest (s.laneFollowed_calRest l g)
  have hlanes := congrArg (fun z : Nat × Nat × Option Bool × BitVec 4 => z.2.2.2) hseen
  dsimp only [Cal.seen] at hlanes
  rw [hseen, hlanes]
  rfl

theorem State.laneFollowed_lanesUp (l : Fin 4) (g : CalFrame) :
    (s.laneFollowed l g).cal.lanesUp.getLsbD l = decide ((s.calRxNext l g).1.align = .inFrame) := by
  have hlanes : (s.laneFollowed l g).cal.lanesUp = _ :=
    congrArg (fun z : Nat × Nat × Option Bool × BitVec 4 => z.2.2.2) (State.seen_of_rest (s.laneFollowed_calRest l g))
  rw [hlanes]
  exact getLsbD_laneSet l _ _

variable {s} (l : Fin 4)

theorem State.frameTaken_of_good {g : CalFrame} (hg : calGood l g.hdr = true) (hx : (s.calRxNext l g).2 = true) :
    s.frameTaken l g = (((s.laneFollowed l g).takeCalHdr g.hdr).takeRecord l g).resolve :=
  congrArg State.resolve (if_pos (Bool.and_eq_true_iff.mpr ⟨hg, hx⟩))

theorem State.frameTaken_of_bad {g : CalFrame} (hg : calGood l g.hdr = false ∨ (s.calRxNext l g).2 = false) :
    s.frameTaken l g = (s.laneFollowed l g).resolve :=
  congrArg State.resolve (if_neg (by rcases hg with hg | hg <;> simp [hg]))

/-- An accepted header gives what the mate shows. -/
theorem State.frameTaken_seen_of_good {g : CalFrame} (hg : calGood l g.hdr = true) (hx : (s.calRxNext l g).2 = true) :
    (s.frameTaken l g).cal.seen = (calRole g.hdr, calPlane g.hdr, some (bit g.hdr 37), (s.laneFollowed l g).cal.lanesUp) := by
  rw [State.frameTaken_of_good l hg hx, State.resolve_seen, State.takeRecord_seen, State.takeCalHdr_seen]

/-- Any other header leaves what the mate has shown. -/
theorem State.frameTaken_seen_of_bad {g : CalFrame} (hg : calGood l g.hdr = false ∨ (s.calRxNext l g).2 = false) :
    (s.frameTaken l g).cal.seen = (s.cal.mateRole, s.cal.matePlane, s.cal.matePrimary, (s.laneFollowed l g).cal.lanesUp) := by
  rw [State.frameTaken_of_bad l hg, State.resolve_seen, State.laneFollowed_seen]

theorem State.frameTaken_lanesUp (g : CalFrame) : (s.frameTaken l g).cal.lanesUp = (s.laneFollowed l g).cal.lanesUp := by
  by_cases hg : calGood l g.hdr = true ∧ (s.calRxNext l g).2 = true
  · exact congrArg (fun z : Nat × Nat × Option Bool × BitVec 4 => z.2.2.2) (State.frameTaken_seen_of_good l hg.1 hg.2)
  · rw [not_and_or, Bool.not_eq_true, Bool.not_eq_true] at hg
    exact congrArg (fun z : Nat × Nat × Option Bool × BitVec 4 => z.2.2.2) (State.frameTaken_seen_of_bad l hg)

/-- A share with a wrong CRC takes a STANDBY to SYNCING. -/
theorem State.frameTaken_of_badShare {g : CalFrame} (hg : calGood l g.hdr = true) (hx : (s.calRxNext l g).2 = true)
    (hr : s.cal.role = .standby) (hs : calRole g.hdr = 1 ∨ calRole g.hdr = 5) (hc : g.crcOk = false) :
    (s.frameTaken l g).cal.role = .syncing ∧ ((s.frameTaken l g).stick Reg.mateStatus).getLsbD 19 = true := by
  have hfollowed := (s.laneFollowed_role l g).trans hr
  have hnoted : ((s.laneFollowed l g).hdrNoted g.hdr).cal.role = .standby :=
    (congrArg Cal.role (State.hdrNoted_cal _ _)).trans hfollowed
  have hgap := State.recordGap_of_standby hnoted
  rw [State.frameTaken_of_good l hg hx, State.takeCalHdr_of_standby _ hfollowed, State.takeRecord_of_bad hnoted l hs hc,
    State.resolve_of_syncing hgap.1]
  exact hgap

variable {f : CalFrame} (hup : s.up = true)
include hup

theorem exec_calrinFrame_ignored (h : s.mated = false ∨ s.sds.bt.held.isNone = true ∨ 6800 ≤ f.pos) :
    exec (.calrinFrame l f) s = .next s := (whenUp_of_up hup).trans (congrArg _ (if_pos h))

theorem exec_calrinFrame_ownPlane (h : ¬(s.mated = false ∨ s.sds.bt.held.isNone = true ∨ 6800 ≤ f.pos))
    (hg : calGood l (s.readCal l f).hdr = true) (hp : calPlane (s.readCal l f).hdr = s.plane) :
    exec (.calrinFrame l f) s = .next (s.setSticky Reg.mateStatus 0x00100000) := by
  refine (whenUp_of_up hup).trans (congrArg _ ((if_neg h).trans (if_pos ?_)))
  rw [hg, hp]
  simp

theorem exec_calrinFrame (h : ¬(s.mated = false ∨ s.sds.bt.held.isNone = true ∨ 6800 ≤ f.pos))
    (hg : ¬(calGood l (s.readCal l f).hdr = true ∧ calPlane (s.readCal l f).hdr = s.plane)) :
    exec (.calrinFrame l f) s = .next (s.frameTaken l (s.readCal l f)) := by
  refine (whenUp_of_up hup).trans (congrArg _ ((if_neg h).trans ?_))
  dsimp only
  rw [if_neg (by rwa [Bool.and_eq_true, decide_eq_true_eq])]
  rfl

end

end Sys2Proof.Machine

/-! PROOFS. The records of the Ladle (O47). -/
namespace Sys2Proof.Machine

/-- Settles O47: sealing goes through one walk over the lanes, a frame through the alignment of its lane and then its
header and its share, and a record of the Starter section alone through the holdover value, the QL and YIELD. -/
theorem ladleRecords : Obligations.LadleRecords := by
  intro s hup
  refine ⟨?sealing, exec_ladleRecordSeal_undue, fun l f => exec_calrinFrame_ignored l hup, ?frame, ?early, ?due, ?starter⟩
  case sealing =>
    intro hm hs ht hd v
    refine ⟨v.sealNow, exec_ladleRecordSeal hup hm hs ht hd, State.sealNow_of_dropped, fun hdrop => ?_⟩
    clear_value v
    rw [State.sealNow_of_kept hdrop]
    obtain ⟨hclk, -, hlanes, hcrc⟩ := v.sealNoted.sealTick_spec
    refine ⟨hclk, v.sealNoted.sealTick_role, hlanes, hcrc, fun ha hsus => ?_, fun hr => ?_⟩
    · obtain ⟨-, hcur, hsealed⟩ := v.sealNoted.sealTick_of_other (not_or.mpr ⟨ha, hsus⟩)
      exact ⟨hsealed, hcur⟩
    · obtain ⟨-, hcur, part, off, hsealed⟩ := v.sealNoted.sealTick_of_sender hr
      obtain ⟨⟨htn, hyield, hthin, haccs, hcmps, hmaps, hevts, hrings, hcnts, hlen⟩, hleft⟩ := v.sealNoted.sealRec_spec
      rw [hcur]
      exact ⟨_, hsealed, htn, hyield, hthin, haccs, hcmps, hmaps, hevts, hrings, hcnts, hlen, hleft⟩
  case frame =>
    intro l f hmated hheld hpos
    have htaken : ¬(s.mated = false ∨ s.sds.bt.held.isNone = true ∨ 6800 ≤ f.pos) := by
      rw [hmated, Option.isNone_eq_false_iff.mpr hheld]
      simpa using hpos
    refine ⟨fun hline => if_pos (List.isEmpty_iff.mpr hline), exec_calrinFrame_ownPlane l hup htaken, fun hother =>
      ⟨_, exec_calrinFrame l hup htaken hother, ?_, fun hg hx => ?_, fun hbad => ?_, State.frameTaken_of_badShare l⟩⟩
    · rw [State.frameTaken_lanesUp]
      exact State.laneFollowed_lanesUp s l _
    · have hseen := State.frameTaken_seen_of_good l hg hx
      simp only [Cal.seen, Prod.mk.injEq] at hseen
      exact ⟨hseen.1, hseen.2.1, hseen.2.2.1⟩
    · have hseen := State.frameTaken_seen_of_bad l hbad
      simp only [Cal.seen, Prod.mk.injEq] at hseen
      exact ⟨hseen.1, hseen.2.1, hseen.2.2.1⟩
  case early =>
    intro ho hs hw
    rw [exec_ladleRecordApply hup ho hs, applyDue_of_early hw]
  case due =>
    intro r ho hs hstore hr hd
    exact (exec_ladleRecordApply hup ho hs).trans (congrArg _ (applyDue_of_due hstore hr hd))
  case starter =>
    intro r ho hs hstore hr hd hrings haccs hcmps hmaps hevts hcnts hq
    have happly : s.storeTaken.applyRec r = _ :=
      State.applyRec_of_starter (s := s.storeTaken) hrings haccs hcmps hmaps hevts hcnts hq
    refine ⟨_, (exec_ladleRecordApply hup ho hs).trans (congrArg _ ((applyDue_of_due hstore hr hd).trans happly)), ?_⟩
    cases r.yield_ with
    | true =>
      rw [if_pos ⟨rfl, hr⟩]
      obtain ⟨hrole, hhold, -⟩ := (s.storeTaken.mateStr r.str).becomeActive_cal
      exact ⟨State.becomeActive_str _, fun _ => ⟨hrole, hhold⟩, fun h => by cases h⟩
    | false =>
      rw [if_neg (fun h => Bool.false_ne_true h.1)]
      exact ⟨rfl, fun h => (by cases h), fun _ => rfl⟩

end Sys2Proof.Machine

/-! PROOFS. Which commands change the memories, the set-up registers, the fuses, the partition tables and the latched counters. -/
namespace Sys2Proof

/-! ### The commands whose areas hold a part of State -/

theorem Instr.mayChange_pending (c : Instr) : c.mayChange .pending = c.broad := by cases c <;> rfl
theorem Instr.mayChange_mem (c : Instr) : c.mayChange .mem = c.writesMemory := by cases c <;> rfl
theorem Instr.mayChange_regs (c : Instr) : c.mayChange .regs = c.writesRegs := by cases c <;> rfl
theorem Instr.mayChange_sealImg (c : Instr) : c.mayChange .sealImg = c.writesSeal := by cases c <;> rfl
theorem Instr.mayChange_prn (c : Instr) : c.mayChange .prn = c.writesPartitions := by cases c <;> rfl

namespace Machine

/-- What a command may not change stays, read off its footprint. -/
theorem exec_keeps {c : Instr} {s t : State} {a : Area} (ha : c.mayChange a = false) (hx : exec c s = .next t) : s.keeps t a :=
  footprints c s t a (of_decide_eq_false ha) hx

/-- Settles O7: the area of the memories is that of the writers of a memory. -/
theorem memoryWriters : Obligations.MemoryWriters := by
  unfold Obligations.MemoryWriters
  intro c s t hc hx
  have hmem : t.mem = s.mem := exec_keeps (a := .mem) (by rw [Instr.mayChange_mem, hc]) hx
  rw [hmem]

/-- Settles O8: the areas of the set-up registers and of their sealed image are those of their writers. -/
theorem setupRegisterWriters : Obligations.SetupRegisterWriters := by
  unfold Obligations.SetupRegisterWriters
  intro c s t hx
  exact ⟨fun hc => exec_keeps (a := .regs) (by rw [Instr.mayChange_regs, hc]) hx,
    fun hc => exec_keeps (a := .sealImg) (by rw [Instr.mayChange_sealImg, hc]) hx⟩

/-- Settles O10: the area of the partition tables is that of PARTITION_SET and the broad commands. -/
theorem partitionWriters : Obligations.PartitionWriters := by
  unfold Obligations.PartitionWriters
  intro c s t hc hx
  exact exec_keeps (a := .prn) (by rw [Instr.mayChange_prn, hc]) hx

/-! ### A writer of another part leaves the fuses and the latch -/

/-- The fuses and the flash among what is held. -/
def Hold.burnt (h : Hold) : Fuses × Flash := (h.fuses, h.flash)

/-- The latched counters and their time among what is held. -/
def Hold.latch (h : Hold) : Tab Counter × Nat := (h.latched, h.latchTn)

/-- What no writer of the map, the memories, the registers, the sealed image or the partition tables touches. -/
def Hold.kept (h : Hold) : (Fuses × Flash) × (Tab Counter × Nat) := (h.burnt, h.latch)

theorem Hold.kept_of_noMem {a b : Hold} (h : a.noMem = b.noMem) : a.kept = b.kept := show a.noMem.kept = b.noMem.kept from congrArg Hold.kept h
theorem Hold.kept_of_noRegs {a b : Hold} (h : a.noRegs = b.noRegs) : a.kept = b.kept := show a.noRegs.kept = b.noRegs.kept from congrArg Hold.kept h
theorem Hold.kept_of_noSeal {a b : Hold} (h : a.noSeal = b.noSeal) : a.kept = b.kept := show a.noSeal.kept = b.noSeal.kept from congrArg Hold.kept h
theorem Hold.kept_of_noPrn {a b : Hold} (h : a.noPrn = b.noPrn) : a.kept = b.kept := show a.noPrn.kept = b.noPrn.kept from congrArg Hold.kept h
theorem Hold.kept_of_noMap {a b : Hold} (h : a.noMap = b.noMap) : a.kept = b.kept := show a.noMap.kept = b.noMap.kept from congrArg Hold.kept h
theorem Hold.burnt_of_noBound {a b : Hold} (h : a.noBound = b.noBound) : a.burnt = b.burnt :=
  show a.noBound.burnt = b.noBound.burnt from congrArg Hold.burnt h
theorem Hold.latch_of_noFuse {a b : Hold} (h : a.noFuse = b.noFuse) : a.latch = b.latch :=
  show a.noFuse.latch = b.noFuse.latch from congrArg Hold.latch h

/-- The commands that write neither the fuses nor the latch leave both. -/
theorem exec_kept (c : Instr) (hf : c.writesFuses = false) (hl : c.latchesCounters = false) (s t : State)
    (hx : exec c s = .next t) : t.hold.kept = s.hold.kept := by
  cases hw : c.writesHold with
  | false => exact congrArg Hold.kept (exec_hold c hw s t hx)
  | true =>
    have hother : (c.writesHold && !c.writesFuses && !c.latchesCounters) = true := by rw [hw, hf, hl]; rfl
    cases c with
    | laneLoopApply lane => exact Hold.kept_of_noMap (execLaneLoopApply_noMap lane s t hx)
    | groupTimingWrite qp g foreign => exact Hold.kept_of_noRegs (execGroupTimingWrite_noRegs qp g foreign s t hx)
    | flipCommit => exact Hold.kept_of_noMap (execFlipCommit_noMap s t hx)
    | flipSeqFire h => exact Hold.kept_of_noMap (execFlipSeqFire_noMap h s t hx)
    | pairCmdApply p => exact Hold.kept_of_noMap (execPairCmdApply_noMap p s t hx)
    | caveBurstComplete pc uncorr => exact Hold.kept_of_noMem (execCaveBurstComplete_noMem pc uncorr s t hx)
    | cavArbFreezeWrite qp v => exact Hold.kept_of_noRegs (execCavArbFreezeWrite_noRegs qp v s t hx)
    | caveStackFault st training => exact Hold.kept_of_noRegs (execCaveStackFault_noRegs st training s t hx)
    | partitionSet h => exact Hold.kept_of_noPrn (execPartitionSet_noPrn h s t hx)
    | sealSetup h => exact Hold.kept_of_noSeal (execSeal_noSeal h s t hx)
    | pantryOwnerWrite master bank newOwner => exact Hold.kept_of_noMem (execPantryOwnerWrite_noMem master bank newOwner s t hx)
    | pantryAtomic master bank off swap v stall whisk =>
      exact Hold.kept_of_noMem (execPantryAtomic_noMem master bank off swap v stall whisk s t hx)
    | whiskRegionEnd m failed => exact Hold.kept_of_noMem (execWhiskRegionEnd_noMem m failed s t hx)
    | _ => cases hother

/-- The fuses and the flash: what the second boundary and the other boundary actions change are parts of their own. -/
theorem exec_burnt (c : Instr) (hc : c.writesFuses = false) (s t : State) (hx : exec c s = .next t) : t.hold.burnt = s.hold.burnt := by
  cases hl : c.latchesCounters with
  | false => exact congrArg Prod.fst (exec_kept c hc hl s t hx)
  | true =>
    have hother : (c.latchesCounters && !c.writesFuses) = true := by rw [hl, hc]; rfl
    cases c with
    | secondBoundary => exact Hold.burnt_of_noBound (execSecondBoundary_noBound s t hx)
    | selectionPeriodBoundary m => exact Hold.burnt_of_noBound (execSelectionPeriodBoundary_noBound m s t hx)
    | phaseStepApply => exact Hold.burnt_of_noBound (execPhaseStepApply_noBound s t hx)
    | refConfigApply => exact Hold.burnt_of_noBound (execRefConfigApply_noBound s t hx)
    | refForceApply => exact Hold.burnt_of_noBound (execRefForceApply_noBound s t hx)
    | mapWriteExecute => exact Hold.burnt_of_noBound (execMapWriteExecute_noBound s t hx)
    | counterPresetApply => exact Hold.burnt_of_noBound (execCounterPresetApply_noBound s t hx)
    | dumpConfigApply => exact Hold.burnt_of_noBound (execDumpConfigApply_noBound s t hx)
    | slotProcessing => exact Hold.burnt_of_noBound (execSlotProcessing_noBound s t hx)
    | ladleRecordSeal => exact Hold.burnt_of_noBound (execLadleRecordSeal_noBound s t hx)
    | _ => cases hother

/-- The latched counters and their time: what installs an owner or changes the flash is a part of its own. -/
theorem exec_latch (c : Instr) (hc : c.latchesCounters = false) (s t : State) (hx : exec c s = .next t) : t.hold.latch = s.hold.latch := by
  cases hf : c.writesFuses with
  | false => exact congrArg Prod.snd (exec_kept c hf hc s t hx)
  | true =>
    have hother : (c.writesFuses && !c.latchesCounters) = true := by rw [hf, hc]; rfl
    cases c with
    | keyAgree h => exact Hold.latch_of_noFuse (execKeyAgree_noFuse h s t hx)
    | fwStage h => exact Hold.latch_of_noFuse (execFwStage_noFuse h s t hx)
    | fwActivate h => exact Hold.latch_of_noFuse (execFwActivate_noFuse h s t hx)
    | attestQuote h => exact Hold.latch_of_noFuse (execAttestQuote_noFuse h s t hx)
    | ephemeralKeyReady => exact Hold.latch_of_noFuse (execEphemeralKeyReady_noFuse s t hx)
    | mateKeyAgreeRequest hd req ecOk lmsOk => exact Hold.latch_of_noFuse (execMateKeyAgreeRequest_noFuse hd req ecOk lmsOk s t hx)
    | _ => cases hother

/-- Settles O9: the fuses and the flash are a part of what is held, which only their writers change. -/
theorem fuseWriters : Obligations.FuseWriters := by
  unfold Obligations.FuseWriters
  intro c s t hc hx
  have hb : (t.rnd.fuses, t.flash) = (s.rnd.fuses, s.flash) := exec_burnt c hc s t hx
  obtain ⟨hfuses, hflash⟩ := Prod.mk.inj hb
  obtain ⟨hlc, hslots, hsvn, hsecret, hgrade, hserial⟩ := Fuses.mk.inj hfuses
  exact ⟨hflash, hlc, hslots, hsvn, hsecret, hgrade, hserial⟩

/-- Settles O12: the latch is a part of what is held, which only the second boundary and what first carries it out change. -/
theorem latchWriters : Obligations.LatchWriters := by
  unfold Obligations.LatchWriters
  intro c s t hc hx
  exact Prod.mk.inj (exec_latch c hc s t hx)

/-! ### Every step keeps the queue and the canonical form -/

/-- Settles O6: the area of the queue is that of the broad commands, and each of these keeps the queue by its own law. -/
theorem commandsKeepQueue : Obligations.CommandsKeepQueue := by
  unfold Obligations.CommandsKeepQueue
  intro c s t hx
  cases hb : c.broad with
  | false => exact exec_keeps (a := .pending) (by rw [Instr.mayChange_pending, hb]) hx
  | true =>
    rw [State.pending_hold, State.pending_hold]
    cases c with
    | coldPowerUp orderErr => exact execColdPowerUp_queue orderErr s t hx
    | resetNRise flash pwrGood a0 fused => exact execResetNRise_queue flash pwrGood a0 fused s t hx
    | resetNFall ns => exact execResetNFall_queue ns s t hx
    | pwrGoodFall => exact execPwrGoodFall_queue s t hx
    | glbRstCtrlWarm qp => exact execGlbRstCtrlWarm_queue qp s t hx
    | watchdogExpiry core => exact execWatchdogExpiry_queue core s t hx
    | controlRestartStart => exact execControlRestartStart_queue s t hx
    | controlRestartEnd formatOk => exact execControlRestartEnd_queue formatOk s t hx
    | ladleRecordApply => exact execLadleRecordApply_queue s t hx
    | silenceTakeover => exact execSilenceTakeover_queue s t hx
    | mgmtFrameReceived port f => exact execMgmtFrameReceived_queue port f s t hx
    | registerWrite qp rkey addr data => exact execRegisterWrite_queue qp rkey addr data s t hx
    | rackAccess a => exact execRackAccess_queue a s t hx
    | pwrGoodRise => exact execPwrGoodRise_queue s t hx
    | _ => cases hb

/-- Every command keeps the canonical form of what is held: those that leave it as it was, and each writer by its own law. -/
theorem exec_wf (c : Instr) (s t : State) (hx : exec c s = .next t) (hw : s.hold.wf) : t.hold.wf := by
  cases hc : c.writesHold with
  | false => rw [exec_hold c hc s t hx]; exact hw
  | true =>
    cases c with
    | coldPowerUp orderErr => exact execColdPowerUp_wf orderErr s t hx hw
    | resetNRise flash pwrGood a0 fused => exact execResetNRise_wf flash pwrGood a0 fused s t hx hw
    | resetNFall ns => exact execResetNFall_wf ns s t hx hw
    | pwrGoodFall => exact execPwrGoodFall_wf s t hx hw
    | glbRstCtrlWarm qp => exact execGlbRstCtrlWarm_wf qp s t hx hw
    | watchdogExpiry core => exact execWatchdogExpiry_wf core s t hx hw
    | controlRestartStart => exact execControlRestartStart_wf s t hx hw
    | controlRestartEnd formatOk => exact execControlRestartEnd_wf formatOk s t hx hw
    | secondBoundary => exact execSecondBoundary_wf s t hx hw
    | selectionPeriodBoundary m => exact execSelectionPeriodBoundary_wf m s t hx hw
    | phaseStepApply => exact execPhaseStepApply_wf s t hx hw
    | refConfigApply => exact execRefConfigApply_wf s t hx hw
    | refForceApply => exact execRefForceApply_wf s t hx hw
    | laneLoopApply lane => exact execLaneLoopApply_wf lane s t hx hw
    | groupTimingWrite qp g foreign => exact execGroupTimingWrite_wf qp g foreign s t hx hw
    | mapWriteExecute => exact execMapWriteExecute_wf s t hx hw
    | flipCommit => exact execFlipCommit_wf s t hx hw
    | flipSeqFire h => exact execFlipSeqFire_wf h s t hx hw
    | pairCmdApply p => exact execPairCmdApply_wf p s t hx hw
    | caveBurstComplete pc uncorr => exact execCaveBurstComplete_wf pc uncorr s t hx hw
    | cavArbFreezeWrite qp v => exact execCavArbFreezeWrite_wf qp v s t hx hw
    | caveStackFault st training => exact execCaveStackFault_wf st training s t hx hw
    | ladleRecordApply => exact execLadleRecordApply_wf s t hx hw
    | silenceTakeover => exact execSilenceTakeover_wf s t hx hw
    | mgmtFrameReceived port f => exact execMgmtFrameReceived_wf port f s t hx hw
    | registerWrite qp rkey addr data => exact execRegisterWrite_wf qp rkey addr data s t hx hw
    | counterPresetApply => exact execCounterPresetApply_wf s t hx hw
    | dumpConfigApply => exact execDumpConfigApply_wf s t hx hw
    | partitionSet h => exact execPartitionSet_wf h s t hx hw
    | keyAgree h => exact execKeyAgree_wf h s t hx hw
    | fwStage h => exact execFwStage_wf h s t hx hw
    | fwActivate h => exact execFwActivate_wf h s t hx hw
    | attestQuote h => exact execAttestQuote_wf h s t hx hw
    | ephemeralKeyReady => exact execEphemeralKeyReady_wf s t hx hw
    | sealSetup h => exact execSeal_wf h s t hx hw
    | pantryOwnerWrite master bank newOwner => exact execPantryOwnerWrite_wf master bank newOwner s t hx hw
    | pantryAtomic master bank off swap v stall whisk => exact execPantryAtomic_wf master bank off swap v stall whisk s t hx hw
    | rackAccess a => exact execRackAccess_wf a s t hx hw
    | whiskRegionEnd m failed => exact execWhiskRegionEnd_wf m failed s t hx hw
    | slotProcessing => exact execSlotProcessing_wf s t hx hw
    | ladleRecordSeal => exact execLadleRecordSeal_wf s t hx hw
    | pwrGoodRise => exact execPwrGoodRise_wf s t hx hw
    | mateKeyAgreeRequest hd req ecOk lmsOk => exact execMateKeyAgreeRequest_wf hd req ecOk lmsOk s t hx hw
    | _ => cases hc

/-- The canonical form of a state is that of what is held of it. -/
theorem State.canonical_iff (s : State) : s.canonical ↔ s.hold.wf :=
  ⟨fun ⟨hmem, hregs, himg, h0, h1, hblock, hpart, hslots⟩ => ⟨hmem, hregs, himg, h0, h1, hblock, hpart, hslots⟩,
    fun ⟨hmem, hregs, himg, h0, h1, hblock, hpart, hslots⟩ => ⟨hmem, hregs, himg, h0, h1, hblock, hpart, hslots⟩⟩

/-- The queue has no part in the canonical form. -/
theorem State.canonical_withPending {s : State} (l : List Instr) (h : s.canonical) : State.canonical { s with pending := l } := h

/-- Settles O5: the front command keeps the canonical form of what is held, and so does the tick of an empty queue. -/
theorem stepKeepsCanonical : Obligations.StepKeepsCanonical := by
  unfold Obligations.StepKeepsCanonical
  intro s t hs hx
  rw [State.canonical_iff]
  cases hq : s.pending with
  | nil =>
    unfold step at hx
    rw [hq] at hx
    rw [← Host.Outcome.next.inj hx]
    exact State.tick_wf s (s.canonical_iff.mp hs)
  | cons c rest =>
    unfold step at hx
    rw [hq] at hx
    exact exec_wf c _ t hx ((State.canonical_iff _).mp (State.canonical_withPending rest hs))

/-! ### The state after reset, and the step of a command -/

/-- Settles O1: by the step of a queue that is not empty. -/
theorem stepRunsFrontCommand : Obligations.StepRunsFrontCommand := by
  unfold Obligations.StepRunsFrontCommand
  exact fun c l s => rfl

/-- Settles O4: every table of the reset state is empty. -/
theorem resetIsCanonical : Obligations.ResetIsCanonical := by
  unfold Obligations.ResetIsCanonical
  refine (State.canonical_iff _).mpr ⟨⟨?_, ?_, ?_, ?_, ?_⟩, ?_, ?_, ?_, ?_, ?_, ?_, ?_⟩
  all_goals exact Tab.wfOn_nil _

/-- Both map pages list no entry after reset. -/
theorem State.reset_page_ent (i : Nat) : (State.reset.page i).ent = [] := by
  unfold State.page
  split <;> rfl

/-- Settles O3: the tables are empty after reset, so every index reads what an unlisted one reads. -/
theorem resetLeaves : Obligations.ResetLeaves := by
  unfold Obligations.ResetLeaves
  refine ⟨rfl, rfl, rfl, rfl, rfl, fun i e => ?_, fun sc o j => rfl, rfl, rfl, fun r => rfl, fun q => rfl, rfl, fun a => rfl⟩
  rw [State.reset_page_ent]
  rfl

end Machine

end Sys2Proof

/-! PROOFS. Resets, the boot, control restarts, block resets and board pins. -/
namespace Sys2Proof.Machine

/-! ### Cold power-up and warm resets (R615, R616, R619, R620) -/

/-- Settles O14: the next state is written out in the command's meaning. -/
theorem coldPowerUpLoses : Obligations.ColdPowerUpLoses := by
  unfold Obligations.ColdPowerUpLoses
  exact fun orderErr s => ⟨_, rfl, rfl, rfl, rfl, rfl, rfl, rfl, rfl, rfl, rfl, rfl, rfl, rfl, rfl, rfl, rfl, rfl⟩

theorem exec_resetNFall_short {ns : Nat} (h : ns < 1000) (s : State) : exec (.resetNFall ns) s = .next s :=
  congrArg Host.Outcome.next (if_pos (.inl h))

theorem exec_resetNFall {ns : Nat} {s : State} (h : 1000 ≤ ns) (hr : s.pwr.resetN = true) :
    exec (.resetNFall ns) s = .next { s.warmReset 1 with pwr := { (s.warmReset 1).pwr with resetN := false } } :=
  congrArg Host.Outcome.next (if_neg (by simp [hr, Nat.not_lt.mpr h]))

theorem exec_pwrGoodFall {s : State} (hg : s.pwr.pwrGood = true) (hr : s.pwr.resetN = true) :
    exec .pwrGoodFall s = .next { s.warmReset 2 with pwr := { (s.warmReset 2).pwr with pwrGood := false } } := by
  refine congrArg Host.Outcome.next ((if_neg (by simp [hg])).trans ?_)
  simp only [hr, if_true]

/-- Settles O15: each trigger is the warm reset with its cause and its pin low. -/
theorem warmResetPins : Obligations.WarmResetPins := by
  unfold Obligations.WarmResetPins
  exact ⟨fun ns s h => exec_resetNFall_short h s,
    fun ns s h hr => ⟨_, exec_resetNFall h hr, rfl, rfl, rfl, rfl, rfl, rfl, rfl, rfl, rfl, rfl, rfl, rfl, rfl, rfl, rfl⟩,
    fun s hg hr => ⟨_, exec_pwrGoodFall hg hr, rfl, rfl, rfl, rfl, rfl, rfl, rfl, rfl, rfl, rfl, rfl, rfl, rfl, rfl, rfl⟩⟩

/-! ### The boot (R480, R482, R612, R624) -/

/-- An operation that leaves every area but some others leaves the power record. -/
theorem State.pwr_of_blank {s t : State} (h : t.blank (fun a => decide (a ≠ .pwr)) = s.blank (fun a => decide (a ≠ .pwr))) : t.pwr = s.pwr :=
  State.keeps_of_blank h .pwr rfl

theorem State.provision_pwr (s : State) (fz : Option (BitVec 64 × Bool)) : (s.provision fz).pwr = s.pwr := by
  unfold State.provision
  repeat' split
  all_goals rfl

theorem State.provision_flash (s : State) (fz : Option (BitVec 64 × Bool)) : (s.provision fz).flash = s.flash := by
  unfold State.provision
  repeat' split
  all_goals rfl

/-- The check of the TAP changes its instruction only. -/
theorem State.checkTap_eq (s : State) : ∃ i, s.checkTap = { s with pwr := { s.pwr with tap := i } } := by
  unfold State.checkTap
  split
  · exact ⟨s.pwr.tap, rfl⟩
  · exact ⟨.bypass, rfl⟩

/-- The device as RESET_N rises: what was written and fused meanwhile stands, and the pins are sampled. -/
def State.released (s : State) (fl : Option Flash) (pg a0 : Bool) (fz : Option (BitVec 64 × Bool)) : State :=
  (State.provision { s with flash := fl.getD s.flash, pwr := { s.pwr with resetN := true, pwrGood := pg, i2cA0 := a0 } } fz).checkTap

theorem State.released_eq (s : State) (fl : Option Flash) (pg a0 : Bool) (fz : Option (BitVec 64 × Bool)) :
    (s.released fl pg a0 fz).pwr.resetN = true ∧ (s.released fl pg a0 fz).pwr.i2cA0 = a0 ∧
    (s.released fl pg a0 fz).pwr.phase = s.pwr.phase ∧ (s.released fl pg a0 fz).flash = fl.getD s.flash := by
  unfold State.released
  obtain ⟨i, hi⟩ := State.checkTap_eq
    (State.provision { s with flash := fl.getD s.flash, pwr := { s.pwr with resetN := true, pwrGood := pg, i2cA0 := a0 } } fz)
  rw [hi]
  simp only [State.provision_pwr, State.provision_flash, and_self]

theorem exec_resetNRise (fl : Option Flash) (pg a0 : Bool) (fz : Option (BitVec 64 × Bool)) {s : State} (h : s.pwr.resetN = false) :
    exec (.resetNRise fl pg a0 fz) s =
      .next (if pg = true ∧ s.pwr.phase = .held then (s.released fl pg a0 fz).boot else s.released fl pg a0 fz) := by
  obtain ⟨-, -, hphase, -⟩ := s.released_eq fl pg a0 fz
  rw [← hphase]
  exact congrArg Host.Outcome.next (if_neg (by simp [h]))

theorem exec_pwrGoodRise {s : State} (hr : s.pwr.resetN = true) (hg : s.pwr.pwrGood = false) (hp : s.pwr.phase = .held) :
    exec .pwrGoodRise s = .next (State.boot { s with pwr := { s.pwr with pwrGood := true } }) :=
  congrArg Host.Outcome.next (if_pos ⟨hg, hr, hp⟩)

theorem State.boot_of_scrapped {s : State} (h : s.bootRom.bootToken.rnd.lc = .scrapped) :
    s.boot = { s.bootRom.bootToken with pwr := { s.bootRom.bootToken.pwr with
      phase := .scrapped, causes := s.bootRom.bootToken.pwr.causes ||| 0x20 } } := if_pos h

theorem State.boot_of_unscrapped {s : State} (h : s.bootRom.bootToken.rnd.lc ≠ .scrapped) : s.boot = s.bootRom.bootToken.bootImage := if_neg h

/-- The phase and the lock of the code region: what the start of an image leaves of the power record. -/
def Pwr.service (p : Pwr) : Phase × Bool := (p.phase, p.codeLocked)

theorem State.runImage_pwr (s : State) (x : Option FwImage) : (s.runImage x).pwr = s.pwr :=
  State.pwr_of_blank (State.runImage_blank rfl rfl s x)

theorem State.bootKeys_pwr (s : State) : s.bootKeys.pwr = s.pwr := by
  have hleaf : ∀ u : State, u.advanceLeaf.pwr = u.pwr := fun u => State.pwr_of_blank (State.advanceLeaf_blank rfl u)
  unfold State.bootKeys
  dsimp only
  repeat' split
  all_goals simp [hleaf]

theorem State.bootNet_service (s : State) : s.bootNet.pwr.service = s.pwr.service := by
  unfold State.bootNet
  dsimp only
  split
  · simp only [List.foldl, State.setPort_pwr]
    rfl
  · have hports : ∀ (f : State → Nat → Port) (u : State), ([0, 1].foldl (fun t p => t.setPort p (f t p)) u).pwr = u.pwr :=
      fun f => foldl_keep (p := State.pwr) (g := fun t p => t.setPort p (f t p)) (fun _ _ => rfl) _
    have hcfg : ∀ (w : Word) (u : State), ([0, 1].foldl (fun t p => t.setReg (Reg.portCfg p) w) u).pwr = u.pwr :=
      fun w => foldl_keep (p := State.pwr) (g := fun t p => t.setReg (Reg.portCfg p) w) (fun _ _ => rfl) _
    simp only [apply_ite State.pwr, hcfg, hports, State.setRing_pwr, State.setQp_pwr, ite_self]

theorem State.bootFw_service (s : State) : s.bootFw.pwr.service = s.pwr.service := by
  unfold State.bootFw
  refine (foldl_keep (p := fun u : State => u.pwr.service) (fun u r => ?_) _ _).trans (State.bootNet_service _)
  split
  · rfl
  · exact congrArg Pwr.service (State.pwr_of_blank (State.refillOverflow_blank rfl u r))

/-- No slot passes its checks: the boot fails with both codes. -/
theorem State.bootImage_of_bad {s : State} (ha : s.slotCheck s.flash.slotA ≠ 0) (hb : s.slotCheck s.flash.slotB ≠ 0) :
    s.bootImage.pwr.phase = .bootFail ∧ s.bootImage.pwr.causes.getLsbD 3 = true ∧
    s.bootImage.pwr.gpioFail = some (s.slotCheck s.flash.slotA, s.slotCheck s.flash.slotB) := by
  unfold State.bootImage
  dsimp only
  rw [if_pos (by cases flashPrefersB s.flash <;> simp [ha, hb])]
  exact ⟨rfl, by simp, rfl⟩

/-- A slot passes its checks: its image runs, with the code region locked. -/
theorem State.bootImage_of_good {s : State} (h : s.slotCheck s.flash.slotA = 0 ∨ s.slotCheck s.flash.slotB = 0) :
    s.bootImage.pwr.service = (.running, true) := by
  unfold State.bootImage
  dsimp only
  rw [if_neg (by cases flashPrefersB s.flash <;> simp <;> tauto)]
  rw [State.bootFw_service, State.bootKeys_pwr, State.runImage_pwr]
  rfl

/-- Settles O16: RESET_N_RISE and PWR_GOOD_RISE run the boot, whose three outcomes follow the lifecycle and the two slots' checks. -/
theorem leavingResetBoots : Obligations.LeavingResetBoots := by
  unfold Obligations.LeavingResetBoots
  refine ⟨fun fl a0 fz s hr => ?_, fun fl a0 fz s hr hp => ?_, fun s hr hg hp => exec_pwrGoodRise hr hg hp, fun s h => ?_,
    fun s hlc ha hb => ?_, fun s hlc h => ?_⟩
  · obtain ⟨hreset, ha0, hphase, hflash⟩ := s.released_eq fl false a0 fz
    exact ⟨_, (exec_resetNRise fl false a0 fz hr).trans (congrArg _ (if_neg (by simp))), hreset, ha0, hphase, hflash⟩
  · exact (exec_resetNRise fl true a0 fz hr).trans (congrArg _ (if_pos ⟨rfl, hp⟩))
  · rw [State.boot_of_scrapped h]
    exact ⟨rfl, by simp⟩
  · rw [State.boot_of_unscrapped hlc]
    exact State.bootImage_of_bad ha hb
  · rw [State.boot_of_unscrapped hlc]
    exact Prod.mk.inj (State.bootImage_of_good h)

/-! ### Control restart and watchdog (R534, R538, R616, R629, R633) -/

/-- The power record without the list of sleeping Cores. -/
def Pwr.awake (p : Pwr) : Pwr := { p with asleep := [] }

theorem State.mbReset_awake (s : State) (ms : List Nat) : (s.mbReset ms).pwr.awake = s.pwr.awake := by
  unfold State.mbReset
  refine foldl_keep (p := fun u : State => u.pwr.awake) (fun u c => ?_) _ _
  dsimp only
  repeat' split
  all_goals rfl

/-- What a control restart sets of the power record: the restart under way and the count. -/
def Pwr.restarting (p : Pwr) : Phase × Option Restart × Nat := (p.awake.phase, p.awake.restart, p.awake.restarts)

theorem State.takeStaged_restarting (s : State) : s.takeStaged.pwr.restarting = s.pwr.restarting := by
  unfold State.takeStaged
  split
  · rw [State.runImage_pwr]; rfl
  · rfl

theorem State.beginRestart_restarting (s : State) (b : Bool) :
    (s.beginRestart b).pwr.restarting = (s.pwr.phase, some ⟨b, s.clk.tick⟩, s.pwr.restarts + 1) := by
  unfold State.beginRestart
  dsimp only
  split
  · rw [State.takeStaged_restarting]
    exact congrArg (fun p : Pwr => (p.phase, p.restart, p.restarts)) (State.mbReset_awake _ _)
  · exact congrArg (fun p : Pwr => (p.phase, p.restart, p.restarts)) (State.mbReset_awake _ _)

theorem State.fw_of_restarting {s : State} (h : s.pwr.restart.isSome = true) : s.fw = false := by
  unfold State.fw
  rw [← Option.not_isSome, h]
  exact Bool.and_false _

theorem exec_controlRestartStart {s : State} {x : RestartAct} (hup : s.up = true)
    (h : s.restarts.find? (fun x => s.clk.tnValid && decide (x.n ≤ s.clk.tn)) = some x) :
    exec .controlRestartStart s =
      .next ((State.complete { s with restarts := s.restarts.filter (fun y => y.h ≠ x.h) } x.h 0 x.n 0).beginRestart x.staged) := by
  refine (whenUp_of_up hup).trans (congrArg _ ?_)
  rw [h]

/-- The end of a control restart: it is over and every bound ring set's index record is to be written. -/
def State.endRestart (s : State) : State :=
  State.flushHeld { s with
    pwr := { s.pwr with restart := none }
    mgp := { s.mgp with ring := s.mgp.ring.map (fun p => (p.1, if p.2.st = RingSt.unbound then p.2 else { p.2 with dirty := true })) } }

theorem exec_controlRestartEnd_usable {s : State} (hup : s.up = true) (h : s.pwr.restart.isSome = true) :
    exec (.controlRestartEnd true) s = .next s.endRestart :=
  (whenUp_of_up hup).trans (congrArg _ ((if_neg (by simpa [Option.isSome_iff_ne_none] using h)).trans (if_neg (by simp))))

theorem exec_controlRestartEnd_unusable {s : State} (hup : s.up = true) (h : s.pwr.restart.isSome = true) :
    exec (.controlRestartEnd false) s = .next (s.warmBoot 5) :=
  (whenUp_of_up hup).trans (congrArg _ ((if_neg (by simpa [Option.isSome_iff_ne_none] using h)).trans (if_pos rfl)))

/-- The expiries of the last second of one device. -/
def State.recentExpiries (s : State) : List Nat := s.pwr.wdogTicks.filter (fun t => decide (s.clk.tick < t + 8000000))

/-- A watchdog's expiry counted, with the yield of an ACTIVE member and the restart asked for (R538). -/
def State.wdogNoted (s : State) (core : Nat) : State :=
  let t := if s.cal.role = .active then s.yield 5 else s
  { t with pwr := { t.pwr with wdogCount := (t.pwr.wdogCount + 1) % 65536, wdogCore := core, wdogTicks := s.recentExpiries ++ [s.clk.tick]
                               wdogDue := true } }

theorem exec_watchdogExpiry (core : Fin 4) {s : State} (hup : s.up = true) :
    exec (.watchdogExpiry core) s =
      .next (if 3 ≤ (s.recentExpiries ++ [s.clk.tick]).length then (s.wdogNoted core).warmBoot 4 else s.wdogNoted core) :=
  whenUp_of_up hup

theorem State.wdogNoted_count (s : State) (core : Nat) : (s.wdogNoted core).pwr.wdogCount = (s.pwr.wdogCount + 1) % 65536 := by
  unfold State.wdogNoted
  dsimp only
  split
  · rw [State.yield_pwr]
  · rfl

theorem State.wdogNoted_lastYield {s : State} (core : Nat) (hr : s.cal.role = .active) (hy : s.cal.yieldAt = none) :
    (s.wdogNoted core).cal.lastYield = 5 := by
  unfold State.wdogNoted
  rw [if_pos hr]
  exact (State.yield_of_active 5 hr hy).2

/-- Settles O17: the restart begins after its completion, ends with the rings' records to be written, and the third expiry of a
watchdog within a second is a warm reset. -/
theorem controlRestart : Obligations.ControlRestart := by
  unfold Obligations.ControlRestart
  refine ⟨fun s x hup hx => ?begins, fun s hup h hp => ?ends, fun s hup h => exec_controlRestartEnd_unusable hup h, fun core s hup h => ?early,
    fun core s hup h => ?third⟩
  case begins =>
    have hpwr := State.beginRestart_restarting
      (State.complete { s with restarts := s.restarts.filter (fun y => y.h ≠ x.h) } x.h 0 x.n 0) x.staged
    rw [State.complete_pwr] at hpwr
    obtain ⟨-, hrest⟩ := Prod.mk.inj hpwr
    obtain ⟨hrestart, hcount⟩ := Prod.mk.inj hrest
    have hsome := Option.isSome_of_eq_some hrestart
    exact ⟨_, exec_controlRestartStart hup hx, rfl, hsome, hcount, State.fw_of_restarting hsome⟩
  case ends =>
    have hpwr : s.endRestart.pwr = { s.pwr with restart := none } := State.flushHeld_pwr _
    refine ⟨_, exec_controlRestartEnd_usable hup h, by rw [hpwr], ?_⟩
    unfold State.fw State.up
    rw [hpwr]
    simp [hp]
  case early =>
    have hlen : ¬ 3 ≤ (s.recentExpiries ++ [s.clk.tick]).length := by
      rw [List.length_append]
      exact Nat.not_le.mpr (Nat.succ_lt_succ h)
    exact ⟨_, (exec_watchdogExpiry core hup).trans (congrArg _ (if_neg hlen)), s.wdogNoted_count core, rfl, rfl, State.wdogNoted_lastYield core⟩
  case third =>
    have hlen : 3 ≤ (s.recentExpiries ++ [s.clk.tick]).length := by
      rw [List.length_append]
      exact Nat.succ_le_succ h
    exact ⟨_, (exec_watchdogExpiry core hup).trans (congrArg _ (if_pos hlen)), s.wdogNoted_count core⟩

/-! ### Block resets (R634) -/

/-- A write of the owner that changes the power record only is acknowledged. -/
theorem ownerWrite_pwr {c : Instr} {s : State} {q : Nat} {p : Pwr} {f : State → State} (ho : s.accessor q = some 0)
    (hx : exec c s = .next (s.ownerWrite q f)) (hf : f s = { s with pwr := p }) :
    ∃ t, exec c s = .next t ∧ t.pwr = p ∧ t.mgp.resp = some .ack ∧ t = { s with pwr := t.pwr, mgp := t.mgp, cnt := t.cnt } := by
  refine ⟨_, hx.trans (congrArg _ (if_pos ho)), ?_, State.answer_resp _ _ _, ?_⟩
  · rw [State.answer_pwr, hf]
  · rw [State.answer_pwr, hf]
    exact State.answer_frame _ _ _

/-- The blocks of GLB_BLK_RST with the commands that name them. -/
theorem exec_blockReset (q : Fin 16) {s : State} (hf : s.fw = true) :
    ∀ c i, (c, i) ∈ [(Instr.mailboxBlockReset q, 0), (.mgmtPortBlockReset q 0, 1), (.mgmtPortBlockReset q 1, 2),
      (.dumpEngineReset q, 3), (.whiskBlockReset q, 4), (.calrinBlockReset q, 5)] →
    exec c s = .next (s.ownerWrite q (fun t => t.askBlock i)) := by
  intro c i hc
  simp only [List.mem_cons, Prod.mk.injEq, List.not_mem_nil, or_false] at hc
  obtain ⟨rfl, rfl⟩ | ⟨rfl, rfl⟩ | ⟨rfl, rfl⟩ | ⟨rfl, rfl⟩ | ⟨rfl, rfl⟩ | ⟨rfl, rfl⟩ := hc
  all_goals exact whenFw_of_fw hf

theorem exec_laneGroupReset (q : Fin 16) (g : Fin 32) {s : State} (hf : s.fw = true) :
    exec (.laneGroupReset q g) s = .next (s.ownerWrite q (fun t => t.askGroup g)) := whenFw_of_fw hf

/-- Settles O19: each command is the owner's write of its bit. -/
theorem blockResetsAsked : Obligations.BlockResetsAsked := by
  unfold Obligations.BlockResetsAsked
  intro q s hf
  refine ⟨fun ho => ⟨fun c i hc => ?_, fun g => ?_⟩, fun ho c hc => ?_⟩
  · exact ownerWrite_pwr ho (exec_blockReset q hf c i hc) rfl
  · exact ownerWrite_pwr ho (exec_laneGroupReset q g hf) rfl
  · have hnak : ∃ f, exec c s = .next (s.ownerWrite q f) := by
      rcases List.mem_append.mp hc with hc | hc
      · obtain ⟨i, hi⟩ : ∃ i, (c, i) ∈ [(Instr.mailboxBlockReset q, 0), (.mgmtPortBlockReset q 0, 1), (.mgmtPortBlockReset q 1, 2),
            (.dumpEngineReset q, 3), (.whiskBlockReset q, 4), (.calrinBlockReset q, 5)] := by
          simp only [List.mem_cons, List.not_mem_nil, or_false] at hc
          rcases hc with rfl | rfl | rfl | rfl | rfl | rfl <;> simp
        exact ⟨_, exec_blockReset q hf c i hi⟩
      · obtain ⟨g, -, rfl⟩ := List.mem_map.mp hc
        exact ⟨_, exec_laneGroupReset q g hf⟩
    obtain ⟨f, hx⟩ := hnak
    exact refuses_of_nak (hx.trans (congrArg _ (if_neg ho)))

/-! ### Board pins (R492, R659, R665, R666) -/

theorem exec_i2cAccess_other {a : BitVec 7} (wr : List Byte) (rd : Nat) {s : State} (h : a ≠ (if s.pwr.i2cA0 then 0x4D else 0x4C)) :
    exec (.i2cAccess a wr rd) s = .next { s with pwr := { s.pwr with i2cData := [] } } :=
  congrArg Host.Outcome.next (if_neg (by rw [decide_eq_false h]; exact Bool.false_ne_true))

theorem exec_i2cAccess {a : BitVec 7} (wr : List Byte) (rd : Nat) {s : State} (h : a = (if s.pwr.i2cA0 then 0x4D else 0x4C))
    (hv : s.pwr.railsOut.getLsbD 7 = false) :
    exec (.i2cAccess a wr rd) s = .next
      (let p := match wr with | b :: _ => b.toNat | [] => s.pwr.i2cPtr.toNat
       { s with pwr := { s.pwr with i2cPtr := BitVec.ofNat 8 (p + rd)
                                    i2cData := (List.range rd).map (fun i => s.i2cByte ((p + i) % 256)) } }) :=
  congrArg Host.Outcome.next (if_pos (by rw [hv]; simpa using h))

/-- Settles O20: each command is its effect on the pin state, and what the TAP offers is a finite table. -/
theorem pinsI2cTap : Obligations.PinsI2cTap := by
  unfold Obligations.PinsI2cTap
  refine ⟨fun c on r d h s => ⟨_, rfl, rfl, rfl, rfl, rfl, ?cause⟩, fun a wr rd s ha hv => ⟨_, exec_i2cAccess wr rd ha hv, rfl, rfl⟩,
    fun a wr rd s ha => exec_i2cAccess_other wr rd ha, fun i s => rfl, fun r i => ?scrapped, fun r => ⟨rfl, rfl, rfl⟩⟩
  case cause =>
    cases c <;> cases on <;> cases s.pwr.oscOk <;> simp [Pwr.causeByte]
  case scrapped => cases i <;> simp [tapOffers]

end Sys2Proof.Machine

/-! PROOFS. Frames of a management port, its link, and the switch to a new SA (R413 to R419, R441). -/
namespace Sys2Proof.Machine

/-! ### MACsec (R415, R416) -/

/-- The new SA takes over once it carries the transmit direction and has received 16 frames, or at once where it has no predecessor. -/
theorem Port.settle_of_next {x : Port} {n : Sa} (h : x.next = some n) : x.settle =
    if x.txNew = true ∧ (x.sa = none ∨ 16 ≤ x.rxNew) then { x with sa := some n, next := none, txNew := false, rxNew := 0 } else x := by
  unfold Port.settle
  rw [h]
  simp only [Option.isNone_iff_eq_none]

/-- A frame that passes on an SA raises its highest packet number; otherwise the counter it counts in. -/
def Sa.check (a : Sa) (t : SecTag) (y : Sa → Port) : Nat ⊕ Port :=
  if t.icvOk = false then .inl 4 else if t.pn + 64 ≤ a.rxHigh then .inl 5 else .inr (y { a with rxHigh := max a.rxHigh t.pn })

section
variable {x : Port} {t : SecTag}

theorem Port.secure_of_next {n : Sa} (hn : x.next = some n) (ht : n.an = t.an) :
    x.secure t = n.check t (fun a => ({ x with next := some a, rxNew := x.rxNew + 1 } : Port).settle) := by
  unfold Port.secure
  rw [hn]
  dsimp only
  rw [decide_eq_true ht]
  rfl

theorem Port.secure_of_sa {a : Sa} (hn : ∀ n, x.next = some n → n.an ≠ t.an) (ha : x.sa = some a) (ht : a.an = t.an) :
    x.secure t = a.check t (fun a => { x with sa := some a }) := by
  have hsa : x.sa.filter (fun a => a.an = t.an) = some a := by
    rw [ha]
    exact if_pos (decide_eq_true ht)
  unfold Port.secure
  cases h : x.next with
  | none =>
    dsimp only
    rw [hsa]
    rfl
  | some n =>
    dsimp only
    rw [decide_eq_false (hn n h), hsa]
    simp [Sa.check]

theorem Port.secure_of_none (hn : ∀ n, x.next = some n → n.an ≠ t.an) (ha : ∀ a, x.sa = some a → a.an ≠ t.an) :
    x.secure t = .inl 6 := by
  have hsa : x.sa.filter (fun a => a.an = t.an) = none := by
    cases h : x.sa with
    | none => rfl
    | some a => simp [ha a h]
  unfold Port.secure
  cases h : x.next with
  | none => simp [hsa]
  | some n => simp [hsa, hn n h]
end

theorem Sa.check_of_badIcv {a : Sa} {t : SecTag} {y : Sa → Port} (h : t.icvOk = false) : a.check t y = .inl 4 := if_pos h

theorem Sa.check_of_replay {a : Sa} {t : SecTag} {y : Sa → Port} (h : t.icvOk = true) (hp : t.pn + 64 ≤ a.rxHigh) : a.check t y = .inl 5 :=
  (if_neg (by simp [h])).trans (if_pos hp)

theorem Sa.check_of_good {a : Sa} {t : SecTag} {y : Sa → Port} (h : t.icvOk = true) (hp : a.rxHigh < t.pn + 64) :
    a.check t y = .inr (y { a with rxHigh := max a.rxHigh t.pn }) := (if_neg (by simp [h])).trans (if_neg (Nat.not_le.mpr hp))

/-! ### A frame received (R413, R414, R417) -/

/-- What a port does with a frame that is whole and its own. -/
def State.frameRead (s : State) (p : Nat) (f : EthFrame) : State :=
  if (s.port p).mode = 1 then if f.sec.isSome then s.count 6 p 6 1 else (s.count 6 p 0 1).rocv p f.op
  else match f.sec with
    | none => s.count 6 p 3 1
    | some t => match (s.port p).secure t with
      | .inl c => s.count 6 p c 1
      | .inr y => ((s.setPort p y).count 6 p 0 1).rocv p f.op

/-- A frame that a port counts as of no use to it. -/
def Port.refuses (x : Port) (f : EthFrame) : Prop := f.len < 64 ∨ 4256 < f.len ∨ f.vlan = true ∨ f.pause = true ∨ f.dst ≠ x.mac

section
variable {p : Fin 2} {f : EthFrame} {s : State}

theorem exec_mgmtFrame_down (hf : s.fw = true) (h : (s.port p).link = false ∨ (s.port p).mode = 0) :
    exec (.mgmtFrameReceived p f) s = .next s := (whenFw_of_fw hf).trans (congrArg _ (if_pos h))

theorem exec_mgmtFrame_badFcs (hf : s.fw = true) (h : ¬((s.port p).link = false ∨ (s.port p).mode = 0)) (hfcs : f.fcsOk = false) :
    exec (.mgmtFrameReceived p f) s = .next (s.count 6 p 2 1) :=
  (whenFw_of_fw hf).trans (congrArg _ ((if_neg h).trans (if_pos hfcs)))

theorem exec_mgmtFrame_refused (hf : s.fw = true) (h : ¬((s.port p).link = false ∨ (s.port p).mode = 0)) (hfcs : f.fcsOk = true)
    (hbad : (s.port p).refuses f) : exec (.mgmtFrameReceived p f) s = .next (s.count 6 p 6 1) :=
  (whenFw_of_fw hf).trans (congrArg _ ((if_neg h).trans ((if_neg (by simp [hfcs])).trans (if_pos hbad))))

theorem exec_mgmtFrame_read (hf : s.fw = true) (h : ¬((s.port p).link = false ∨ (s.port p).mode = 0)) (hfcs : f.fcsOk = true)
    (hgood : ¬(s.port p).refuses f) : exec (.mgmtFrameReceived p f) s = .next (s.frameRead p f) :=
  (whenFw_of_fw hf).trans (congrArg _ ((if_neg h).trans ((if_neg (by simp [hfcs])).trans (if_neg hgood))))
end

section
variable {s : State} {p : Nat} {f : EthFrame}

theorem State.frameRead_open (hm : (s.port p).mode = 1) (h : f.sec = none) : s.frameRead p f = (s.count 6 p 0 1).rocv p f.op :=
  (if_pos hm).trans (if_neg (by simp [h]))

theorem State.frameRead_openTagged (hm : (s.port p).mode = 1) (h : f.sec ≠ none) : s.frameRead p f = s.count 6 p 6 1 :=
  (if_pos hm).trans (if_pos (Option.isSome_iff_ne_none.mpr h))

theorem State.frameRead_untagged (hm : (s.port p).mode ≠ 1) (h : f.sec = none) : s.frameRead p f = s.count 6 p 3 1 := by
  unfold State.frameRead
  rw [if_neg hm, h]

theorem State.frameRead_lost {t : SecTag} {c : Nat} (hm : (s.port p).mode ≠ 1) (h : f.sec = some t) (hx : (s.port p).secure t = .inl c) :
    s.frameRead p f = s.count 6 p c 1 := by
  unfold State.frameRead
  rw [if_neg hm, h]
  simp only [hx]

theorem State.frameRead_passed {t : SecTag} {y : Port} (hm : (s.port p).mode ≠ 1) (h : f.sec = some t)
    (hx : (s.port p).secure t = .inr y) : s.frameRead p f = ((s.setPort p y).count 6 p 0 1).rocv p f.op := by
  unfold State.frameRead
  rw [if_neg hm, h]
  simp only [hx]
end

/-! ### The operation of a frame (R419) -/

section
variable {s : State} {p : Nat} {q : Fin 16}

theorem State.rocv_foreign (k : Word) (a n : Nat) (d : List Byte) (h : (s.qp q).port ≠ p ∨ s.reaches q = false) :
    ∀ o ∈ [Roce.write q k a d, Roce.read q k a n, Roce.ack q], s.rocv p o = s.count 6 p 6 1 := by
  have hmine : ¬((decide ((s.qp q).port = p) && s.reaches q) = true) := by
    rcases h with h | h <;> simp [h]
  intro o ho
  simp only [List.mem_cons, List.not_mem_nil, or_false] at ho
  rcases ho with rfl | rfl | rfl
  all_goals exact if_neg hmine

theorem State.rocv_own (k : Word) (a n : Nat) (d : List Byte) (hp : (s.qp q).port = p) (hr : s.reaches q = true) :
    s.rocv p (.write q k a d) = s.hostWrite q k a d ∧ s.rocv p (.read q k a n) = s.hostRead q k a n ∧
    s.rocv p (.ack q) = s.writeAcked q := by
  have hmine : (decide ((s.qp q).port = p) && s.reaches q) = true := by simp [hp, hr]
  exact ⟨if_pos hmine, if_pos hmine, if_pos hmine⟩
end

/-! ### Operations in flight move (R441) -/

theorem State.moveOps_still {s : State} {q : Nat} (h : s.qpWorks q = true ∨ s.workQp (s.qp q).ring = none) : s.moveOps q = s := by
  unfold State.moveOps
  dsimp only
  split
  · next w hw =>
    refine if_pos (.inr (h.resolve_right ?_))
    simp [hw]
  · rfl

theorem State.moveOps_moved {s : State} {q w : Nat} (hw : s.workQp (s.qp q).ring = some w) (hne : w ≠ q) (hq : s.qpWorks q = false) :
    s.moveOps q = (s.setQp q { s.qp q with ops := [] }).setQp w
      { s.qp w with ops := (s.qp w).ops ++ (s.qp q).ops, timer := if (s.qp w).ops.isEmpty then s.clk.tick else (s.qp w).timer } := by
  unfold State.moveOps
  simp only [hw]
  rw [if_neg (by simp [hne, hq]), State.setQp_of_ne _ _ hne]
  rfl

/-! ### SA_TX_SWITCH (R416) -/

theorem exec_saTxSwitch_reached {p : Fin 2} {s : State} {n : Sa} {t : Nat} (hn : (s.port p).next = some n)
    (ht : (s.port p).switchTn = some t) (hup : s.up = true) (hd : s.clk.tnValid = false ∨ t ≤ s.clk.tn) :
    exec (.saTxSwitch p) s = .next (s.setPort p ({ s.port p with txNew := true, switchTn := none } : Port).settle) := by
  show execSaTxSwitch p s = _
  unfold execSaTxSwitch
  simp only [hn, ht]
  rw [if_pos ⟨hup, hd⟩]

theorem exec_saTxSwitch_early {p : Fin 2} {s : State} (h : (s.port p).next = none ∨ (s.port p).switchTn = none ∨
    (∃ t, (s.port p).switchTn = some t ∧ s.clk.tnValid = true ∧ s.clk.tn < t)) : exec (.saTxSwitch p) s = .next s := by
  show execSaTxSwitch p s = _
  unfold execSaTxSwitch
  dsimp only
  split
  · next n t hn ht =>
    rw [hn, ht] at h
    obtain ⟨t', ht', hv, hd⟩ := (h.resolve_left (by simp)).resolve_left (by simp)
    obtain rfl : t' = t := (Option.some.inj ht').symm
    rw [if_neg (by simp [hv, Nat.not_le.mpr hd])]
  · rfl

/-- Settles O51: a frame through the checks of its port and its SA to its operation, the operations through the working queue
pair of their ring set, and the new SA through its taking over. -/
theorem ports : Obligations.Ports := by
  unfold Obligations.Ports
  refine ⟨fun p f s hf => ⟨exec_mgmtFrame_down hf, fun hl hm => ?frame⟩, fun s p q k a n d => ⟨State.rocv_foreign k a n d,
    State.rocv_own k a n d⟩, fun p b s hup => whenUp_of_up hup, fun s q w hw hne hq => ?moved, fun s q => State.moveOps_still,
    fun p s => ⟨fun n t hn ht hup hd => ?switched, exec_saTxSwitch_early⟩⟩
  case frame =>
    have hup : ¬((s.port p).link = false ∨ (s.port p).mode = 0) := by simp [hl, hm]
    refine ⟨exec_mgmtFrame_badFcs hf hup, exec_mgmtFrame_refused hf hup, fun hfcs hgood => ?_⟩
    rw [exec_mgmtFrame_read hf hup hfcs hgood]
    refine ⟨fun hm h => congrArg _ (State.frameRead_open hm h), fun hm h => congrArg _ (State.frameRead_openTagged hm h),
      fun hm h => congrArg _ (State.frameRead_untagged hm h), fun t hm ht => ⟨fun n hn han => ?_, fun a hn ha han => ?_, fun hn ha =>
        congrArg _ (State.frameRead_lost hm ht (Port.secure_of_none hn ha))⟩⟩
    · have hx := Port.secure_of_next hn han
      refine ⟨fun h => congrArg _ (State.frameRead_lost hm ht (hx.trans (Sa.check_of_badIcv h))),
        fun h hp => congrArg _ (State.frameRead_lost hm ht (hx.trans (Sa.check_of_replay h hp))), fun h hp => ?_⟩
      refine congrArg _ ((State.frameRead_passed hm ht (hx.trans (Sa.check_of_good h hp))).trans ?_)
      rw [Port.settle_of_next rfl]
    · have hx := Port.secure_of_sa hn ha han
      exact ⟨fun h => congrArg _ (State.frameRead_lost hm ht (hx.trans (Sa.check_of_badIcv h))),
        fun h hp => congrArg _ (State.frameRead_lost hm ht (hx.trans (Sa.check_of_replay h hp))),
        fun h hp => congrArg _ (State.frameRead_passed hm ht (hx.trans (Sa.check_of_good h hp)))⟩
  case moved =>
    rw [State.moveOps_moved hw hne hq]
    refine ⟨State.setQp_self _ _ _, ?_, fun j hq hw => ?_⟩
    · rw [State.setQp_of_ne _ _ hne.symm, State.setQp_self]
    · rw [State.setQp_of_ne _ _ hw, State.setQp_of_ne _ _ hq]
  case switched =>
    have hset := Port.settle_of_next (x := { s.port p with txNew := true, switchTn := none }) hn
    simp only [true_and] at hset
    rw [exec_saTxSwitch_reached hn ht hup hd, hset]

end Sys2Proof.Machine

/-! PROOFS. Presets, dump areas, images and ephemeral keys when their time has come (R475, R524, R577, R580, R583, R585, R586). -/
namespace Sys2Proof.Machine

/-! ### The scheduled work of cycle 1 -/

section
variable {s : State}

theorem exec_counterPresetApply_idle (hup : s.up = true) (h : s.presetsDue = []) : exec .counterPresetApply s = .next s :=
  (whenUp_of_up hup).trans (congrArg _ (if_pos (by rw [h]; rfl)))

theorem exec_counterPresetApply (hup : s.up = true) (h : s.presetsDue ≠ []) :
    exec .counterPresetApply s = .next s.cycle0.secondNow.presetsNow :=
  (whenUp_of_up hup).trans (congrArg _ (if_neg (by simpa using h)))

theorem exec_dumpConfigApply_idle (hup : s.up = true) (h : s.dumpsDue = []) : exec .dumpConfigApply s = .next s :=
  (whenUp_of_up hup).trans (congrArg _ (if_pos (by rw [h]; rfl)))

theorem exec_dumpConfigApply (hup : s.up = true) (h : s.dumpsDue ≠ []) : exec .dumpConfigApply s = .next s.cycle1 :=
  (whenUp_of_up hup).trans (congrArg _ (if_neg (by simpa using h)))

theorem exec_ephemeralKeyReady_idle (hup : s.up = true) (h : s.rnd.ephBusyUntil = none) : exec .ephemeralKeyReady s = .next s :=
  (whenUp_of_up hup).trans (congrArg _ (if_pos (by rw [h]; rfl)))

theorem exec_ephemeralKeyReady (hup : s.up = true) (h : s.rnd.ephBusyUntil ≠ none) : exec .ephemeralKeyReady s =
    .next (({ s with rnd := { s.rnd with ephBusyUntil := none } } : State).serveQuotes s.rnd.quotes.length) :=
  (whenUp_of_up hup).trans (congrArg _ (if_neg (by simpa using h)))
end

/-! ### One preset (R577) -/

/-- The step of a preset for counter `j`. -/
def State.presetStep (p : Preset) (s : State) (j : Nat) : State :=
  if maskBit p.mask j ∧ s.counts p.scope p.obj then s.presetCounter p.scope p.obj j p.value else s

/-- The first `n` counters of a preset. -/
def State.presetMany (u : State) (p : Preset) (n : Nat) : State := (List.range n).foldl (State.presetStep p) u

theorem State.presetMany_succ (u : State) (p : Preset) (n : Nat) :
    u.presetMany p (n + 1) = (u.presetMany p n).presetStep p n := by
  unfold State.presetMany
  rw [List.range_succ, List.foldl_append]
  rfl

theorem State.applyPreset_eq (u : State) (p : Preset) : u.applyPreset p = (u.presetMany p (scopeNc p.scope)).complete p.h 0 p.n 0 := rfl

/-- A preset changes counts of the tick and of its start only. -/
theorem State.presetMany_frame (u : State) (p : Preset) (n : Nat) : u.presetMany p n =
    { u with cnt := { u.cnt with start := (u.presetMany p n).cnt.start, live := (u.presetMany p n).cnt.live } } := by
  induction n with
  | zero => rfl
  | succ n ih =>
    rw [State.presetMany_succ]
    generalize u.presetMany p n = t at ih
    rw [ih]
    unfold State.presetStep
    split <;> rfl

theorem State.presetMany_counts (u : State) (p : Preset) (n : Nat) (scope obj : Nat) :
    (u.presetMany p n).counts scope obj = u.counts scope obj := by rw [State.presetMany_frame]; rfl

theorem State.presetMany_look_of_ne {u : State} {p : Preset} {n k : Nat} (hk : ∀ j < n, maskBit p.mask j → k ≠ cKey p.scope p.obj j) :
    (u.presetMany p n).cnt.live.look {} k = u.cnt.live.look {} k ∧ (u.presetMany p n).cnt.start.look {} k = u.cnt.start.look {} k := by
  induction n with
  | zero => exact ⟨rfl, rfl⟩
  | succ n ih =>
    obtain ⟨hlive, hstart⟩ := ih (fun j hj => hk j (Nat.lt_succ_of_lt hj))
    rw [State.presetMany_succ]
    unfold State.presetStep
    split
    · next h =>
      have hne := hk n (Nat.lt_succ_self n) h.1
      exact ⟨(Tab.look_put_of_ne _ _ _ _ hne).trans hlive, (Tab.look_put_of_ne _ _ _ _ hne).trans hstart⟩
    · exact ⟨hlive, hstart⟩

theorem cKey_ne {scope obj i j : Nat} (h : i ≠ j) : cKey scope obj i ≠ cKey scope obj j := fun he => h (Nat.add_left_cancel he)

/-- A counter that the preset names takes the value, and counts on by what the tick has added. -/
theorem State.presetMany_look {u : State} {p : Preset} {n j : Nat} (hj : j < n) (hm : maskBit p.mask j) (hc : u.counts p.scope p.obj = true) :
    (u.presetMany p n).cnt.live.look {} (cKey p.scope p.obj j) = ({ v := p.value } : Counter).add (scopeWidth p.scope)
      (((u.cnt.live.look {} (cKey p.scope p.obj j)).v + 2 ^ scopeWidth p.scope - (u.cnt.start.look {} (cKey p.scope p.obj j)).v) %
        2 ^ scopeWidth p.scope) := by
  induction n with
  | zero => exact absurd hj (Nat.not_lt_zero j)
  | succ n ih =>
    rw [State.presetMany_succ]
    unfold State.presetStep
    rcases Nat.lt_succ_iff_lt_or_eq.mp hj with hlt | rfl
    · split
      · exact (Tab.look_put_of_ne _ _ _ _ (cKey_ne hlt.ne)).trans (ih hlt)
      · exact ih hlt
    · rw [if_pos ⟨hm, (State.presetMany_counts _ _ _ _ _).trans hc⟩]
      obtain ⟨hlive, hstart⟩ := State.presetMany_look_of_ne (u := u) (p := p) (n := j) (k := cKey p.scope p.obj j)
        (fun i hi _ => cKey_ne hi.ne')
      refine (Tab.look_put_self _ _ _ _).trans ?_
      rw [hlive, hstart]

/-! ### A dump area (R524, R580, R582) -/

section
variable {w : State} {c : DumpCfg}

theorem State.applyDumpCfg_of_unbound (h : w.ringOf c.prin = none) : w.applyDumpCfg c = w.complete c.h eRange w.tnNow 0 := by
  unfold State.applyDumpCfg
  rw [h]

theorem State.applyDumpCfg_of_small {r : Nat} (h : w.ringOf c.prin = some r) (hc : c.len ≠ 0 ∧ c.len < w.dumpSize c.prin c.scopes) :
    w.applyDumpCfg c = w.complete c.h eRange w.tnNow (w.dumpSize c.prin c.scopes) := by
  unfold State.applyDumpCfg
  rw [h]
  exact if_pos hc

theorem State.applyDumpCfg_of_fitting {r : Nat} (h : w.ringOf c.prin = some r) (hc : ¬(c.len ≠ 0 ∧ c.len < w.dumpSize c.prin c.scopes)) :
    w.applyDumpCfg c = ((w.abandonDumps r).setDumpCfg r c).complete c.h 0 ((w.abandonDumps r).setDumpCfg r c).tnNow
      (if c.len = 0 then 0 else (((w.abandonDumps r).setDumpCfg r c).dump r).slots * 2 ^ 32 + w.dumpSize c.prin c.scopes) := by
  unfold State.applyDumpCfg
  rw [h]
  exact if_neg hc
end

theorem State.setDumpCfg_ended (s : State) (r : Nat) {c : DumpCfg} (h : c.len = 0) : (s.setDumpCfg r c).dump r = {} := by
  unfold State.setDumpCfg
  rw [if_pos h]
  exact State.setDump_self _ _ _

theorem State.setDumpCfg_set (s : State) (r : Nat) {c : DumpCfg} (h : c.len ≠ 0) : ((s.setDumpCfg r c).dump r).en = true ∧
    ((s.setDumpCfg r c).dump r).scopes = c.scopes ∧ ((s.setDumpCfg r c).dump r).addr = c.addr := by
  unfold State.setDumpCfg
  rw [if_neg h, State.setDump_self]
  exact ⟨rfl, rfl, rfl⟩

/-! ### The start of an image (R583, R585, R586) -/

section
variable {s : State} {q : Fin 65}

theorem exec_dumpImageStart_early (hf : s.fw = true) (h : s.clk.tnValid = false ∨ s.cnt.latchTn = 0 ∨ s.clk.tn ≤ s.cnt.latchTn) :
    exec (.dumpImageStart q) s = .next s := (whenFw_of_fw hf).trans (congrArg _ (if_pos h))

theorem exec_dumpImageStart_worker (hf : s.fw = true) (h : ¬(s.clk.tnValid = false ∨ s.cnt.latchTn = 0 ∨ s.clk.tn ≤ s.cnt.latchTn))
    (hv : s.viaManager = true) (hd : s.clk.tn = s.cnt.latchTn + 1 ∧ (q.val = 0 ∨ (s.part q.val).set = true)) :
    exec (.dumpImageStart q) s =
      .next ((imgPieces q.val s.cnt.latchTn (s.imgBytes q.val 255)).foldl (fun (s : State) b => s.send none 0x23 s.mgrId b) s) :=
  (whenFw_of_fw hf).trans (congrArg _ ((if_neg h).trans ((if_pos hv).trans (if_pos hd))))

theorem exec_dumpImageStart {r : Nat} (hf : s.fw = true) (h : ¬(s.clk.tnValid = false ∨ s.cnt.latchTn = 0 ∨ s.clk.tn ≤ s.cnt.latchTn))
    (hv : s.viaManager = false) (hr : s.ringOf q.val = some r)
    (hd : s.dumpDue q.val = true ∧ (List.range q.val).all (fun q => !s.dumpDue q) = true) :
    exec (.dumpImageStart q) s = .next (s.startImage q.val r) := by
  refine (whenFw_of_fw hf).trans (congrArg _ ((if_neg h).trans ((if_neg (by simp [hv])).trans ?_)))
  rw [hr]
  exact if_pos hd
end

/-- The state in which the image of the present latch counts as started. -/
def State.markStarted (s : State) (r : Nat) : State := s.setDump r { s.dump r with started := s.cnt.latchTn }

section
variable {s : State} {p r : Nat}

theorem State.startImage_copied (h : (s.markStarted r).copies = true) : s.startImage p r =
    (imgPieces p s.cnt.latchTn ((s.markStarted r).imgBytes p (s.dump r).scopes)).foldl
      (fun (s : State) b => s.send (some .calrin) mateDumpType 0 b) (s.markStarted r) := if_pos h

theorem State.startImage_written (h : (s.markStarted r).copies = false)
    (hw : (s.markStarted r).writesHost = true ∧ ((s.markStarted r).workQp r).isSome = true ∧ (s.dump r).slots ≠ 0) :
    s.startImage p r = (s.markStarted r).writeImage r 0 s.cnt.latchTn 0 0 ((s.markStarted r).sections p (s.dump r).scopes) :=
  (if_neg (Bool.eq_false_iff.mp h)).trans (if_pos hw)

theorem State.startImage_skipped (h : (s.markStarted r).copies = false)
    (hw : ¬((s.markStarted r).writesHost = true ∧ ((s.markStarted r).workQp r).isSome = true ∧ (s.dump r).slots ≠ 0)) :
    s.startImage p r = (s.markStarted r).setDump r { ((s.markStarted r).dump r).skip 0 with started := s.cnt.latchTn } :=
  (if_neg (Bool.eq_false_iff.mp h)).trans (if_neg hw)
end

/-- Settles O58: the work of cycle 1 as far as the command, a preset counter by counter, a dump area by its three outcomes, and
an image by where it goes. -/
theorem scheduledCounters : Obligations.ScheduledCounters := by
  unfold Obligations.ScheduledCounters
  refine ⟨fun s hup => ⟨exec_counterPresetApply_idle hup, exec_counterPresetApply hup, exec_dumpConfigApply_idle hup,
    exec_dumpConfigApply hup, exec_ephemeralKeyReady_idle hup, exec_ephemeralKeyReady hup⟩, fun u p _ => ?preset, fun w c => ?area,
    fun q s _ hf => ⟨exec_dumpImageStart_early hf, fun hv hl hn => ?image⟩⟩
  case preset =>
    exact ⟨_, u.applyPreset_eq p, u.presetMany_frame p _, fun j hj hm hc => State.presetMany_look hj hm hc,
      fun k hk => (State.presetMany_look_of_ne hk).1⟩
  case area =>
    refine ⟨State.applyDumpCfg_of_unbound, fun r hr => ⟨fun h0 hc => State.applyDumpCfg_of_small hr ⟨h0, hc⟩, fun hc => ?_⟩⟩
    have hfit : ¬(c.len ≠ 0 ∧ c.len < w.dumpSize c.prin c.scopes) := by
      rintro ⟨h0, hlt⟩
      exact hc.elim h0 (Nat.not_le.mpr hlt)
    exact ⟨_, rfl, State.applyDumpCfg_of_fitting hr hfit, State.setDumpCfg_ended _ r, State.setDumpCfg_set _ r⟩
  case image =>
    have hready : ¬(s.clk.tnValid = false ∨ s.cnt.latchTn = 0 ∨ s.clk.tn ≤ s.cnt.latchTn) := by
      simp [hv, hl, Nat.not_le.mpr hn]
    refine ⟨fun hm ht hp => exec_dumpImageStart_worker hf hready hm ⟨ht, hp⟩, fun hm r hr hd hall => ?_⟩
    rw [exec_dumpImageStart hf hready hm hr ⟨hd, hall⟩]
    exact ⟨fun h => congrArg _ (State.startImage_copied h),
      fun h hw hq hs => congrArg _ (State.startImage_written h ⟨hw, hq, hs⟩), fun h hw => congrArg _ (State.startImage_skipped h hw)⟩

end Sys2Proof.Machine

/-! PROOFS. The Rack, the Pantry and Whisk (R540 to R551). -/
namespace Sys2Proof.Machine

/-! ### A word of a memory (R542, R548) -/

/-- What an unlisted word reads as does not depend on the tables. -/
theorem Mem.dflt_setTabOf (m : Mem) (k i : Nat) (t : Tab (BitVec 128)) : (m.setTabOf k t).dflt i = m.dflt i := by
  unfold Mem.setTabOf
  repeat' split
  all_goals rfl

theorem Mem.tabOf_setTabOf (m : Mem) (k : Nat) (t : Tab (BitVec 128)) : (m.setTabOf k t).tabOf k = t := by
  unfold Mem.setTabOf Mem.tabOf
  split
  · rfl
  · split
    · rfl
    · split <;> rfl

/-- A written word reads back, and every other word of the memory reads as before. -/
theorem State.memRead_memWrite (s : State) (k a : Nat) (v : BitVec 128) :
    (s.memWrite k a v).memRead k a = v ∧ ∀ b, b ≠ a → (s.memWrite k a v).memRead k b = s.memRead k b := by
  unfold State.memWrite
  split
  · next hheld =>
    have hw : ∀ t b, (s.setWhisk (k - 1) { s.whisk (k - 1) with save := t }).memRead k b =
        if s.heldAt k b then t.look (s.memDflt k b) b else (s.mem.tabOf k).look (s.memDflt k b) b := by
      intro t b
      unfold State.memRead State.heldAt
      rw [State.setWhisk_self]
      rfl
    refine ⟨?_, fun b hb => ?_⟩
    · exact (hw _ a).trans ((if_pos hheld).trans (Tab.look_put_self _ _ _ _))
    · refine (hw _ b).trans ?_
      rw [Tab.look_put_of_ne _ _ _ _ hb]
      rfl
  · next hfree =>
    have hm : ∀ t b, (State.memRead { s with mem := s.mem.setTabOf k t } k b) =
        if s.heldAt k b then (s.whisk (k - 1)).save.look (s.memDflt k b) b else t.look (s.memDflt k b) b := by
      intro t b
      unfold State.memRead State.memDflt
      rw [Mem.tabOf_setTabOf, Mem.dflt_setTabOf]
      rfl
    refine ⟨?_, fun b hb => ?_⟩
    · rw [hm, if_neg hfree]
      exact Tab.look_put_self _ _ _ _
    · rw [hm, Tab.look_put_of_ne _ _ _ _ hb]
      rfl

/-- The answer of an access changes no word. -/
theorem State.memRead_rackOk (s : State) (d : List Byte) (k a : Nat) : (s.rackOk d).memRead k a = s.memRead k a := rfl

/-! ### Rack errors (R540) -/

theorem State.rackError_mem (s : State) (m t : Nat) (w : Bool) : (s.rackError m t w).mem = { s.mem with lastErr := true, lastOut := [] } := by
  unfold State.rackError
  dsimp only
  split
  all_goals simp

theorem State.rackError_rck_recorded {s : State} (m t : Nat) (w : Bool) (h : bit (s.stick Reg.rckErr) 31 = true) :
    (s.rackError m t w).rck = s.rck := by
  have hstick : bit (State.stick { s.count 7 0 7 1 with mem := { (s.count 7 0 7 1).mem with lastErr := true, lastOut := [] } } Reg.rckErr) 31
      = true := by
    rw [← h]
    unfold State.stick
    rw [State.count_sticky]
  unfold State.rackError
  dsimp only
  rw [if_pos hstick]
  exact State.count_rck ..

theorem State.rackError_rck {s : State} (m t : Nat) (w : Bool) (h : bit (s.stick Reg.rckErr) 31 = false) :
    (s.rackError m t w).rck = { s.rck with errMaster := m, errTarget := t, errWrite := w } := by
  have hstick : ¬bit (State.stick { s.count 7 0 7 1 with mem := { (s.count 7 0 7 1).mem with lastErr := true, lastOut := [] } } Reg.rckErr) 31
      = true := by
    rw [Bool.not_eq_true, ← h]
    unfold State.stick
    rw [State.count_sticky]
  unfold State.rackError
  dsimp only
  rw [if_neg hstick, State.setSticky_rck]
  simp only [State.count_rck]

/-! ### An access of a Rack master (R540 to R544) -/

/-- Stalls and Whisk's stalls of an access of the Pantry are counted (R543). -/
def State.rackCounted (s : State) (q : RackReq) : State :=
  if q.target = 1 then (s.count 7 0 5 q.stall).count 7 0 6 q.whisk else s

/-- How the access reaches its target. -/
def State.rackReach (u : State) (q : RackReq) : Reach :=
  rackPath u.pwr.codeLocked (Config.isCode (q.addr / 16)) q.master q.target q.addr

/-- The access has no path, or lies beyond its target. -/
def State.rackBars (u : State) (q : RackReq) : Prop :=
  u.rackReach q = .none ∨ (q.write = true ∧ u.rackReach q = .read) ∨ rackSize q.target ≤ q.addr ∨ 6 < q.target

/-- An access that reaches its target. -/
def State.rackServe (u : State) (q : RackReq) : State :=
  if q.target = 0 then u.regAccess q
  else if q.target = 6 then
    if Reg.mbxBase 0 ≤ q.addr ∧ q.addr < Reg.mbxBase 64 then u.regAccess q else u.rackError q.master q.target q.write
  else if q.target = 4 then u.rackOk (u.tableBytes q.addr (min q.data.length 16))
  else if q.target = 5 then u.diagAccess q
  else u.memAccess q

section
variable {s : State} {q : RackReq}

theorem exec_rackAccess_restarting (hup : s.up = true) (hm : q.master ≤ 4) (hf : s.fw = false) : exec (.rackAccess q) s = .next s :=
  (whenUp_of_up hup).trans (congrArg _ (if_pos ⟨hm, hf⟩))

theorem exec_rackAccess_barred (hup : s.up = true) (h : ¬(q.master ≤ 4 ∧ s.fw = false)) (hb : (s.rackCounted q).rackBars q) :
    exec (.rackAccess q) s = .next ((s.rackCounted q).rackError q.master q.target q.write) := by
  refine (whenUp_of_up hup).trans (congrArg _ ((if_neg h).trans ?_))
  show (match (s.rackCounted q).rackReach q with | .none => _ | p => _) = _
  split
  · rfl
  · next p hp => exact if_pos (hb.resolve_left hp)

theorem exec_rackAccess_served (hup : s.up = true) (h : ¬(q.master ≤ 4 ∧ s.fw = false)) (hb : ¬(s.rackCounted q).rackBars q) :
    exec (.rackAccess q) s = .next ((s.rackCounted q).rackServe q) := by
  obtain ⟨hnone, hrest⟩ := not_or.mp hb
  refine (whenUp_of_up hup).trans (congrArg _ ((if_neg h).trans ?_))
  show (match (s.rackCounted q).rackReach q with | .none => _ | p => _) = _
  split
  · next hp => exact absurd hp hnone
  · exact if_neg hrest
end

section
variable {u : State} {q : RackReq}

theorem State.rackServe_mailboxes (h : q.target = 6) : u.rackServe q =
    if Reg.mbxBase 0 ≤ q.addr ∧ q.addr < Reg.mbxBase 64 then u.regAccess q else u.rackError q.master 6 q.write := by
  unfold State.rackServe
  simp [h]

theorem State.rackServe_tables (h : q.target = 4) : u.rackServe q = u.rackOk (u.tableBytes q.addr (min q.data.length 16)) := by
  unfold State.rackServe
  rw [if_neg (by omega), if_neg (by omega), if_pos h]

theorem State.rackServe_diag (h : q.target = 5) : u.rackServe q = u.diagAccess q := by
  unfold State.rackServe
  rw [if_neg (by omega), if_neg (by omega), if_neg (by omega), if_pos h]

theorem State.rackServe_memory (h1 : 1 ≤ q.target) (h3 : q.target ≤ 3) : u.rackServe q = u.memAccess q := by
  unfold State.rackServe
  rw [if_neg (by omega), if_neg (by omega), if_neg (by omega), if_neg (by omega)]

theorem State.memAccess_read (hm : q.master ≠ 8) (hw : q.write = false) : u.memAccess q =
    u.rackOk (((leBytes 16 (u.memRead q.target (q.addr / 16)).toNat).drop (q.addr % 16)).take (min q.data.length (16 - q.addr % 16))) := by
  unfold State.memAccess
  simp [hm, hw]

theorem State.memAccess_foreign (hm : q.master ≠ 8) (hw : q.write = true) (ht : q.target = 1)
    (ho : u.mem.owner.look 0 (q.addr / 65536) ≠ q.master) : u.memAccess q = u.rackError q.master 1 true := by
  unfold State.memAccess
  simp [hm, hw, ht, ho]

theorem State.memAccess_write (hm : q.master ≠ 8) (hw : q.write = true)
    (ho : ¬(q.target = 1 ∧ u.mem.owner.look 0 (q.addr / 65536) ≠ q.master)) : u.memAccess q =
    (u.memWrite q.target (q.addr / 16) (overlay (u.memRead q.target (q.addr / 16)) (q.addr % 16)
      (q.data.take (min q.data.length (16 - q.addr % 16))))).rackOk [] := by
  unfold State.memAccess
  dsimp only
  rw [if_pos hw, if_neg hm, if_neg hm, if_neg ho]
end

/-! ### Banks and atomics (R544, R545) -/

section
variable {s : State}

theorem exec_pantryOwnerWrite {m n : Nat} {b : Fin 64} (hup : s.up = true) (h : (m = 0 ∨ s.mem.owner.look 0 b.val = m) ∧ n ≤ 8) :
    exec (.pantryOwnerWrite m b n) s =
      .next (State.rackOk { s with mem := { s.mem with owner := Tab.put 0 s.mem.owner b.val n } } []) :=
  (whenUp_of_up hup).trans (congrArg _ (if_pos h))

theorem exec_pantryOwnerWrite_refused {m n : Nat} {b : Fin 64} (hup : s.up = true)
    (h : ¬((m = 0 ∨ s.mem.owner.look 0 b.val = m) ∧ n ≤ 8)) : exec (.pantryOwnerWrite m b n) s = .next (s.rackError m 1 true) :=
  (whenUp_of_up hup).trans (congrArg _ (if_neg h))

variable {m off st wh : Nat} {b : Fin 64} {swap : Bool} {v : Word64}

theorem exec_pantryAtomic_refused (hup : s.up = true) (h : 8 < m ∨ off % 8 ≠ 0 ∨ 65536 ≤ off) :
    exec (.pantryAtomic m b off swap v st wh) s = .next (((s.count 7 0 5 st).count 7 0 6 wh).rackError m 1 true) :=
  (whenUp_of_up hup).trans (congrArg _ (if_pos h))

/-- The word that an atomic finds, and the one it leaves. -/
def State.atomicOld (u : State) (b off : Nat) : Word64 :=
  BitVec.ofNat 64 (leAt (leBytes 16 (u.memRead 1 (b * 4096 + off / 16)).toNat) (off % 16) 8)
def State.atomicNew (u : State) (b off : Nat) (swap : Bool) (v : Word64) : BitVec 128 :=
  overlay (u.memRead 1 (b * 4096 + off / 16)) (off % 16) (leBytes 8 (if swap then v else u.atomicOld b off + v).toNat)

theorem exec_pantryAtomic (hup : s.up = true) (h : ¬(8 < m ∨ off % 8 ≠ 0 ∨ 65536 ≤ off)) :
    let u := (s.count 7 0 5 st).count 7 0 6 wh
    exec (.pantryAtomic m b off swap v st wh) s =
      .next ((u.memWrite 1 (b.val * 4096 + off / 16) (u.atomicNew b.val off swap v)).rackOk (leBytes 8 (u.atomicOld b.val off).toNat)) :=
  (whenUp_of_up hup).trans (congrArg _ (if_neg h))
end

/-! ### Whisk (R547 to R551) -/

/-- Whisk takes no region of memory `m` now. -/
def State.whiskIdle (s : State) (m : Nat) : Prop :=
  s.whiskOn m = false ∨ (s.whisk m).starts = 0 ∨ (s.whisk m).held ≠ none ∨ (3 ≤ m ∧ s.oos (m - 3) = true ∧ (s.stack (m - 3)).testing = false)

/-- The next region of memory `m` in the save copy. -/
def State.whiskTaken (s : State) (m : Nat) : State :=
  s.setWhisk m { s.whisk m with
    held := some (s.whisk m).nextRegion
    starts := (s.whisk m).starts - 1
    nextRegion := ((s.whisk m).nextRegion + 1) % whiskRegions m
    save := s.saveRegion m (s.whisk m).nextRegion }

section
variable {s : State} {m : Fin 9}

theorem exec_whiskRegionStart_idle (hup : s.up = true) (h : s.whiskIdle m.val) : exec (.whiskRegionStart m) s = .next s :=
  (whenUp_of_up hup).trans (congrArg _ (if_pos (by simpa only [State.whiskIdle, Option.isSome_iff_ne_none] using h)))

/-- A Cave region also raises its bursts at the arbiter. -/
theorem exec_whiskRegionStart (hup : s.up = true) (h : ¬s.whiskIdle m.val) : ∃ c, exec (.whiskRegionStart m) s =
    .next (if 3 ≤ m.val then { s.whiskTaken m.val with col := c } else s.whiskTaken m.val) := by
  have hidle : ¬(s.whiskOn m.val = false ∨ (s.whisk m.val).starts = 0 ∨ (s.whisk m.val).held.isSome = true ∨
      (3 ≤ m.val ∧ s.oos (m.val - 3) = true ∧ (s.stack (m.val - 3)).testing = false)) := by
    simpa only [State.whiskIdle, Option.isSome_iff_ne_none] using h
  exact ⟨_, (whenUp_of_up hup).trans (congrArg _ (if_neg hidle))⟩

theorem exec_whiskRegionEnd_unheld (hup : s.up = true) (f : Bool) (h : (s.whisk m.val).held = none) :
    exec (.whiskRegionEnd m f) s = .next s := by
  refine (whenUp_of_up hup).trans (congrArg _ ?_)
  rw [h]

theorem exec_whiskRegionEnd_busy {r : Nat} (hup : s.up = true) (f : Bool) (h : (s.whisk m.val).held = some r)
    (hb : 3 ≤ m.val ∧ s.whiskBusy (m.val - 3) = true) : exec (.whiskRegionEnd m f) s = .next s := by
  refine (whenUp_of_up hup).trans (congrArg _ ?_)
  rw [h]
  exact if_pos hb

theorem exec_whiskRegionEnd {r : Nat} (hup : s.up = true) (f : Bool) (h : (s.whisk m.val).held = some r)
    (hb : ¬(3 ≤ m.val ∧ s.whiskBusy (m.val - 3) = true)) :
    let t := (s.restoreRegion m.val).count 5 0 (2 * m.val) 1
    let x := if f then t.whiskFault m.val r else t
    exec (.whiskRegionEnd m f) s = .next (if r + 1 = whiskRegions m.val then x.passEnd m.val else x) := by
  refine (whenUp_of_up hup).trans (congrArg _ ?_)
  rw [h]
  exact if_neg hb
end

/-- Settles O59: an access through its path to its target and there to a word, the banks and atomics through the same words, and
Whisk through the region it holds. -/
theorem rackPantryWhisk : Obligations.RackPantryWhisk := by
  unfold Obligations.RackPantryWhisk
  refine ⟨fun q s hup => ⟨exec_rackAccess_restarting hup, fun hf => ⟨exec_rackAccess_barred hup hf, fun hb => ?access⟩⟩,
    fun m t w s => ⟨s.rackError_mem m t w, fun h => ?recorded, State.rackError_rck_recorded m t w⟩,
    fun m b n s hup => ⟨fun h hn => ?owner, exec_pantryOwnerWrite_refused hup⟩,
    fun m b off swap v st wh s hup => ⟨exec_pantryAtomic_refused hup, fun hm ho hl => ?atomic⟩,
    fun m s hup => ⟨exec_whiskRegionStart_idle hup, fun h => ?start, fun h f => exec_whiskRegionEnd_unheld hup f h,
      fun r h f => ⟨fun h3 hb => exec_whiskRegionEnd_busy hup f h ⟨h3, hb⟩, exec_whiskRegionEnd hup f h⟩⟩⟩
  case access =>
    have hx : exec (.rackAccess q) s = .next ((s.rackCounted q).rackServe q) := exec_rackAccess_served hup hf hb
    refine ⟨fun h0 => hx.trans (congrArg _ (if_pos h0)), fun h6 => hx.trans (congrArg _ (State.rackServe_mailboxes h6)),
      fun h4 => hx.trans (congrArg _ (State.rackServe_tables h4)), fun h5 => hx.trans (congrArg _ (State.rackServe_diag h5)),
      fun h1 h3 hm => ?_⟩
    have hmem := hx.trans (congrArg Host.Outcome.next (State.rackServe_memory h1 h3))
    refine ⟨fun hw => hmem.trans (congrArg _ (State.memAccess_read hm hw)),
      fun hw h1 ho => hmem.trans (congrArg _ (State.memAccess_foreign hm hw h1 ho)), fun hw ho =>
        ⟨hmem.trans (congrArg _ (State.memAccess_write hm hw ho)), ?_⟩⟩
    exact State.memRead_memWrite _ _ _ _
  case recorded =>
    rw [State.rackError_rck m t w h]
    exact ⟨rfl, rfl⟩
  case owner =>
    exact ⟨_, exec_pantryOwnerWrite hup ⟨h, hn⟩, Tab.look_put_self _ _ _ _, fun k hk => Tab.look_put_of_ne _ _ _ _ hk, rfl⟩
  case atomic =>
    have hfits : ¬(8 < m ∨ off % 8 ≠ 0 ∨ 65536 ≤ off) := by omega
    exact ⟨exec_pantryAtomic hup hfits, State.memRead_memWrite _ _ _ _⟩
  case start =>
    obtain ⟨c, hx⟩ := exec_whiskRegionStart hup h
    refine ⟨_, hx, ?_⟩
    split
    · next h3 =>
      exact ⟨State.setWhisk_self s m.val _, fun k hk => State.setWhisk_of_ne s _ hk, rfl, fun h => absurd h3 (Nat.not_le.mpr h)⟩
    · exact ⟨State.setWhisk_self s m.val _, fun k hk => State.setWhisk_of_ne s _ hk, rfl, fun _ => rfl⟩

end Sys2Proof.Machine

/-! PROOFS. Kicks, doorbell reads, fetches and the taking of descriptors (R425 to R444). -/
namespace Sys2Proof.Machine

/-! ### Kicks and polls (R437, R438, R444) -/

/-- The doorbell of ring set `r` may be written so by queue pair `q`. -/
def State.doorbellFits (s : State) (q : Nat) (k : Word) (a n : Nat) : Prop :=
  (s.qp q).rkey = k ∧ 0x20000000 ≤ a ∧ a < 0x20000080 ∧ a % 8 = 0 ∧ n = 8 ∧ (s.ring ((a - 0x20000000) / 8)).st ≠ .unbound ∧
  (s.ring ((a - 0x20000000) / 8)).prin = (s.qp q).prin ∧ ((s.port (s.qp q).port).mode = 1 → q = 0 ∧ (a - 0x20000000) / 8 = 0)

section
variable {s : State} {q : Nat} {k : Word} {a n : Nat}

theorem State.doorbell_unserved (h : (s.qp q).bound = false ∨ (s.port (s.qp q).port).mode = 0) : s.doorbell q k a n = s :=
  if_pos (by simpa using h)

theorem State.doorbellFits_iff : s.doorbellFits q k a n ↔ ¬((s.qp q).rkey ≠ k ∨ a < 0x20000000 ∨ a ≥ 0x20000080 ∨ a % 8 ≠ 0 ∨ n ≠ 8 ∨
    (s.ring ((a - 0x20000000) / 8)).st = .unbound ∨ (s.ring ((a - 0x20000000) / 8)).prin ≠ (s.qp q).prin ∨
    ((s.port (s.qp q).port).mode = 1 ∧ (q ≠ 0 ∨ (a - 0x20000000) / 8 ≠ 0))) := by
  unfold State.doorbellFits
  simp only [not_or, not_and, not_not, ne_eq, Nat.not_lt, Nat.not_le, ge_iff_le]

theorem State.doorbell_kicked (hb : (s.qp q).bound = true) (hm : (s.port (s.qp q).port).mode ≠ 0) (h : s.doorbellFits q k a n) :
    s.doorbell q k a n = ((s.kickRing ((a - 0x20000000) / 8)).count 3 ((a - 0x20000000) / 8) 4 1).answer q .ack :=
  (if_neg (by simp [hb, hm])).trans (if_neg (State.doorbellFits_iff.mp h))

theorem State.doorbell_refused (hb : (s.qp q).bound = true) (hm : (s.port (s.qp q).port).mode ≠ 0) (h : ¬s.doorbellFits q k a n) :
    s.doorbell q k a n = s.answer q .nak :=
  (if_neg (by simp [hb, hm])).trans (if_pos (not_not.mp (mt State.doorbellFits_iff.mpr h)))
end

theorem State.readDoorbell_issued {s : State} {r : Nat} (h : (s.ring r).dbRead = false) : s.readDoorbell r =
    ((s.setRing r { s.ring r with dbRead := true, kicked := false }).issue r
      ⟨.doorbell r, (s.ring r).dbAddr, (s.ring r).hkeys.getD 3 0, [], 16⟩).count 3 r 5 1 := if_neg (by simp [h])

theorem State.readDoorbell_noted {s : State} {r : Nat} (h : (s.ring r).dbRead = true) :
    s.readDoorbell r = s.setRing r { s.ring r with kickAgain := true, kicked := false } := if_pos h

/-! ### The record's indices (R427, R438, R440, R443) -/

/-- The READ of the record is done, its consumer indices stand, and consumed completions leave the journal. -/
def State.recordRead (s : State) (r b c : Nat) : State :=
  let x := s.ring r
  ((s.doneOp r (fun o => o.kind = .doorbell r)).setRing r { x with
    dbRead := false
    cmpCons := min (idxFrom x.cmpCons b) x.cmpProd
    evtCons := min (idxFrom x.evtCons c) x.evtProd }).pruneJournal r

/-- A ring that its producer index halted is no longer so. -/
def Ring.relieved (x : Ring) : Ring := if decide (x.st = .halted) && decide (x.cause = 5) then { x with st := .open_, cause := 0, dirty := true } else x

/-- The producer index is taken over, or halts the ring. -/
def State.producerTaken (v : State) (r prod cons size : Nat) : State :=
  if size < prod - cons then v.halt r 5
  else v.setRing r { (v.ring r).relieved with cmdProd := max prod (v.ring r).relieved.takeIdx }

/-- What follows new indices: pauses, the next fetch, and another READ where a kick came meanwhile. -/
def State.indicesFollowed (v : State) (r : Nat) : State :=
  let s := v.refreshBusy r
  let s := if (s.ring r).cause = 5 then s else s.fetchNow r
  if (s.ring r).kickAgain then (s.setRing r { s.ring r with kickAgain := false }).readDoorbell r else s

theorem exec_doorbellReadDone {r : Fin 16} {s : State} (a b c : Nat) (hf : s.fw = true) (hd : (s.ring r).dbRead = true) :
    exec (.doorbellReadDone r a b c) s = .next (((s.recordRead r b c).producerTaken r (idxFrom (s.ring r).cmdCons a) (s.ring r).cmdCons
      (s.ring r).cmdSize).indicesFollowed r) := congrArg Host.Outcome.next (if_pos ⟨hf, hd⟩)

theorem exec_doorbellReadDone_idle {r : Fin 16} {s : State} (a b c : Nat) (h : s.fw = false ∨ (s.ring r).dbRead = false) :
    exec (.doorbellReadDone r a b c) s = .next s :=
  congrArg Host.Outcome.next (if_neg (by rcases h with h | h <;> simp [h]))

/-- The consumed completions of a ring set: commands whose completion's slot lies before `cons`. -/
theorem State.pruneJournal_mem (s : State) (r : Nat) (j : Nat × JEntry) : j ∈ (s.pruneJournal r).mgp.journal ↔ j ∈ s.mgp.journal ∧
    ¬(j.2.ring = r ∧ j.2.origin = .ring ∧ j.2.posted = true ∧ ∃ k, j.2.slot = some k ∧ k < (s.ring r).cmpCons) := by
  unfold State.pruneJournal
  simp only [List.mem_filter]
  refine and_congr_right fun _ => ?_
  cases j.2.slot with
  | none => simp
  | some k => simp [imp_iff_not_or, or_assoc]

theorem State.recordRead_ring (s : State) (r b c : Nat) : (s.recordRead r b c).ring r = { s.ring r with
    dbRead := false, cmpCons := min (idxFrom (s.ring r).cmpCons b) (s.ring r).cmpProd
    evtCons := min (idxFrom (s.ring r).evtCons c) (s.ring r).evtProd } := State.setRing_self _ _ _

theorem State.recordRead_takeIdx (s : State) (r b c : Nat) : ((s.recordRead r b c).ring r).takeIdx = (s.ring r).takeIdx := by
  unfold Ring.takeIdx
  rw [s.recordRead_ring]

theorem State.recordRead_mem (s : State) (r b c : Nat) (j : Nat × JEntry) : j ∈ (s.recordRead r b c).mgp.journal ↔ j ∈ s.mgp.journal ∧
    ¬(j.2.ring = r ∧ j.2.origin = .ring ∧ j.2.posted = true ∧ ∃ k, j.2.slot = some k ∧ k < ((s.recordRead r b c).ring r).cmpCons) :=
  State.pruneJournal_mem _ r j

/-- What the producer index and what follows it leave of a ring set: the host's consumer indices. -/
def Ring.consumed (x : Ring) : Nat × Nat := (x.cmpCons, x.evtCons)

/-- The READ under way, and whether another one is to follow. -/
def Ring.reading (x : Ring) : Bool × Bool := (x.dbRead, x.kickAgain)

/-- The descriptors at hand and the producer index. -/
def Ring.supply (x : Ring) : List Desc × Nat := (x.fetch, x.cmdProd)

theorem Ring.relieved_eq (x : Ring) : ∃ a b, x.relieved = { x with st := a, cause := if x.st = .halted ∧ x.cause = 5 then 0 else x.cause, dirty := b } ∧
    (a = .halted ↔ x.st = .halted ∧ x.cause ≠ 5) := by
  unfold Ring.relieved
  by_cases h : x.st = .halted ∧ x.cause = 5
  · rw [if_pos (by simp [h]), if_pos h]
    exact ⟨.open_, true, rfl, by simp [h]⟩
  · rw [if_neg (by simpa using h), if_neg h]
    refine ⟨x.st, x.dirty, rfl, fun hs => ⟨hs, fun hc => h ⟨hs, hc⟩⟩, And.left⟩

theorem State.producerTaken_halted {v : State} {r prod cons size : Nat} (h : size < prod - cons) :
    ((v.producerTaken r prod cons size).ring r).st = .halted ∧ ((v.producerTaken r prod cons size).ring r).cause = 5 ∧
    ((v.producerTaken r prod cons size).ring r).supply = ([], (v.ring r).cmdProd) := by
  unfold State.producerTaken
  rw [if_pos h]
  have hring := (v.halt_ring r 5).1
  exact ⟨congrArg Ring.st hring, congrArg Ring.cause hring, congrArg Ring.supply hring⟩

theorem State.producerTaken_taken {v : State} {r prod cons size : Nat} (h : ¬size < prod - cons) :
    (((v.producerTaken r prod cons size).ring r).st = .halted ↔ (v.ring r).st = .halted ∧ (v.ring r).cause ≠ 5) ∧
    ((v.producerTaken r prod cons size).ring r).supply = ((v.ring r).fetch, max prod (v.ring r).takeIdx) := by
  obtain ⟨st, dirty, hx, hst⟩ := (v.ring r).relieved_eq
  unfold State.producerTaken
  rw [if_neg h, State.setRing_self, hx]
  exact ⟨hst, rfl⟩

theorem State.producerTaken_frame (v : State) (r prod cons size : Nat) :
    ((v.producerTaken r prod cons size).ring r).consumed = (v.ring r).consumed ∧
    ((v.producerTaken r prod cons size).ring r).reading = (v.ring r).reading ∧
    (v.producerTaken r prod cons size).mgp.journal = v.mgp.journal := by
  unfold State.producerTaken
  split
  · obtain ⟨hring, hjournal, -⟩ := v.halt_ring r 5
    exact ⟨(congrArg Ring.consumed hring).trans rfl, (congrArg Ring.reading hring).trans rfl, hjournal⟩
  · obtain ⟨st, dirty, hx, -⟩ := (v.ring r).relieved_eq
    rw [State.setRing_self, hx]
    exact ⟨rfl, rfl, rfl⟩

/-- The next fetch and another READ leave what the ring set is and holds. -/
theorem State.indicesFollowed_frame (v : State) (r : Nat) :
    ((v.indicesFollowed r).ring r).consumed = (v.ring r).consumed ∧ ((v.indicesFollowed r).ring r).supply = (v.ring r).supply ∧
    (v.indicesFollowed r).mgp.journal = v.mgp.journal ∧
    ((v.ring r).st = .halted → ((v.indicesFollowed r).ring r).st = .halted ∧ ((v.indicesFollowed r).ring r).cause = (v.ring r).cause) ∧
    ((v.ring r).st ≠ .halted → ((v.indicesFollowed r).ring r).st ≠ .halted) ∧
    ((v.ring r).reading = (false, false) → ((v.indicesFollowed r).ring r).dbRead = false) := by
  obtain ⟨hbusy, hhalted, hopen, hj, -⟩ := v.refreshBusy_ring r
  unfold State.indicesFollowed
  dsimp only
  generalize v.refreshBusy r = w at hbusy hhalted hopen hj
  have hfetch : ∃ n, (if (w.ring r).cause = 5 then w else w.fetchNow r).ring r = { w.ring r with fetching := n } ∧
      (if (w.ring r).cause = 5 then w else w.fetchNow r).mgp.journal = w.mgp.journal := by
    split
    · exact ⟨_, rfl, rfl⟩
    · exact ⟨_, (w.fetchNow_ring r).1, (w.fetchNow_ring r).2.1⟩
  obtain ⟨n, hfetch, hfj⟩ := hfetch
  generalize (if (w.ring r).cause = 5 then w else w.fetchNow r) = x at hfetch hfj
  have hread : ∃ a b c, (if (x.ring r).kickAgain then (x.setRing r { x.ring r with kickAgain := false }).readDoorbell r else x).ring r =
        { x.ring r with dbRead := a, kickAgain := b, kicked := c } ∧
      (if (x.ring r).kickAgain then (x.setRing r { x.ring r with kickAgain := false }).readDoorbell r else x).mgp.journal = x.mgp.journal ∧
      ((x.ring r).reading = (false, false) → a = false) := by
    split
    · next hk =>
      obtain ⟨hring, hjournal⟩ := (x.setRing r { x.ring r with kickAgain := false }).readDoorbell_ring r
      rw [State.setRing_self] at hring
      refine ⟨_, _, _, hring, hjournal, fun h => ?_⟩
      cases (Prod.mk.inj h).2.symm.trans hk
    · exact ⟨_, _, _, rfl, rfl, fun h => (Prod.mk.inj h).1⟩
  obtain ⟨a, b, c, hread, hrj, hdb⟩ := hread
  generalize (if (x.ring r).kickAgain then (x.setRing r { x.ring r with kickAgain := false }).readDoorbell r else x) = y at hread hrj
  rw [hread, hfetch]
  refine ⟨(congrArg Ring.consumed hbusy).trans rfl, (congrArg Ring.supply hbusy).trans rfl, hrj.trans (hfj.trans hj), fun h => ?_, hopen, fun h => hdb ?_⟩
  · rw [hhalted h]
    exact ⟨h, rfl⟩
  · rw [hfetch]
    exact ((congrArg Ring.reading hbusy).trans rfl).trans h

/-- What the record's indices make of a ring set whose READ is done. -/
theorem State.recordFollowed_frame (v : State) (r prod cons size : Nat) : let u := (v.producerTaken r prod cons size).indicesFollowed r
    (u.ring r).consumed = (v.ring r).consumed ∧ ((v.ring r).reading = (false, false) → (u.ring r).dbRead = false) ∧
    u.mgp.journal = v.mgp.journal ∧
    (size < prod - cons →
      (u.ring r).st = .halted ∧ (u.ring r).cause = 5 ∧ (u.ring r).fetch = [] ∧ (u.ring r).cmdProd = (v.ring r).cmdProd) ∧
    (prod - cons ≤ size → (u.ring r).cmdProd = max prod (v.ring r).takeIdx ∧ (u.ring r).fetch = (v.ring r).fetch ∧
      ((u.ring r).st = .halted ↔ (v.ring r).st = .halted ∧ (v.ring r).cause ≠ 5)) := by
  obtain ⟨hcons, hreading, hj⟩ := v.producerTaken_frame r prod cons size
  have hhalt := State.producerTaken_halted (v := v) (r := r) (prod := prod) (cons := cons) (size := size)
  have htake := State.producerTaken_taken (v := v) (r := r) (prod := prod) (cons := cons) (size := size)
  dsimp only
  generalize v.producerTaken r prod cons size = w at hcons hreading hj hhalt htake
  obtain ⟨hcons', hsupply, hj', hhalted, hopen, hdb⟩ := w.indicesFollowed_frame r
  refine ⟨hcons'.trans hcons, fun hk => hdb (hreading.trans hk), hj'.trans hj, fun hover => ?_, fun hfit => ?_⟩
  · obtain ⟨hst, hcause, hsup⟩ := hhalt hover
    obtain ⟨hst', hcause'⟩ := hhalted hst
    obtain ⟨hf, hp⟩ := Prod.mk.inj (hsupply.trans hsup)
    exact ⟨hst', hcause'.trans hcause, hf, hp⟩
  · obtain ⟨hst, hsup⟩ := htake (Nat.not_lt.mpr hfit)
    obtain ⟨hf, hp⟩ := Prod.mk.inj (hsupply.trans hsup)
    refine ⟨hp, hf, Iff.trans ⟨fun h => ?_, fun h => (hhalted h).1⟩ hst⟩
    exact not_not.mp fun hn => hopen hn h

/-! ### The descriptors of a fetch (R438, R440) -/

/-- The operation fetches descriptors of ring set `r`. -/
def RdmaOp.fetches (r : Nat) (o : RdmaOp) : Bool := match o.kind with | .descs k _ _ => decide (k = r) | _ => false

/-- The index at which the fetch in flight began. -/
def State.fetchStart (s : State) (r : Nat) : Nat :=
  match ((s.qp (s.ring r).qpLo).ops ++ (s.qp (s.ring r).qpHi).ops).find? (RdmaOp.fetches r) with
  | some o => (match o.kind with | .descs _ i _ => i | _ => 0)
  | none => 0

/-- What of a fetch goes into the buffer: nothing where a halt has overtaken it. -/
def State.fetched (s : State) (r : Nat) (ds : List Desc) : List Desc :=
  if s.fetchStart r = (s.ring r).fetchIdx then ds.take (s.ring r).fetching else []

/-- The fetch is done and its descriptors are in the buffer. -/
def State.buffered (s : State) (r : Nat) (ds : List Desc) : State :=
  (s.doneOp r (RdmaOp.fetches r)).setRing r { s.ring r with
    fetching := 0, fetch := (s.ring r).fetch ++ s.fetched r ds, fetchIdx := (s.ring r).fetchIdx + (s.fetched r ds).length }

theorem exec_descriptorFetchDone {r : Fin 16} {s : State} (ds : List Desc) (hf : s.fw = true) (hn : (s.ring r).fetching ≠ 0) :
    exec (.descriptorFetchDone r ds) s = .next ((s.buffered r ds).fetchMore r) := congrArg Host.Outcome.next (if_pos ⟨hf, hn⟩)

theorem exec_descriptorFetchDone_idle {r : Fin 16} {s : State} (ds : List Desc) (h : s.fw = false ∨ (s.ring r).fetching = 0) :
    exec (.descriptorFetchDone r ds) s = .next s := congrArg Host.Outcome.next (if_neg (by rcases h with h | h <;> simp [h]))

theorem State.fetchStart_of_find {s : State} {r i m k : Nat} {o : RdmaOp}
    (h : ((s.qp (s.ring r).qpLo).ops ++ (s.qp (s.ring r).qpHi).ops).find? (RdmaOp.fetches r) = some o) (ho : o.kind = .descs k i m) :
    s.fetchStart r = i := by
  unfold State.fetchStart
  rw [h]
  dsimp only
  rw [ho]

/-- The buffer with what the fetch brought, and the same EXPECT and journal. -/
theorem State.fetchDone_frame (s : State) (r : Nat) (ds : List Desc) : let u := (s.buffered r ds).fetchMore r
    (u.ring r).expect = (s.ring r).expect ∧ u.mgp.journal = s.mgp.journal ∧ (u.ring r).fetch = (s.ring r).fetch ++ s.fetched r ds ∧
    (u.ring r).fetchIdx = (s.ring r).fetchIdx + (s.fetched r ds).length := by
  obtain ⟨hring, hjournal, -⟩ := (s.buffered r ds).fetchMore_ring r
  have hself : (s.buffered r ds).ring r = _ := State.setRing_self _ _ _
  rw [hself] at hring
  exact ⟨(congrArg Ring.expect hring).trans rfl, hjournal, (congrArg Ring.fetch hring).trans rfl, (congrArg Ring.fetchIdx hring).trans rfl⟩

/-! ### The checks of a descriptor (R439) -/

section
variable {x : Ring} {r : Nat} {d : Desc}

/-- The tag of a descriptor does not fit the key of its serial. -/
def Ring.badTag (x : Ring) (r : Nat) (d : Desc) : Prop := ∃ k, x.keyFor d.serial = some k ∧ d.tag ≠ Config.gmac k (tagIv r 0 d.serial) (descBytes d)

theorem Ring.check_tagged (hr : d.ring = r) (hs : d.serial = x.expect) (h : x.badTag r d) : x.check r d = 3 := by
  obtain ⟨k, hk, ht⟩ := h
  unfold Ring.check
  rw [if_neg (not_not.mpr hr), if_neg (not_not.mpr hs), hk]
  exact if_pos (decide_eq_true ht)

theorem Ring.check_passed (hr : d.ring = r) (hs : d.serial = x.expect) (h : ¬x.badTag r d) :
    x.check r d = if d.opcode ∈ opcodes then 0 else 4 := by
  unfold Ring.check
  rw [if_neg (not_not.mpr hr), if_neg (not_not.mpr hs)]
  refine (if_neg ?_).trans (ite_not ..)
  cases hk : x.keyFor d.serial with
  | none => exact Bool.false_ne_true
  | some k => exact fun ht => h ⟨k, hk, of_decide_eq_true ht⟩
end

/-! ### Journaling a descriptor (R405, R439) -/

/-- The journal's entry of a descriptor that is journaled now. -/
def State.entryOf (s : State) (r : Nat) (d : Desc) (b : Option Batch) (ok : Bool) : JEntry :=
  { ring := r, prin := (s.ring r).prin, d := d, batch := b, batchOk := ok, j := s.clk.tick, jtn := s.tnNow
    recTn := if s.cal.role = .active then some s.tnNow else none }

/-- A journaled descriptor has left the buffer, EXPECT has advanced, and the next fetch may be under way. -/
theorem State.journalCmd_frame (s : State) (r : Nat) (d : Desc) (b : Option Batch) (ok : Bool) : let u := (s.journalCmd r d b ok).fetchMore r
    (u.ring r).fetch = (s.ring r).fetch.drop 1 ∧ (u.ring r).batchWait = false ∧ (u.ring r).expect = (s.ring r).expect + 1 ∧
    u.mgp.journal = s.mgp.journal ++ [(s.mgp.nextH, s.entryOf r d b ok)] ∧ u.clk = s.clk ∧ u.mgp.rr = s.mgp.rr := by
  obtain ⟨hring, hjournal, -, hrr, hclk⟩ := (s.journalCmd r d b ok).fetchMore_ring r
  have hself : (s.journalCmd r d b ok).ring r =
      { s.ring r with expect := (s.ring r).expect + 1, fetch := (s.ring r).fetch.drop 1, batchWait := false, dirty := true } :=
    (State.ring_congr (congrArg Mgp.ring (State.recd_mgp _ _)) r).trans (State.setRing_self _ _ _)
  rw [hself] at hring
  exact ⟨(congrArg Ring.fetch hring).trans rfl, (congrArg Ring.batchWait hring).trans rfl, (congrArg Ring.expect hring).trans rfl,
    hjournal.trans ((congrArg Mgp.journal (State.recd_mgp _ _)).trans rfl), hclk.trans ((State.recd_clk _ _).trans rfl),
    hrr.trans ((congrArg Mgp.rr (State.recd_mgp _ _)).trans rfl)⟩

/-! ### DESCRIPTOR_TAKE (R439, R440, R497) -/

/-- Ring set `k` is the one served, and one more descriptor of the tick is used. -/
def State.served (t : State) (k : Nat) : State :=
  { t with clk := { t.clk with takeUsed := t.clk.takeUsed + 1 }, mgp := { t.mgp with rr := k } }

theorem exec_descriptorTake (s : State) : exec .descriptorTake s = .next ((List.range 16).foldl State.refreshBusy s).takeNext := rfl

theorem State.takeNext_none {t : State} (h : 4 ≤ t.clk.takeUsed ∨ t.nextRing = none) : t.takeNext = t := by
  unfold State.takeNext
  split
  · rfl
  · next hu => rw [h.resolve_left hu]

theorem State.takeNext_some {t : State} {k : Nat} (hu : t.clk.takeUsed < 4) (hk : t.nextRing = some k) :
    t.takeNext = (t.served k).takeFrom k := by
  unfold State.takeNext
  rw [if_neg (Nat.not_le.mpr hu), hk]
  rfl

/-- A slot that passes changes of its ring set whether and why it is halted. -/
theorem State.resumeRing_frame (s : State) (r : Nat) : ∃ m, s.resumeRing r = { s with mgp := m } ∧ m.journal = s.mgp.journal ∧
    m.nextH = s.mgp.nextH ∧ m.rr = s.mgp.rr ∧
    ∃ a b c, (s.resumeRing r).ring r = { s.ring r with st := a, cause := b, dirty := c } := by
  by_cases h : (s.ring r).st = .halted
  · have hres : s.resumeRing r = s.setRing r { s.ring r with st := .open_, cause := 0, dirty := true } := if_pos h
    rw [hres]
    exact ⟨_, rfl, rfl, rfl, rfl, _, _, _, State.setRing_self _ _ _⟩
  · have hres : s.resumeRing r = s := if_neg h
    rw [hres]
    exact ⟨_, rfl, rfl, rfl, rfl, _, _, _, rfl⟩

section
variable {s : State} {k : Nat} {d : Desc} {l : List Desc}

theorem State.takeFrom_halted (hl : (s.ring k).fetch = d :: l) (hc : (s.ring k).check k d ≠ 0) :
    s.takeFrom k = s.halt k ((s.ring k).check k d) := by
  unfold State.takeFrom
  rw [hl]
  exact if_pos hc

theorem State.takeFrom_waiting (hl : (s.ring k).fetch = d :: l) (hc : (s.ring k).check k d = 0) (hb : (descHasBatch d && descBatchRef d) = true) :
    s.takeFrom k = ((s.resumeRing k).setRing k { (s.resumeRing k).ring k with batchWait := true }).issue k
      ⟨.batch k, fld d.body 64 8, fld d.body 76 4, [], fld d.body 72 4⟩ := by
  unfold State.takeFrom
  rw [hl]
  exact (if_neg (not_not.mpr hc)).trans (if_pos hb)

theorem State.takeFrom_journaled (hl : (s.ring k).fetch = d :: l) (hc : (s.ring k).check k d = 0)
    (hb : ¬(descHasBatch d && descBatchRef d) = true) : s.takeFrom k = ((s.resumeRing k).journalCmd k d none true).fetchMore k := by
  unfold State.takeFrom
  rw [hl]
  exact (if_neg (not_not.mpr hc)).trans (if_neg hb)

/-- Whatever becomes of the descriptor, the clock and the ring set served stand. -/
theorem State.takeFrom_clk_rr (hl : (s.ring k).fetch = d :: l) : (s.takeFrom k).clk = s.clk ∧ (s.takeFrom k).mgp.rr = s.mgp.rr := by
  obtain ⟨m, hres, -, -, hrr, -⟩ := s.resumeRing_frame k
  by_cases hc : (s.ring k).check k d = 0
  · by_cases hb : (descHasBatch d && descBatchRef d) = true
    · rw [State.takeFrom_waiting hl hc hb, State.issue_clk]
      refine ⟨?_, (State.issue_mgp_parts _ _ _).2.2.2.1.trans ?_⟩
      · rw [hres]; rfl
      · rw [hres]; exact hrr
    · rw [State.takeFrom_journaled hl hc hb]
      obtain ⟨-, -, -, -, hclk, hr⟩ := (s.resumeRing k).journalCmd_frame k d none true
      rw [hclk, hr, hres]
      exact ⟨rfl, hrr⟩
  · rw [State.takeFrom_halted hl hc]
    obtain ⟨-, -, -, hr, hclk⟩ := s.halt_ring k ((s.ring k).check k d)
    exact ⟨hclk, hr⟩

/-- A descriptor with a batch waits for it. -/
theorem State.takeFrom_waiting_frame (hl : (s.ring k).fetch = d :: l) (hc : (s.ring k).check k d = 0)
    (hb : (descHasBatch d && descBatchRef d) = true) : ((s.takeFrom k).ring k).batchWait = true ∧ ((s.takeFrom k).ring k).fetch = d :: l ∧
    ((s.takeFrom k).ring k).expect = (s.ring k).expect ∧ (s.takeFrom k).mgp.journal = s.mgp.journal := by
  obtain ⟨m, hres, hj, -, -, a, b, c, hring⟩ := s.resumeRing_frame k
  rw [State.takeFrom_waiting hl hc hb]
  obtain ⟨hissue, hjournal, -⟩ := State.issue_mgp_parts ((s.resumeRing k).setRing k { (s.resumeRing k).ring k with batchWait := true }) k
    ⟨.batch k, fld d.body 64 8, fld d.body 76 4, [], fld d.body 72 4⟩
  rw [hissue, hjournal, State.setRing_self, hring]
  refine ⟨rfl, hl, rfl, ?_⟩
  show (s.resumeRing k).mgp.journal = _
  rw [hres]
  exact hj

/-- A descriptor without one is journaled. -/
theorem State.takeFrom_journaled_frame (hl : (s.ring k).fetch = d :: l) (hc : (s.ring k).check k d = 0)
    (hb : ¬(descHasBatch d && descBatchRef d) = true) : ((s.takeFrom k).ring k).fetch = l ∧
    ((s.takeFrom k).ring k).expect = (s.ring k).expect + 1 ∧
    (s.takeFrom k).mgp.journal = s.mgp.journal ++ [(s.mgp.nextH, s.entryOf k d none true)] := by
  obtain ⟨m, hres, hj, hn, -, a, b, c, hring⟩ := s.resumeRing_frame k
  obtain ⟨hfetch, -, hexpect, hjournal, -⟩ := (s.resumeRing k).journalCmd_frame k d none true
  have hentry : (s.resumeRing k).entryOf k d none true = s.entryOf k d none true := by
    unfold State.entryOf
    rw [hring, hres]
    rfl
  have hjn : (s.resumeRing k).mgp.journal = s.mgp.journal ∧ (s.resumeRing k).mgp.nextH = s.mgp.nextH := by
    rw [hres]
    exact ⟨hj, hn⟩
  rw [State.takeFrom_journaled hl hc hb, hfetch, hexpect, hjournal, hentry, hjn.1, hjn.2, hring]
  refine ⟨?_, rfl, rfl⟩
  show (s.ring k).fetch.drop 1 = l
  rw [hl]
  rfl
end

/-! ### BATCH_READ_DONE (R431, R497) -/

section
variable {s : State} {r : Fin 16} {b : Batch} {d : Desc} {l : List Desc}

theorem exec_batchReadDone_stopped (hf : s.fw = false) : exec (.batchReadDone r b) s = .next s := congrArg Host.Outcome.next (if_pos hf)

theorem exec_batchReadDone_attached (hf : s.fw = true) (hw : (s.ring r).batchWait = false) :
    exec (.batchReadDone r b) s = .next (s.attachBatch r b) := by
  refine congrArg Host.Outcome.next ((if_neg (by simp [hf])).trans ?_)
  split
  · exact if_neg (by simp [hw])
  · rfl

theorem exec_batchReadDone (hl : (s.ring r).fetch = d :: l) (hf : s.fw = true) (hw : (s.ring r).batchWait = true)
    (hn : b.bytes.length = fld d.body 72 4) : exec (.batchReadDone r b) s =
    .next (((s.doneOp r (fun o => o.kind = .batch r)).journalCmd r d (some b) ((s.ring r).batchOk r d b)).fetchMore r) := by
  refine congrArg Host.Outcome.next ((if_neg (by simp [hf])).trans ?_)
  rw [hl]
  exact if_pos ⟨hw, hn⟩
end

/-- Settles O52: a kick and a poll by their guards, the record's indices in three steps, a fetch by where it began, and a descriptor
by its check and its batch. -/
theorem ringFetch : Obligations.RingFetch := by
  unfold Obligations.RingFetch
  refine ⟨fun q k a n s hup => ⟨fun hb hm => ⟨fun h => ?kicked, fun h => ?refused⟩, fun h => ?unserved⟩, fun r s => ⟨fun hon hd => ?issued,
    fun hon hd => ?noted, fun hon => congrArg _ (if_neg hon)⟩, fun r a b c s => ⟨fun hf hd => ?record, exec_doorbellReadDone_idle a b c⟩,
    fun r ds s => ⟨fun hf hn => ?fetch, exec_descriptorFetchDone_idle ds⟩, fun s => ⟨fun h => ?none, fun k d l hu hk hl => ?take⟩,
    fun x r d => ⟨fun h => if_pos h, fun hr h => (if_neg (not_not.mpr hr)).trans (if_pos h), Ring.check_tagged, Ring.check_passed⟩,
    fun r b s => ⟨fun d l hf hl hw hn => ?batch, exec_batchReadDone_stopped, exec_batchReadDone_attached⟩⟩
  case kicked => exact (whenUp_of_up hup).trans (congrArg _ (State.doorbell_kicked hb hm h))
  case refused => exact (whenUp_of_up hup).trans (congrArg _ (State.doorbell_refused hb hm h))
  case unserved => exact (whenUp_of_up hup).trans (congrArg _ (State.doorbell_unserved h))
  case issued => exact congrArg _ ((if_pos hon).trans (State.readDoorbell_issued hd))
  case noted => exact congrArg _ ((if_pos hon).trans (State.readDoorbell_noted hd))
  case record =>
    have hring := s.recordRead_ring r b c
    obtain ⟨hcons, hdb, hj, hhalt, htake⟩ :=
      (s.recordRead r b c).recordFollowed_frame r (idxFrom (s.ring r).cmdCons a) (s.ring r).cmdCons (s.ring r).cmdSize
    have hmem := s.recordRead_mem r b c
    rw [s.recordRead_takeIdx] at htake
    rw [hring] at hcons hdb hhalt htake hmem
    obtain ⟨hcmp, hevt⟩ := Prod.mk.inj hcons
    refine ⟨_, exec_doorbellReadDone a b c hf hd, hcmp, hevt, fun hk => hdb (congrArg (Prod.mk false) hk), fun j => ?_, hhalt, htake⟩
    rw [hj, hmem, hcmp]
  case fetch =>
    obtain ⟨hexpect, hj, hfetch, hidx⟩ := s.fetchDone_frame r ds
    refine ⟨_, exec_descriptorFetchDone ds hf hn, hexpect, hj, fun o i m ho hkind => ?_⟩
    have hstart : s.fetchStart r = i := State.fetchStart_of_find ho hkind
    rw [hfetch, hidx]
    unfold State.fetched
    rw [hstart]
    refine ⟨fun h => ?_, fun h => ?_⟩
    · rw [if_pos h]
      exact ⟨rfl, rfl⟩
    · rw [if_neg h]
      exact ⟨List.append_nil _, rfl⟩
  case none => exact (exec_descriptorTake s).trans (congrArg _ (State.takeNext_none h))
  case take =>
    have hx := exec_descriptorTake s
    generalize (List.range 16).foldl State.refreshBusy s = t at hx hu hk hl ⊢
    rw [State.takeNext_some hu hk] at hx
    have hl' : ((t.served k).ring k).fetch = d :: l := hl
    obtain ⟨hclk, hrr⟩ := State.takeFrom_clk_rr hl'
    refine ⟨_, hx, hclk, hrr, fun hc => ?_, fun hc h1 h2 => ?_, fun hc hb => ?_⟩
    · obtain ⟨hring, hj, -⟩ := (t.served k).halt_ring k (((t.served k).ring k).check k d)
      rw [State.takeFrom_halted hl' hc]
      exact ⟨congrArg Ring.st hring, congrArg Ring.cause hring, congrArg Ring.fetch hring, (congrArg Ring.expect hring).trans rfl, hj⟩
    · exact State.takeFrom_waiting_frame hl' hc (by rw [h1, h2]; rfl)
    · exact State.takeFrom_journaled_frame hl' hc (by simpa using hb)
  case batch =>
    obtain ⟨hfetch, hwait, hexpect, hj, -⟩ :=
      (s.doneOp r (fun o => o.kind = .batch r)).journalCmd_frame r d (some b) ((s.ring r).batchOk r d b)
    refine ⟨_, exec_batchReadDone hl hf hw hn, hfetch.trans ?_, hwait, hexpect, hj⟩
    show (s.ring r).fetch.drop 1 = l
    rw [hl]
    rfl

end Sys2Proof.Machine
